-- ==== Sys2Proof/Word.lean ====
section
/-! DEFINITION. The word of the module (R4): 48 bits, and the small name types that syntax and state share. -/

namespace Sys2Proof

/-- The native unit of data (R4). -/
abbrev Word := BitVec 48

/-- A byte of an external interface or of the packed byte type (R4). -/
abbrev Byte := BitVec 8

/-- A core of the module (R28, R45): sixteen application cores, sixteen Frond cores, the Medulla core. -/
inductive CoreId where
  | app (i : Fin 16)
  | frond (i : Fin 16)
  | medulla
deriving DecidableEq, Repr

/-- The fabric agent number of a core (R29); it is also the interrupt target number (R293). -/
def CoreId.agent : CoreId → Fin 33
  | .app i => ⟨i.val, by omega⟩
  | .frond i => ⟨16 + i.val, by omega⟩
  | .medulla => ⟨32, by omega⟩

/-- The profile of a core (R136). -/
inductive Profile where
  | A
  | F
  | M
deriving DecidableEq, Repr

/-- The profile each core has (R45). -/
def CoreId.profile : CoreId → Profile
  | .app _ => .A
  | .frond _ => .F
  | .medulla => .M

/-- A general register number (R91). -/
abbrev Reg := Fin 32

/-- The length of an instruction (R95). -/
inductive Form where
  | short
  | long
deriving DecidableEq, Repr

/-- What a shared read is for (R381): a demand access, a speculative load or prefetch, or an instruction fetch. -/
inductive ReadFor where
  | demand
  | speculative
  | fetch
deriving DecidableEq, Repr

/-- The element sizes of a memory access (R115), with the codes of SZ. -/
inductive Size where
  | word
  | half
  | byte
  | dword
deriving DecidableEq, Repr

/-- The two floating-point formats (R130, bit P). -/
inductive Prec where
  | f48
  | s32
deriving DecidableEq, Repr

/-- Where an error of a cached or translated copy is found (R356, R366, R370): uncorrectable in a core's private state,
its tags among it; the parity of an entry of its ITLB, DTLB or L2 TLB; the bits of a cached word's container that have
flipped, in a private cache or in the L3; a tag of an L3 slice or an entry of its directory. -/
inductive ErrorSite where
  | core (c : CoreId)
  | tlb (i : Fin 16) (which : Fin 3) (n : Nat)
  | cached (agent : Fin 33) (line w : Nat) (flips : BitVec 64)
  | l3 (line w : Nat) (flips : BitVec 64)
  | slice (h : Fin 16) (dir : Bool)
deriving DecidableEq, Repr

/-- Who makes a register access (R763, R769, R691). -/
inductive Requester where
  | core (c : CoreId)
  | debug
  | pcieHost
deriving DecidableEq, Repr

/-- A direction of a ring copy (R529). -/
inductive Dir where
  | east
  | west
deriving DecidableEq, Repr

/-- What a sense channel finds up to a tick (R572 to R575): its input in nanovolts at each modulator cycle, the latest first,
where cycles before the last entry had the value of that entry; what the front end itself adds to the result, its offset and
noise, in counts; and whether the modulator overloaded. -/
structure RawSample where
  input : List Int
  added : Int
  overload : Bool
deriving DecidableEq, Repr

/-- One section of a ring frame as it stands on the wire (R533, R535, R536): its words, the fill word of a process section,
and the check word it carries. -/
structure Section where
  words : List Word
  fill : BitVec 32
  check : Word
deriving DecidableEq, Repr

/-- One message cell (R542). -/
structure Cell where
  full : Bool
  dst : Nat
  src : Nat
  chan : Nat
  seq : Nat
  words : List Word
  check : Word
deriving DecidableEq, Repr

/-- One block of a ring lane on the wire (R530): the sync header and the scrambled payload bits. -/
structure Block where
  sync : BitVec 2
  payload : Word
deriving DecidableEq, Repr

/-- What a lane received since the last LINK block (R530, R545): the 58 payload bits before, the latest in bit 0, which its
descrambler holds; the blocks; and the parity that the LINK block gives for the lane. -/
structure LaneIn where
  before : BitVec 58
  blocks : List Block
  bip : BitVec 8
deriving DecidableEq, Repr

/-- What asserts a wake source (R562, R673): its bit of PWR_WAKE_CFG, from bit 36 up, and for the ring the node address
that the pattern carries. -/
structure WakeEvent where
  bit : Fin 12
  node : Nat
deriving DecidableEq, Repr

/-- One copy of a ring frame as a node receives it (R533, R534), with the check word of its header and the nanoseconds that
its two lanes lie apart (R531). -/
structure RingFrame where
  tickCount : Word
  master : Nat
  hops : Nat
  accDelay : Nat
  acting : Bool
  wrapped : Bool
  mpassed : Bool
  narrow : Bool
  pace : Bool
  west : Bool             -- H2.DIR
  hov : Bool
  hnode : Nat
  periodNs : Nat
  values : Nat
  twins : Nat
  rtx : Nat
  headerCheck : Word
  sections : List Section
  cells : List Cell
  retrans : List (Option Section)   -- a section in a slot names its number in its check word
  skew : Nat
deriving DecidableEq, Repr

/-- What reads of the NOR meet (R72, R73, R688): the areas whose read does not complete without error, 0 and 1 the Aelnar
slots, 2 and 3 the Structure Image slots, 4 the OS loader; and the bits (area, image word, bits) that the first read of
a word in the check of its twin pair returns inverted. -/
structure NorReads where
  fails : List Nat
  flips : List (Nat × Nat × Word)
deriving DecidableEq, Repr

/-- What a start-up finds on the hardware (R72, R449, R521): the TRAIN code with which each channel fails (0: it trains),
the Sorus columns (bank, half, column) that the self-test finds failing, and what reads of the NOR meet. -/
structure StartInput where
  train : List Nat
  badColumns : List (Nat × Nat × Nat)
  nor : NorReads
deriving DecidableEq, Repr

/-- A mailbox operation that writes to the NOR (R690, R696): the port that it serves, and whether the NOR fails. -/
structure NorTurn where
  port : Fin 3
  err : Bool
deriving DecidableEq, Repr

/-- UPD_END (R699, R701), which reads the NOR as well. -/
structure EndTurn where
  port : Fin 3
  nor : NorReads
  err : Bool
deriving DecidableEq, Repr

/-- The instruction of a core that meets a silent block (R314): a word load or store of one form, a double-word load or
store, or POP or PUSH. -/
inductive DeviceForm where
  | word (f : Form)
  | dword
  | stack
deriving DecidableEq, Repr

/-- An access to a register whose block does not answer (R314): its address, its direction, and for a core the form and
the register of its load or store. -/
structure Unanswered where
  addr : Nat
  write : Bool
  form : DeviceForm
  reg : Reg
deriving DecidableEq, Repr

end Sys2Proof
end

