-- ==== Sys2Proof/Syntax.lean ====
section
/-! DEFINITION. The commands of the block: one constructor for each row of spec/opcode_table.json. A core
instruction names its core, its form where it has two (R103, R104) and its operands; a CALL also names the form of its
delay slot, which its return address depends on (R160); an event carries what came
in from outside (a measured value, a received frame, the bits a DRAM read found flipped). -/

namespace Sys2Proof

inductive Instr where
  -- register space, tick, reset (chapters 2, 8, 12, 20, 21)
  | registerWrite (rq : Requester) (addr : Nat) (v : Word)
  | tbLoRead (rq : Requester)
  | frameTick (raw : List RawSample)
  | structureRepair (addr : Nat)
  | bandwidthWindowEnd
  | counterRecordWrite
  | frameStart (g : Fin 4)
  | safeStateEntry (g : Fin 4) (cause : Nat)
  | tickHoldover
  | clockFault (d : Fin 64)
  | powerUp
  | supplyDip (ns : Nat)
  | resetN (ns : Nat)
  | debugReset
  | referenceClockReturn (ms : Nat)
  | moduleReset (cause : Nat) (inp : StartInput)
  | clusterRelease
  | stageTimeout (stage : Nat)
  -- integer operations (R108)
  | add (c : CoreId) (f : Form) (gd ga gb : Reg)
  | sub (c : CoreId) (f : Form) (gd ga gb : Reg)
  | and (c : CoreId) (f : Form) (gd ga gb : Reg)
  | or (c : CoreId) (f : Form) (gd ga gb : Reg)
  | xor (c : CoreId) (f : Form) (gd ga gb : Reg)
  | andn (c : CoreId) (f : Form) (gd ga gb : Reg)
  | sll (c : CoreId) (f : Form) (gd ga gb : Reg)
  | srl (c : CoreId) (f : Form) (gd ga gb : Reg)
  | sra (c : CoreId) (f : Form) (gd ga gb : Reg)
  | rol (c : CoreId) (f : Form) (gd ga gb : Reg)
  | slt (c : CoreId) (f : Form) (gd ga gb : Reg)
  | sltu (c : CoreId) (f : Form) (gd ga gb : Reg)
  | seq (c : CoreId) (f : Form) (gd ga gb : Reg)
  | sne (c : CoreId) (f : Form) (gd ga gb : Reg)
  | min (c : CoreId) (f : Form) (gd ga gb : Reg)
  | max (c : CoreId) (f : Form) (gd ga gb : Reg)
  | sle (c : CoreId) (f : Form) (gd ga gb : Reg)
  | sleu (c : CoreId) (f : Form) (gd ga gb : Reg)
  | minu (c : CoreId) (f : Form) (gd ga gb : Reg)
  | maxu (c : CoreId) (f : Form) (gd ga gb : Reg)
  | carry (c : CoreId) (gd ga gb : Reg)
  | absd (c : CoreId) (gd ga gb : Reg)
  | adds (c : CoreId) (gd ga gb : Reg)
  | subs (c : CoreId) (gd ga gb : Reg)
  | div (c : CoreId) (gd ga gb : Reg)
  | divu (c : CoreId) (gd ga gb : Reg)
  | rem (c : CoreId) (gd ga gb : Reg)
  | remu (c : CoreId) (gd ga gb : Reg)
  | hadd (c : CoreId) (gd ga gb : Reg)
  | hsub (c : CoreId) (gd ga gb : Reg)
  | hadds (c : CoreId) (gd ga gb : Reg)
  | hsubs (c : CoreId) (gd ga gb : Reg)
  -- immediates and bit fields (R109, R113)
  | addi (c : CoreId) (f : Form) (gd ga : Reg) (imm : BitVec 31)
  | slli (c : CoreId) (gd ga : Reg) (amt : BitVec 6)
  | srli (c : CoreId) (gd ga : Reg) (amt : BitVec 6)
  | srai (c : CoreId) (gd ga : Reg) (amt : BitVec 6)
  | roli (c : CoreId) (gd ga : Reg) (amt : BitVec 6)
  | andi (c : CoreId) (gd ga : Reg) (imm : BitVec 31)
  | ori (c : CoreId) (gd ga : Reg) (imm : BitVec 31)
  | xori (c : CoreId) (gd ga : Reg) (imm : BitVec 31)
  | movi (c : CoreId) (f : Form) (gd : Reg) (imm : BitVec 36)
  | ldih (c : CoreId) (gd : Reg) (imm : BitVec 24)
  | addpc (c : CoreId) (gd : Reg) (imm : BitVec 36)
  | extu (c : CoreId) (gd ga : Reg) (pos len : BitVec 6)
  | exts (c : CoreId) (gd ga : Reg) (pos len : BitVec 6)
  | dep (c : CoreId) (gd ga : Reg) (pos len : BitVec 6)
  | depz (c : CoreId) (gd ga : Reg) (pos len : BitVec 6)
  -- unary operations (R112)
  | mov (c : CoreId) (f : Form) (gd ga : Reg)
  | neg (c : CoreId) (f : Form) (gd ga : Reg)
  | not (c : CoreId) (f : Form) (gd ga : Reg)
  | abs (c : CoreId) (f : Form) (gd ga : Reg)
  | clz (c : CoreId) (f : Form) (gd ga : Reg)
  | ctz (c : CoreId) (f : Form) (gd ga : Reg)
  | popc (c : CoreId) (f : Form) (gd ga : Reg)
  | sxh (c : CoreId) (f : Form) (gd ga : Reg)
  | sxb (c : CoreId) (f : Form) (gd ga : Reg)
  | zxh (c : CoreId) (f : Form) (gd ga : Reg)
  | zxb (c : CoreId) (f : Form) (gd ga : Reg)
  | swph (c : CoreId) (f : Form) (gd ga : Reg)
  -- memory (R115 to R118, R202, R515)
  | push (c : CoreId) (ga : Reg)
  | pop (c : CoreId) (gd : Reg)
  | lw (c : CoreId) (gd ga : Reg) (imm : BitVec 7)
  | sw (c : CoreId) (gd ga : Reg) (imm : BitVec 7)
  | load (c : CoreId) (gd ga : Reg) (disp : BitVec 25) (sz : Size) (sel : BitVec 3) (sx : Bool)
  | store (c : CoreId) (gd ga : Reg) (disp : BitVec 25) (sz : Size) (sel : BitVec 3) (sx : Bool)
  | indexedLoad (c : CoreId) (gd ga gb : Reg) (sz : Size) (sx : Bool)
  | indexedStore (c : CoreId) (gd ga gb : Reg) (sz : Size) (sx : Bool)
  | bankLoad (c : CoreId) (n : Fin 4) (j : Fin 8) (off : BitVec 16)
  | bankStore (c : CoreId) (n : Fin 4) (j : Fin 8) (off : BitVec 16)
  | setb (c : CoreId) (n : Fin 4) (imm : BitVec 32)
  | storeBufferDrain (i : Fin 16)
  | sorusWriteBack (bank : Fin 48)
  -- floating point (R130, R133)
  | fadd (c : CoreId) (f : Form) (p : Prec) (gd ga gb : Reg)
  | fsub (c : CoreId) (f : Form) (p : Prec) (gd ga gb : Reg)
  | fmul (c : CoreId) (f : Form) (p : Prec) (gd ga gb : Reg)
  | fdiv (c : CoreId) (p : Prec) (gd ga gb : Reg)
  | fsqrt (c : CoreId) (p : Prec) (gd ga : Reg)
  | fma (c : CoreId) (p : Prec) (gd ga gb gc : Reg)
  | fms (c : CoreId) (p : Prec) (gd ga gb gc : Reg)
  | fnma (c : CoreId) (p : Prec) (gd ga gb gc : Reg)
  | fmin (c : CoreId) (f : Form) (p : Prec) (gd ga gb : Reg)
  | fmax (c : CoreId) (p : Prec) (gd ga gb : Reg)
  | feq (c : CoreId) (p : Prec) (gd ga gb : Reg)
  | flt (c : CoreId) (p : Prec) (gd ga gb : Reg)
  | fle (c : CoreId) (p : Prec) (gd ga gb : Reg)
  | fclass (c : CoreId) (p : Prec) (gd ga : Reg)
  | fneg (c : CoreId) (p : Prec) (gd ga : Reg)
  | fabs (c : CoreId) (p : Prec) (gd ga : Reg)
  | fcvtF48I (c : CoreId) (gd ga : Reg)
  | fcvtF48U (c : CoreId) (gd ga : Reg)
  | fcvtIF48 (c : CoreId) (gd ga : Reg)
  | fcvtUF48 (c : CoreId) (gd ga : Reg)
  | fcvtF48S (c : CoreId) (gd ga : Reg)
  | fcvtSF48 (c : CoreId) (gd ga : Reg)
  | fcvtF48D64 (c : CoreId) (gd ga : Reg)
  | fcvtD64F48 (c : CoreId) (gd ga : Reg)
  | fcvtIF48Z (c : CoreId) (gd ga : Reg)
  | fcvtF48H0 (c : CoreId) (gd ga : Reg)
  | fcvtF48H1 (c : CoreId) (gd ga : Reg)
  | fcvtIS (c : CoreId) (gd ga : Reg)
  | fcvtSI (c : CoreId) (gd ga : Reg)
  -- multiply unit (R139 to R148)
  | mul (c : CoreId) (f : Form) (ga gb : Reg)
  | mulu (c : CoreId) (ga gb : Reg)
  | mac (c : CoreId) (f : Form) (ga gb : Reg)
  | macu (c : CoreId) (ga gb : Reg)
  | msu (c : CoreId) (ga gb : Reg)
  | mulh (c : CoreId) (ga gb : Reg)
  | mach (c : CoreId) (ga gb : Reg)
  | mfplo (c : CoreId) (f : Form) (gd : Reg)
  | mfphi (c : CoreId) (f : Form) (gd : Reg)
  | mfpgd (c : CoreId) (gd : Reg)
  | exta (c : CoreId) (gd gb : Reg)
  | mtplo (c : CoreId) (ga : Reg)
  | mtphi (c : CoreId) (ga : Reg)
  | mtpgd (c : CoreId) (ga : Reg)
  | clra (c : CoreId)
  | multiplyUnitDue (c : CoreId)
  -- CRC, parity, bit order (R149)
  | crcb (c : CoreId) (p : Fin 2) (gd ga gb : Reg)
  | crch (c : CoreId) (p : Fin 2) (gd ga gb : Reg)
  | crcw (c : CoreId) (p : Fin 2) (gd ga gb : Reg)
  | par (c : CoreId) (gd ga : Reg)
  | parh (c : CoreId) (gd ga : Reg)
  | parb (c : CoreId) (gd ga : Reg)
  | brev8 (c : CoreId) (gd ga : Reg)
  | brev24 (c : CoreId) (gd ga : Reg)
  | brev48 (c : CoreId) (gd ga : Reg)
  -- loops, calls, atomics, special registers (chapter 4)
  | loop (c : CoreId) (ga : Reg) (off : BitVec 31)
  | lpop (c : CoreId)
  | call (c : CoreId) (f : Form) (off : BitVec 36) (slot : Form)
  | callr (c : CoreId) (f : Form) (ga : Reg) (slot : Form)
  | ret (c : CoreId) (f : Form)
  | rsw (c : CoreId) (ga gb : Reg)
  | aadd (c : CoreId) (plc : BitVec 2) (gd ga gb : Reg)
  | aswp (c : CoreId) (plc : BitVec 2) (gd ga gb : Reg)
  | acas (c : CoreId) (plc : BitVec 2) (gd ga gb gc : Reg)
  | aor (c : CoreId) (plc : BitVec 2) (gd ga gb : Reg)
  | aand (c : CoreId) (plc : BitVec 2) (gd ga gb : Reg)
  | mfsr (c : CoreId) (gd : Reg) (sr : BitVec 8)
  | mtsr (c : CoreId) (sr : BitVec 8) (ga : Reg)
  | msset (c : CoreId) (gd : Reg) (sr : BitVec 8) (ga : Reg)
  | msclr (c : CoreId) (gd : Reg) (sr : BitVec 8) (ga : Reg)
  -- branches (R234, R235, R236)
  | eqz (c : CoreId) (f : Form) (ga : Reg) (off : BitVec 31) (a h : Bool)
  | nez (c : CoreId) (f : Form) (ga : Reg) (off : BitVec 31) (a h : Bool)
  | ltz (c : CoreId) (f : Form) (ga : Reg) (off : BitVec 31) (a h : Bool)
  | gez (c : CoreId) (f : Form) (ga : Reg) (off : BitVec 31) (a h : Bool)
  | lez (c : CoreId) (f : Form) (ga : Reg) (off : BitVec 31) (a h : Bool)
  | gtz (c : CoreId) (f : Form) (ga : Reg) (off : BitVec 31) (a h : Bool)
  | bodd (c : CoreId) (f : Form) (ga : Reg) (off : BitVec 31) (a h : Bool)
  | bevn (c : CoreId) (f : Form) (ga : Reg) (off : BitVec 31) (a h : Bool)
  | beq (c : CoreId) (ga gb : Reg) (off : BitVec 25) (a h : Bool)
  | bne (c : CoreId) (ga gb : Reg) (off : BitVec 25) (a h : Bool)
  | blt (c : CoreId) (ga gb : Reg) (off : BitVec 25) (a h : Bool)
  | bge (c : CoreId) (ga gb : Reg) (off : BitVec 25) (a h : Bool)
  | bltu (c : CoreId) (ga gb : Reg) (off : BitVec 25) (a h : Bool)
  | bgeu (c : CoreId) (ga gb : Reg) (off : BitVec 25) (a h : Bool)
  | bany (c : CoreId) (ga gb : Reg) (off : BitVec 25) (a h : Bool)
  | bnone (c : CoreId) (ga gb : Reg) (off : BitVec 25) (a h : Bool)
  | dbnz (c : CoreId) (ga : Reg) (off : BitVec 7) (a h : Bool)
  | dbgz (c : CoreId) (ga : Reg) (off : BitVec 7) (a h : Bool)
  | j (c : CoreId) (off : BitVec 36)
  | jr (c : CoreId) (ga : Reg)
  -- system, barriers, cache and TLB maintenance
  | sysc (c : CoreId) (code : BitVec 12)
  | hcall (c : CoreId) (code : BitVec 12)
  | mcall (c : CoreId) (code : BitVec 12)
  | brk (c : CoreId) (code : BitVec 12)
  | retx (c : CoreId)
  | raise (c : CoreId) (ga gb : Reg)
  | fend (c : CoreId)
  | fence (c : CoreId)
  | fenceIo (c : CoreId)
  | fenceI (c : CoreId)
  | dcClean (c : CoreId) (ga : Reg)
  | dcFlush (c : CoreId) (ga : Reg)
  | dcZero (c : CoreId) (ga : Reg)
  | tlbiVa (c : CoreId) (bcast : Bool) (ga gb : Reg)
  | tlbiVaa (c : CoreId) (bcast : Bool) (ga gb : Reg)
  | tlbiAsid (c : CoreId) (bcast : Bool) (gb : Reg)
  | tlbiCtx (c : CoreId) (bcast : Bool) (gb : Reg)
  | tlbiAll (c : CoreId) (bcast : Bool)
  | tlbsync (c : CoreId)
  | tlbBroadcastReceive (issuer : Fin 16) (receiver : Fin 17)
  -- frame instructions (R477)
  | out (c : CoreId) (ga gb : Reg)
  | inb (c : CoreId) (gd ga : Reg)
  | inf (c : CoreId) (gd ga : Reg)
  | ftime (c : CoreId) (gd : Reg)
  | fnum (c : CoreId) (gd : Reg)
  | fbar (c : CoreId)
  -- core faults, interrupts, timers, watchdogs
  | machineCheck (at_ : ErrorSite)
  | checkstopRecord (c : CoreId)
  | coreReset (c : CoreId)
  | interruptSourceAssert (s : Fin 320) (line : Bool)
  | interruptEntry (c : CoreId)
  | intEoi (rq : Requester) (v : Word)
  | intSwi (rq : Requester) (v : Word)
  | intSrcStateWrite (rq : Requester) (s : Fin 320) (v : Word)
  | intSrcRouteWrite (rq : Requester) (s : Fin 320) (v : Word)
  | compareTimerFire (n : Fin 8)
  | timestampCapture (u : Fin 4) (rise : Bool)
  | tsCapPop (rq : Requester) (u : Fin 4) (v : Word)
  | wdogCtlWrite (rq : Requester) (w : Fin 36) (v : Word)
  | wdogKick (rq : Requester) (w : Fin 36) (v : Word)
  | watchdogStage1 (w : Fin 36)
  | watchdogStage2 (w : Fin 36)
  | deviceAccessTimeout (rq : Requester) (acc : Unanswered)
  | medullaWatchdogExpiry
  -- coherence messages (R382); a core's request is taken from the messages in flight; an RdS that
  -- none of its instructions waits for is a speculative load's or a fetch's, and is sent as well
  | rdS (src : Fin 33) (why : ReadFor) (line : Nat)
  | rdU (src : Fin 33) (line : Nat)
  | upg (src : Fin 33) (line : Nat)
  | rdUZ (src : Fin 33) (line : Nat)
  | rdIO (line : Nat)
  | rdNC (src : Fin 33) (line : Nat)
  | wrNC (src : Fin 33) (line : Nat)
  | wrThru (src : Fin 33) (line : Nat)
  | wrStash (line : Nat) (wmask : BitVec 8) (data : List Word) (tgt : Nat)
  | wrInv (line : Nat) (wmask : BitVec 8) (data : List Word)
  | atomF (src : Fin 33) (line : Nat)
  | clean (src : Fin 33) (line : Nat)
  | flush (src : Fin 33) (line : Nat)
  | putM (src : Fin 33) (line : Nat)
  | putE (src : Fin 33) (line : Nat)
  | putS (src : Fin 33) (line : Nat)
  | snpS (agent : Fin 33) (line : Nat)
  | snpInv (agent : Fin 33) (line : Nat)
  | snpData (agent : Fin 33) (line : Nat)
  | snpStash (agent : Fin 33) (line : Nat)
  | snpClean (agent : Fin 33) (line : Nat)
  | rspAck (agent : Fin 33) (line : Nat)
  | rspData (agent : Fin 33) (line : Nat)
  | rspEIF (agent : Fin 33) (line : Nat)
  | rspDecline (agent : Fin 33) (line : Nat)
  | cmpAck (agent : Fin 34) (line : Nat)
  | data (agent : Fin 34) (line : Nat)
  | grantU (agent : Fin 33) (line : Nat)
  | putAck (agent : Fin 33) (line : Nat)
  | cmp (agent : Fin 34) (line : Nat)
  | retry (agent : Fin 34) (line : Nat)
  | retryBackoffExpiry (agent : Fin 34) (line : Nat)
  | snoopTimeout (agent : Fin 33) (line : Nat)
  -- DRAM
  | dramReadComplete (line : Nat) (flips again : List (BitVec 64))
  | correctedWriteBack (ch : Fin 8)
  | refresh (ch : Fin 8)
  | patrolScrub (flips again : List (BitVec 64))
  | rowCopyComplete (ch : Fin 8) (k : Fin 8)
  -- Frond cluster
  | frondCoreCtlStart (rq : Requester) (c : Fin 16) (v : Word)
  | park (rq : Requester) (c : Fin 16) (v : Word)
  | release (rq : Requester) (g : Fin 4) (v : Word)
  | lockstepMismatch (p : Fin 8)
  | lockstepPairRetirement (p : Fin 8)
  | tickPeriodWrite (rq : Requester) (v : Word)
  -- sense and touch
  | senseWrite
  | cal (rq : Requester) (ch : Fin 32) (v : Word)
  | offsetCalibrationEnd (ch : Fin 32)
  | inputFault (ch : Fin 32) (outOfRange : Bool)
  | dacFault (d : Fin 8) (atLimit offVoltage : Bool) (iMa vMv : Nat)
  | senseExcCfgWrite (rq : Requester) (d : Fin 8) (v : Word)
  | senseCtlWrite (rq : Requester) (v : Word)
  | touchCtlWrite (rq : Requester) (v : Word)
  | scanStart
  | touchFrameWrite (meas : List Int) (selfRx selfTx : List Int) (noise : List Nat)
  -- Bellaos ring
  | ringFrameEmit
  | ringFrame (dir : Dir) (fr : RingFrame)
  | link (port : Fin 2) (lane0 lane1 : LaneIn) (nakv : Bool) (nakSec : Nat) (lret : BitVec 2)
  | dlyReq (port : Fin 2) (sq : BitVec 16) (turn : Nat)
  | dlyRsp (port : Fin 2) (sq : BitVec 16) (turn elapsed : Nat)
  | claim (port : Fin 2) (node : Nat) (img : Bool)
  | electionClaim
  | masterHandover
  | ringCopyLate (dir : Dir)
  | ringRxAreaStatus
  | linkDown (port : Fin 2)
  | linkTraining (port : Fin 2) (lanes : BitVec 2)
  | laneRetirement (port : Fin 2) (lane : Fin 2)
  | bypass (rq : Requester) (v : Word)
  | wakePattern (rq : Requester) (v : Word)
  | ringLayoutWrite (rq : Requester) (v : Word)
  | ringRxBaseWrite (rq : Requester) (v : Word)
  -- pinna engine
  | run (rq : Requester) (i : Fin 64)
  | stop (rq : Requester) (i : Fin 64)
  | freeze (rq : Requester) (i : Fin 64)
  | thaw (rq : Requester) (i : Fin 64)
  | save (rq : Requester) (i : Fin 64)
  | send (rq : Requester) (i : Fin 64)
  | restore (rq : Requester) (i : Fin 64)
  | mbox (rq : Requester) (i : Fin 64)
  | migrationData (node : Nat) (srcInst dstInst : Fin 64) (off : Nat) (words : List Word)
  | migrationAck (node : Nat) (srcInst dstInst : Fin 64) (off : Nat)
  | migrationClaim (node : Nat) (srcInst dstInst : Fin 64) (epoch : Nat)
  | migrationRelease (node : Nat) (srcInst dstInst : Fin 64) (epoch : Nat)
  | migrationRefuse (node : Nat) (srcInst dstInst : Fin 64) (epoch : Nat)
  | migrationResendTimeout (i : Fin 64)
  | claimTimeout (i : Fin 64)
  | pqTailWrite (rq : Requester) (i : Fin 64) (j : Nat) (v : Word)
  | pqRestart (rq : Requester) (i : Fin 64) (j : Nat) (v : Word)
  | pinnaQCfgWrite (rq : Requester) (q : Fin 256) (v : Word)
  | descriptorCompletion (q : Fin 256) (status : BitVec 8)
  | senseStreamCopy (q : Fin 256)
  -- Ethernet, CAN FD, RS-485
  | ethernetFrameReceive (port : Fin 2) (bytes : List Byte) (fcsOk : Bool)
  | ethernetFrameTransmit (port : Fin 2) (q : Fin 256)
  | gateCycleStart (port : Fin 2)
  | swap (rq : Requester) (port : Fin 2)
  | ethMdio (rq : Requester) (port : Fin 2) (v : Word)
  | ethernetLinkChange (port : Fin 2) (up : Bool)
  | canFrameReceive (n : Fin 8) (id : BitVec 29) (ide fdf brs : Bool) (bytes : List Byte)
  | canFrameTransmit (n : Fin 8)
  | busOff (n : Fin 8)
  | busOffRecovery (n : Fin 8)
  | recover (rq : Requester) (n : Fin 8)
  | uartDataWrite (rq : Requester) (u : Fin 4) (v : Word)
  | uartDataRead (rq : Requester) (u : Fin 4)
  | uartCharacterReceive (u : Fin 4) (ch : BitVec 9) (err : Bool)
  | uartCharacterTransmit (u : Fin 4)
  -- PCIe
  | pcieLinkChange (up : Bool) (width gen : Nat)
  | pcieInboundRequest (bar : Bool) (addr : Nat) (write : Bool) (len : Nat) (bytes : List Byte)
  | pcieApertureCompletion (c : CoreId) (d0 d1 : Word) (err : Bool)
  | pcieApertureTimeout (c : CoreId)
  | configRead (rq : Requester)
  | configWrite (rq : Requester)
  | configCompletion (cpl : BitVec 3) (d : BitVec 32)
  -- USB
  | usbSetup (bytes : List Byte)
  | usbBusReset
  | usbDescriptorCompletion (e : Fin 18) (bytes : List Byte) (status : BitVec 8)
  | usbEpRestart (rq : Requester) (e : Fin 18)
  | usbEpTailWrite (rq : Requester) (e : Fin 18) (v : Word)
  -- display
  | commit (rq : Requester) (v : Word)
  | verticalBlank (o : Fin 2)
  | underrun (o : Fin 2)
  | dispOutCtlWrite (rq : Requester) (o : Fin 2) (v : Word)
  | edpLinkTraining (o : Fin 2) (passed : Bool)
  | go (rq : Requester) (o : Fin 2) (v : Word)
  | xferComplete (o : Fin 2) (result : BitVec 3) (reply : List Word)
  -- DMA
  | dmaGo (rq : Requester) (n : Fin 8) (v : Word)
  | dmaChannelEnd (n : Fin 8)
  -- power
  | pwrVoteGo (rq : Requester) (v : Word)
  | forcedEntry (rq : Requester) (v : Word)
  | quiescentEntry (rq : Requester) (v : Word)
  | agree (d : Fin 64)
  | refuse (d : Fin 64) (reason : Nat)
  | voteAnswerTimeout (d : Fin 64)
  | dormantWake (d : Fin 64)
  | wakeSource (e : WakeEvent)
  | touchWakeScan (sums : List Nat)
  | quiescentExit (late : Bool) (train : List Nat)
  | clkDomFreqWrite (rq : Requester) (d : Fin 64) (v : Word)
  | pwrDomPolicyWrite (rq : Requester) (d : Fin 64) (v : Word)
  | thermalMonitorRead (die : List Int) (dram : Int)
  -- mailbox and firmware update
  | mbxCmd (rq : Requester) (port : Fin 2) (v : Word)
  | mbxAck (rq : Requester) (port : Fin 2) (v : Word)
  | resultTimeout (port : Fin 3)
  | info (port : Fin 3)
  | updBegin (m : NorTurn)
  | updBlock (m : NorTurn)
  | updEnd (m : EndTurn)
  | updAbort (port : Fin 3)
  | activate (m : NorTurn)
  | confirm (m : NorTurn)
  | reset (port : Fin 3)
  | logRead (port : Fin 3)
  | retireReport (m : NorTurn)
  | retireList (port : Fin 3)
  | retireClear (m : NorTurn)
  | userWrite (m : NorTurn)
  | sessionTimeout
  | logCopy
  -- core start and debug
  | rstCoreCtlStart (rq : Requester) (c : Fin 16) (v : Word)
  | dbgHoldWrite (rq : Requester) (v : Word)
  | undefinedEncoding (c : CoreId) (f : Form) (w : BitVec 48)
  | periodicZqRecalibration (ch : Fin 8) (outOfRange : Bool)
  | mdioFrameComplete (port : Fin 2) (d : BitVec 16)
  | usbLinkChange (vbus : Bool) (speed : BitVec 2) (susp : Bool)
  | laneBlockLockLoss (port : Fin 2) (lane : Fin 2)
  | medullaLockstepMismatch
deriving DecidableEq, Repr

end Sys2Proof
end

