-- ==== Sys2Proof/Machine/Bits.lean ====
section
/-! DEFINITION. Bit fields of a word (R6), exact conversions, the CRCs of the manual, and the sparse maps that hold
registers and memories in one canonical form. -/

namespace Sys2Proof.Machine

/-- Bits hi:lo set (R6). -/
def mask (hi lo : Nat) : Word := BitVec.ofNat 48 (2 ^ (hi + 1) - 2 ^ lo)

/-- The field hi:lo of a word, as a number (R6). -/
def fld (w : Word) (hi lo : Nat) : Nat := (w.toNat >>> lo) % 2 ^ (hi + 1 - lo)

/-- The word with its field hi:lo replaced (R6). -/
def setFld (w : Word) (hi lo v : Nat) : Word :=
  (w &&& ~~~(mask hi lo)) ||| (BitVec.ofNat 48 ((v % 2 ^ (hi + 1 - lo)) <<< lo))

/-- Bit n of a word. -/
def bit (w : Word) (n : Nat) : Bool := w.getLsbD n

/-- The word with bit n replaced. -/
def setBit (w : Word) (n : Nat) (b : Bool) : Word := setFld w n n b.toNat

/-- A word holding field hi:lo only. -/
def mk (hi lo v : Nat) : Word := setFld 0 hi lo v

/-- A number as a word, wrapping (R4). -/
abbrev w48 (n : Nat) : Word := BitVec.ofNat 48 n

/-- A truth value as the word 1 or 0. -/
def w01 (b : Bool) : Word := if b then 1 else 0

/-- A field of n bits read as a signed number. -/
def sgn (n v : Nat) : Int := if v % 2 ^ n < 2 ^ (n - 1) then (v % 2 ^ n : Int) else (v % 2 ^ n : Int) - (2 ^ n : Int)

/-- A signed number in a field of n bits, wrapping. -/
def uns (n : Nat) (v : Int) : Nat := (v % (2 ^ n : Int)).toNat

/-- A signed number clamped to n bits (saturation). -/
def clampS (n : Nat) (v : Int) : Int :=
  if v < -(2 ^ (n - 1) : Int) then -(2 ^ (n - 1) : Int)
  else if v > (2 ^ (n - 1) : Int) - 1 then (2 ^ (n - 1) : Int) - 1 else v

/-- A count that saturates at the top of an n-bit field. -/
def satN (n v : Nat) : Nat := Nat.min v (2 ^ n - 1)

/-! ## CRCs -/

/-- One bit through a CRC register of n bits, most significant bit first. -/
def crcBit (n poly reg : Nat) (b : Bool) : Nat :=
  let top := reg.testBit (n - 1) != b
  let r := (reg <<< 1) % 2 ^ n
  if top then r ^^^ poly else r

/-- The low k bits of v, most significant first, through the register. -/
def crcBits (n poly reg v : Nat) : Nat → Nat
  | 0 => reg
  | k + 1 => crcBits n poly (crcBit n poly reg (v.testBit k)) v k

/-- Reverses the low k bits of v. -/
def revBits (v : Nat) : Nat → Nat
  | 0 => 0
  | k + 1 => (v % 2) * 2 ^ k + revBits (v / 2) k

/-! ## Sparse maps -/

/-- The value listed at a key. -/
def sget {α : Type} (l : List (Nat × α)) (a : Nat) : Option α :=
  match l with
  | [] => none
  | (k, v) :: t => if k = a then some v else sget t a

/-- The list without a key. -/
def sdel {α : Type} (l : List (Nat × α)) (a : Nat) : List (Nat × α) :=
  match l with
  | [] => []
  | (k, v) :: t => if k = a then t else if a < k then (k, v) :: t else (k, v) :: sdel t a

/-- The list with a key set, keys strictly rising. -/
def sins {α : Type} (l : List (Nat × α)) (a : Nat) (v : α) : List (Nat × α) :=
  match l with
  | [] => [(a, v)]
  | (k, w) :: t => if k = a then (a, v) :: t else if a < k then (a, v) :: (k, w) :: t else (k, w) :: sins t a v

/-- What a sparse map holds at a key, given what an unlisted key holds. -/
def sread {α : Type} (d : Nat → α) (l : List (Nat × α)) (a : Nat) : α := (sget l a).getD (d a)

/-- A write that keeps the canonical form: no entry equals what an unlisted key reads as. -/
def swrite {α : Type} [DecidableEq α] (d : Nat → α) (l : List (Nat × α)) (a : Nat) (v : α) : List (Nat × α) :=
  if v = d a then sdel l a else sins l a v

/-- Keys strictly rising from a lower bound, and no entry equal to the default: the canonical form. -/
def swfFrom {α : Type} [DecidableEq α] (d : Nat → α) (lo : Nat) : List (Nat × α) → Bool
  | [] => true
  | (k, v) :: t => decide (lo ≤ k) && decide (v ≠ d k) && swfFrom d (k + 1) t

/-- The canonical form of a sparse map. -/
def swf {α : Type} [DecidableEq α] (d : Nat → α) (l : List (Nat × α)) : Bool := swfFrom d 0 l

/-- Removes every entry that satisfies p and keeps the rest in order. -/
def sdrop {α : Type} (p : Nat → Bool) (l : List (Nat × α)) : List (Nat × α) := l.filter fun e => !p e.1

/-- An association list without order: the value of the first entry with the key, else d. -/
def aget {α : Type} (l : List (Nat × α)) (k : Nat) (d : α) : α := (sget l k).getD d

/-- The first n numbers. -/
def upto (n : Nat) : List Nat := List.range n

/-- One list element replaced through f. -/
def modAt {α : Type} (l : List α) (i : Nat) (f : α → α) : List α := l.modify i f

/-- One word through the reflected CRC-32C register, byte 0 first (R535). -/
def crc32cWord (reg : Nat) (w : Word) : Nat :=
  (upto 48).foldl (fun r i => if (r % 2 = 1) != w.getLsbD i then (r / 2) ^^^ 0x82F63B78 else r / 2) reg

/-- CRC-32C of a list of words (R535). -/
def crc32c (l : List Word) : Nat := l.foldl crc32cWord 0xFFFFFFFF ^^^ 0xFFFFFFFF

/-- The words that pack a list of bytes, six in each, byte 0 lowest (R4). -/
def packBytes (l : List Byte) : List Word :=
  (upto ((l.length + 5) / 6)).map fun k =>
    (upto 6).foldl (fun w i => setFld w (8 * i + 7) (8 * i) (l.getD (6 * k + i) 0).toNat) 0

/-- The first n bytes of packed words. -/
def unpackBytes (l : List Word) (n : Nat) : List Byte :=
  (upto n).map fun i => (l.getD (i / 6) 0).extractLsb' (8 * (i % 6)) 8

end Sys2Proof.Machine
end

