-- ==== Sys2Proof/Config.lean ====
section
/-! DEFINITION. What one implementation fixes and the manual does not state: opaque constants, without a body, so
that no proof can lean on a value. Each one is named in notes/assumptions. -/

namespace Sys2Proof.Config

/-- The stepping of the part (R21, R22): the place of its letter among those of R22, and its digit. -/
opaque stepping : Fin 19 × Fin 10

/-- The key hash in OTP (R65): the SHA-384 of the public key that signs the part's images. -/
opaque otpKeyHash : BitVec 384

/-- The half-word PC that the recovery structure names for application core 0 (R733); it stands in the boot ROM. -/
opaque recoveryEntry : BitVec 36

/-- The frequencies of the recovery clock plan in the boot ROM (R75), in kHz, by domain. -/
opaque recoveryKhz : Nat → BitVec 24

/-- The words of the boot ROM (R760, R765), by word offset. -/
opaque bootRom : Nat → Word

/-- The entry that pseudo-LRU replacement chooses in a full ITLB or DTLB (R353), by the free-value counter. -/
opaque tlbVictim : Nat → Fin 48

/-- A free value of the hardware: a fresh one for each value of the state's counter. -/
opaque freeWord : Nat → Word

/-- The highest clock frequency of a domain that no chapter states (R74), in kHz. -/
opaque maxKhz : Nat → BitVec 24

/-- The two balls of a sense channel (R747): the ball map stands outside the manual. -/
opaque senseBalls : Nat → Nat × Nat

/-- The ball of a touch line, TX 0 to 47 and then RX 0 to 79 (R747). -/
opaque touchBall : Nat → Nat

/-- The group of R747 that a ball belongs to: 1 multi-function, 2 sense, 3 excitation, 4 touch, any other value: a
ball that no PAD entry may name. The ball map stands outside the manual. -/
opaque ballGroup : Nat → Nat

/-- The columns (HALF × 64 + COL) that the factory fuses of a Sorus bank replace (R520); at most four count. -/
opaque fuseColumns : Nat → List Nat

/-- Whether a quotient of the picture that is not exact is rounded up (R655, R659, R660). -/
opaque pictureUp : Nat → Nat → Bool

/-- The 12-bit level of an 8-bit component (R654). -/
opaque wide8 : BitVec 8 → BitVec 12

/-- Where in a source of n pixels a plane scaled to m takes output pixel x, in 1/4096 of a source pixel (R654). -/
opaque scaleAt : Nat → Nat → Nat → Nat

end Sys2Proof.Config
end

