-- ==== Sys2Proof/Machine/RegMap.lean ====
section
/-! DEFINITION. The register index (R764): for every register of register space its levels, the bits a write sets,
clears or sets to one, and its reset value. A field the manual marks "Image" holds zero until the image is applied
(R9). What a write does beyond its masks stands in the family of the register. -/

namespace Sys2Proof.Machine

/-- A register of register space. `wr` = 4 is the dash of R764: RO and RZ fields only. -/
structure RegInfo where
  rd : Nat
  wr : Nat
  rw : Word
  w1c : Word
  w1s : Word
  reset : Word
deriving DecidableEq, Repr

/-- A read-only register (the dash of R764) with its reset value. -/
def ro (rd : Nat) (reset : Word) : Option RegInfo := some ⟨rd, 4, 0, 0, 0, reset⟩

/-- A register of RO and RZ fields that has a write level (R13): a requester below it commits a violation. -/
def rox (rd wr : Nat) (reset : Word) : Option RegInfo := some ⟨rd, wr, 0, 0, 0, reset⟩

/-- A register with RW bits only. -/
def rwr (rd wr : Nat) (m reset : Word) : Option RegInfo := some ⟨rd, wr, m, 0, 0, reset⟩

/-- A register with RW and W1C bits. -/
def rwc (rd wr : Nat) (m c reset : Word) : Option RegInfo := some ⟨rd, wr, m, c, 0, reset⟩

/-- A register whose write only performs an action (WO); `rd` = 6 is a dash in the Read column: no level may read. R10 lets a
WO field read zero and says nothing of a log: a read of such a register returns zero and is a violation with cause 1. DESIGN
CHOICE, log entry 165. -/
def wo (rd wr : Nat) : Option RegInfo := some ⟨rd, wr, 0, 0, 0, 0⟩

/-- All 48 bits. -/
def allBits : Word := 0xFFFFFFFFFFFF

/-- The base of register space (R760). -/
def regBase : Nat := 0x800000000

/-- Sources whose trigger is a level (R291). -/
def isLevelSource (s : Nat) : Bool :=
  s = 63 || (64 ≤ s && s ≤ 161) || (186 ≤ s && s ≤ 191) || (256 ≤ s && s ≤ 295) || s = 297 || s = 305 || s = 306 ||
  s = 307 || s = 308

/-- Sources always routed to the Medulla core (R291, mark M). -/
def isMedullaSource (s : Nat) : Bool :=
  (192 ≤ s && s ≤ 208) || (212 ≤ s && s ≤ 228) || s = 230 || s = 231 || (233 ≤ s && s ≤ 235) ||
  (238 ≤ s && s ≤ 243) || s = 306 || s = 308

/-- Reserved sources (R291, R292). -/
def isReservedSource (s : Nat) : Bool := (244 ≤ s && s ≤ 255) || (311 ≤ s && s ≤ 319)

/-- The letters of stepping names, as ASCII codes, in their order (R22). -/
def stepLetters : List Nat :=
  [0x41, 0x42, 0x43, 0x44, 0x45, 0x46, 0x47, 0x48, 0x4A, 0x4B, 0x4C, 0x4D, 0x4E, 0x50, 0x54, 0x55, 0x56, 0x57, 0x59]

/-- STEP_LETTER and STEP_DIGIT: bits 15:0 of IDENT (R21). -/
def stepCode : Nat := stepLetters.getD Config.stepping.1.val 0x41 * 256 + Config.stepping.2.val

/-- Structure, identity (R21, R83 to R85). -/
def regStruct (d : Nat) : Option RegInfo :=
  if d = 0 then ro 0 (0x0A5D48160000 ||| w48 stepCode)
  else if d = 0x100 then ro 0 0 else if d = 0x101 then ro 0 0 else if d = 0x102 then ro 0 0 else none

/-- Interrupt controller (R293, R298, R299, R301, R310). A source marked M is held at TARGET 32, LVL 3, LOCK 1 (R292). -/
def regInt (d : Nat) : Option RegInfo :=
  if d < 0x140 then
    rwr 1 2 (mask 47 35 ||| mask 14 9 ||| mask 7 5 ||| mask 2 0)
      (if isMedullaSource d then mk 14 9 32 ||| mk 8 8 1 ||| mk 2 1 3 else 0)
  else if 0x200 ≤ d && d < 0x340 then
    rwc 1 1 0 1 (if isLevelSource (d - 0x200) then 0x100 else 0)
  else if 0x400 ≤ d && d < 0x540 then ro 1 0
  else if d = 0x800 then wo 6 1
  else if d = 0x801 then ro 1 0 else if d = 0x802 then ro 1 0 else if d = 0x803 then ro 2 0
  else if d = 0x804 then rwr 2 2 0xF 6
  else if d = 0x805 then wo 6 1 else none

/-- Time base, timers, capture units, watchdogs (R316, R319, R321, R323, R324). -/
def regTime (d : Nat) : Option RegInfo :=
  if d < 3 then ro 0 0
  else if 0x10 ≤ d && d < 0x18 then rwr 1 1 allBits 0
  else if 0x18 ≤ d && d < 0x20 then rwr 1 1 (mask 47 46 ||| mask 39 0) 0
  else if 0x20 ≤ d && d < 0x24 then ro 1 0
  else if 0x24 ≤ d && d < 0x28 then rwc 1 1 (mask 14 13) (mask 15 15) 0
  else if 0x28 ≤ d && d < 0x2C then wo 1 1
  else if 0x100 ≤ d && d < 0x148 then
    if d % 2 = 0 then some ⟨1, if d < 0x140 then 1 else 3, mask 31 0, 0, mask 47 46, 0⟩ else wo 6 0
  else none

/-- Coherence (R413 to R417). -/
def regCoh (d : Nat) : Option RegInfo :=
  if d = 0 then rwr 1 3 (mask 19 18 ||| mask 7 0) 0xC000A
  else if d = 1 then rox 1 3 0
  else if 0x100 ≤ d && d < 0x180 then
    if d % 8 < 5 then rwr 1 3 allBits 0 else if d % 8 = 5 then rwc 1 3 0 (mask 47 47) 0 else none
  else none

/-- Memory controllers (R451 to R459). -/
def regMem (d : Nat) : Option RegInfo :=
  if d = 0 then rwr 1 3 (mask 23 15) 0x188000
  else if d = 1 then rox 1 3 0 else if d = 2 then rox 1 3 0
  else if d = 3 then rwr 1 3 allBits 0
  else if d = 4 then rwc 1 3 0 (mask 47 47) 0
  else if d = 5 then rox 1 3 0
  else if d = 6 then rwr 1 3 allBits 0
  else if 0x100 ≤ d && d < 0x180 then
    let k := d % 16
    if k = 0 then rox 1 3 0 else if k = 1 then rwr 1 3 allBits 0 else if k = 2 then rwr 1 3 allBits 0
    else if k = 3 then rwc 1 3 0 (mask 47 47) 0 else if k = 4 then rox 1 3 0
    else if 8 ≤ k then rwr 1 3 (mask 47 45 ||| mask 19 0) 0 else none
  else none

/-- Tick and Frond cluster (R496 to R502). FSST of fstat stands in the core. -/
def regTick (d : Nat) : Option RegInfo :=
  if d = 0 then rwr 1 2 (mask 23 0) 0
  else if d < 4 then ro 1 0
  else if 0x10 ≤ d && d < 0x18 then ro 1 0
  else if 0x18 ≤ d && d < 0x1C then wo 1 2
  else if 0x20 ≤ d && d < 0x30 then rwr 1 2 (mask 36 0) 0
  else if 0x30 ≤ d && d < 0x40 then ro 1 0
  else if 0x40 ≤ d && d < 0x50 then rwr 1 1 (mask 23 0) 0
  else if 0x50 ≤ d && d < 0x58 then ro 1 0
  else if 0x100 ≤ d && d < 0x140 then ro 1 0
  else none

/-- Sorus memory (R525 to R528). -/
def regSorus (d : Nat) : Option RegInfo :=
  if d < 0x20 then rox 1 3 0
  else if d = 0x30 then rwr 1 3 allBits 0
  else if d = 0x31 then rwc 1 3 0 (mask 47 47) 0
  else if 0x40 ≤ d && d < 0x70 then rwr 1 3 (mask 23 0) 0
  else if 0x100 ≤ d && d < 0x1C0 then rox 1 3 0
  else none

/-- Bellaos ring (R563 to R569). DEDUCED (log entry 121): RING_STAT, a dash in R563, holds the W1C field DUP of R568;
whoever may read it may clear DUP, and its other fields ignore the write. -/
def regRing (d : Nat) : Option RegInfo :=
  if d = 0 then ro 1 0
  else if d = 1 then
    some ⟨1, 2, mask 45 21 ||| mask 15 0, 0, mask 47 47, mk 45 34 0xFFF ||| mk 33 33 1 ||| mk 32 25 64 ||| mk 24 21 1 ||| 16⟩
  else if d = 2 then rwr 1 2 (mask 47 12) 0x1000
  else if d = 3 then rwr 1 2 (mask 35 0) 0
  else if d = 4 then rwc 1 4 0 (mask 29 29) 0
  else if d = 5 then ro 1 0 else if d = 6 then ro 1 0
  else if d = 8 then ro 1 0 else if d = 9 then ro 1 0
  else if 0x10 ≤ d && d < 0x14 then rwr 1 2 allBits 0
  else if 0x20 ≤ d && d < 0x27 then rwr 1 2 allBits 0
  else none

/-- Sense and touch (R597 to R599). -/
def regSense (d : Nat) : Option RegInfo :=
  if d = 0 then rwr 1 2 (mask 47 47 ||| mask 39 0) 0
  else if 0x10 ≤ d && d < 0x30 then rwr 1 2 (mask 47 47 ||| mask 45 37) 0
  else if 0x30 ≤ d && d < 0x50 then rwr 1 2 allBits 0x400000
  else if 0x50 ≤ d && d < 0x58 then rwr 1 2 (mask 47 46 ||| mask 39 32 ||| mask 12 0) 0x0F00000000
  else if 0x58 ≤ d && d < 0x60 then rox 1 2 0
  else if d = 0x100 then rwr 1 2 (mask 47 45 ||| mask 35 0) 0
  else if d = 0x101 then rwr 1 2 (mask 47 12) (mk 47 32 1000 ||| mk 31 23 200 ||| mk 22 16 16 ||| mk 15 12 6)
  else if d = 0x102 then rwr 1 2 allBits 0x040004000200
  else if d = 0x103 then rwc 1 2 (mask 47 24) 1 (mk 39 24 0xFF)
  else none

/-- Pinna hypervisor block (R625, R626). -/
def regPinna (d : Nat) : Option RegInfo :=
  if d < 0x200 then
    let k := d % 8
    if k = 0 then rwr 2 2 (mask 47 12) 0 else if k = 1 then rwr 2 2 (mask 47 24) 0
    else if k = 2 then rwr 2 2 (mask 47 24 ||| 1) 0 else if k = 3 then rwr 2 2 (mask 35 0) 0
    else if k = 4 then rwc 2 2 0 (mask 44 44) 0 else if k = 5 then rwr 2 2 (mask 47 29) 0
    else if k = 6 then wo 2 2 else none
  else if d < 0x600 then
    let k := d % 4
    if k = 0 then rwr 2 2 (mask 47 17) 0 else rwr 2 2 allBits 0
  else none

/-- A page of a pinna instance (R625, R627). R619 admits the requester, whatever its level. -/
def regPinnaPage (d : Nat) : Option RegInfo :=
  let o := d % 0x1000
  if o = 0 then ro 0 0
  else if o = 1 then rwc 0 0 0 7 0
  else if o = 2 then rwr 0 0 7 0
  else if o = 3 then rwr 0 0 (mask 47 8 ||| 1) 0
  else if 0x100 ≤ o && o < 0x500 then
    if o % 4 = 0 then rwr 0 0 (mask 15 0) 0 else if o % 4 = 1 then ro 0 0 else if o % 4 = 2 then wo 0 0 else none
  else none

/-- Ethernet port block (R637). -/
def regEth (d : Nat) : Option RegInfo :=
  let o := d % 0x200
  if o = 0 then rwr 2 2 (mask 47 44 ||| mask 40 33 ||| mask 13 0) 1522
  else if o = 1 then rwr 2 2 (mask 23 0) 0xFAC688
  else if o = 2 then rwr 2 2 allBits 0
  else if o = 3 then rwr 2 2 (mask 31 0) 0
  else if o < 8 then rwr 2 2 (mask 47 24) 0
  else if o = 8 then rwr 2 2 allBits 0
  else if o = 9 then rwr 2 2 allBits 0
  else if 0x80 ≤ o && o < 0x180 then rwr 2 2 (mask 47 40 ||| mask 31 0) (mk 47 40 0xFF)
  else none

/-- CAN FD and RS-485 (R641, R643). -/
def regCanUart (d : Nat) : Option RegInfo :=
  if d < 0x80 then
    if d % 16 = 0 then rwr 2 2 (mask 47 46 ||| mask 44 43) 0
    else if d % 16 < 3 then rwr 2 2 (mask 41 32 ||| mask 23 16 ||| mask 14 8 ||| mask 6 0) 0 else none
  else if 0x100 ≤ d && d < 0x140 then
    if d % 16 = 0 then rwr 1 1 (mask 47 24 ||| mask 15 0) (mk 46 45 1 ||| mk 31 28 1 ||| mk 27 24 1 ||| mk 15 0 10000)
    else if d % 16 = 1 then rwr 1 1 0 0
    else if d % 16 = 2 then rwc 1 1 (mask 15 14) (mask 13 11) (mk 22 16 64) else none
  else none

/-- PCIe and USB (R648, R651). -/
def regPcieUsb (d : Nat) : Option RegInfo :=
  if d = 0 then rwr 3 3 (mask 47 42 ||| mask 15 0) (mk 45 44 2 ||| mk 43 42 3)
  else if d = 1 then rwc 3 3 0 (mask 47 44) 0
  else if d = 2 then rwr 3 3 (mask 47 44 ||| mask 35 0) 0
  else if 0x10 ≤ d && d < 0x20 then
    if d % 2 = 0 then rwr 3 3 (mask 47 47 ||| mask 26 16 ||| mask 11 0) 0 else rwr 3 3 allBits 0
  else if 0x30 ≤ d && d < 0x40 then
    if d % 2 = 0 then rwr 3 3 (mask 47 42 ||| mask 35 0) 0 else rwr 3 3 allBits 0
  else if d = 0x40 then rwr 3 3 (mask 47 32 ||| mask 11 2) 0
  else if d = 0x41 then rwr 3 3 (mask 35 0) (mk 35 32 0xF)
  else if d = 0x42 then wo 3 3
  else if d = 0x1000 then rwr 1 1 (mask 47 45 ||| mask 38 32) (mk 46 46 1)
  else if d = 0x1001 then rwc 1 1 0 (mask 44 44 ||| mask 42 41 ||| mask 26 18 ||| mask 8 0) 0
  else if d = 0x1002 then rwr 1 1 allBits 0
  else if d = 0x1003 then ro 1 0 else if d = 0x1004 then ro 1 0
  else if 0x1010 ≤ d && d < 0x1058 then
    let k := d % 4
    if k = 0 then rwr 1 1 (mask 47 44 ||| mask 26 12) (mk 26 16 64)
    else if k = 1 then rwr 1 1 (mask 47 44 ||| mask 35 0) 0
    else if k = 2 then rwr 1 1 (mask 15 0) 0 else ro 1 0
  else none

/-- Display (R660, R661). -/
def regDisp (d : Nat) : Option RegInfo :=
  if d = 0 then rwr 2 2 (mask 47 24) 0
  else if d = 1 then wo 2 2
  else if d = 2 then rwr 2 2 (mask 47 39 ||| mask 23 0) (mk 42 39 8)
  else if 4 ≤ d && d < 8 then
    rwr 2 2 (if d = 4 then mask 11 0 else mask 47 24 ||| mask 11 0) 0xFFF
  else if 0x10 ≤ d && d < 0x40 then
    let k := d % 8
    if k = 0 then rwr 2 2 (mask 47 31) (mk 43 43 1 ||| mk 42 31 0xFFF)
    else if k = 1 then rwr 2 2 (mask 35 0) 0 else if k < 4 then rwr 2 2 allBits 0
    else if k = 4 then rwr 2 2 (mask 35 0) 0 else none
  else if 0x40 ≤ d && d < 0x60 then
    let k := d % 16
    if k = 0 then rwr 2 2 (mask 47 38 ||| mask 36 0) (mk 45 43 4 ||| mk 42 41 1 ||| mk 38 38 1 ||| mk 36 24 1000)
    else if k < 3 then rwr 2 2 allBits 0
    else if k = 3 then rwr 2 2 (mask 47 46 ||| mask 35 0) 0
    else if k = 4 then ro 2 0
    else if k = 5 then rwr 2 2 (mask 42 10 ||| mask 4 0) 0
    else if k < 9 then rwr 2 2 allBits 0 else none
  else if 0x100 ≤ d && d < 0x184 then
    rwr 2 2 (mask 11 0) (w48 (Nat.min (128 * ((d - 0x100) % 33)) 0xFFF))
  else none

/-- Power and clocks (R680, R681). -/
def regPower (d : Nat) : Option RegInfo :=
  if d = 0 then rwr 1 2 (mask 15 0) 100
  else if d = 1 then rwr 1 1 (mask 15 0) 0
  else if d = 2 then rwr 1 3 (mask 47 26 ||| mask 15 0) (mk 35 26 100 ||| mk 15 0 0x400)
  else if d = 3 then rwc 1 3 0 (mask 47 36) 0
  else if 4 ≤ d && d < 7 then rwr 1 2 (mask 47 16) (mk 15 8 0xFF)
  else if 0x40 ≤ d && d < 0x80 then rwr 1 2 (mask 23 0) 0
  else if 0x80 ≤ d && d < 0xC0 then rwr 1 1 (mask 41 40) 0
  else none

/-- Mailbox ports (R691, R692). Port 1 takes no write from the module side. -/
def regMbox (d : Nat) : Option RegInfo :=
  let p := d / 0x1000
  let o := d % 0x1000
  let rd := if p = 0 then 1 else 3
  let wr := if p = 0 then 1 else 5
  if 2 ≤ p then none
  else if o = 0 then rwr rd wr (mask 47 32) 0
  else if o < 9 then rwr rd wr allBits 0
  else if 0x10 ≤ o && o < 0x19 then some ⟨rd, if p = 0 then 4 else 5, 0, 0, 0, 0⟩
  else if o = 0x20 then wo rd wr
  else if o = 0x21 then rwc rd wr (mask 7 0) (mask 46 45) 30
  else if 0x400 ≤ o && o ≤ 0x6AA then rwr rd wr (if o = 0x6AA then mask 31 0 else allBits) 0
  else none

/-- Counters (R724, R725). R722 and R723 admit PL0 reads. -/
def regCnt (d : Nat) : Option RegInfo :=
  if d = 0 then rwr 1 1 (mask 47 46) (mk 46 46 1)
  else if d = 1 then ro 1 0
  else if 0x100 ≤ d && d < 0x300 then
    if d % 8 = 0 then rwc 1 1 (mask 47 44 ||| mask 39 0) (mask 43 40) 0
    else if d % 8 < 5 then rwr 1 1 allBits 0 else none
  else if 0x400 ≤ d && d < 0x422 then ro 1 0
  else none

/-- Reset and debug (R737, R742, R770). `wr` = 5 admits only the requester its rule names. -/
def regRst (d : Nat) : Option RegInfo :=
  if d = 0 then ro 1 (mk 47 40 1)
  else if 0x10 ≤ d && d < 0x20 then rwr 1 3 (mask 36 0) 0
  else if d = 0x20 then rwr 1 5 (mask 31 0) 0
  else none

/-- DMA (R766). -/
def regDma (d : Nat) : Option RegInfo :=
  if d < 32 then
    let k := d % 4
    if k < 2 then rwr 1 1 (mask 35 0) 0
    else if k = 2 then rwr 1 1 (mask 46 45 ||| mask 23 0) 0
    else rwc 1 1 0 (mask 46 46) 0
  else none

/-- The register at a physical word address, if R764 lists one there. -/
def regInfo (a : Nat) : Option RegInfo :=
  if a < regBase then none
  else
    let d := a - regBase
    let o := d % 0x10000
    match d / 0x10000 with
    | 0 => regStruct o
    | 2 => regInt o
    | 3 => regTime o
    | 4 => regCoh o
    | 5 => regMem o
    | 6 => regTick o
    | 7 => regSorus o
    | 8 => regRing o
    | 9 => regSense o
    | 0xA => regPinna o
    | 0xC => if o < 0x400 then regEth o else none
    | 0xD => regCanUart o
    | 0xE => regPcieUsb o
    | 0xF => regDisp o
    | 0x10 => regPower o
    | 0x11 => regMbox o
    | 0x12 => if o < 2 then ro 1 0 else none
    | 0x13 => regCnt o
    | 0x14 => regRst o
    | 0x15 => if o = 0 then rox 1 3 0 else if o = 1 then rwr 1 3 (mask 11 0) 0x1B8 else none
    | 0x16 => regDma o
    | 0x100 => regPinnaPage o
    | 0x101 => regPinnaPage o
    | 0x102 => regPinnaPage o
    | 0x103 => regPinnaPage o
    | _ => none

/-- What a register holds at reset (R9); zero where no register is listed. -/
def regReset (a : Nat) : Word :=
  match regInfo a with
  | some i => i.reset
  | none => 0

/-- The value after a write of v to a register that holds old: RW bits set, RO and RZ bits kept, W1C and W1S bits
cleared and set by ones (R10, R13). -/
def RegInfo.merge (i : RegInfo) (old v : Word) : Word :=
  (((old &&& ~~~i.rw) ||| (v &&& i.rw)) &&& ~~~(v &&& i.w1c)) ||| (v &&& i.w1s)

/-! ## Addresses by name -/

def aIdent : Nat := 0x800000000
def aStructStatus : Nat := 0x800000100
def aStructId : Nat := 0x800000101
def aStructVer : Nat := 0x800000102
def aRoute (s : Nat) : Nat := 0x800020000 + s
def aSrcState (s : Nat) : Nat := 0x800020200 + s
def aSrcTs (s : Nat) : Nat := 0x800020400 + s
def aIntEoi : Nat := 0x800020800
def aIntCur : Nat := 0x800020801
def aIntPoll : Nat := 0x800020802
def aIntVpend : Nat := 0x800020803
def aIntVirtCtl : Nat := 0x800020804
def aIntSwi : Nat := 0x800020805
def aTbLo : Nat := 0x800030000
def aTbHi : Nat := 0x800030001
def aTbStep : Nat := 0x800030002
def aTmrCmp (n : Nat) : Nat := 0x800030010 + n
def aTmrCtl (n : Nat) : Nat := 0x800030018 + n
def aTsHead (u : Nat) : Nat := 0x800030020 + u
def aTsStat (u : Nat) : Nat := 0x800030024 + u
def aTsPop (u : Nat) : Nat := 0x800030028 + u
def aWdogCtl (w : Nat) : Nat := 0x800030100 + 2 * w
def aWdogKick (w : Nat) : Nat := 0x800030101 + 2 * w
def aCohDirCtl : Nat := 0x800040000
def aCohDead : Nat := 0x800040001
def aCohSpec (s : Nat) : Nat := 0x800040100 + 8 * s
def aCohTimeout (s : Nat) : Nat := 0x800040101 + 8 * s
def aCohRetry (s : Nat) : Nat := 0x800040102 + 8 * s
def aCohEif (s : Nat) : Nat := 0x800040103 + 8 * s
def aCohLate (s : Nat) : Nat := 0x800040104 + 8 * s
def aCohPoison (s : Nat) : Nat := 0x800040105 + 8 * s
def aMemCtl : Nat := 0x800050000
def aMemTickRsv : Nat := 0x800050001
def aMemTop : Nat := 0x800050002
def aMemTwinStat : Nat := 0x800050003
def aMemTwinLast : Nat := 0x800050004
def aMemScrub : Nat := 0x800050005
def aMemFrondBound : Nat := 0x800050006
def aMemChStat (c : Nat) : Nat := 0x800050100 + 16 * c
def aMemCe (c : Nat) : Nat := 0x800050101 + 16 * c
def aMemUe (c : Nat) : Nat := 0x800050102 + 16 * c
def aMemErrAddr (c : Nat) : Nat := 0x800050103 + 16 * c
def aMemErrSyn (c : Nat) : Nat := 0x800050104 + 16 * c
def aMemShadow (c k : Nat) : Nat := 0x800050108 + 16 * c + k
def aTickPeriod : Nat := 0x800060000
def aTickStat : Nat := 0x800060001
def aTickCount : Nat := 0x800060002
def aTickLast : Nat := 0x800060003
def aGrpCfg (g : Nat) : Nat := 0x800060010 + g
def aGrpStat (g : Nat) : Nat := 0x800060014 + g
def aGrpCtl (g : Nat) : Nat := 0x800060018 + g
def aFrondCtl (c : Nat) : Nat := 0x800060020 + c
def aFrondStat (c : Nat) : Nat := 0x800060030 + c
def aFrondPeak (c : Nat) : Nat := 0x800060040 + c
def aPairStat (p : Nat) : Nat := 0x800060050 + p
def aFrondWin (c k : Nat) : Nat := 0x800060100 + 4 * c + k
def aSorBankCfg (b : Nat) : Nat := 0x800070000 + b
def aSorTwinStat : Nat := 0x800070030
def aSorErrLast : Nat := 0x800070031
def aSorBankStat (n : Nat) : Nat := 0x800070040 + n
def aSorRepair (n k : Nat) : Nat := 0x800070100 + 4 * n + k
def aRingCfg : Nat := 0x800080000
def aRingCtl : Nat := 0x800080001
def aRingLayout : Nat := 0x800080002
def aRingRxBase : Nat := 0x800080003
def aRingStat : Nat := 0x800080004
def aRingRtt : Nat := 0x800080005
def aRingAlign : Nat := 0x800080006
def aRingPort (p : Nat) : Nat := 0x800080008 + p
def aRingLaneErr (p k : Nat) : Nat := 0x800080010 + 2 * p + k
def aRingCnt (n : Nat) : Nat := 0x800080020 + n
def aSenseCtl : Nat := 0x800090000
def aSenseCfg (c : Nat) : Nat := 0x800090010 + c
def aSenseCal (c : Nat) : Nat := 0x800090030 + c
def aExcCfg (d : Nat) : Nat := 0x800090050 + d
def aExcStat (d : Nat) : Nat := 0x800090058 + d
def aTouchCtl : Nat := 0x800090100
def aTouchCfg : Nat := 0x800090101
def aTouchThr : Nat := 0x800090102
def aTouchStat : Nat := 0x800090103
def aInstCfg (i : Nat) : Nat := 0x8000A0000 + 8 * i
def aInstLimit (i : Nat) : Nat := 0x8000A0001 + 8 * i
def aInstS2 (i : Nat) : Nat := 0x8000A0002 + 8 * i
def aInstSave (i : Nat) : Nat := 0x8000A0003 + 8 * i
def aInstStat (i : Nat) : Nat := 0x8000A0004 + 8 * i
def aInstMig (i : Nat) : Nat := 0x8000A0005 + 8 * i
def aInstCtl (i : Nat) : Nat := 0x8000A0006 + 8 * i
def aQCfg (q : Nat) : Nat := 0x8000A0200 + 4 * q
def aQRing (q : Nat) : Nat := 0x8000A0201 + 4 * q
def aQFilt (q : Nat) : Nat := 0x8000A0202 + 4 * q
def aQMask (q : Nat) : Nat := 0x8000A0203 + 4 * q
def aPage (i : Nat) : Nat := 0x801000000 + 0x1000 * i
def aEth (p o : Nat) : Nat := 0x8000C0000 + 0x200 * p + o
def aCan (n o : Nat) : Nat := 0x8000D0000 + 16 * n + o
def aUart (u o : Nat) : Nat := 0x8000D0100 + 16 * u + o
def aPcie (o : Nat) : Nat := 0x8000E0000 + o
def aUsb (o : Nat) : Nat := 0x8000E1000 + o
def aUsbEp (e o : Nat) : Nat := 0x8000E1010 + 4 * e + o
def aDisp (o : Nat) : Nat := 0x8000F0000 + o
def aDispOut (o k : Nat) : Nat := 0x8000F0040 + 16 * o + k
def aPwrCtl : Nat := 0x800100000
def aPwrVote : Nat := 0x800100001
def aPwrWakeCfg : Nat := 0x800100002
def aPwrWakeStat : Nat := 0x800100003
def aPwrCnt (s : Nat) : Nat := 0x800100004 + s
def aClkFreq (d : Nat) : Nat := 0x800100040 + d
def aPwrPolicy (d : Nat) : Nat := 0x800100080 + d
def aMbx (p o : Nat) : Nat := 0x800110000 + 0x1000 * p + o
def aLogStat : Nat := 0x800120000
def aBootStat : Nat := 0x800120001
def aCntCtl : Nat := 0x800130000
def aCntDump : Nat := 0x800130001
def aPmcSel (b : Nat) : Nat := 0x800130100 + 8 * b
def aPmcCnt (b k : Nat) : Nat := 0x800130101 + 8 * b + k
def aPmcBw (p : Nat) : Nat := 0x800130400 + p
def aRstCause : Nat := 0x800140000
def aRstCore (c : Nat) : Nat := 0x800140010 + c
def aDbgHold : Nat := 0x800140020
def aThermStat : Nat := 0x800150000
def aThermCfg : Nat := 0x800150001
def aDma (n o : Nat) : Nat := 0x800160000 + 4 * n + o

end Sys2Proof.Machine
end

