-- ==== Sys2Proof/Machine/State.lean ====
section
/-! DEFINITION. The state of the block as plain data, the names of the ways it can stop, and the state right after a
power-up reset. Registers of register space (R764) stand in ONE sparse list keyed by physical word address; an address
that is not listed holds its reset value (Machine/RegMap.lean). Everything the chapters give an engine beside its
registers has a field of its own here. -/

namespace Sys2Proof.Machine

/-- The block meets no event that stops it: every exception, violation and module fault of the manual is a next
state. The type has one constructor so that it is inhabited; nothing raises it. Safe. -/
inductive Fault where
  | none
deriving DecidableEq, Repr

/-- Why a command has no meaning. -/
inductive Refusal where
  /-- Raised by an arm of exec whose command has no meaning yet. Safe: the block stops. -/
  | notModelled (mnemonic : String)
deriving DecidableEq, Repr

/-! ## Cores -/

/-- What a core is doing (R271, R466, R473, R735). -/
inductive RunState where
  | held          -- held in reset
  | parked        -- a parked Frond core
  | running
  | idle          -- a Frond core after FEND, until its next frame start
  | checkstopped
deriving DecidableEq, Repr

/-- A write of the multiply unit that has issued and not yet fallen due (R141, R143, R148). -/
inductive MulEffect where
  | setAcc (v : BitVec 120) (overflow : Bool)
  | writePst (v : Word)
  | setSV
deriving DecidableEq, Repr

/-- The multiply unit (R138, R147): the accumulator and pst as they stand, and the writes not yet due in program order. -/
structure MulUnit where
  acc : BitVec 120
  pst : Word
  queue : List MulEffect
deriving DecidableEq, Repr

/-- One set of save registers (R275). -/
structure SaveSet where
  epc : Word
  est : Word
  ecause : Word
  eaddr : Word
  evec : Word
  escr : Word
deriving DecidableEq, Repr

/-- A branch that has executed and whose delay slot has not (R225 to R230). `undo` restores what the branch wrote if
the slot faults (R230). -/
structure Slot where
  branchPc : Word
  slotPc : Word
  taken : Bool
  target : Word
  annulled : Bool
  undoReg : Option (Reg × Word)
  undoRsp : Word
  undoRss : Word
  cond : Bool            -- a conditional branch
  hint : Bool
  kind : Nat             -- 0 direct, 1 call, 2 return, 3 indirect, 4 indirect call (R239)
  retAddr : Word
deriving DecidableEq, Repr

/-- A status write inside its delay (R218): the value after the field limits, and the instructions still to start
before it takes effect. -/
structure StatusWrite where
  value : Word
  left : Nat
deriving DecidableEq, Repr

/-- The predictors of an application core at commit (R239 to R246). -/
structure TbEntry where
  set : Nat
  tag : Nat
  target : Word
  kind : Nat
deriving DecidableEq, Repr

structure Predictors where
  gh : BitVec 16
  rp : List Word
  targets : List TbEntry
  indirect : List (Nat × Nat × Word)
deriving DecidableEq, Repr

/-- The memory types (R345). -/
inductive MemType where
  | writeBack
  | writeThrough
  | uncached
  | deviceStrict
  | deviceRelaxed
  | twinned
  | returnStack
deriving DecidableEq, Repr

/-- What one stage's checks need, as a TLB entry keeps it (R348, R353): the leaf's value (0 in bits 47:24 and 10:0 as
R335 lays out), where it was found, and for a stage-1 leaf what the stage-2 leaf of its table page says (R343). -/
structure StagePerm where
  level : Nat
  entryPa : Nat
  entryVal : Word
  tableGpa : Nat
  tableLvl : Nat
  tableW : Bool
  tableOk : Bool
deriving DecidableEq, Repr

/-- A TLB entry (R353, R355): the page of the virtual address at its size, the context (none: host), the ASID unless
global, the complete translation, and whether its parity no longer holds (R356). -/
structure TlbEntry where
  big : Bool
  vpage : Nat
  ctx : Option Nat
  asid : Nat
  global : Bool
  ppage : Nat
  s1 : Option StagePerm
  s2 : Option StagePerm
  bad : Bool
deriving DecidableEq, Repr

structure Tlbs where
  itlb : List TlbEntry
  dtlb : List TlbEntry
  l2 : List TlbEntry
  invalWhileDormant : Bool
deriving DecidableEq, Repr

/-- The operations of the atomic instructions (R168). -/
inductive AtomicOp where
  | add
  | swap
  | cas
  | or
  | and
deriving DecidableEq, Repr

/-- What one word reference of an instruction does to its word: read it, write the bits of `mask` (R120), or apply an
atomic operation with placement `plc` (R168). -/
inductive RefOp where
  | read
  | write (v mask : Word)
  | atomic (op : AtomicOp) (gb gc : Word) (plc : Nat)
deriving DecidableEq, Repr

/-- One word reference: its virtual (or physical) word address, its access kind (R348) and what it does. -/
structure Ref where
  va : Word
  kind : Nat
  op : RefOp
  elem : Size
deriving DecidableEq, Repr

/-- What an instruction does with the words it read when all of its references are performed. -/
inductive Finish where
  | load (gd : Reg) (size : Size) (sel : Nat) (sx : Bool)
  | store
  | push
  | pop (gd : Reg)
  | atomic (gd : Reg)
  | call (target : Word) (kind : Nat) (ret : Word)
  | ret
  | drop                       -- nothing: its frame was abandoned (R475)
deriving DecidableEq, Repr

/-- A memory access of one instruction (R115, R160, R168): its references in order, its length in half-words and how
it ends. -/
structure Access where
  refs : List Ref
  len : Nat
  fin : Finish
  got : List (Nat × Word × Bool)     -- uncached words received so far, by physical address
  contended : Bool                   -- a grant for it needed a snoop to another agent (R403)
  asked : Option Nat                 -- the line that its near atomic has asked for (R400, R403)
  blocked : Bool                     -- its table walk waits for a busy line
  silent : Bool                      -- the block it goes to does not answer (R314)
deriving DecidableEq, Repr

/-- A store-buffer entry (R203): the physical word, the data, the bits written, and the memory type (R207, R208). An
entry of a device keeps the status and vmid that its store ran under. -/
structure SbEntry where
  pa : Nat
  data : Word
  mask : Word
  type : MemType
  sent : Bool            -- its WrThru or WrNC is on its way
  low : Bool             -- the low word of a double-word store: the next entry is its high word
  status : Word
  vmid : Word
deriving DecidableEq, Repr

/-- A TLB maintenance operation (R358 to R360): the code FN less B, the context (none: host), the ASID and the
virtual address. -/
structure TlbOp where
  bcast : Bool
  code : Nat
  ctx : Option Nat
  asid : Nat
  va : Nat
deriving DecidableEq, Repr

/-- The message types (R382). -/
inductive MsgType where
  | RdS | RdU | Upg | RdUZ | RdIO | RdNC | WrNC | WrThru | WrStash | WrInv | AtomF | Clean | Flush
  | PutM | PutE | PutS
  | SnpS | SnpInv | SnpData | SnpStash | SnpClean
  | RspAck | RspData | RspEIF | RspDecline | CmpAck
  | Data | GrantU | PutAck | Cmp | Retry
deriving DecidableEq, Repr

/-- The channels of R380. -/
inductive Channel where
  | req
  | wb
  | snp
  | rsp
  | cmp
deriving DecidableEq, Repr

/-- What a stopped core waits for (R215, R363, R478, R649). -/
inductive Waiting where
  | access (a : Access)
  | atomicDone (a : Access) (pa : Nat)           -- the physical word of its far atomic
  | maintenance (req : MsgType) (line : Nat) (sent : Bool)
  | tlbi (op : TlbOp)
  | tlbsync
  | barrier
  | aperture (a : Access) (words : List Nat)     -- the physical words read through the PCIe aperture
deriving DecidableEq, Repr

/-- The frame bookkeeping of a Frond core (chapter 12). -/
structure FrameState where
  parkPending : Bool
  joinPending : Bool
  fendDone : Bool
  barriers : Nat
  stopped : Bool          -- stopped for the rest of the frame: lockstep mismatch or refused fetch
  resyncPending : Bool
  firstDone : Bool        -- the first instruction of the frame has completed (R472)
  written : List Nat      -- outputs written with OUT in this frame (R481)
deriving DecidableEq, Repr

/-- The source a core is presented (R295): its number, priority and target level, the guest it belongs to if its
delivery is virtual (R308), and whether the controller has withdrawn it (R296, R300). -/
structure Presented where
  src : Nat
  prio : Nat
  lvl : Nat
  guest : Option Nat
  lost : Option Nat       -- when the controller withdrew it (R300); none: it stands
deriving DecidableEq, Repr

/-- One core (chapters 3, 4, 6, 7, 9, 12). -/
structure Core where
  g : Vector Word 32
  b : Vector (BitVec 32) 4
  pc : Word
  status : Word
  fcs : Word
  rsp : Word
  rss : Word
  rslo : Word
  rshi : Word
  lctl : Word
  ls : Vector Word 3
  le : Vector Word 3
  lc : Vector Word 3
  mul : MulUnit
  cpoly : Vector Word 2
  save : Vector SaveSet 3
  asid : Word
  ptb1 : Word
  vmid : Word
  ptb2 : Word
  ucnt : Word
  tbhLatch : Word
  fentry : Word
  fstat : Word
  run : RunState
  statusQueue : List StatusWrite
  slot : Option Slot
  waiting : Option Waiting
  abandoned : List Waiting     -- what abandoned frames left in flight, oldest first (R475)
  storeBuffer : List SbEntry
  tlb : Tlbs
  predict : Predictors
  contention : List (Nat × Nat)
  events : List Nat            -- codes of the events of instructions that have not committed (R257, R712)
  frame : FrameState
  presented : Option Presented
  active : List Nat            -- sources this core holds active, most recently accepted first (R302)
  virtCtl : Word               -- INT_VIRT_CTL, banked (R310)
  src63Active : Bool           -- source 63, banked per application core (R309)
  src63On : Bool               -- its condition as last seen, and when it rose
  src63Ts : Word
deriving DecidableEq, Repr

/-! ## Caches and coherence (chapter 10) -/

/-- The words of a line, or of a twin pair (16), each with its poison bit (R366, R369). -/
abbrev LineData := List (Word × Bool)

/-- The states of a private line (R378). -/
inductive LineState where
  | M | E | S | IS | IM | SM | MI | EI | SI
deriving DecidableEq, Repr

/-- A line in an agent's private caches (R365, R367): of an application core in its L2, and in its L1D and L1I where the
marks say so; of a Frond or Medulla core in its L1D or its L1I, with one state for both. -/
structure CacheLine where
  agent : Nat
  line : Nat
  st : LineState
  twin : Bool
  inL1 : Bool
  inL1I : Bool
  data : LineData
deriving DecidableEq, Repr

structure L3Line where
  line : Nat
  twin : Bool
  dirty : Bool
  pinned : Bool
  data : LineData
deriving DecidableEq, Repr

/-- A message between an agent (0 to 33) and the home slice of its line (R381). TYPE gives its channel and its code, the
agent and the home slice of the line its SRC and DST. `word` and `word2` carry the operands gb and gc of AtomF and the
old value of its Cmp. The last six fields are no header fields: what an answer answers, which words of a stashed line
are newly written, how a far atomic failed, whether the grant needed a snoop to another agent, and what the slice keeps
of a waiting request. -/
structure Msg where
  type : MsgType
  agent : Nat
  txn : Nat             -- TXN: the requester's tag, or the slice's for a snoop
  line : Nat
  twin : Bool
  spec : Bool
  isFetch : Bool
  gnt : Nat
  dirty : Bool
  wmask : Nat
  op : Nat
  widx : Nat
  c : Bool
  tgt : Nat
  n : Nat
  data : LineData
  word : Word
  word2 : Word
  req : MsgType         -- for an answer: the request that TXN names
  fresh : Nat           -- SnpStash: the words that the write gave (R391)
  fail : Nat            -- Cmp of AtomF: 1 the word was poisoned, 2 it mismatched (R172)
  snooped : Bool        -- Data and GrantU: a snoop went to another agent (R403)
  skips : Nat           -- requests of higher classes served ahead of it (R375)
  recalling : Bool      -- a victim is being recalled for it (R376)
deriving DecidableEq, Repr

/-- A directory entry (R372). Its place in the list stands for AGE, the most recently used first. An overflow entry names
the Frond agent that it belongs to (R377). -/
structure DirEntry where
  line : Nat
  exclusive : Bool
  twin : Bool
  busy : Bool
  vec : BitVec 64
  overflow : Option Nat
deriving DecidableEq, Repr

/-- A snoop on its way: the agent, when it left the slice and the bound TIMEOUT_US then gave it (R406), its tag (R381,
R408), and whether its Put is awaited (R388). -/
structure Snoop where
  agent : Nat
  type : MsgType
  tag : Nat
  sent : Nat
  limit : Nat             -- in ns
  awaitPut : Bool
  putSeen : Bool          -- the Put came before the RspEIF (R388)
  putAck : Option Nat     -- the tag of a Put whose PutAck waits for the stash to be answered (R388, R391)
deriving DecidableEq, Repr

/-- An open transaction of a home slice (R374, R383). -/
structure Txn where
  req : Msg
  snoops : List Snoop
  snooped : Bool          -- a snoop went to an agent other than the requester (R403, R404)
  dirtyData : Option LineData
  poisonAll : Bool        -- a snoop timer expired (R407)
  needDram : Bool
  granted : Bool          -- the answer has been sent; CmpAck is awaited
  victim : Bool           -- the recall of a directory victim (R376)
  stashing : Bool
  uncached : Bool         -- the state found was Uncached (R383)
deriving DecidableEq, Repr

structure FarUse where
  line : Nat
  agent : Nat
  time : Nat
deriving DecidableEq, Repr

/-- A step of a job of an engine behind the I/O bridge (R393): the request that the job has sent, and its answer once it
has come. A job that goes on after a wait takes the answers of the steps it has made and sends nothing twice. -/
structure BridgeStep where
  job : Nat
  req : Msg
  answer : Option Msg
  used : Bool             -- this run of the job has taken it
deriving DecidableEq, Repr

structure Coh where
  caches : List CacheLine
  l3 : List L3Line
  dir : List DirEntry
  txns : List Txn
  waitq : List Msg
  net : List Msg
  refused : List Msg              -- requests whose Retry is on its way, as their requesters keep them (R377)
  retries : List Msg              -- requests in their back-off
  farUses : List FarUse
  timeouts : List (Nat × Nat)     -- agent and time of each snoop timeout (R410)
  tag : Nat                       -- the next tag TXN (R381)
  job : Nat                       -- the bridge's job that runs now; 0: none
  steps : List BridgeStep         -- what the jobs under way have sent (R393)
  corrected : Nat                 -- cached words corrected on read (R370)
deriving DecidableEq, Repr

/-! ## DRAM (chapter 11) -/

structure MemCtl where
  writeBacks : List (Nat × LineData)     -- queued write-backs, by line (R424)
  refreshPair : List Nat                 -- next bank pair, by channel (R443)
  refreshDue : List Nat                  -- time base at which each channel's next refresh is due (R436, R443)
  rowHistory : List (Nat × Nat × Nat)    -- channel, bank × 65536 + row, time of each CORRECTED container (R445)
  chHistory : List (Nat × Nat)           -- channel and time of each UNCORRECTABLE or ADDRESS outcome (R447)
  copies : List (Nat × Nat)              -- row copies in progress: channel, entry (R445)
  slotGrid : List Nat                    -- slot of each controller's grid (R437)
  unreadable : Bool                      -- before step 8 of R449
deriving DecidableEq, Repr

/-! ## Sorus (chapter 13) -/

/-- What decoding a stored Sorus word finds (R515). -/
inductive SorusCode where
  | good
  | oneBit (col : Nat)
  | uncorrectable
  | transient (v : Word)       -- the next read alone finds v under a good code (R518)
deriving DecidableEq, Repr

structure SorusWord where
  data : Word
  poison : Bool
  code : SorusCode
deriving DecidableEq, Repr

structure SorusCtl where
  writeBacks : List (Nat × SorusWord)
  columns : List (Nat × Nat × Nat × Nat × Nat)    -- bank, half, column, word, time (R522)
  twins : List (Nat × Nat)                        -- bank and time of each persistent mismatch (R519)
deriving DecidableEq, Repr

/-! ## Structure Image (chapter 2) -/

/-- The applied fields of the image, by section (R69). -/
structure Image where
  clock : List Word
  tick : List Word
  sorus : List Word
  pads : List Word
  ring : Word
  dramGlobal : Word
  regions : List (Word × Word)
  pinna : List Word
  int : List Word
  power : List Word
  counter : Option (Word × Word × Word)
  safe : List (Word × Word)
  sec0 : Word
  sec1 : Word
deriving DecidableEq, Repr

/-- A structure register's last-good copy and shadow (R80), by register address. -/
structure StructReg where
  addr : Nat
  shadow : Word
  good : Word
deriving DecidableEq, Repr

structure StructState where
  image : Image
  regs : List StructReg
  repairs : List (Nat × Nat)      -- register and time of each repair (R81)
  pendingRepair : List Nat        -- rewrites that take effect at the next tick
  mismatched : List Nat           -- registers whose mismatch has been raised and not repaired
deriving DecidableEq, Repr

/-! ## Tick, outputs (chapter 12) -/

structure Output where
  kind : Nat
  group : Nat
  target : Nat
  safe : Word
  front : Word
  back : Word
  published : Word
deriving DecidableEq, Repr

structure TickState where
  running : Bool
  curNs : Nat
  pendingPeriod : List (Nat × Nat × Nat)  -- periods written and not yet applied, when, and the one each replaced (R462)
  mismatch : List Nat            -- groups in which a lockstep mismatch occurred in this frame
  started : List Nat             -- groups whose frame has started since the tick
  next : Nat                     -- time base at which the next tick is due
deriving DecidableEq, Repr

/-! ## Timers and watchdogs (chapter 8) -/

structure Timers where
  capture : List (List (Word × Bool))     -- FIFOs of the four timestamp units
  wdogStart : List Nat                    -- when each watchdog was last kicked, on domain 57's count
  wdogPaused : List (Nat × Nat)           -- paused watchdogs and when each paused (R326)
deriving DecidableEq, Repr

/-! ## Sense and touch (chapter 15) -/

structure SenseChan where
  applied : Word           -- SENSE_CH_CFG in force since the latest tick
  settle : Nat             -- ticks since EN rose, counted to 3
  calWait : Bool           -- a CAL waits for the next tick
  calTicks : Option Nat    -- ticks of the running offset calibration
  calSum : Int
  outCount : Nat           -- consecutive ticks out of range
  inCount : Nat
  fault : Bool             -- input fault of R578
  sample : BitVec 24       -- latched sample
  overrange : Bool         -- of the latest sample
  faultBit : Bool          -- input fault bit of the latest sample (R576)
deriving DecidableEq, Repr

structure DacState where
  applied : Word
  bad : Nat
  ok : Nat
  polarity : Bool          -- polarity in force
  slotPolarity : Bool      -- polarity of the window the latched samples cover
deriving DecidableEq, Repr

structure Sense where
  chans : List SenseChan
  dacs : List DacState
  ctl : Word               -- SENSE_CTL in force
  unwritten : Bool         -- the current slot has not been written yet in this frame (R39)
  lastLatch : Nat          -- when the channels latched last (R573)
deriving DecidableEq, Repr

structure Touch where
  ctl : Word
  cfg : Word
  scan : Nat               -- scan number
  startTb : Word
  baseline : List Int      -- 3840 nodes; empty: none yet
  freshTx : List Nat       -- TX lines whose baseline is set at the next scan
  noisy : List Nat         -- consecutive noisy listen steps, by candidate
  lastTick : Word          -- TICK_COUNT of the latest scan-start tick
  filmClear : Nat
  lastEn : Bool
  fset : Nat               -- FSET of the running scan
deriving DecidableEq, Repr

/-! ## Ring (chapter 14) -/

/-- What a LINK block that a node sends holds beside the parities (R545): the section it asks for, and LRET. -/
structure LinkOut where
  nak : Option Nat
  lret : BitVec 2
deriving DecidableEq, Repr

/-- A copy that has left by a port in this frame (R530, R531, R545): when its SOF left, the lanes live then, each lane's
scrambler (the latest payload bit in bit 0) and parity so far, and its LINK blocks in order. -/
structure SentCopy where
  port : Nat
  frame : RingFrame
  start : Nat
  live : BitVec 2
  scr0 : BitVec 58
  scr1 : BitVec 58
  bip0 : BitVec 8
  bip1 : BitVec 8
  links : List LinkOut
deriving DecidableEq, Repr

structure RingPort where
  sent : List (Nat × Section)          -- sections, header and cells sent in this frame, by number (R546)
  nak : List Nat                       -- sections to ask for in LINK blocks still to be sent by this port
  delays : List Nat                    -- last 16 results, ¼ ns, newest first (R550)
  lretOut : BitVec 2                   -- LRET announced
  stopWrap : Bool                      -- the link is up; wrapping ends at the next tick (R549)
  dlySeq : BitVec 16                   -- SEQ of the next DLY_REQ (R550)
  dlyOpen : List (BitVec 16)           -- SEQ of the requests without an answer yet
  training : Bool                      -- TRAIN blocks leave by it (R554)
  busyTo : Nat                         -- the end of the EOF that left by it last
deriving DecidableEq, Repr

/-- A control block the node has sent outside a frame (R532): port, type, its payload as two numbers, the lane where the
block has one of its own, and when it leaves. -/
structure RingOut where
  port : Nat
  type : Nat
  a : Nat
  b : Nat
  lane : Option Nat
  time : Nat
deriving DecidableEq, Repr

/-- What the completed frame leaves for the fresh map and the status word (R540, R541). -/
structure RxDone where
  base : Nat
  values : Nat
  good : List Nat
  hops : Nat
  lateEast : Bool
  lateWest : Bool
  line : Bool
  pace : Bool
  tick : Word
deriving DecidableEq, Repr

structure Ring where
  ports : List RingPort
  good : List Nat                         -- values received good in the current frame
  badEast : List Nat                      -- twinned values that mismatched in the eastbound copy
  badWest : List Nat
  wrongTwins : List Nat                   -- twinned values whose section had a wrong check in some copy (R539)
  wrote : List (Bool × Nat)               -- values this node wrote in this frame: westbound copy, value (R538)
  streaks : List (Nat × Nat)              -- index, consecutive frames mismatched in both copies (R539)
  header : Bool                           -- a good header came in this frame
  hdrEast : Bool
  h0 : Word                               -- TICK_COUNT of the latest good header
  values : Nat                            -- its VALUES
  eastSeen : Nat                          -- passes of the eastbound copy that fitted this frame (R547)
  westSeen : Nat
  holdoverFrames : Nat
  claims : Nat                            -- consecutive frames claimed without a lower claim (R557)
  claimed : Bool                          -- a claim went out in this frame
  lowerClaim : Bool
  joinedFrames : Nat
  handover : Option Nat                   -- HNODE to announce (R558)
  announced : Bool                        -- HOV was sent in this frame
  handed : Bool                           -- HOV named this node
  stop : Bool                             -- the acting master stops at its next tick
  lateEast : Bool
  lateWest : Bool
  hopsEast : Nat
  hopsWest : Nat
  line : Bool
  paceNow : Bool
  narrowSeen : Bool                       -- a copy came back with NARROW = 1 in this frame
  clearSeen : Nat                         -- copies that came back with NARROW = 0 in this frame
  dupNow : Bool
  dupStreak : Nat
  stuck : Bool                            -- state 2 until reset (R556)
  rxBase : Nat                            -- RING_RX_BASE in force
  layout : Word                           -- RING_LAYOUT in force
  done : Option RxDone                    -- the completed area's map and status, not yet written
  txq : List Cell                         -- cells waiting to leave
  placed : List (Bool × Nat × Nat × Nat)  -- cells placed in this frame: eastbound copy, dst, chan, SEQ
  seqs : List (Nat × Nat × Nat)           -- dst, chan, next SEQ
  seen : List (Nat × Nat × Nat)           -- src, chan, SEQ taken in this frame
  lastSeq : List (Nat × Nat × Nat × Nat)  -- src, dst, chan, latest SEQ taken
  outFrames : List SentCopy               -- copies sent in this frame, oldest first
  outBlocks : List RingOut                -- control blocks sent, oldest first
  emitted : Bool                          -- the master has sent this frame
  laneHistory : List (Nat × Nat)          -- lane 2p + k and time of each error (R559)
  laneRaised : List Nat                   -- ports whose lane error was raised in this frame
  tickErr : Int                           -- latest tick error, ¼ ns
  aligned : Bool                          -- the first alignment has been made
deriving DecidableEq, Repr

/-! ## Pinna (chapter 16) -/

structure PinnaInst where
  limit : Word                    -- PINNA_INST_LIMIT in force since setup (R612)
  freezeTb : Word
  freezeTick : Word
  sendBuf : List Word             -- record being sent; empty: none
  sendAcked : Nat
  sendFrames : Nat
  sendTries : Nat
  recvWords : List Word
  recvDone : Nat                  -- how many of them stand in memory
  job : Nat                       -- the command SAVE, SEND or RESTORE that the engine still performs; 0: none
  claiming : Bool
  claimFrames : Nat
  claimTries : Nat
  releasedEpochs : List Nat
deriving DecidableEq, Repr

/-- A transfer in flight on a queue (R605): its instance, its bytes, what it writes to D2, and its STATUS so far. -/
structure Flight where
  inst : Nat
  tx : Bool
  bytes : List Byte
  aux : Option Word
  status : Nat
deriving DecidableEq, Repr

structure QueueState where
  head : Nat
  tail : Nat
  stopped : Bool
  last : Nat
  drop : Nat
  flights : List Flight               -- oldest first; flight n works on descriptor HEAD + n
  ending : List (Word × Flight)       -- transfers that the management view has ended, with their descriptors (R617)
  slots : Nat                         -- sense slots copied into the descriptor at HEAD
  firstTick : Word                    -- TICK_COUNT of the first of them
  copied : Bool                       -- the slot of the current frame has been copied or dropped
deriving DecidableEq, Repr

structure Pinna where
  insts : List PinnaInst
  queues : List QueueState
  cache : List (Nat × TlbEntry)       -- translation cache entries with their instance (R609)
deriving DecidableEq, Repr

/-! ## Peripheral interfaces (chapter 17) -/

/-- An inbound request of the PCIe link through a window (R645 to R647): the window's base, the byte offset, its length and
its bytes. -/
structure InboundReq where
  base : Nat
  off : Nat
  write : Bool
  len : Nat
  bytes : List Byte
deriving DecidableEq, Repr

/-- A frame of a port that has been preempted (R633, R636): its queue and the bytes not yet sent. -/
structure EthCut where
  port : Nat
  q : Nat
  rest : List Byte
deriving DecidableEq, Repr

/-- The credit of a traffic class (R633), in millionths of a bit, as it stood at a time; whether a frame of it waits. -/
structure Credit where
  value : Int
  since : Nat
  waits : Bool
deriving DecidableEq, Repr

structure Io where
  uartTx : List (List (BitVec 9))
  uartRx : List (List (BitVec 9))
  uartMatched : List Bool
  uartLine : List (List (BitVec 9))            -- characters sent, by UART
  ethTx : List (Nat × List Byte)               -- frames and fragments sent: port, bytes
  ethStart : List Nat                          -- when the latest of them began, by port
  ethCut : List EthCut
  ethCredit : List Credit                      -- classes 4 to 7 of port 0, then of port 1
  gclStart : List Nat                          -- the time base that ETH_GCL_BASE names, by port (R635)
  swapPending : List Bool
  mdioBusy : List Bool
  mdioDue : List Bool                          -- a frame waits for its domain to act (R665)
  mdioLog : List (Nat × Word)                  -- MDIO frames sent: port, word
  canTx : List (Nat × Word × List Byte)        -- frames sent: controller, D2, bytes
  canOvf : List Bool                           -- the latest received frame found no descriptor
  pcieRoleFixed : Bool
  pcieEpOk : Bool                              -- the endpoint window passed its check (R648)
  pcieOut : List (Nat × List Byte)             -- memory writes sent: byte address, bytes
  pcieReads : List (Nat × Nat)                 -- memory reads sent: byte address, bytes
  pcieIn : List InboundReq                     -- inbound requests not yet done, oldest first (R647)
  pcieReply : List (List Byte × Nat)           -- completions sent: bytes; 0 good, 1 poisoned, 2 Unsupported Request
  cfgOut : List (Bool × Nat × Word × Word)     -- configuration requests sent: read, type, PCIE_CFG_ADDR, PCIE_CFG_DATA
  cfgRead : Bool                               -- the one in flight is a read
  epSent : List (Nat × List Byte)              -- USB IN packets sent: endpoint index, bytes
  usbFail : List Nat                           -- endpoints whose descriptor at HEAD is to fail (R652)
  msix : List (Nat × Byte)                     -- bytes of the MSI-X table that are not 0 (R645)
  msixSent : List Nat                          -- MSI-X vectors signalled (R694)
  pcieId : BitVec 16                           -- Device ID of the endpoint (R645)
deriving DecidableEq, Repr

structure Display where
  shown : List (Nat × Word)      -- double-buffered registers in force, by address
  committed : List (Nat × Word)  -- as the latest COMMIT found them
  commitPending : List Bool      -- by output
  weight : List Nat              -- applied weight, in 64ths, by output
  band : List Nat                -- lower band of the blend, by output
  lux : Int                      -- filtered f, in 2^-16 lux
  blankAt : List Nat             -- when the latest vertical blank began, by output
  missing : List (Nat × Nat × Word)  -- output, line and which pixels had not arrived (R657)
  xfers : List (Nat × Word × List Byte)  -- transfers sent: output, DISP_OUT_XFER, payload
  xferDue : List Bool            -- a DSI-2 packet waits for the vertical blank, by output
deriving DecidableEq, Repr

/-! ## DMA, power, counters -/

/-- A DMA channel (R766, R767): what GO latched, and an ERR already known. -/
structure DmaChan where
  src : Nat
  dst : Nat
  words : Nat
  paced : Bool
  err : Nat
deriving DecidableEq, Repr

structure Power where
  participants : List Nat
  agreed : List Nat
  force : Bool
  quiescentVote : Bool
  target : Nat                      -- deepest target of the vote: 0 Doze, 1 Dormant, 2 Quiescent
  voteTb : Nat                      -- when the vote started
  doneTb : Nat                      -- when it completed
  pendingGo : Option (Bool × Bool)  -- a held GO: FORCE, QUIESCENT (R670)
  startNext : Bool                  -- the held GO starts at the next tick
  quiescent : Bool
  enteredTb : Nat                   -- when Quiescent was entered
  wakePending : Bool                -- a wake source has asserted in Quiescent
  touchSums : Option (List Nat)     -- sums of the first wake scan (R674)
  touchRef : Nat                    -- when the latest wake scan ran, on the reference count
  pendFreq : List Nat               -- domains whose CLK_DOM_FREQ applies at the next tick
  goals : List (Nat × Nat)          -- domain, TARGET as the vote took it at its start (R670)
deriving DecidableEq, Repr

structure Counters where
  pmc : List (Nat × Word)           -- PMC_SEL and PMC_CNT of the 64 blocks, by address
  snapshot : List Word              -- CNT0 to CNT3 of the 64 blocks as latched, then the 34 PMC_BW
  snapSat : Bool
  record : List Word                -- words 0 to 510 of the record not yet written; empty: none
  recordAt : Nat                    -- its physical word address
  ports : List Nat                  -- running totals of the 34 ports
  windowValid : Bool
  windowEnd : Option (List Nat)     -- totals of a window that has ended and not moved into PMC_BW
  pendSel : List (Nat × Word)       -- PMC_SEL writes that apply at the next tick
  frozen : Bool
deriving DecidableEq, Repr

/-! ## Medulla (chapter 19) -/

structure LogRec where
  w0 : Word
  w1 : Word
  w2 : Word
  w3 : Word
deriving DecidableEq, Repr

structure BootRec where
  seq : Nat
  fwAct : Bool
  stAct : Bool
  fwTrial : Bool
  stTrial : Bool
  fwTries : Nat
  stTries : Nat
  fwFallback : Bool
  stFallback : Bool
deriving DecidableEq, Repr

/-- A retirement or soft repair kept in the settings (R703, R744). -/
structure Retired where
  kind : Nat
  unit : Nat
  bank : Nat
  row : Nat
  col : Nat
  fmt : Nat
  entry : Nat           -- the shadow entry of a row (R445, R459)
deriving DecidableEq, Repr

/-- A mailbox port: the posted command as it stood at its post (R693), and the stored result (R696). -/
structure MboxPort where
  posted : Bool
  ready : Bool
  level : Nat
  cmd : Word
  args : List Word
  buf : List Word
  lastSeq : Option Nat
  stored : List Word            -- stored result: MBX_RES then MBX_RDATA 0 to 7
  resultTb : Nat
  remote : Nat                  -- node served by port 2
deriving DecidableEq, Repr

structure Session where
  port : Nat
  kind : Nat
  delta : Bool
  payload : Nat
  result : Nat
  blocks : List Nat
  lastTb : Nat
deriving DecidableEq, Repr

structure Medulla where
  vlog : List LogRec              -- newest first
  flog : List LogRec
  norVlog : List LogRec
  norFlog : List LogRec
  boot : BootRec
  bootStart : BootRec             -- the record as the boot ROM wrote it at this start (R771)
  bootCopies : List (Option BootRec)
  settings : List Retired         -- records in the running settings format (R703)
  oldSettings : List Retired       -- records in other settings formats (R703)
  confirmedFmt : Nat
  fwFloor : Nat
  stFloor : Nat
  sfmt : Nat
  version : Nat
  fwRunning : Nat                 -- 0 A, 1 B, 2 recovery mode
  ports : List MboxPort
  session : Option Session
  verified : List Nat             -- KINDs whose inactive slot UPD_END has verified since start-up
  sram : List (Nat × Word)
  checkstops : List (Nat × Word × Word × Word × Word)   -- records waiting: core, PC, status, ecause, eaddr
  resettable : List Nat           -- checkstopped cores whose record is logged
  nextPort : Nat
deriving DecidableEq, Repr

/-! ## Module -/

/-- What the module as a whole is doing. -/
inductive Mode where
  | off                          -- a supply is out
  | inReset (cause : Nat)        -- the blocks stand in reset; the start-up stages have not run
  | started                      -- start-up has run; the clusters are not released
  | running                      -- released
  | hold (fault : Nat)           -- the fault hold of R739
  | refLost                      -- domain 57 clock fault: in reset until the reference returns
deriving DecidableEq, Repr

structure Sys where
  mode : Mode
  bypass : Bool                  -- the bypass die conducts (R27)
  held : List Nat                -- clock domains held after a clock fault (R57)
  autoTimes : List Nat           -- times of automatic resets (R740)
  recovery : Bool                -- the recovery structure is applied (R75)
  loaderEntry : Word
  thermN : Bool                  -- the THERM_N ball reads low: the trip has occurred
  padSafe : List (Nat × Word)    -- pads and the values they drive while the outputs are safe (R728)
  tlbOps : List (Nat × TlbOp × List Nat)  -- broadcasts: issuer, operation, receivers to come
deriving DecidableEq, Repr

/-- The whole block. -/
structure State where
  pending : List Instr
  regs : List (Nat × Word)
  cores : Vector Core 33
  coh : Coh
  dram : List (Nat × BitVec 64)
  memctl : MemCtl
  sorus : List (Nat × SorusWord)
  sorusCtl : SorusCtl
  nor : List (Nat × Byte)
  struct : StructState
  outs : List Output
  tick : TickState
  timers : Timers
  sense : Sense
  touch : Touch
  ring : Ring
  pinna : Pinna
  io : Io
  disp : Display
  dma : List DmaChan
  power : Power
  cnt : Counters
  mdl : Medulla
  sys : Sys
  tb : BitVec 96
  ref : Nat                         -- nanoseconds that domain 57 has counted (R49, R322)
  tbLatch : List (Nat × Word)       -- TBH latches of requesters in register space (R316)
  readOut : Word                    -- the value the latest register-read command returned
  free : Nat                        -- the model's own: counts the free values taken
deriving DecidableEq, Repr

/-! ## Reset -/

def SaveSet.reset : SaveSet := ⟨0, 0, 0, 0, 0, 0⟩

def MulUnit.reset : MulUnit := ⟨0, 0, []⟩

def Tlbs.reset : Tlbs := ⟨[], [], [], false⟩

def Predictors.reset : Predictors := ⟨0, List.replicate 32 0, [], []⟩

def FrameState.reset : FrameState := ⟨false, false, false, 0, false, false, true, []⟩

/-- A core at reset (R91, R125, R147, R150, R182, R264, R503, R310). The manual gives pc no reset value. -/
def Core.reset : Core where
  g := Vector.replicate 32 0
  b := Vector.replicate 4 0
  pc := 0
  status := 0x0F73
  fcs := 0
  rsp := 0
  rss := 0
  rslo := 0
  rshi := 0xFFFFFFFFFFFF
  lctl := 0
  ls := Vector.replicate 3 0
  le := Vector.replicate 3 0
  lc := Vector.replicate 3 0
  mul := MulUnit.reset
  cpoly := Vector.replicate 2 0x01201EDC6F41
  save := Vector.replicate 3 SaveSet.reset
  asid := 0
  ptb1 := 0
  vmid := 0
  ptb2 := 0
  ucnt := 0
  tbhLatch := 0
  fentry := 0
  fstat := 0x0F73
  run := .held
  statusQueue := []
  slot := none
  waiting := none
  abandoned := []
  storeBuffer := []
  tlb := Tlbs.reset
  predict := Predictors.reset
  contention := []
  events := []
  frame := FrameState.reset
  presented := none
  active := []
  virtCtl := 6
  src63Active := false
  src63On := false
  src63Ts := 0

def Coh.reset : Coh := ⟨[], [], [], [], [], [], [], [], [], [], 0, 0, [], 0⟩

def MemCtl.reset : MemCtl :=
  ⟨[], List.replicate 8 0, List.replicate 8 0, [], [], [], List.replicate 8 0, true⟩

def SorusCtl.reset : SorusCtl := ⟨[], [], []⟩

def Image.reset : Image := ⟨[], [], [], [], 0, 0, [], [], [], [], none, [], 0, 0⟩

def StructState.reset : StructState := ⟨Image.reset, [], [], [], []⟩

def TickState.reset : TickState := ⟨false, 0, [], [], [], 0⟩

def Timers.reset : Timers := ⟨List.replicate 4 [], List.replicate 36 0, []⟩

def SenseChan.reset : SenseChan := ⟨0, 3, false, none, 0, 0, 0, false, 0x800000, false, false⟩

/-- A DAC at reset: off, with the 15 mA limit of R580. -/
def DacState.reset : DacState := ⟨0x0F00000000, 0, 0, false, false⟩

def Sense.reset : Sense := ⟨List.replicate 32 SenseChan.reset, List.replicate 8 DacState.reset, 0, false, 0⟩

def Touch.reset : Touch := ⟨0, 0x03E864106000, 0, 0, [], [], List.replicate 16 0, 0, 0, false, 0xFF⟩

def RingPort.reset : RingPort := ⟨[], [], [], 0, false, 0, [], false, 0⟩

def Ring.reset : Ring where
  ports := List.replicate 2 RingPort.reset
  good := []
  badEast := []
  badWest := []
  wrongTwins := []
  wrote := []
  streaks := []
  header := false
  hdrEast := false
  h0 := 0
  values := 0
  eastSeen := 0
  westSeen := 0
  holdoverFrames := 0
  claims := 0
  claimed := false
  lowerClaim := false
  joinedFrames := 0
  handover := none
  announced := false
  handed := false
  stop := false
  lateEast := false
  lateWest := false
  hopsEast := 0
  hopsWest := 0
  line := false
  paceNow := false
  narrowSeen := false
  clearSeen := 0
  dupNow := false
  dupStreak := 0
  stuck := false
  rxBase := 0
  layout := 0x1000
  done := none
  txq := []
  placed := []
  seqs := []
  seen := []
  lastSeq := []
  outFrames := []
  outBlocks := []
  emitted := false
  laneHistory := []
  laneRaised := []
  tickErr := 0
  aligned := false

def PinnaInst.reset : PinnaInst := ⟨0, 0, 0, [], 0, 0, 0, [], 0, 0, false, 0, 0, []⟩

def QueueState.reset : QueueState := ⟨0, 0, false, 0, 0, [], [], 0, 0, true⟩

def Pinna.reset : Pinna := ⟨List.replicate 64 PinnaInst.reset, List.replicate 256 QueueState.reset, []⟩

def Io.reset : Io where
  uartTx := List.replicate 4 []
  uartRx := List.replicate 4 []
  uartMatched := List.replicate 4 false
  uartLine := List.replicate 4 []
  ethTx := []
  ethStart := [0, 0]
  ethCut := []
  ethCredit := List.replicate 8 ⟨0, 0, false⟩
  gclStart := [0, 0]
  swapPending := List.replicate 2 false
  mdioBusy := List.replicate 2 false
  mdioDue := List.replicate 2 false
  mdioLog := []
  canTx := []
  canOvf := List.replicate 8 false
  pcieRoleFixed := false
  pcieEpOk := false
  pcieOut := []
  pcieReads := []
  pcieIn := []
  pcieReply := []
  cfgOut := []
  cfgRead := false
  epSent := []
  usbFail := []
  msix := []
  msixSent := []
  pcieId := 0x4816

def Display.reset : Display := ⟨[], [], [false, false], [0, 0], [0, 0], 0, [0, 0], [], [], [false, false]⟩

def DmaChan.reset : DmaChan := ⟨0, 0, 0, false, 0⟩

def Power.reset : Power := ⟨[], [], false, false, 0, 0, 0, none, false, false, 0, false, none, 0, [], []⟩

def Counters.reset : Counters :=
  ⟨[], [], false, [], 0, List.replicate 34 0, false, none, [], false⟩

def BootRec.reset : BootRec := ⟨0, false, false, false, false, 0, 0, false, false⟩

def MboxPort.reset : MboxPort := ⟨false, false, 0, 0, List.replicate 8 0, List.replicate 683 0, none, [], 0, 0⟩

def Medulla.reset : Medulla where
  vlog := []
  flog := []
  norVlog := []
  norFlog := []
  boot := BootRec.reset
  bootStart := BootRec.reset
  bootCopies := [none, none]
  settings := []
  oldSettings := []
  confirmedFmt := 0
  fwFloor := 0
  stFloor := 0
  sfmt := 0
  version := 0
  fwRunning := 2
  ports := List.replicate 3 MboxPort.reset
  session := none
  verified := []
  sram := []
  checkstops := []
  resettable := []
  nextPort := 0

def Sys.reset : Sys := ⟨.inReset 1, true, [], [], false, 0, false, [], []⟩

/-- The module right after a power-up reset (R726, R742, chapter 21 "State after a module reset"): every core held,
every cache, directory and TLB empty, no tick, the bypass conducting, every register at its reset value. -/
def State.reset : State where
  pending := []
  regs := []
  cores := Vector.replicate 33 Core.reset
  coh := Coh.reset
  dram := []
  memctl := MemCtl.reset
  sorus := []
  sorusCtl := SorusCtl.reset
  nor := []
  struct := StructState.reset
  outs := []
  tick := TickState.reset
  timers := Timers.reset
  sense := Sense.reset
  touch := Touch.reset
  ring := Ring.reset
  pinna := Pinna.reset
  io := Io.reset
  disp := Display.reset
  dma := List.replicate 8 DmaChan.reset
  power := Power.reset
  cnt := Counters.reset
  mdl := Medulla.reset
  sys := Sys.reset
  tb := 0
  ref := 0
  tbLatch := []
  readOut := 0
  free := 0

end Sys2Proof.Machine
end

