-- ==== Sys2Proof/Machine/Ops.lean ====
section
/-! DEFINITION. The named operations that every family shares: cores, registers of register space, counters, the
interrupt controller's assertion of a source, the Medulla core's logs, the safe state, module faults, and taking an
exception. -/

namespace Sys2Proof.Machine

open Sys2Proof

/-! ## Cores -/

def State.core (s : State) (c : CoreId) : Core := s.cores[c.agent]

def State.setCore (s : State) (c : CoreId) (k : Core) : State := { s with cores := s.cores.set c.agent k }

def State.modCore (s : State) (c : CoreId) (f : Core → Core) : State := s.setCore c (f (s.core c))

/-- The core with an agent number (R29). -/
def coreOfAgent (n : Nat) : Option CoreId :=
  if h : n < 16 then some (.app ⟨n, h⟩)
  else if h2 : n - 16 < 16 then some (.frond ⟨n - 16, h2⟩)
  else if n = 32 then some .medulla else none

/-- The agent number of a core, as a number (R29). -/
def coreNum (c : CoreId) : Nat := c.agent.val

/-- status.PL (R263). -/
def Core.pl (k : Core) : Nat := fld k.status 1 0
/-- status.IML (R263). -/
def Core.iml (k : Core) : Nat := fld k.status 6 4
/-- status.EML (R263). -/
def Core.eml (k : Core) : Nat := fld k.status 10 8
/-- status.GX (R263). -/
def Core.gx (k : Core) : Bool := bit k.status 11
/-- status.VM (R263). -/
def Core.vm (k : Core) : Bool := bit k.status 12

/-- A general register; g0 reads zero (R91). -/
def Core.reg (k : Core) (r : Reg) : Word := if r = 0 then 0 else k.g[r]

/-- Writes a general register; a write to g0 is discarded (R91). -/
def Core.setReg (k : Core) (r : Reg) (v : Word) : Core := if r = 0 then k else { k with g := k.g.set r v }

/-! ## Registers of register space, raw -/


/-- The performance-counter registers, whose home is the collector (R724). -/
def isPmc (a : Nat) : Bool := 0x800130100 ≤ a && a < 0x800130300

/-- What a register holds: the listed value, else its reset value (R9). -/
def regGet (s : State) (a : Nat) : Word :=
  if isPmc a then sread regReset s.cnt.pmc a else sread regReset s.regs a

/-- Sets a register to a value, by hardware: no check, no mask. -/
def regSet (s : State) (a : Nat) (v : Word) : State :=
  if isPmc a then { s with cnt := { s.cnt with pmc := swrite regReset s.cnt.pmc a v } }
  else { s with regs := swrite regReset s.regs a v }

/-- Sets a field of a register, by hardware. -/
def regFld (s : State) (a hi lo v : Nat) : State := regSet s a (setFld (regGet s a) hi lo v)

/-- Reads a field of a register. -/
def regF (s : State) (a hi lo : Nat) : Nat := fld (regGet s a) hi lo

/-- A flag of a register. -/
def regB (s : State) (a n : Nat) : Bool := bit (regGet s a) n

/-- Adds to a field that saturates at its top. -/
def regAddSat (s : State) (a hi lo n : Nat) : State :=
  regFld s a hi lo (satN (hi + 1 - lo) (regF s a hi lo + n))

/-- Adds to a field, modulo its size. -/
def regAdd (s : State) (a hi lo n : Nat) : State := regFld s a hi lo (regF s a hi lo + n)

/-- A fresh free value: a value the manual leaves open. -/
def State.takeFree (s : State) : Word × State := (Config.freeWord s.free, { s with free := s.free + 1 })

/-- An element of a list that the manual does not choose; the only one where there is no choice. -/
def pickOne {α : Type} (s : State) (l : List α) : Option α × State :=
  match l with
  | [] => (none, s)
  | [a] => (some a, s)
  | a :: t => let (w, s) := s.takeFree
              (some ((a :: t).getD (w.toNat % (t.length + 1)) a), s)

/-! ## Time (R315) -/

/-- TBL: bits 47:0 of the time base. -/
def State.tbl (s : State) : Word := s.tb.extractLsb' 0 48

/-- TBH: bits 95:48 of the time base. -/
def State.tbh (s : State) : Word := s.tb.extractLsb' 48 48

/-- The time base as a number of nanoseconds. -/
def State.now (s : State) : Nat := s.tb.toNat

/-- The time base counts: the power-up reset has ended, domain 56 is not held after a clock fault, and the module is not
in Quiescent, where domain 57 alone runs (R58, R315, R662, R676). It counts on while the reference clock is lost: R727 lets
every reset but the power-up leave it counting, and R49 and R58 do not say whether its PLL runs on. DESIGN CHOICE, log
entry 141. -/
def State.timeCounts (s : State) : Bool :=
  match s.sys.mode with
  | .off => false
  | .inReset 1 => false
  | _ => !s.sys.held.contains 56 && !s.power.quiescent

/-- Domain 57 counts: the module is powered and its reference has not stopped (R49, R58). -/
def State.refCounts (s : State) : Bool :=
  match s.sys.mode with
  | .off => false
  | .refLost => false
  | _ => true

/-- A nanosecond passes with no command waiting (R49, R315). -/
def State.idle (s : State) : State :=
  { s with tb := if s.timeCounts then s.tb + 1 else s.tb, ref := if s.refCounts then s.ref + 1 else s.ref }

/-! ## Performance counters (R710 to R715) -/

/-- One counter k of block b adds n events of a code, if it is enabled for it; SAT is set when it saturates. -/
def bumpOne (c : Counters) (b code n k : Nat) : Counters :=
  let sel := sread regReset c.pmc (aPmcSel b)
  if bit sel (44 + k) && fld sel (10 * k + 9) (10 * k) = code then
    let v := (sread regReset c.pmc (aPmcCnt b k)).toNat + n
    let p := swrite regReset c.pmc (aPmcCnt b k) (w48 (satN 48 v))
    { c with pmc := if 2 ^ 48 - 1 ≤ v then swrite regReset p (aPmcSel b) (setBit sel (40 + k) true) else p }
  else c

/-- Block b counts n events of a code (R710); nothing counts while FREEZE holds (R715). -/
def bumpCnt (c : Counters) (b code n : Nat) : Counters :=
  if c.frozen then c
  else bumpOne (bumpOne (bumpOne (bumpOne c b code n 0) b code n 1) b code n 2) b code n 3

def count (s : State) (b code : Nat) (n : Nat := 1) : State := { s with cnt := bumpCnt s.cnt b code n }

/-- Adds to the running total of a bandwidth port (R719). -/
def bwAdd (s : State) (p n : Nat) : State := { s with cnt := { s.cnt with ports := modAt s.cnt.ports p (· + n) } }

/-! ## Interrupt controller: selection and assertion (R295 to R300, R308, R309) -/

def srcPend (s : State) (n : Nat) : Bool := regB s (aSrcState n) 0
def srcAct (s : State) (n : Nat) : Bool := regB s (aSrcState n) 1
def srcLine (s : State) (n : Nat) : Bool := regB s (aSrcState n) 2

/-- The core runs the guest that owns a VIRT = 1 source (R308). -/
def guestRuns (k : Core) (vmid : Nat) : Bool := k.vm && fld k.vmid 11 0 = vmid

/-- A source that the controller may present to target t (R295, R308): pending, enabled, not active, PRIO above 0. -/
def deliverable (s : State) (t n : Nat) : Bool :=
  let r := regGet s (aRoute n)
  let st := regGet s (aSrcState n)
  bit st 0 && !bit st 1 && bit r 0 && fld r 14 9 = t && fld r 7 5 ≠ 0 &&
  (!bit r 35 || match coreOfAgent t with
    | some c => guestRuns (s.core c) (fld r 47 36)
    | none => false)

/-- A pending, enabled VIRT = 1 source that R308 holds back from core t (R309). One that is active is not held back, since
R297 keeps it from presentation; one of priority 0 is. DESIGN CHOICE, log entry 167. -/
def heldVirtual (s : State) (t n : Nat) : Bool :=
  let r := regGet s (aRoute n)
  let st := regGet s (aSrcState n)
  bit st 0 && !bit st 1 && bit r 0 && fld r 14 9 = t && bit r 35 &&
  match coreOfAgent t with
  | some c => !guestRuns (s.core c) (fld r 47 36)
  | none => false

/-- The lowest-numbered held virtual source of a core (R310). -/
def firstHeld (s : State) (t : Nat) : Option Nat := (upto 320).find? (heldVirtual s t)

/-- Source 63 of an application core asserts (R309). -/
def src63Line (s : State) (t : Nat) : Bool :=
  match coreOfAgent t with
  | some (.app i) => bit (s.core (.app i)).virtCtl 3 && (firstHeld s t).isSome
  | _ => false

/-- The better of two presentations: higher PRIO, then lower source number (R295). -/
def betterPresented (a : Option Presented) (b : Presented) : Option Presented :=
  match a with
  | none => some b
  | some p => if p.prio < b.prio || (p.prio = b.prio && b.src < p.src) then some b else a

/-- Source n as the controller may present it to target t now (R295, R308, R309). -/
def candidate (s : State) (t n : Nat) : Option Presented :=
  if n = 63 then
    match coreOfAgent t with
    | some (.app i) =>
      let k := s.core (.app i)
      if src63Line s t && !k.src63Active && fld k.virtCtl 2 0 ≠ 0 then some ⟨63, fld k.virtCtl 2 0, 2, none, none⟩ else none
    | _ => none
  else if deliverable s t n then
    let r := regGet s (aRoute n)
    some ⟨n, fld r 7 5, fld r 2 1, if bit r 35 then some (fld r 47 36) else none, none⟩
  else none

/-- The controller's domain is held in reset after a clock fault: it takes no event and presents nothing (R48, R57). -/
def intHeld (s : State) : Bool := s.sys.held.contains 62

/-- The source the controller selects for target t now (R295, R309). -/
def selectSource (s : State) (t : Nat) : Option Presented :=
  if intHeld s then none
  else (upto 320).foldl (fun a n => match candidate s t n with
    | some p => betterPresented a p
    | none => a) none

/-- What the core is shown: the source selected now, or one presented earlier that the controller has withdrawn, whose
acceptance will receive 511 (R296). A withdrawn one stands before another source for the nanosecond of its withdrawal,
which the model takes as one controller cycle (R300). DESIGN CHOICE, log entry 175. A virtual source is never presented
outside its guest (R308). -/
def presentedNow (s : State) (c : CoreId) : Option Presented :=
  let best := selectSource s (coreNum c)
  match (s.core c).presented with
  | none => best
  | some p =>
    if intHeld s then none
    else
      let stands := p.lost.isNone && candidate s (coreNum c) p.src = some p
      let old := { p with lost := some (p.lost.getD s.now) }
      let shown := if old.guest.all (guestRuns (s.core c)) then some old else none
      if stands then best
      else if old.lost = some s.now then (match shown with
        | some q => some q
        | none => best)
      else match best with
        | some q => some q
        | none => shown

/-- The controller presents to a target after something changed (R295). -/
def represent (s : State) (t : Nat) : State :=
  match coreOfAgent t with
  | some c =>
    let on := src63Line s t
    s.modCore c fun k => { k with
      presented := presentedNow s c
      src63On := on
      src63Ts := if on && !k.src63On then s.tbl else k.src63Ts }
  | none => s

/-- What the controller keeps of a core that is reset alone, the group that the image gives it (R503), the accesses that an
abandoned frame left in flight (R475), and every other field at its reset value (R91, R182). -/
def Core.toReset (k : Core) : Core :=
  { Core.reset with
    fstat := setFld Core.reset.fstat 35 34 (fld k.fstat 35 34)
    active := k.active, presented := k.presented, virtCtl := k.virtCtl, src63Active := k.src63Active,
    src63On := k.src63On, src63Ts := k.src63Ts, abandoned := k.abandoned
    frame := { FrameState.reset with parkPending := k.frame.parkPending } }

/-- A core takes its reset state and goes on as `run` says (R726); the virtual sources of the guest that it ran are held
back from now on (R308, R309). -/
def coreToReset (s : State) (c : CoreId) (run : RunState) : State :=
  represent (s.modCore c fun k => { k.toReset with run := run }) (coreNum c)

/-- An edge of a source (R291, R297 to R299): PEND is set with its time, or the edge merges. The event of an engine is a
pulse, which leaves LINE low. -/
def assertEdge (s : State) (n : Nat) : State :=
  if isReservedSource n || intHeld s then s
  else if srcPend s n then regAddSat s (aSrcState n) 47 40 1
  else
    let s := regSet (regFld s (aSrcState n) 0 0 1) (aSrcTs n) s.tbl
    represent s (regF s (aRoute n) 14 9)

/-- The event line of a level source (R291, R297): PEND follows it. -/
def setLine (s : State) (n : Nat) (on : Bool) : State :=
  if isReservedSource n || intHeld s then s
  else if on then
    let s := if srcPend s n then s else regSet s (aSrcTs n) s.tbl
    let s := regFld s (aSrcState n) 2 2 1
    let s := regFld s (aSrcState n) 0 0 1
    represent s (regF s (aRoute n) 14 9)
  else represent (regFld (regFld s (aSrcState n) 2 2 0) (aSrcState n) 0 0 0) (regF s (aRoute n) 14 9)

/-- The input of an edge source takes a level (R291, R298): LINE shows it, and its rise is the edge. -/
def setEdgeInput (s : State) (n : Nat) (on : Bool) : State :=
  if isReservedSource n || intHeld s then s
  else
    let t := regFld s (aSrcState n) 2 2 on.toNat
    if on && !srcLine s n then assertEdge t n else t

/-! ## Logs of the Medulla core (R705 to R708, R778) -/

/-- MDL_LOG_STAT shows how many records each log holds (R708). -/
def logStat (s : State) : State :=
  let s := regFld s aLogStat 15 8 (satN 8 (s.mdl.vlog.length / 4))
  regFld s aLogStat 7 0 (satN 8 (s.mdl.flog.length / 4))

/-- A record in front of a ring of 1024 records; a full ring loses its oldest. -/
def pushRec (l : List LogRec) (r : LogRec) : List LogRec := (r :: l).take 1024

/-- Writes a fault record (R706, R707) and raises source 310 (R705). -/
def logFault (s : State) (code unit src : Nat) (w2 w3 : Word) : State :=
  let full := 1024 ≤ s.mdl.flog.length
  let r : LogRec := ⟨s.tbl, mk 47 40 code ||| mk 39 32 unit ||| mk 31 0 src, w2, w3⟩
  let s := { s with mdl := { s.mdl with flog := pushRec s.mdl.flog r } }
  let s := if full then regAddSat s aLogStat 31 16 1 else s
  assertEdge (logStat s) 310

/-- The requester number of a violation record (R706, R769). -/
def rqNum : Requester → Nat
  | .core c => coreNum c
  | .debug => 63
  | .pcieHost => 33

/-- The level a requester works at: status.PL of a core, PL3 for the debug port (R769). -/
def rqLevel (s : State) : Requester → Nat
  | .core c => (s.core c).pl
  | .debug => 3
  | .pcieHost => 0

/-- The violation sources: 233 for cause 3, 238 for any other (R778). -/
def violationSource (cause : Nat) : Nat := if cause = 3 then 233 else 238

/-- Logs a violation (R705, R706, R778). A repeat of the newest record within 1 ms adds to its count. -/
def violation (s : State) (cause rq lvl : Nat) (write : Bool) (addr : Nat) : State :=
  let fresh : LogRec := ⟨s.tbl, mk 47 40 cause ||| mk 39 34 rq ||| mk 33 32 lvl ||| mk 31 31 write.toNat ||| 1,
    w48 addr, regGet s aTickCount⟩
  let again := match s.mdl.vlog with
    | [] => false
    | r :: _ => fld r.w1 47 40 = cause && fld r.w1 39 34 = rq && r.w2 = w48 addr &&
        (s.tbl - r.w0).toNat ≤ 1000000
  match s.mdl.vlog, again with
  | r :: t, true =>
    let r := { r with w1 := setFld r.w1 15 0 (satN 16 (fld r.w1 15 0 + 1)) }
    assertEdge { s with mdl := { s.mdl with vlog := r :: t } } (violationSource cause)
  | l, _ =>
    let full := 1024 ≤ l.length
    let s := { s with mdl := { s.mdl with vlog := pushRec l fresh } }
    let s := if full then regAddSat s aLogStat 47 32 1 else s
    assertEdge (assertEdge (logStat s) 310) (violationSource cause)

/-- A violation by a requester of register space. -/
def rqViolation (s : State) (cause : Nat) (rq : Requester) (write : Bool) (addr : Nat) : State :=
  violation s cause (rqNum rq) (rqLevel s rq) write addr

/-! ## Tick groups, clock domains and the safe state (R48, R482, R484, R774) -/

/-- The members of a tick group (R498). -/
def grpMembers (s : State) (g : Nat) : Nat := regF s (aGrpCfg g) 15 0

/-- The tick group of a Frond core. -/
def groupOf (s : State) (i : Nat) : Option Nat := (upto 4).find? fun g => (grpMembers s g).testBit i

/-- STATE of a domain (R681). -/
def domState (s : State) (d : Nat) : Nat := regF s (aPwrPolicy d) 47 46

/-- The clock domain of a core (R48, R50). -/
def coreDomain (s : State) (c : CoreId) : Nat :=
  match c with
  | .app i => i.val
  | .frond i => 20 + (groupOf s i.val).getD 0
  | .medulla => 25

/-- The CLOCK entry of a domain in the applied image (R69). -/
def clockWord (s : State) (d : Nat) : Word := s.struct.image.clock.getD d 0

/-- The domain runs after release (R69, R75). -/
def domainEnabled (s : State) (d : Nat) : Bool := bit (clockWord s d) 47

/-- A pad carries a function of the applied PAD section (R630, R748). -/
def funcPlaced (s : State) (f : Nat) : Bool := s.struct.image.pads.any fun w => fld w 35 28 = f

/-- A domain's units act: it is in Run, which a domain that the image leaves out is not, and its clock is not stopped by a
clock fault, by Quiescent, or by its own agreement to a vote (R57, R60, R662, R665, R676). -/
def unitRuns (s : State) (d : Nat) : Bool :=
  !s.power.quiescent && domState s d = 0 && !regB s (aPwrPolicy d) 45 && !s.sys.held.contains d

/-- A domain's clock stands still: after a clock fault, in Dormant or Off, or in Quiescent (R57, R662). A gated clock, of
Doze, starts for what its block is asked to do (R55, R385). -/
def clockStopped (s : State) (d : Nat) : Bool := s.power.quiescent || 2 ≤ domState s d || s.sys.held.contains d

/-- A core may execute: its domain's units act (R662, R665). -/
def coreClocked (s : State) (c : CoreId) : Bool := unitRuns s (coreDomain s c)

/-- The Medulla core acts (R662, R676). -/
def medullaActs (s : State) : Bool := (s.core .medulla).run = .running && coreClocked s .medulla

/-- Pair p runs in lockstep (R498). -/
def isPair (s : State) (p : Nat) : Bool := (upto 4).any fun g => regB s (aGrpCfg g) (16 + p)

/-- Frond core i is the checker of a lockstep pair (R470). -/
def isChecker (s : State) (i : Nat) : Bool := i % 2 = 1 && isPair s (i / 2)

/-- The domain of the block that holds a register (R48, R764); none for a block that no domain of its own stops. -/
def regDomain (s : State) (a : Nat) : Option Nat :=
  let o := (a - regBase) % 0x10000
  match (a - regBase) / 0x10000 with
  | 2 => some 62
  | 3 => some 56
  | 4 => if 0x100 ≤ o then some (16 + (o - 0x100) / 32) else none
  | 5 => if 0x100 ≤ o then some (26 + (o - 0x100) / 16) else none
  | 6 =>
    let unit (i : Nat) : Option Nat := (groupOf s i).map (20 + ·)
    if o < 0x20 then some 56
    else if o < 0x50 then unit (o % 16)
    else if o < 0x58 then unit (2 * (o - 0x50))
    else unit ((o - 0x100) / 4)
  | 7 => some 24
  | 8 => if o = 8 || o = 0x10 || o = 0x11 then some 34 else if o = 9 || o = 0x12 || o = 0x13 then some 35 else none
  | 9 =>
    if o < 0x10 then none
    else if o < 0x50 then some (51 + (o % 0x20 + 16) / 16 % 2)
    else if o < 0x60 then some (51 + o % 8 / 4)
    else some 53
  | 0xA => some 59
  | 0xC => some (40 + 2 * (o / 0x200))
  | 0xD => some 54
  | 0xE => if o < 0x1000 then some 45 else some 47
  | 0xF => if 0x40 ≤ o && o < 0x60 then some (48 + (o - 0x40) / 16) else some 50
  | 0x11 => some 25
  | 0x12 => some 25
  | 0x13 => some 60
  | 0x15 => some 57
  | 0x16 => some 63
  | 0x100 => some 59
  | 0x101 => some 59
  | 0x102 => some 59
  | 0x103 => some 59
  | _ => none

/-- The causes of R484 that permit RELEASE. -/
def causePermits (c : Nat) : Bool := c = 1 || c = 3

/-- Front copies of a group's outputs take the values f gives them. -/
def setFronts (s : State) (g : Nat) (f : Output → Word) : State :=
  { s with outs := s.outs.map fun o => if o.group = g then { o with front := f o } else o }

/-- The group enters the safe state for a cause, or meets a further cause in it (R484, R774): its registers, its outputs
and its source. -/
def safeEnter (s : State) (g cause : Nat) : State :=
  let st := regGet s (aGrpStat g)
  if bit st 5 then
    let st := if causePermits (fld st 11 8) && !causePermits cause then setFld st 11 8 cause else st
    regSet s (aGrpStat g) (setBit st 4 false)
  else
    let s := regSet s (aGrpStat g) (setBit (setFld (setBit st 5 true) 11 8 cause) 4 false)
    assertEdge (setFronts s g (·.safe)) (16 + g)

/-- A group meets a cause of the safe state, and the Medulla core, if it runs, writes its record (R484, R774). -/
def safeGroup (s : State) (g cause : Nat) : State :=
  let t := safeEnter s g cause
  if (s.core .medulla).run = .running then
    logFault t 0x11 g (if regB s (aGrpStat g) 5 then 0 else 16 + g) 0 (w48 cause)
  else t

/-! ## Module faults (R738 to R741) -/

/-- The bypass conducts (R554, R561): the node is in state 0 and its ports are not used; a change of state 2, 4, 6 or 7
raises source 237 (R555), and RING_RTT reads 0 (R568). -/
def closeRing (s : State) : State :=
  let old := regF s aRingStat 47 45
  let s := (upto 2).foldl (fun s p => regFld (regFld s (aRingPort p) 7 4 0) (aRingPort p) 1 0 0)
    (regSet (regFld s aRingStat 47 45 0) aRingRtt 0)
  let s := { s with
    sys := { s.sys with bypass := true }
    ring := { s.ring with ports := s.ring.ports.map fun x => { x with
      stopWrap := false, training := false, dlyOpen := [] } } }
  if old = 2 || old = 4 || old = 6 || old = 7 then assertEdge s 237 else s

/-- The faults whose action is the hold (R738). -/
def faultHolds (f : Nat) : Bool := f = 2 || f = 4 || f = 7 || f = 8 || f = 9

/-- Every cluster is held in reset and the tick stops (R36, R739). -/
def holdClusters (s : State) : State :=
  let s := { s with
    cores := s.cores.mapIdx fun i k => if i = 32 then k else { k with run := .held, waiting := none, slot := none }
    tick := { s.tick with running := false } }
  regFld s aTickStat 1 0 0

/-- The pads that keep their safe values through a reset (R728): those of the image in force, else those kept so far. -/
def padSafes (s : State) : List (Nat × Word) :=
  if s.outs.isEmpty then s.sys.padSafe
  else (s.outs.filter fun o => o.kind = 0).map fun o => (o.target, o.safe)

/-- Every excitation output is high impedance (R596). -/
def dacsOff (s : State) : State :=
  { s with sense := { s.sense with dacs := s.sense.dacs.map fun x => { x with applied := setFld x.applied 47 46 0 } } }

/-- The module enters reset with a cause and, for a module fault, its number (R726, R728, R738, R742). -/
def enterReset (s : State) (cause fault : Nat) : State :=
  let s := holdClusters s
  let s := regFld (regFld s aRstCause 47 40 cause) aRstCause 39 32 fault
  let s := dacsOff (closeRing s)
  { s with sys := { s.sys with mode := .inReset cause, padSafe := padSafes s } }

/-- Both logs are copied to the NOR log area (R705). -/
def copyLogs (s : State) : State := { s with mdl := { s.mdl with norVlog := s.mdl.vlog, norFlog := s.mdl.flog } }

/-- The fault hold (R739). -/
def enterHold (s : State) (fault : Nat) : State :=
  let s := closeRing (holdClusters s)
  { s with sys := { s.sys with mode := .hold fault } }

/-- RST_CAUSE as it reads: AUTO counts the automatic resets within 600 s (R740, R742). -/
def rstCauseView (s : State) : Word :=
  setFld (regGet s aRstCause) 31 24 (satN 8 (s.sys.autoTimes.filter fun t => s.now ≤ t + 600000000000).length)

/-- A reset for a module fault of a lower number is due already, and goes before that of fault f (R741). -/
def keepsFault (s : State) (f : Nat) : Bool :=
  match s.sys.mode with
  | .inReset _ => !faultHolds f && 1 ≤ regF s aRstCause 39 32 && decide (regF s aRstCause 39 32 < f)
  | _ => false

/-- A module fault (R738, R774): every group's safe values, the bypass, the fault record, then the action. A hold
takes precedence over a reset (R741). The Medulla core, if it runs, writes the records and copies its logs; with domain 57
the whole module has stopped (R58). -/
def moduleFault (s : State) (f : Nat) : State :=
  let s := (upto 4).foldl (fun s g => if f = 6 then safeEnter s g 6 else safeGroup s g 6) s
  let s := closeRing s
  let s := if (s.core .medulla).run = .running && f ≠ 6 then copyLogs (logFault s 0x15 f 0 0 (rstCauseView s)) else s
  match s.sys.mode with
  | .hold _ => s
  | _ =>
    if keepsFault s f then s else if faultHolds f then enterHold s f
    else if f = 6 then { dacsOff (holdClusters s) with sys := { s.sys with mode := .refLost } }
    else enterReset s (if f = 5 then 5 else 6) f

/-! ## Taking an exception (R265 to R277) -/

/-- The privilege level that owns an exception level (R265). -/
def ownerLevel (e : Nat) : Nat := if e = 0 then 0 else if e ≤ 3 then 1 else if e ≤ 5 then 2 else 3

/-- top(k) of R265. -/
def topLevel (k : Nat) : Nat := if k = 0 then 0 else if k = 1 then 3 else if k = 2 then 5 else 7

/-- low(k) of R265. -/
def lowLevel (k : Nat) : Nat := if k ≤ 1 then 1 else if k = 2 then 4 else 6

/-- The level of an exception class (R277); none for a class that is never raised so. -/
def classLevel (c : Nat) : Option Nat :=
  if c = 0x01 || c = 0x02 || c = 0x03 || c = 0x04 then some 2
  else if c = 0x05 then some 3
  else if c = 0x06 || c = 0x08 then some 1
  else if c = 0x09 then some 4
  else if c = 0x0A then some 6
  else if c = 0x10 || c = 0x11 || c = 0x12 then some 3
  else if c = 0x13 || c = 0x14 || c = 0x1A then some 4
  else if c = 0x18 || c = 0x19 then some 5
  else if c = 0x3E then some 7
  else none

/-- An exception as an instruction raises it: class, detail, address, and whether the access was a write (R275). -/
structure Exc where
  cls : Nat
  detail : Nat
  addr : Word
  write : Bool
deriving DecidableEq, Repr

def exc (cls detail : Nat) (addr : Word := 0) (write : Bool := false) : Exc := ⟨cls, detail, addr, write⟩

/-- A write of the multiply unit that falls due (R141, R143, R146 to R148). -/
def MulUnit.apply (m : MulUnit) : MulEffect → MulUnit
  | .setAcc v o => { m with acc := v, pst := if o then setBit m.pst 1 true else m.pst }
  | .writePst v => { m with pst := v &&& 0x3E }
  | .setSV => { m with pst := setBit m.pst 2 true }

/-- Every issued write of the multiply unit falls due (R145, R274). -/
def MulUnit.drain (m : MulUnit) : MulUnit :=
  { m.queue.foldl MulUnit.apply m with queue := [] }

/-- The predictors are cleared (R251). -/
def Core.flushPredictors (k : Core) : Core :=
  { k with predict := { k.predict with gh := 0, rp := List.replicate 32 0, targets := [], indirect := [] } }

/-- Status writes inside their delay take effect (R221). -/
def Core.flushStatus (k : Core) : Core :=
  let v := match k.statusQueue.getLast? with
    | some w => w.value
    | none => k.status
  { k with status := v, statusQueue := [] }

/-- The word ecause_k receives (R275). -/
def ecauseWord (detail orig olvl lvl : Nat) (w g : Bool) (cls : Nat) : Word :=
  mk 39 24 detail ||| mk 23 18 orig ||| mk 17 15 olvl ||| mk 14 12 lvl ||| mk 9 9 w.toNat ||| mk 8 8 g.toNat ||| mk 5 0 cls

/-- The status after entry to level k (R273). -/
def entryStatus (st : Word) (k : Nat) (iml : Option Nat) : Word :=
  let st := setFld (setFld st 1 0 k) 10 8 (topLevel k)
  let st := match iml with
    | some p => setFld st 6 4 p
    | none => st
  let st := if k = 3 then setBit st 11 true else st
  if 2 ≤ k then setBit st 12 false else st

/-- Entry to privilege level k (R273, R274): one indivisible step. -/
def Core.enter (k : Core) (lvl : Nat) (cause : Word) (cls : Nat) (addr resume : Word) (iml : Option Nat) : Core :=
  let i : Fin 3 := ⟨(lvl - 1) % 3, Nat.mod_lt _ (by decide)⟩
  let sv := k.save[i]
  let k := { k with
    save := k.save.set i { sv with epc := resume, est := k.status, ecause := cause, eaddr := addr }
    status := entryStatus k.status lvl iml
    pc := setFld sv.evec 8 0 0 + w48 (8 * cls)
    slot := none
    waiting := none
    events := []
    statusQueue := []
    mul := k.mul.drain }
  k.flushPredictors

/-- What raising an exception does to its core (R266, R269): entry, escalation, or nothing here with the record of a
checkstop. -/
inductive Taken where
  | entered (k : Core)
  | stopped (ecause eaddr : Word)

def Core.take (k : Core) (e : Exc) (lvl : Nat) (resume : Word) : Taken :=
  let g := k.vm
  if lvl ≤ k.eml then
    if k.eml = 7 then .stopped (ecauseWord e.detail 0 0 lvl e.write g e.cls) e.addr
    else
      let l2 := k.eml + 1
      let p := Nat.max (ownerLevel l2) k.pl
      .entered (k.enter p (ecauseWord e.detail e.cls lvl l2 e.write g 0x3F) 0x3F e.addr resume none)
  else
    let p := Nat.max (ownerLevel lvl) k.pl
    .entered (k.enter p (ecauseWord e.detail 0 0 lvl e.write g e.cls) e.cls e.addr resume none)

/-- A core checkstops (R271, R272): it stops and sends its record; on the Medulla core this is module fault 5. -/
def checkstop (s : State) (c : CoreId) (pc ecause eaddr : Word) : State :=
  let st := (s.core c).status
  let s := s.modCore c fun k => { k with run := .checkstopped, waiting := none }
  let s := { s with mdl := { s.mdl with checkstops := s.mdl.checkstops ++ [(coreNum c, pc, st, ecause, eaddr)] } }
  match c with
  | .medulla => moduleFault s 5
  | _ => s

/-- Counts a core event in its block (R709, R713). The Medulla core has no block. -/
def coreCount (s : State) (c : CoreId) (codeA codeF : Nat) : State :=
  match c with
  | .app i => if codeA = 0 then s else count s i.val codeA
  | .frond i => if codeF = 0 then s else count s (16 + i.val) codeF
  | .medulla => s

/-- An event of an instruction of an application core, which is counted when the instruction commits (R257, R712). -/
def noteEvent (s : State) (c : CoreId) (code : Nat) : State :=
  match c with
  | .app _ => s.modCore c fun k => { k with events := k.events ++ [code] }
  | _ => s

/-- An instruction commits: its events count (R712). -/
def retireEvents (s : State) (c : CoreId) : State :=
  (s.core c).events.foldl (fun s e => coreCount s c e 0) (s.modCore c fun k => { k with events := [] })

/-- PC bits 47:37 of Frond and Medulla cores are always zero (R97). -/
def pcOf (c : CoreId) (v : Word) : Word := match c with
  | .app _ => v
  | _ => v &&& 0x1FFFFFFFFF

def Core.setPc (k : Core) (c : CoreId) (v : Word) : Core := { k with pc := pcOf c v }

/-- Taking an exception (R269, R273). The status writes inside their delay take effect first (R221). -/
def raiseAt (s : State) (c : CoreId) (e : Exc) (resume : Word) : State :=
  let k := (s.core c).flushStatus
  let lvl := (classLevel e.cls).getD 2
  match k.take e lvl resume with
  | .entered k' => represent (coreCount (s.setCore c (k'.setPc c k'.pc)) c 0x1E 0) (coreNum c)
  | .stopped ec ea => checkstop (s.setCore c k) c resume ec ea

end Sys2Proof.Machine
end

