-- ==== Sys2Proof/Machine/Dram.lean ====
section
/-! DEFINITION. DRAM (chapter 11): containers and their code, the interleave, twinned regions, decoding with its
counts and reports, write-backs, and the retirement of rows and channels. -/

namespace Sys2Proof.Machine

open Sys2Proof

/-! ## The code (R418 to R421) -/

/-- Powers of α, a root of x⁶ + x + 1, from α^0 to α^62 (R421). -/
def gfExp : List Nat :=
  [1, 2, 4, 8, 16, 32, 3, 6, 12, 24, 48, 35, 5, 10, 20, 40, 19, 38, 15, 30, 60, 59, 53, 41, 17, 34, 7, 14, 28, 56, 51, 37] ++
  [9, 18, 36, 11, 22, 44, 27, 54, 47, 29, 58, 55, 45, 25, 50, 39, 13, 26, 52, 43, 21, 42, 23, 46, 31, 62, 63, 61, 57, 49, 33]

def gfPow (n : Nat) : Nat := gfExp.getD (n % 63) 0

def gfLog (a : Nat) : Nat := gfExp.idxOf a

def gfMul (a b : Nat) : Nat := if a = 0 || b = 0 then 0 else gfPow (gfLog a + gfLog b)

def gfInv (a : Nat) : Nat := gfPow (63 - gfLog a)

/-- The container bit at a codeword position (R419). -/
def posBit (j : Nat) : Nat :=
  if j < 12 then 48 + j else if j < 60 then j - 12 else if j = 60 then 62 else if j = 61 then 63 else if j = 62 then 61 else 60

/-- The parity of a number of n bits. -/
def parN (v : Nat) : Nat → Bool
  | 0 => false
  | n + 1 => v.testBit n != parN v n

/-- T: the XOR of bits 35:0 of the container's address (R418). -/
def addrTag (a : Nat) : Bool := parN a 36

/-- A container image with fresh check bits and parity (R418 to R420). -/
def containerOf (data : Word) (poison : Bool) (a : Nat) : BitVec 64 :=
  let body := data.toNat + poison.toNat * 2 ^ 48 + (addrTag a).toNat * 2 ^ 50
  let chk := crcBits 12 0x539 0 body 51
  let n := data.toNat + chk * 2 ^ 48 + (addrTag a).toNat * 2 ^ 61 + poison.toNat * 2 ^ 62
  BitVec.ofNat 64 (n + (parN n 64).toNat * 2 ^ 60)

/-- The syndrome c(α^k) of a container (R421). -/
def syndrome (c : BitVec 64) (k : Nat) : Nat :=
  (upto 63).foldl (fun r j => if c.getLsbD (posBit j) then r ^^^ gfPow (k * j) else r) 0

/-- The outcomes of decoding (R421). -/
inductive EccOutcome where
  | clean
  | corrected
  | uncorrectable
  | address
deriving DecidableEq, Repr

/-- What decoding a container finds: outcome, corrected image, corrected positions (127: none), syndromes, parity. -/
structure Decoded where
  out : EccOutcome
  img : BitVec 64
  pos0 : Nat
  pos1 : Nat
  s1 : Nat
  s3 : Nat
  p : Bool
deriving DecidableEq, Repr

def flipPos (c : BitVec 64) (j : Nat) : BitVec 64 := c ^^^ (1#64 <<< posBit j)

/-- The two error positions of an even pattern (R421), if there are two, the lower first: R421 finds them without an order,
and R458 names a first and a second. DESIGN CHOICE, log entry 170. -/
def twoErrors (s1 s3 : Nat) : Option (Nat × Nat) :=
  let b := gfMul s3 (gfInv s1) ^^^ gfMul s1 s1
  let roots := (upto 63).filter fun i =>
    let x := gfPow (63 - i)
    (1 ^^^ gfMul s1 x ^^^ gfMul b (gfMul x x)) = 0
  match roots with
  | [i, j] => some (i, j)
  | _ => none

/-- decode(container, addr) of R421. An ADDRESS outcome corrects nothing (R422). -/
def decodeContainer (c : BitVec 64) (a : Nat) : Decoded :=
  let p := parN c.toNat 64
  let s1 := syndrome c 1
  let s3 := syndrome c 3
  let cube := gfMul s1 (gfMul s1 s1)
  let d : Decoded :=
    if s1 = 0 && s3 = 0 then
      if p then ⟨.corrected, flipPos c 63, 63, 127, s1, s3, p⟩ else ⟨.clean, c, 127, 127, s1, s3, p⟩
    else if p then
      if s3 = cube && s1 ≠ 0 then ⟨.corrected, flipPos c (gfLog s1), gfLog s1, 127, s1, s3, p⟩
      else ⟨.uncorrectable, c, 127, 127, s1, s3, p⟩
    else if s1 = 0 then ⟨.uncorrectable, c, 127, 127, s1, s3, p⟩
    else if s3 = cube then ⟨.corrected, flipPos (flipPos c (gfLog s1)) 63, gfLog s1, 63, s1, s3, p⟩
    else match twoErrors s1 s3 with
      | some (i, j) => ⟨.corrected, flipPos (flipPos c i) j, i, j, s1, s3, p⟩
      | none => ⟨.uncorrectable, c, 127, 127, s1, s3, p⟩
  if d.out ≠ .uncorrectable && d.img.getLsbD 61 != addrTag a then
    { d with out := .address, img := c, pos0 := 127, pos1 := 127 }
  else d

/-- The data of a container image. -/
def imgData (c : BitVec 64) : Word := c.extractLsb' 0 48

/-- The poison bit of a container image. -/
def imgPoison (c : BitVec 64) : Bool := c.getLsbD 62

/-! ## Regions (R69, R71, R429, R432) -/

/-- Base, pages and kind of the DRAM region that covers a word, if one does. -/
def regionAt (s : State) (a : Nat) : Option (Nat × Nat × Nat) :=
  (s.struct.image.regions.map fun r => (fld r.1 47 24 * 4096, fld r.1 23 0, fld r.2 2 0)).find?
    fun r => r.1 ≤ a && a < r.1 + r.2.1 * 4096

/-- KIND of a word: 0 where no region covers it (R74). -/
def kindAt (s : State) (a : Nat) : Nat := match regionAt s a with
  | some (_, _, k) => k
  | none => 0

/-- The word lies in the complement half of a twinned region (R71). -/
def isCompl (s : State) (a : Nat) : Bool :=
  match regionAt s a with
  | some (b, p, 1) => b + p / 2 * 4096 ≤ a
  | _ => false

/-- The word lies in a twinned region. -/
def isTwin (s : State) (a : Nat) : Bool := kindAt s a = 1

/-- The complement of a data-half address (R432). -/
def complAddr (s : State) (a : Nat) : Nat :=
  match regionAt s a with
  | some (_, p, _) => a + p / 2 * 4096
  | none => a

/-- The data line of a line: itself, or for a complement line its data line (R369). -/
def dataLine (s : State) (l : Nat) : Nat :=
  match regionAt s (8 * l) with
  | some (b, p, 1) => if b + p / 2 * 4096 ≤ 8 * l then l - p / 2 * 512 else l
  | _ => l

/-- The complement line of a data line. -/
def complLine (s : State) (l : Nat) : Nat := complAddr s (8 * l) / 8

/-! ## The interleave (R425 to R427) -/

/-- MEM_TOP (R427). -/
def memTop (s : State) : Nat := regF s aMemTop 35 0

/-- The channels in the interleave, ascending. -/
def channelsIn (s : State) : List Nat := (upto 8).filter fun c => regB s aMemCtl c

/-- Channel, bank and row of a word address (R425). -/
def placeOf (s : State) (a : Nat) : Nat × Nat × Nat :=
  let l := a / 8
  let g := l / 256
  let n := (channelsIn s).length
  let c := g / n * 256 + l % 256
  let bank := c / 32 % 16
  ((channelsIn s).getD (g % n) 0, if isCompl s a then bank ^^^ 4 else bank, c / 512 % 65536)

/-- A channel retired since start-up (R447). -/
def chanRetired (s : State) (c : Nat) : Bool := regF s (aMemChStat c) 1 0 = 1

/-- A row taken offline (R446). -/
def rowOffline (s : State) (c b r : Nat) : Bool :=
  s.mdl.settings.any fun t => t.kind = 2 && t.unit = c && t.bank = b && t.row = r

/-- Reads of the line answer poison and its writes are dropped (R446, R447). -/
def lineDead (s : State) (l : Nat) : Bool :=
  let p := placeOf s (8 * l)
  chanRetired s p.1 || rowOffline s p.1 p.2.1 p.2.2

/-! ## Refresh (R436, R443) -/

/-- tREFIpb of R436 for the DRAM temperature that the thermal monitor reports, in quarters of a degree. -/
def refreshInterval (s : State) : Nat := if 340 < sgn 12 (regF s aThermStat 35 24) then 244 else 488

/-- The refreshes that a channel owes: those due and not issued (R443). -/
def refreshDebt (s : State) (c : Nat) : Nat :=
  let due := s.memctl.refreshDue.getD c 0
  if s.now < due then 0 else (s.now - due) / refreshInterval s + 1

/-- Application traffic of a line waits for a refresh of its channel: eight are owed (R443). -/
def refreshFirst (s : State) (l : Nat) : Bool := decide (8 ≤ refreshDebt s (placeOf s (8 * l)).1)

/-! ## Containers -/

/-- What step 8 of R449 writes in a container: zero, or all ones in the complement half. -/
def fillImage (s : State) (a : Nat) : BitVec 64 :=
  containerOf (if isCompl s a then 0xFFFFFFFFFFFF else 0) false a

/-- The stored container of a word. -/
def dramRaw (s : State) (a : Nat) : BitVec 64 := sread (fillImage s) s.dram a

/-- Stores a container. -/
def dramPut (s : State) (a : Nat) (c : BitVec 64) : State :=
  { s with dram := swrite (fillImage s) s.dram a c }

/-- Writes the first n words of a list from address a on, as fresh containers (R420). -/
def dramPutLine (s : State) (a : Nat) : LineData → State
  | [] => s
  | (w, p) :: t => dramPutLine (dramPut s a (containerOf w p a)) (a + 1) t

/-- A row copy is in progress in the row of a line: requests to it wait (R445). -/
def rowCopying (s : State) (l : Nat) : Bool :=
  let p := placeOf s (8 * l)
  (upto 8).any fun k =>
    s.memctl.copies.contains (p.1, k) &&
    fld (regGet s (aMemShadow p.1 k)) 19 16 = p.2.1 && fld (regGet s (aMemShadow p.1 k)) 15 0 = p.2.2

/-- A line is written to DRAM: a queued write-back of it is dropped (R424). A dead line drops the write (R446, R447), and a
write waits in the queue while its row is copied (R445) or its channel owes a refresh ahead of it (R443). -/
def dramWriteLine (s : State) (l : Nat) (d : LineData) : State :=
  let queue := s.memctl.writeBacks.filter fun e => e.1 ≠ l
  if (rowCopying s l || refreshFirst s l) && !lineDead s l then { s with memctl := { s.memctl with writeBacks := queue ++ [(l, d)] } }
  else
    let s := { s with memctl := { s.memctl with writeBacks := queue } }
    let s := bwAdd (count s (48 + (placeOf s (8 * l)).1) 0x51) (placeOf s (8 * l)).1 1
    if lineDead s l then s else dramPutLine s (8 * l) d

/-! ## Retirement (R445 to R448, R743, R744) -/

/-- Word 1 of R744 for a DRAM row: its first word under the interleave in force; zero if its channel is out. -/
def rowBase (s : State) (c b r : Nat) : Nat :=
  let ch := channelsIn s
  if ch.contains c then
    let cl := r * 512 + b * 32
    let cand (bk : Nat) : Nat := (((r * 512 + bk * 32) / 256) * ch.length + ch.idxOf c) * 2048 + (r * 512 + bk * 32) % 256 * 8
    let a := ((cl / 256) * ch.length + ch.idxOf c) * 2048 + cl % 256 * 8
    if isCompl s a then cand (b ^^^ 4) else a
  else 0

/-- A retirement is stored, reported and logged (R743): kind, unit, its log word 2 and its source. -/
def recordRetirement (s : State) (t : Retired) (w1 src : Nat) : State :=
  let s := { s with mdl := { s.mdl with settings := s.mdl.settings ++ [t] } }
  assertEdge (logFault s 0x12 t.kind src (w48 w1) (w48 t.unit)) src

/-- The spare rows of a bank used for post-package repair so far (R445). -/
def sparesUsed (s : State) (c b : Nat) : Nat :=
  (s.mdl.settings.filter fun t => t.kind = 1 && t.unit = c && t.bank = b && t.col = 0).length

/-- The row is served by a shadow entry, being copied, or offline. -/
def rowHandled (s : State) (c b r : Nat) : Bool :=
  rowOffline s c b r ||
  (upto 8).any fun k =>
    let e := regGet s (aMemShadow c k)
    fld e 19 16 = b && fld e 15 0 = r && (bit e 47 || s.memctl.copies.contains (c, k))

/-- MEM_CH_STAT.SHADOW counts the entries in use (R457). -/
def shadowCount (s : State) (c : Nat) : State :=
  regFld s (aMemChStat c) 15 12 ((upto 8).filter fun k => regB s (aMemShadow c k) 47).length

/-- Retiring a row (R445, R446): a shadow entry starts its copy, or the row goes offline. -/
def retireRow (s : State) (c b r : Nat) : State :=
  if rowHandled s c b r then s
  else
    match (upto 8).find? fun k => !regB s (aMemShadow c k) 47 && !s.memctl.copies.contains (c, k) with
    | some k =>
      let soft := decide (2 ≤ sparesUsed s c b)
      let s := regSet s (aMemShadow c k)
        (mk 46 46 (!soft).toNat ||| mk 45 45 soft.toNat ||| mk 19 16 b ||| mk 15 0 r)
      let s := { s with memctl := { s.memctl with copies := s.memctl.copies ++ [(c, k)] } }
      recordRetirement s ⟨1, c, b, r, soft.toNat, s.mdl.sfmt, k⟩ (rowBase s c b r) 210
    | none => recordRetirement s ⟨2, c, b, r, 0, s.mdl.sfmt, 0⟩ (rowBase s c b r) 210

/-- Retiring a channel of the interleave (R447); the second one is module fault 4 (R448). -/
def retireChannel (s : State) (c : Nat) : State :=
  if regF s (aMemChStat c) 1 0 ≠ 0 then s
  else
    let again := (upto 8).any fun x => x ≠ c && (regF s (aMemChStat x) 1 0 ≠ 0)
    let s := regFld s (aMemChStat c) 1 0 1
    let s := recordRetirement s ⟨3, c, 0, 0, 0, s.mdl.sfmt, 0⟩ 0 211
    if again then moduleFault s 4 else s

/-- A CORRECTED container enters the row's history (R445): 4 within 24 h retire the row. -/
def noteCorrected (s : State) (c b r : Nat) : State :=
  let key := b * 65536 + r
  let h := (s.memctl.rowHistory.filter fun e => s.now ≤ e.2.2 + 86400000000000) ++ [(c, key, s.now)]
  let s := { s with memctl := { s.memctl with rowHistory := h } }
  if 4 ≤ (h.filter fun e => e.1 = c && e.2.1 = key).length then retireRow s c b r else s

/-- An UNCORRECTABLE or ADDRESS outcome (R445, R447): the row is retired, and 8 within 1 h retire the channel. -/
def noteUncorrectable (s : State) (c b r : Nat) : State :=
  let h := (s.memctl.chHistory.filter fun e => s.now ≤ e.2 + 3600000000000) ++ [(c, s.now)]
  let s := { s with memctl := { s.memctl with chHistory := h } }
  let s := retireRow s c b r
  if 8 ≤ (h.filter fun e => e.1 = c).length then retireChannel s c else s

/-! ## Reading a line (R421 to R424) -/

/-- The reports of one failing container (R422, R458, R707). -/
def reportContainer (s : State) (a : Nat) (d : Decoded) : State :=
  let p := placeOf s a
  let c := p.1
  let ue := decide (d.out ≠ .corrected)
  let ea := mk 47 47 1 ||| mk 46 46 ue.toNat ||| mk 45 45 (decide (d.out = .address)).toNat ||| mk 35 0 a
  let es := mk 31 25 d.pos1 ||| mk 24 18 d.pos0 ||| mk 12 12 d.p.toNat ||| mk 11 6 d.s3 ||| mk 5 0 d.s1
  let s := regSet (regSet s (aMemErrAddr c) ea) (aMemErrSyn c) es
  if ue then
    let s := regAddSat s (aMemUe c) 47 0 1
    noteUncorrectable (logFault s 0x02 c (200 + c) (w48 a) ea) c p.2.1 p.2.2
  else
    let s := count (regAddSat s (aMemCe c) 47 0 1) (48 + c) 0x55
    noteCorrected (logFault s 0x01 c (192 + c) (w48 a) es) c p.2.1 p.2.2

/-- Decodes the containers from address a on against the bits the read found flipped. -/
def decodeLine (s : State) (a : Nat) (flips : List (BitVec 64)) (n : Nat) : List Decoded :=
  (upto n).map fun i => decodeContainer (dramRaw s (a + i) ^^^ flips.getD i 0) (a + i)

/-- The word a decoded container delivers (R422). -/
def delivered (d : Decoded) : Word × Bool :=
  match d.out with
  | .clean => (imgData d.img, imgPoison d.img)
  | .corrected => (imgData d.img, imgPoison d.img)
  | _ => (imgData d.img, true)

/-- Counts, reports and the queued write-back of a line read (R422 to R424). -/
def reportLine (s : State) (l : Nat) (ds : List Decoded) : State :=
  let c := (placeOf s (8 * l)).1
  if ds.all fun d => d.out = .clean then s
  else
    let s := (ds.zipIdx.foldl (fun s (e : Decoded × Nat) =>
      if e.1.out = .clean then s else reportContainer s (8 * l + e.2) e.1) s)
    let s := if ds.any fun d => d.out = .corrected then assertEdge s (192 + c) else s
    let s := if ds.any fun d => d.out = .uncorrectable || d.out = .address then assertEdge s (200 + c) else s
    { s with memctl := { s.memctl with writeBacks := s.memctl.writeBacks ++ [(l, ds.map delivered)] } }

/-- A controller's read of one line of 8 words (R421 to R424, R446, R447). -/
def dramReadLine (s : State) (l : Nat) (flips : List (BitVec 64)) : LineData × State :=
  let c := (placeOf s (8 * l)).1
  let s := bwAdd (count s (48 + c) 0x50) c 1
  match sget s.memctl.writeBacks l with
  | some d => (if lineDead s l then d.map fun w => (w.1, true) else d, s)
  | none =>
    let ds := decodeLine s (8 * l) flips 8
    if lineDead s l then (ds.map fun d => (imgData d.img, true), s)
    else (ds.map delivered, reportLine s l ds)

/-! ## Twinned pairs (R432 to R435) -/

/-- What R433 makes of one word and its complement on one read: the pair, whether it mismatches, and whether it was
rebuilt. -/
def pairOf (w c : Word × Bool) : (Word × Bool) × (Word × Bool) × Bool × Bool :=
  if w.2 && c.2 then (w, c, false, false)
  else if w.2 then ((~~~c.1, false), c, false, true)
  else if c.2 then (w, (~~~w.1, false), false, true)
  else (w, c, decide (c.1 ≠ ~~~w.1), false)

/-- Every pair of two lines. -/
def pairsOf (a b : LineData) : List ((Word × Bool) × (Word × Bool) × Bool × Bool) := a.zipWith pairOf b

/-- Queues the rebuilt sides of a pair of lines (R433). -/
def queueRebuilt (s : State) (l cl : Nat) (ps : List ((Word × Bool) × (Word × Bool) × Bool × Bool)) : State :=
  if ps.any fun p => p.2.2.2 then
    let wb := s.memctl.writeBacks.filter fun e => e.1 ≠ l && e.1 ≠ cl
    { s with memctl := { s.memctl with
        writeBacks := wb ++ [(l, ps.map fun p => p.1), (cl, ps.map fun p => p.2.1)] } }
  else s

/-- A persistent mismatch at a data word (R433, R455, R707). -/
def twinPersistent (s : State) (a : Nat) : State :=
  let s := regAddSat s aMemTwinStat 47 24 1
  let s := regSet s aMemTwinLast (mk 47 47 1 ||| mk 35 0 a)
  assertEdge (logFault s 0x03 (placeOf s a).1 208 (w48 a) 0) 208

/-- A rebuild counts where the line's channel was retired since start-up (R435). -/
def rebuilt (s : State) (l : Nat) : State :=
  if chanRetired s (placeOf s (8 * l)).1 then regAddSat s aMemTwinStat 23 0 1 else s

/-- A fill of a twin pair: 16 words, the data line then its complement line (R433, R435). `again` holds the flips of
the second read. A word that mismatches on the second read counts as persistent even where it matched on the first. -/
def dramReadPair (s : State) (l : Nat) (flips again : List (BitVec 64)) : LineData × State :=
  let cl := complLine s l
  if lineDead s l && !lineDead s cl then
    let (c, s) := dramReadLine s cl (flips.drop 8)
    let s := rebuilt s l
    ((c.map fun w => (~~~w.1, w.2)) ++ c, s)
  else if lineDead s cl && !lineDead s l then
    let (w, s) := dramReadLine s l (flips.take 8)
    let s := rebuilt s cl
    (w ++ (w.map fun x => (~~~x.1, x.2)), s)
  else
    let (w, s) := dramReadLine s l (flips.take 8)
    let (c, s) := dramReadLine s cl (flips.drop 8)
    let ps := pairsOf w c
    if ps.any fun p => p.2.2.1 then
      let (w2, s) := dramReadLine s l (again.take 8)
      let (c2, s) := dramReadLine s cl (again.drop 8)
      let qs := pairsOf w2 c2
      let s := (ps.zip qs).zipIdx.foldl (fun s e =>
        if e.1.2.2.2.1 then twinPersistent s (8 * l + e.2)
        else if e.1.1.2.2.1 then regAddSat s aMemTwinStat 23 0 1 else s) s
      let s := queueRebuilt s l cl qs
      (qs.map (fun p => p.1) ++ qs.map (fun p => p.2.1), s)
    else
      (ps.map (fun p => p.1) ++ ps.map (fun p => p.2.1), queueRebuilt s l cl ps)

/-- A line or pair as the home slice reads it. -/
def dramRead (s : State) (l : Nat) (flips again : List (BitVec 64)) : LineData × State :=
  if isTwin s (8 * l) then dramReadPair s l flips again else dramReadLine s l flips

/-- A line or pair as the home slice writes it: 8 words, or 16 for a pair (R369, R435). -/
def dramWrite (s : State) (l : Nat) (d : LineData) : State :=
  if isTwin s (8 * l) then
    dramWriteLine (dramWriteLine s l (d.take 8)) (complLine s l) (d.drop 8)
  else dramWriteLine s l d

end Sys2Proof.Machine
end

