-- ==== Sys2Proof/Machine/Operands.lean ====
section
/-! DEFINITION. What the integer, bit-field, unary, shift and CRC instructions compute from their operands, and the
operand forms of the memory instructions (R108 to R121, R149 to R151). -/

namespace Sys2Proof.Machine

open Sys2Proof

/-- Half h of a word (R86). -/
def half (w : Word) (h : Nat) : BitVec 24 := w.extractLsb' (24 * h) 24

/-- Byte k of a word (R4, R86). -/
def byteOf (w : Word) (k : Nat) : Byte := w.extractLsb' (8 * k) 8

/-- Two halves as one word. -/
def ofHalves (h1 h0 : BitVec 24) : Word := h1 ++ h0

/-- A word from six bytes, byte 0 first. -/
def ofBytes (b : List Byte) : Word := (upto 6).foldl (fun w k => setFld w (8 * k + 7) (8 * k) (b.getD k 0).toNat) 0

/-! ## Shifts (R108, R109) -/

/-- The shift amount of an amount register: bits 5:0 (R109). -/
def shAmt (b : Word) : Nat := fld b 5 0

/-- Logical left shift; 48 to 63 give zero. -/
def sllW (a : Word) (n : Nat) : Word := a <<< n

/-- Logical right shift; 48 to 63 give zero. -/
def srlW (a : Word) (n : Nat) : Word := a >>> n

/-- Arithmetic right shift; 48 to 63 give copies of bit 47. -/
def sraW (a : Word) (n : Nat) : Word := a.sshiftRight n

/-- Left rotation by the amount modulo 48. -/
def rolW (a : Word) (n : Nat) : Word := (a <<< (n % 48)) ||| (a >>> (48 - n % 48))

/-! ## Arithmetic (R108, R110, R111) -/

/-- Signed saturation to 48 bits. -/
def satW (v : Int) : Word := BitVec.ofInt 48 (clampS 48 v)

/-- Signed saturation of a half. -/
def satH (v : Int) : BitVec 24 := BitVec.ofInt 24 (clampS 24 v)

def adds (a b : Word) : Word := satW (a.toInt + b.toInt)
def subs (a b : Word) : Word := satW (a.toInt - b.toInt)

/-- Carry out of the unsigned sum. -/
def carryW (a b : Word) : Word := w01 (decide (2 ^ 48 ≤ a.toNat + b.toNat))

/-- |ga − gb| with signed inputs. -/
def absdW (a b : Word) : Word := BitVec.ofInt 48 (if a.toInt < b.toInt then b.toInt - a.toInt else a.toInt - b.toInt)

/-- Signed division toward zero; by zero all ones; −2⁴⁷ by −1 wraps (R110). -/
def divW (a b : Word) : Word := if b = 0 then 0xFFFFFFFFFFFF else BitVec.ofInt 48 (a.toInt.tdiv b.toInt)

def divuW (a b : Word) : Word := if b = 0 then 0xFFFFFFFFFFFF else w48 (a.toNat / b.toNat)

/-- ga − gb × DIV(ga, gb); by zero ga (R110). -/
def remW (a b : Word) : Word := if b = 0 then a else a - b * divW a b

def remuW (a b : Word) : Word := if b = 0 then a else a - b * divuW a b

/-- A half operation on each half, with nothing passing between them (R111). -/
def halves (f : BitVec 24 → BitVec 24 → BitVec 24) (a b : Word) : Word :=
  ofHalves (f (half a 1) (half b 1)) (f (half a 0) (half b 0))

def hadds (x y : BitVec 24) : BitVec 24 := satH (x.toInt + y.toInt)
def hsubs (x y : BitVec 24) : BitVec 24 := satH (x.toInt - y.toInt)

def minS (a b : Word) : Word := if a.toInt ≤ b.toInt then a else b
def maxS (a b : Word) : Word := if a.toInt ≤ b.toInt then b else a
def minU (a b : Word) : Word := if a.toNat ≤ b.toNat then a else b
def maxU (a b : Word) : Word := if a.toNat ≤ b.toNat then b else a

/-! ## Unary operations (R112) -/

def absW (a : Word) : Word := if a.toInt < 0 then 0 - a else a

/-- Leading zero bits among the low n bits. -/
def clzFrom (a : Word) : Nat → Nat
  | 0 => 0
  | n + 1 => if bit a n then 0 else 1 + clzFrom a n

/-- Trailing zero bits, from bit i on, with n bits to look at. -/
def ctzFrom (a : Word) (i : Nat) : Nat → Nat
  | 0 => 0
  | n + 1 => if bit a i then 0 else 1 + ctzFrom a (i + 1) n

def clzW (a : Word) : Word := w48 (clzFrom a 48)
def ctzW (a : Word) : Word := w48 (ctzFrom a 0 48)

/-- The 1 bits among n bits from bit i on. -/
def popFrom (a : Word) (i : Nat) : Nat → Nat
  | 0 => 0
  | n + 1 => (bit a i).toNat + popFrom a (i + 1) n

def popcW (a : Word) : Word := w48 (popFrom a 0 48)
def sxh (a : Word) : Word := (half a 0).signExtend 48
def sxb (a : Word) : Word := (byteOf a 0).signExtend 48
def zxh (a : Word) : Word := (half a 0).zeroExtend 48
def zxb (a : Word) : Word := (byteOf a 0).zeroExtend 48
def swph (a : Word) : Word := ofHalves (half a 0) (half a 1)

/-! ## Bit fields (R113, R114) -/

/-- An L-BF encoding that R114 permits. -/
def bfOk (pos len : Nat) : Bool := decide (1 ≤ len) && decide (pos ≤ 47) && decide (pos + len ≤ 48)

def extu (a : Word) (pos len : Nat) : Word := w48 (fld a (pos + len - 1) pos)
def exts (a : Word) (pos len : Nat) : Word := BitVec.ofInt 48 (sgn len (fld a (pos + len - 1) pos))
def depW (d a : Word) (pos len : Nat) : Word := setFld d (pos + len - 1) pos (fld a (len - 1) 0)
def depz (a : Word) (pos len : Nat) : Word := depW 0 a pos len

/-- LDIH: bits 47:24 replaced. -/
def ldih (d : Word) (imm : BitVec 24) : Word := ofHalves imm (half d 0)

/-! ## Parity and bit order (R149) -/

/-- XOR of n bits from bit i on. -/
def parOf (a : Word) (i n : Nat) : Bool := popFrom a i n % 2 = 1

def parW (a : Word) : Word := w01 (parOf a 0 48)
def parhW (a : Word) : Word := w48 ((parOf a 0 24).toNat + 2 * (parOf a 24 24).toNat)
def parbW (a : Word) : Word := w48 ((upto 6).foldl (fun r k => r + (parOf a (8 * k) 8).toNat * 2 ^ k) 0)

/-- Every group of n bits with its order reversed in place. -/
def brevG (n : Nat) (a : Word) : Word :=
  w48 ((upto (48 / n)).foldl (fun r k => r + revBits (fld a (n * k + n - 1) (n * k)) n * 2 ^ (n * k)) 0)

/-! ## CRC step (R150, R151) -/

/-- One bit of a CRC step of width w: reflected or not. -/
def crcStepBit (w poly : Nat) (refl : Bool) (crc : Nat) (d : Bool) : Nat :=
  if refl then
    let fb := crc.testBit 0 != d
    if fb then (crc >>> 1) ^^^ revBits (poly % 2 ^ w) w else crc >>> 1
  else
    let fb := crc.testBit (w - 1) != d
    let c := (crc <<< 1) % 2 ^ w
    if fb then c ^^^ (poly % 2 ^ w) else c

/-- CRCB, CRCH, CRCW: the state stepped over n bits of gb under a polynomial register. -/
def crcStep (cpoly : Word) (n : Nat) (ga gb : Word) : Word :=
  let w := fld cpoly 37 32
  let refl := bit cpoly 40
  w48 ((upto n).foldl (fun c j =>
    crcStepBit w (fld cpoly 31 0) refl c (bit gb (if refl then j else n - 1 - j))) (ga.toNat % 2 ^ w))

/-! ## Memory operand forms (R115 to R121) -/

/-- Base plus a signed displacement, modulo 2⁴⁸ (R115). -/
def eaDisp {n : Nat} (ga : Word) (disp : BitVec n) : Word := ga + disp.signExtend 48

/-- Base plus a zero-extended displacement (LW and SW short, R105). -/
def eaImm7 (ga : Word) (imm : BitVec 7) : Word := ga + imm.zeroExtend 48

/-- Effective word address of an indexed form (R115). -/
def eaIndex (ga gb : Word) (sz : Size) : Word :=
  match sz with
  | .word => ga + gb
  | .half => ga + BitVec.ofInt 48 (gb.toInt / 2)
  | .byte => ga + BitVec.ofInt 48 (gb.toInt / 6)
  | .dword => ga + 2 * gb

/-- Element number of an indexed form (R115). -/
def selIndex (gb : Word) (sz : Size) : Nat :=
  match sz with
  | .half => (gb.toInt % 2).toNat
  | .byte => (gb.toInt % 6).toNat
  | _ => 0

/-- Bank form: b[N] × 65 536 + OFF16 (R115, R117). -/
def eaBank (b : BitVec 32) (off : BitVec 16) : Word := w48 (b.toNat * 65536 + off.toNat)

/-- SEL within its range (R121). -/
def selOk (sz : Size) (sel : Nat) : Bool :=
  match sz with
  | .byte => decide (sel ≤ 5)
  | .half => decide (sel ≤ 1)
  | _ => decide (sel = 0)

/-- SX permitted on a load (R119). -/
def sxOk (sz : Size) (sx : Bool) : Bool :=
  match sz with
  | .byte => true
  | .half => true
  | _ => !sx

/-- The register of a double-word names an even pair; as a destination not g30 (R94). -/
def pairOk (r : Reg) (dest : Bool) : Bool := r.val % 2 = 0 && !(dest && r.val = 30)

/-- The second register of a pair. -/
def pairHi (r : Reg) : Reg := ⟨(r.val + 1) % 32, Nat.mod_lt _ (by decide)⟩

/-- The element a load takes from a word (R119). -/
def loadElem (w : Word) (sz : Size) (sel : Nat) (sx : Bool) : Word :=
  match sz with
  | .half => if sx then (half w sel).signExtend 48 else (half w sel).zeroExtend 48
  | .byte => if sx then (byteOf w sel).signExtend 48 else (byteOf w sel).zeroExtend 48
  | _ => w

/-- The bits of the word a store writes (R120). -/
def storeMask (sz : Size) (sel : Nat) : Word :=
  match sz with
  | .half => mask (24 * sel + 23) (24 * sel)
  | .byte => mask (8 * sel + 7) (8 * sel)
  | _ => 0xFFFFFFFFFFFF

/-- The stored bits at the element's place (R120). -/
def storeData (v : Word) (sz : Size) (sel : Nat) : Word :=
  match sz with
  | .half => (v <<< (24 * sel)) &&& storeMask sz sel
  | .byte => (v <<< (8 * sel)) &&& storeMask sz sel
  | _ => v

/-- A word with the masked bits replaced (R120). -/
def maskedWrite (old v m : Word) : Word := (old &&& ~~~m) ||| (v &&& m)

/-! ## Branch conditions (R235) -/

/-- Conditions on ga against zero. -/
def condZ (n : Nat) (a : Word) : Bool :=
  match n with
  | 0 => a = 0
  | 1 => a ≠ 0
  | 2 => a.toInt < 0
  | 3 => 0 ≤ a.toInt
  | 4 => a.toInt ≤ 0
  | 5 => 0 < a.toInt
  | 6 => bit a 0
  | _ => !bit a 0

/-- Conditions on ga against gb. -/
def condR (n : Nat) (a b : Word) : Bool :=
  match n with
  | 0 => a = b
  | 1 => a ≠ b
  | 2 => a.toInt < b.toInt
  | 3 => b.toInt ≤ a.toInt
  | 4 => a.toNat < b.toNat
  | 5 => b.toNat ≤ a.toNat
  | 6 => (a &&& b) ≠ 0
  | _ => (a &&& b) = 0

/-! ## The multiply unit's arithmetic (R139, R144, R146) -/

/-- The accumulator with one of its three words replaced (R138). -/
def accSetLo (acc : BitVec 120) (v : Word) : BitVec 120 := (acc.extractLsb' 48 72) ++ v
def accSetHi (acc : BitVec 120) (v : Word) : BitVec 120 := (acc.extractLsb' 96 24) ++ v ++ (acc.extractLsb' 0 48)
def accSetGd (acc : BitVec 120) (v : Word) : BitVec 120 := (v.extractLsb' 0 24) ++ (acc.extractLsb' 0 96)

/-- An exact value as an accumulator and whether it overflowed 120 bits (R147 AOV). -/
def accOf (v : Int) : BitVec 120 × Bool :=
  (BitVec.ofInt 120 v, decide (v < -(2 ^ 119 : Int)) || decide ((2 ^ 119 : Int) ≤ v))

/-- The MULH sum (R139). -/
def mulhSum (a b : Word) : Int := (half a 0).toInt * (half b 0).toInt + (half a 1).toInt * (half b 1).toInt

/-- GUARD: bits 119:95 not all equal (R147). -/
def guardBit (acc : BitVec 120) : Bool :=
  let h := acc.extractLsb' 95 25
  h ≠ 0 && h ≠ BitVec.allOnes 25

/-- The accumulator shifted right arithmetically by s, rounded by RND (R146). -/
def extaShift (acc : BitVec 120) (s rnd : Nat) : Int :=
  if 120 ≤ s then (if acc.toInt < 0 then -1 else 0)
  else
    let q := acc.toInt / (2 ^ s : Int)
    let r := acc.toInt % (2 ^ s : Int)
    let twice := 2 * r
    if s = 0 then q
    else if rnd = 1 then (if (2 ^ s : Int) ≤ twice then q + 1 else q)
    else if rnd = 2 then
      (if (2 ^ s : Int) < twice then q + 1 else if twice = (2 ^ s : Int) && q % 2 = 1 then q + 1 else q)
    else q

/-- A shifted value outside 48 bits (R146). -/
def extaOut (v : Int) : Bool := decide (v < -(2 ^ 47 : Int)) || decide ((2 ^ 47 : Int) ≤ v)

end Sys2Proof.Machine
end

