-- ==== Sys2Proof/Machine/Coh.lean ====
section
/-! DEFINITION. Caches, directory and coherence (chapter 10): messages and their channels, private lines and their
evictions, the L3, the home slice's transactions, every message of R382 as it arrives at a slice or as a snoop at its
agent, and the transactions that an engine or a table walk runs whole. -/

namespace Sys2Proof.Machine

open Sys2Proof

/-! ## Messages (R380 to R382) -/

/-- A message with every field that its type does not use at zero (R381). -/
def mkMsg (t : MsgType) (agent line : Nat) : Msg where
  type := t
  agent := agent
  txn := 0
  line := line
  twin := false
  spec := false
  isFetch := false
  gnt := 0
  dirty := false
  wmask := 0
  op := 0
  widx := 0
  c := false
  tgt := 0
  n := 0
  data := []
  word := 0
  word2 := 0
  req := t
  fresh := 0
  fail := 0
  snooped := false
  skips := 0
  recalling := false

/-- The code of a type (R382). -/
def MsgType.code : MsgType → Nat
  | .RdS => 0x01
  | .RdU => 0x02
  | .Upg => 0x03
  | .RdUZ => 0x04
  | .RdIO => 0x05
  | .RdNC => 0x06
  | .WrNC => 0x07
  | .WrThru => 0x08
  | .WrStash => 0x09
  | .WrInv => 0x0A
  | .AtomF => 0x0B
  | .Clean => 0x0C
  | .Flush => 0x0D
  | .PutM => 0x10
  | .PutE => 0x11
  | .PutS => 0x12
  | .SnpS => 0x18
  | .SnpInv => 0x19
  | .SnpData => 0x1A
  | .SnpStash => 0x1B
  | .SnpClean => 0x1C
  | .RspAck => 0x20
  | .RspData => 0x21
  | .RspEIF => 0x22
  | .RspDecline => 0x23
  | .CmpAck => 0x24
  | .Data => 0x28
  | .GrantU => 0x29
  | .PutAck => 0x2A
  | .Cmp => 0x2B
  | .Retry => 0x2C

/-- The channel of a type (R380, R382). -/
def MsgType.chan (t : MsgType) : Channel :=
  if t.code < 0x10 then .req else if t.code < 0x18 then .wb else if t.code < 0x20 then .snp
  else if t.code < 0x28 then .rsp else .cmp

/-- The home slice of a line (R371). -/
def sliceOf (l : Nat) : Nat :=
  (l % 16) ^^^ (l / 16 % 16) ^^^ (l / 256 % 16) ^^^ (l / 4096 % 16) ^^^ (l / 65536 % 16) ^^^ (l / 1048576 % 16) ^^^
    (l / 16777216 % 16) ^^^ (l / 268435456 % 16) ^^^ (l / 4294967296 % 2)

/-- The home slice of a line of this state: that of its data line (R371). -/
def homeOf (s : State) (l : Nat) : Nat := sliceOf (dataLine s l)

/-- The header of a message (R381). -/
structure Header where
  type : BitVec 6
  src : BitVec 6
  dst : BitVec 6
  txn : BitVec 8
  line : BitVec 33
  twin : Bool
  spec : Bool
  isFetch : Bool
  gnt : BitVec 2
  dirty : Bool
  wmask : BitVec 8
  op : BitVec 3
  widx : BitVec 3
  c : Bool
  tgt : BitVec 6
  n : BitVec 3
deriving DecidableEq, Repr

/-- The header as it travels: an agent is endpoint 0 to 33, slice s is endpoint 48 + s, and N, which a requester keeps
with a request that it sends again, is zero but in Retry (R381). -/
def headerOf (s : State) (m : Msg) : Header :=
  let home := BitVec.ofNat 6 (48 + homeOf s m.line)
  let agent := BitVec.ofNat 6 m.agent
  let down := m.type.chan = .snp || m.type.chan = .cmp
  { type := BitVec.ofNat 6 m.type.code, src := if down then home else agent, dst := if down then agent else home,
    txn := BitVec.ofNat 8 m.txn, line := BitVec.ofNat 33 m.line, twin := m.twin, spec := m.spec, isFetch := m.isFetch,
    gnt := BitVec.ofNat 2 m.gnt, dirty := m.dirty, wmask := BitVec.ofNat 8 m.wmask, op := BitVec.ofNat 3 m.op,
    widx := BitVec.ofNat 3 m.widx, c := m.c, tgt := BitVec.ofNat 6 m.tgt,
    n := BitVec.ofNat 3 (if m.type = .Retry then m.n else 0) }

/-- A line, or the two of a pair, that a home slice sends or receives counts in its bandwidth port (R719). -/
def lineMoved (s : State) (l : Nat) (twin : Bool) : State := bwAdd s (8 + homeOf s l) (if twin then 2 else 1)

/-- The messages that carry a line (R382). -/
def MsgType.carriesLine : MsgType → Bool
  | .Data => true
  | .RspData => true
  | .RspDecline => true
  | .PutM => true
  | .SnpStash => true
  | .WrInv => true
  | .WrStash => true
  | _ => false

/-- A fresh tag for a transaction (R381): the requester's for a request or a Put, the slice's for its snoops. -/
def drawTag (s : State) : Nat × State := (s.coh.tag, { s with coh := { s.coh with tag := (s.coh.tag + 1) % 256 } })

/-- A message leaves. A request or a Put takes a fresh tag. -/
def send (s : State) (m : Msg) : State :=
  let s := if m.type.carriesLine then lineMoved s m.line m.twin else s
  let (m, s) := if m.type.chan = .req || m.type.chan = .wb then
      let (t, s) := drawTag s
      ({ m with txn := t }, s)
    else (m, s)
  { s with coh := { s.coh with net := s.coh.net ++ [m] } }

/-- Two messages travel on one channel between the same endpoints (R380). -/
def sameLane (s : State) (a b : Msg) : Bool :=
  a.type.chan = b.type.chan && a.agent = b.agent && homeOf s a.line = homeOf s b.line

/-- The place of a message that can be delivered: nothing on its channel between its endpoints is ahead of it (R380). -/
def frontIdx (s : State) (t : MsgType) (agent line : Nat) : Option Nat :=
  match s.coh.net.findIdx? fun m => sameLane s m (mkMsg t agent line) with
  | some i =>
    match s.coh.net[i]? with
    | some m => if m.type = t && m.line = line then some i else none
    | none => none
  | none => none

/-- The home slice of a line stands in a fabric quadrant that a clock fault holds in reset (R48, R57). -/
def homeHeld (s : State) (l : Nat) : Bool := s.sys.held.contains (16 + homeOf s l / 4)

/-- Takes the message in flight of a type, agent and line, if its channel delivers it next (R380) to a slice or an agent
that runs. -/
def takeMsg (s : State) (t : MsgType) (agent line : Nat) : Option (Msg × State) :=
  if homeHeld s line then none
  else match frontIdx s t agent line with
  | some i =>
    match s.coh.net[i]? with
    | some m => some (m, { s with coh := { s.coh with net := s.coh.net.eraseIdx i } })
    | none => none
  | none => none

/-- Words of a line or pair: 8, or 16 for a twin pair (R369). -/
def lineWords (twin : Bool) : Nat := if twin then 16 else 8

/-- The words of a line as a message carries them: a pair's complements follow (R369). -/
def pairData (twin : Bool) (d : LineData) : LineData := if twin then d ++ d.map fun w => (~~~w.1, w.2) else d

/-- One word of a line, the others zero, as a write of that word carries it (R369). -/
def oneWord (twin : Bool) (i : Nat) (w : Word × Bool) : LineData :=
  pairData twin ((List.replicate 8 ((0 : Word), false)).set i w)

def deadAgent (s : State) (a : Nat) : Bool := a ≤ 32 && regB s aCohDead a

/-! ## Private caches (R365 to R369, R378, R379) -/

def cacheLine (s : State) (ag l : Nat) : Option CacheLine :=
  s.coh.caches.find? fun e => e.agent = ag && e.line = l

def dropLine (s : State) (ag l : Nat) : State :=
  { s with coh := { s.coh with caches := s.coh.caches.filter fun e => !(e.agent = ag && e.line = l) } }

/-- Puts a line in front: the most recently used of its agent. -/
def putLine (s : State) (e : CacheLine) : State :=
  let s := dropLine s e.agent e.line
  { s with coh := { s.coh with caches := e :: s.coh.caches } }

/-- Changes a line in place. -/
def modLine (s : State) (ag l : Nat) (f : CacheLine → CacheLine) : State :=
  { s with coh := { s.coh with caches := s.coh.caches.map fun e => if e.agent = ag && e.line = l then f e else e } }

/-- The private arrays (R365). -/
inductive CacheArray where
  | l1i
  | l1d
  | l2
deriving DecidableEq, Repr

/-- Sets and ways of an agent's array (R365). -/
def arrayShape (ag : Nat) : CacheArray → Nat × Nat
  | .l1i => if ag < 16 then (256, 4) else (128, 2)
  | .l1d => if ag < 16 then (256, 4) else if ag < 32 then (128, 4) else (128, 2)
  | .l2 => (1024, 8)

/-- A line stands in an array; an application core's L2 includes its L1 arrays (R367). -/
def CacheLine.stands (e : CacheLine) : CacheArray → Bool
  | .l1i => e.inL1I
  | .l1d => e.inL1
  | .l2 => true

/-- The ways a line takes: two for a pair (R369). -/
def CacheLine.ways (e : CacheLine) : Nat := if e.twin then 2 else 1

/-- The other lines of an agent in the set of a line in an array. -/
def setPeers (s : State) (ag l : Nat) (a : CacheArray) : List CacheLine :=
  let sets := (arrayShape ag a).1
  s.coh.caches.filter fun e => e.agent = ag && e.line ≠ l && e.stands a && e.line % sets = l % sets

/-- The ways that a list of lines takes. -/
def waysUsed (es : List CacheLine) : Nat := es.foldl (fun n e => n + e.ways) 0

/-- An eviction is in flight: the Put waits for its PutAck (R378). -/
def LineState.evicting : LineState → Bool
  | .MI => true
  | .EI => true
  | .SI => true
  | _ => false

/-- The line may be read (R378). -/
def LineState.readable : LineState → Bool
  | .M => true
  | .E => true
  | .S => true
  | .SM => true
  | _ => false

/-- The line may be written (R378). -/
def LineState.owned : LineState → Bool
  | .M => true
  | .E => true
  | _ => false

/-- The line is in no transient state (R378). -/
def LineState.stable : LineState → Bool
  | .M => true
  | .E => true
  | .S => true
  | _ => false

/-- Evicts a line with its Put (R379). -/
def evictLine (s : State) (e : CacheLine) : State :=
  let put (t : MsgType) (st : LineState) : State :=
    send (modLine s e.agent e.line fun x => { x with st := st })
      { mkMsg t e.agent e.line with twin := e.twin, data := if t = .PutM then e.data else [] }
  match e.st with
  | .M => put .PutM .MI
  | .E => put .PutE .EI
  | .S => put .PutS .SI
  | _ => s

/-- The array that bounds an agent's lines: the L2 of an application core (R367), else the L1 that takes the line. -/
def outerArray (ag : Nat) (fetch : Bool) : CacheArray := if ag < 16 then .l2 else if fetch then .l1i else .l1d

/-- The set of a line has room for it in an array. -/
def hasRoom (s : State) (ag l : Nat) (a : CacheArray) (need : Nat) : Bool :=
  decide (waysUsed (setPeers s ag l a) + need ≤ (arrayShape ag a).2)

/-- Evicts until the set of a line has room for it, or will have once the Puts in flight are acknowledged: their lines
keep their ways until then (R378). The least recently used line leaves for a stash (R392), and for a request whichever
the cache picks, since the manual names no order. -/
def makeRoom (s : State) (ag l : Nat) (a : CacheArray) (need : Nat) (stash : Bool) : Nat → State
  | 0 => s
  | n + 1 =>
    let peers := setPeers s ag l a
    if waysUsed (peers.filter fun e => !e.st.evicting) + need ≤ (arrayShape ag a).2 then s
    else
      let idle := peers.filter (·.st.stable)
      match if stash then (idle.getLast?, s) else pickOne s idle with
      | (some v, s) => makeRoom (evictLine s v) ag l a need stash n
      | (none, s) => s

/-- A line leaves an L1 array of an application core silently: its L2 still holds it (R367). -/
def leaveL1 (a : CacheArray) (e : CacheLine) : CacheLine :=
  match a with
  | .l1i => { e with inL1I := false }
  | .l1d => { e with inL1 := false }
  | .l2 => e

/-- Ways of an L1 set of an application core are freed (R365); which of its lines leave the manual does not say. -/
def freeL1 (s : State) (ag l : Nat) (a : CacheArray) (need : Nat) : Nat → State
  | 0 => s
  | n + 1 =>
    if hasRoom s ag l a need then s
    else match pickOne s (setPeers s ag l a) with
      | (some v, s) => freeL1 (modLine s ag v.line (leaveL1 a)) ag l a need n
      | (none, s) => s

/-- An application core's line enters an L1 array. -/
def enterL1 (s : State) (ag l : Nat) (a : CacheArray) : State :=
  match cacheLine s ag l with
  | some e =>
    if e.stands a then s
    else modLine (freeL1 s ag l a e.ways 4) ag l fun x => match a with
      | .l1i => { x with inL1I := true }
      | .l1d => { x with inL1 := true }
      | .l2 => x
  | none => s

/-- A line is used through an array: it becomes the most recently used, and an application core's enters its L1. A Frond
or Medulla core uses a line where it stands, in L1I or L1D. -/
def touchL1 (s : State) (ag l : Nat) (a : CacheArray) : State :=
  match cacheLine s ag l with
  | none => s
  | some e => if ag < 16 then enterL1 (putLine s e) ag l a else putLine s e

/-- A miss is counted: L1D and L2 of an application core, when its instruction commits, and L1D of a Frond core (R712,
R713). -/
def countMiss (s : State) (ag : Nat) (fetch : Bool) : State :=
  match coreOfAgent ag with
  | some c =>
    if ag < 16 then noteEvent (if fetch then s else noteEvent s c 0x15) c 0x16
    else if ag < 32 && !fetch then count s ag 0x34 else s
  | none => s

/-- A line that its core waits for, in a transient state: what it will enter is marked. -/
def awaited (ag l : Nat) (st : LineState) (twin fetch : Bool) : CacheLine := ⟨ag, l, st, twin, !fetch, fetch, []⟩

/-- Sends a request for a line in a transient state, unless one is open, a Put is in flight or its set has no room yet
(R378, R379). -/
def requestLine (s : State) (ag l : Nat) (excl : Bool) : State :=
  let twin := isTwin s (8 * l)
  let need := if twin then 2 else 1
  let a := outerArray ag false
  match cacheLine s ag l with
  | some e =>
    if e.st = .S && excl then
      let s := if e.stands a then s else makeRoom s ag l a need false 3
      if e.stands a || hasRoom s ag l a need then
        send (modLine s ag l fun x => { x with st := .SM, inL1 := x.inL1 || 16 ≤ ag }) { mkMsg .Upg ag l with twin := twin }
      else s
    else s
  | none =>
    let s := makeRoom s ag l a need false 3
    if hasRoom s ag l a need then
      let s := countMiss (putLine s (awaited ag l (if excl then .IM else .IS) twin false)) ag false
      send s { mkMsg (if excl then .RdU else .RdS) ag l with twin := twin }
    else s

/-! ## L3 (R365, R368, R429 to R431) -/

/-- A home slice writes a line to DRAM. -/
def homeWrite (s : State) (l : Nat) (d : LineData) : State := lineMoved (dramWrite s l d) l (isTwin s (8 * l))

def l3Find (s : State) (l : Nat) : Option L3Line := s.coh.l3.find? fun e => e.line = l

def l3Drop (s : State) (l : Nat) : State :=
  { s with coh := { s.coh with l3 := s.coh.l3.filter fun e => e.line ≠ l } }

/-- Any region of kind pinned exists (R430). -/
def anyPinned (s : State) : Bool := s.struct.image.regions.any fun r => fld r.2 2 0 = 3

/-- Makes room in the L3 set of a line: victims leave, dirty ones to DRAM (R368). Pinned lines live in ways 14 and 15
and are never victims (R429, R430); which of the others leaves the manual does not say. -/
def l3Room (s : State) (l need : Nat) : Nat → State
  | 0 => s
  | n + 1 =>
    let peers := s.coh.l3.filter fun x =>
      !x.pinned && homeOf s x.line = homeOf s l && x.line / 16 % 4096 = l / 16 % 4096
    let used := peers.foldl (fun k x => k + (if x.twin then 2 else 1)) 0
    if used + need ≤ (if anyPinned s then 14 else 16) then s
    else
      match pickOne s peers with
      | (some v, s) =>
        let s := l3Drop s v.line
        l3Room (if v.dirty then homeWrite s v.line v.data else s) l need n
      | (none, s) => s

/-- Writes a line into the L3, in front. -/
def l3Put (s : State) (l : Nat) (data : LineData) (dirty : Bool) : State :=
  let e : L3Line := ⟨l, isTwin s (8 * l), dirty, kindAt s (8 * l) = 3, data⟩
  let s := l3Drop s l
  let s := if e.pinned then s else l3Room s l (if e.twin then 2 else 1) 2
  { s with coh := { s.coh with l3 := e :: s.coh.l3 } }

/-- The directory marks an agent for a line (R373). -/
def marks (s : State) (l agent : Nat) : Bool := s.coh.dir.any fun e => e.line = l && e.vec.getLsbD agent

/-- An open snoop of the line's transaction awaits a message as its answer (R381, R408). -/
def awaits (s : State) (m : Msg) : Bool :=
  s.coh.txns.any fun t => t.req.line = m.line && t.snoops.any fun x => x.agent = m.agent && x.tag = m.txn

/-- Dirty data in flight: a PutM, a dirty snoop answer, or a grant in M (R383, R388). What the home slice will discard as
late is none (R408). -/
def flightData (s : State) (l : Nat) : Option LineData :=
  (s.coh.net.find? fun m => m.line = l && !m.data.isEmpty &&
    ((m.type = .PutM && marks s l m.agent) || (m.type = .RspData && m.dirty && awaits s m) ||
      (m.type = .Data && m.gnt = 3))).map (·.data)

/-- The words that stand for a line now: the copy in M of the agent that the directory marks, else dirty data in flight or
in its transaction, else the L3, else DRAM. The copy of an agent that has timed out or died stands for nothing (R407,
R411). It is no access: it moves nothing and counts nothing. -/
def lineValue (s : State) (l : Nat) : LineData :=
  match s.coh.caches.find? fun e =>
      e.line = l && (e.st = .M || e.st = .MI) && marks s l e.agent && !deadAgent s e.agent with
  | some e => e.data
  | none =>
    match flightData s l with
    | some d => d
    | none =>
      match (s.coh.txns.find? fun t => t.req.line = l).bind (·.dirtyData) with
      | some d => d
      | none =>
        match l3Find s l with
        | some e => e.data
        | none => (dramRead s l [] []).1

/-- One word as it stands now, with its poison. -/
def peekWord (s : State) (a : Nat) : Word × Bool := (lineValue s (dataLine s (a / 8))).getD (a % 8) (0, false)

/-- The complement of a data word in a twin pair mismatches (R208, R434). -/
def pairMismatch (d : LineData) (i : Nat) : Bool :=
  d.length = 16 && decide ((d.getD (i + 8) (0, false)).1 ≠ ~~~(d.getD i (0, false)).1)

/-! ## Directory (R372 to R377) -/

def dirFind (s : State) (l : Nat) : Option DirEntry := s.coh.dir.find? fun e => e.line = l

def dirDel (s : State) (l : Nat) : State := { s with coh := { s.coh with dir := s.coh.dir.filter fun e => e.line ≠ l } }

/-- Writes an entry, in front of its set; an entry that marks nobody and is not busy is freed (R373). -/
def dirPut (s : State) (e : DirEntry) : State :=
  let s := dirDel s e.line
  if e.vec = 0 && !e.busy then s else { s with coh := { s.coh with dir := e :: s.coh.dir } }

def holders (e : DirEntry) : List Nat := (upto 64).filter fun a => e.vec.getLsbD a

def vecSet (v : BitVec 64) (a : Nat) (b : Bool) : BitVec 64 :=
  if b then v ||| (1#64 <<< a) else v &&& ~~~(1#64 <<< a)

def txnFind (s : State) (l : Nat) : Option Txn := s.coh.txns.find? fun t => t.req.line = l

def txnDel (s : State) (l : Nat) : State :=
  { s with coh := { s.coh with txns := s.coh.txns.filter fun t => t.req.line ≠ l } }

def txnPut (s : State) (t : Txn) : State :=
  let s := txnDel s t.req.line
  { s with coh := { s.coh with txns := s.coh.txns ++ [t] } }

/-- The entry of a line whose transaction runs; one that has been freed meanwhile marks nobody. -/
def entryOf (s : State) (t : Txn) : DirEntry := (dirFind s t.req.line).getD ⟨t.req.line, false, t.req.twin, true, 0, none⟩

/-- Removes an agent's bit from the entry of a line (R373). -/
def clearSharer (s : State) (agent line : Nat) : State :=
  match dirFind s line with
  | some e => dirPut s { e with vec := vecSet e.vec agent false }
  | none => s

/-- The class of a requester (R375): Frond, Medulla, I/O bridge, application; lower is served first. -/
def classOf (a : Nat) : Nat := if a < 16 then 3 else if a < 32 then 0 else if a = 32 then 1 else 2

/-- The request that a slice serves next among those that it could start (R375), oldest first. -/
def nextWaiting (q : List Msg) : Option Msg :=
  match q.find? fun m => 16 ≤ m.skips with
  | some m => some m
  | none =>
    q.foldl (fun b m => match b with
      | none => some m
      | some x => if classOf m.agent < classOf x.agent then some m else b) none

/-- The snoops of a request on the entry it finds (R383): type and targets. -/
def snoopsFor (m : Msg) (e : DirEntry) : MsgType × List Nat :=
  let hs := holders e
  let others := hs.filter (· ≠ m.agent)
  let owner := if e.exclusive then hs else []
  match m.type with
  | .RdS => (.SnpS, owner.filter (· ≠ m.agent))
  | .RdU => (.SnpInv, others)
  | .Upg => (.SnpInv, others)
  | .RdUZ => (.SnpInv, others)
  | .RdIO => (.SnpData, owner)
  | .RdNC => (.SnpData, owner.filter (· ≠ m.agent))
  | .WrNC => (.SnpInv, others)
  | .WrThru => (.SnpInv, others)
  | .WrStash => (.SnpInv, hs.filter (· ≠ m.tgt))
  | .WrInv => (.SnpInv, hs)
  | .AtomF => (.SnpInv, hs)
  | .Clean => (.SnpClean, owner)
  | .Flush => (.SnpInv, hs)
  | _ => (.SnpInv, [])

/-- Whether a request needs the current words of its line (R383). -/
def needsData (m : Msg) : Bool :=
  match m.type with
  | .RdS => true
  | .RdU => true
  | .RdIO => true
  | .RdNC => true
  | .WrNC => true
  | .WrThru => true
  | .WrStash => m.wmask ≠ 255
  | .WrInv => m.wmask ≠ 255
  | .AtomF => true
  | _ => false

/-- The words of a write merged over a line: word i of the data line where its mask bit is set, with its complement in a
pair (R391, R409). -/
def mergeWords (twin : Bool) (base : LineData) (wmask : Nat) (data : LineData) : LineData :=
  (upto (lineWords twin)).map fun i => if wmask.testBit (i % 8) then data.getD i (0, false) else base.getD i (0, false)

/-- The words of a core's uncached or written-through store merged over a line (R120, R383, R409): `word` of the
message holds the bits written. A part of a word leaves the poison as it is. -/
def mergeStore (m : Msg) (base : LineData) : LineData :=
  mergeWords m.twin base m.wmask (pairData m.twin ((upto 8).map fun i =>
    let b := base.getD i (0, false)
    let w := m.data.getD i (0, false)
    (maskedWrite b.1 w.1 m.word, b.2 && m.word ≠ 0xFFFFFFFFFFFF)))

/-- Every word poisoned (R407). -/
def poisonLine (d : LineData) : LineData := d.map fun w => (w.1, true)

/-- The new entry of a slice that holds no entry for a line: a free way, a recall, or neither (R376, R377). -/
inductive Room where
  | free
  | victim (e : DirEntry)
  | full
deriving DecidableEq, Repr

/-- The entries in the directory set of a line. -/
def dirPeers (s : State) (l : Nat) : List DirEntry :=
  s.coh.dir.filter fun e => e.overflow.isNone && homeOf s e.line = homeOf s l && e.line / 16 % 1024 = l / 16 % 1024

def dirRoom (s : State) (l : Nat) : Room :=
  let peers := dirPeers s l
  if peers.length < 16 then .free
  else match (peers.filter fun e => !e.busy).getLast? with
    | some v => .victim v
    | none => .full

/-- The overflow entry of a Frond agent in the slice of a line is free (R372, R377). -/
def overflowFree (s : State) (l ag : Nat) : Bool :=
  !(s.coh.dir.any fun e => e.overflow = some ag && homeOf s e.line = homeOf s l)

/-- Overflow entries move into ways of their sets that have become free (R377). -/
def settleOverflow (s : State) : State :=
  s.coh.dir.reverse.foldl (fun s e =>
    if e.overflow.isSome && dirRoom s e.line = .free then
      { s with coh := { s.coh with dir := s.coh.dir.map fun x => if x.line = e.line then { x with overflow := none } else x } }
    else s) s

/-- Sends the snoops of a transaction; a dead agent counts as answered at once and is marked no more, and a dead owner
poisons the line (R407, R411). -/
def sendSnoops (s : State) (t : Txn) (ty : MsgType) (targets : List Nat) (excl : Bool) : State × Txn :=
  let (tag, s) := if targets.isEmpty then (0, s) else drawTag s
  targets.foldl (fun (p : State × Txn) a =>
    if deadAgent p.1 a then (clearSharer p.1 a t.req.line, { p.2 with poisonAll := p.2.poisonAll || excl })
    else
      (count (send p.1 { mkMsg ty a t.req.line with twin := t.req.twin, txn := tag }) (32 + homeOf p.1 t.req.line) 0x42,
        { p.2 with snoops := p.2.snoops ++ [⟨a, ty, tag, p.1.now, regF p.1 aCohDirCtl 7 0 * 1000, false, false, none⟩],
                   snooped := p.2.snooped || a ≠ t.req.agent })) (s, t)

/-- The operation of an AtomF on its word (R168, R172): old value, new line, and whether the word was poisoned (1) or
mismatched (2), the mismatch first (R276). -/
def atomicLine (m : Msg) (d : LineData) : Word × LineData × Nat :=
  let w := d.getD m.widx (0, false)
  if pairMismatch d m.widx then (w.1, d, 2)
  else if w.2 then (w.1, d, 1)
  else
    let n := match m.op with
      | 0 => w.1 + m.word
      | 1 => m.word
      | 2 => if w.1 = m.word2 then m.word else w.1
      | 3 => w.1 ||| m.word
      | _ => w.1 &&& m.word
    let d := d.set m.widx (n, false)
    (w.1, if d.length = 16 then d.set (m.widx + 8) (~~~n, false) else d, 0)

/-- C of R404, and the far ALU's record of the line. The fabric clock is the plan frequency of the slice's quadrant. -/
def farHint (s : State) (t : Txn) : Bool × State :=
  let h := homeOf s t.req.line
  let khz := regF s (aClkFreq (16 + h / 4)) 47 24
  let recent := s.coh.farUses.any fun u =>
    u.line = t.req.line && u.agent ≠ t.req.agent && (s.now - u.time) * khz ≤ 1024 * 1000000
  let mine := s.coh.farUses.filter fun u => homeOf s u.line = h && u.line ≠ t.req.line
  let others := s.coh.farUses.filter fun u => homeOf s u.line ≠ h
  let l := ⟨t.req.line, t.req.agent, s.now⟩ :: mine.take 63
  (t.snooped || recent, { s with coh := { s.coh with farUses := l ++ others } })

/-- A stash is performed as an invalidating write without asking its target (R391, R392). -/
def stashRefused (s : State) (t : Nat) : Bool :=
  16 ≤ t || !regB s aCohDirCtl 18 || deadAgent s t || 2 ≤ domState s t ||
  match coreOfAgent t with
  | some c => (s.core c).run = .held
  | none => true

/-- The answer of a home slice to a requester under the request's tag; the transaction then waits for its CmpAck
(R374, R381). -/
def reply (s : State) (t : Txn) (m : Msg) : State :=
  txnPut (send s { m with req := t.req.type, txn := t.req.txn }) { t with granted := true }

/-- Completion of a transaction whose snoops are answered and whose data stand in `base` (R383). An owner that has
evicted the line meanwhile keeps no dirty words, so a read that leaves the state as it is writes them to L3 (R388). -/
def finishTxn (s : State) (t : Txn) (base : LineData) : State :=
  let l := t.req.line
  let a := t.req.agent
  let e := entryOf s t
  let msg := { mkMsg .Data a l with twin := t.req.twin, data := base, snooped := t.snooped }
  let cmp := { mkMsg .Cmp a l with twin := t.req.twin }
  let spill (s : State) : State := if t.poisonAll then l3Put s l base true else s
  let keepDirty (s : State) : State := match t.dirtyData with
    | some d => if e.vec = 0 then l3Put s l d true else s
    | none => s
  match t.req.type with
  | .RdS =>
    if t.uncached then
      let ex := !t.req.isFetch
      reply (dirPut (spill s) { e with exclusive := ex, vec := vecSet 0 a true }) t { msg with gnt := if ex then 2 else 1 }
    else
      let s := match t.dirtyData with
        | some d => l3Put s l (if t.poisonAll then base else d) true
        | none => spill s
      reply (dirPut s { e with exclusive := false, vec := vecSet e.vec a true }) t { msg with gnt := 1 }
  | .RdU =>
    reply (dirPut (spill s) { e with exclusive := true, vec := vecSet 0 a true }) t
      { msg with gnt := if t.dirtyData.isSome && !t.poisonAll then 3 else 2 }
  | .Upg =>
    reply (dirPut (spill s) { e with exclusive := true, vec := vecSet 0 a true }) t
      { mkMsg .GrantU a l with twin := t.req.twin, snooped := t.snooped }
  | .RdUZ =>
    let z := pairData t.req.twin (List.replicate 8 ((0 : Word), false))
    reply (dirPut (l3Drop s l) { e with exclusive := true, vec := vecSet 0 a true }) t { msg with gnt := 3, data := z }
  | .RdIO => reply (keepDirty (spill s)) t msg
  | .RdNC => reply (keepDirty (spill s)) t msg
  | .WrNC =>
    let s := l3Put s l (mergeStore t.req base) true
    reply (dirPut s { e with vec := e.vec &&& vecSet 0 a true }) t cmp
  | .WrThru =>
    let s := l3Put s l (mergeStore t.req base) true
    reply (dirPut s { e with vec := e.vec &&& vecSet 0 a true }) t cmp
  | .WrStash =>
    let s := l3Put s l (mergeWords t.req.twin base t.req.wmask t.req.data) true
    reply (dirPut s { e with vec := 0, exclusive := false }) t cmp
  | .WrInv =>
    let s := l3Put s l (mergeWords t.req.twin base t.req.wmask t.req.data) true
    reply (dirPut s { e with vec := 0, exclusive := false }) t cmp
  | .AtomF =>
    let (old, d, bad) := atomicLine t.req base
    let (c, s) := farHint s t
    let s := count s (32 + homeOf s l) 0x47 (if c then 1 else 0)
    let s := dirPut (l3Put s l d true) { e with vec := 0, exclusive := false }
    reply s t { cmp with word := old, c := c, fail := bad }
  | .Clean =>
    let s := if t.poisonAll then l3Put (homeWrite s l base) l base false
      else match t.dirtyData, l3Find s l with
        | some d, _ => l3Put (homeWrite s l d) l d false
        | none, some x => if x.dirty then l3Put (homeWrite s l x.data) l x.data false else s
        | none, none => s
    reply s t cmp
  | .Flush =>
    let s := if t.poisonAll then homeWrite s l base
      else match t.dirtyData, l3Find s l with
        | some d, _ => homeWrite s l d
        | none, some x => if x.dirty then homeWrite s l x.data else s
        | none, none => s
    reply (dirPut (l3Drop s l) { e with vec := 0, exclusive := false }) t cmp
  | _ => s

/-- A stash that its target can take no more, since STASH was cleared or the target went away after the request opened, is
an invalidating write from then on, which invalidates the target's copy as well (R391, R392). -/
def unstash (s : State) (t : Txn) (base : LineData) : State :=
  let e := entryOf s t
  let (s, t) := sendSnoops s { t with req := { t.req with type := .WrInv } } .SnpInv (holders e) e.exclusive
  if t.snoops.isEmpty then finishTxn s t (if t.poisonAll then poisonLine base else base) else txnPut s t

/-- The stash of a transaction goes to its target (R392): the merged line in SnpStash. -/
def sendStash (s : State) (t : Txn) (base : LineData) : State :=
  let d := mergeWords t.req.twin base t.req.wmask t.req.data
  if stashRefused s t.req.tgt then unstash s t base
  else
    let (tag, s) := drawTag s
    let s := count s (32 + homeOf s t.req.line) 0x42
    let s := send s { mkMsg .SnpStash t.req.tgt t.req.line with
      twin := t.req.twin, data := d, fresh := t.req.wmask, txn := tag }
    txnPut s { t with stashing := true,
                      snoops := [⟨t.req.tgt, .SnpStash, tag, s.now, regF s aCohDirCtl 7 0 * 1000, false, false, none⟩] }

/-- A recall has ended: an owner's dirty data is written to L3 and the entry is freed (R376). -/
def endRecall (s : State) (t : Txn) (base : Option LineData) : State :=
  let s := match base with
    | some d => l3Put s t.req.line d true
    | none => s
  dirDel (txnDel s t.req.line) t.req.line

/-- The words that stand for the line once its snoops are answered, if DRAM is not needed (R383, R407). -/
def txnBase (s : State) (t : Txn) : Option LineData :=
  let l3 := (l3Find s t.req.line).map (·.data)
  if t.poisonAll then l3.map poisonLine
  else match t.dirtyData with
    | some d => some d
    | none => l3

/-! ## Frond reads of tick-reserved lines (R440, R441) -/

/-- A Frond core's request for a tick-reserved line. -/
def frondMsg (s : State) (m : Msg) : Bool := 16 ≤ m.agent && m.agent < 32 && kindAt s (8 * m.line) = 2

/-- The Frond reads that wait for DRAM: transactions, and requests that wait for a line whose read they have taken over
(R440), each with its agent. -/
def frondReads (s : State) : List (Nat × Nat) :=
  let own := s.coh.txns.filter fun t => t.needDram && frondMsg s t.req
  let taken := s.coh.waitq.filter fun m => frondMsg s m && (txnFind s m.line).any (·.needDram)
  (own.map fun t => (t.req.agent, t.req.line)) ++ taken.map fun m => (m.agent, m.line)

/-- MEM_FROND_BOUND counts a Frond read that finds more than three others on its channel, or one of another row of its
bank (R441). -/
def noteBound (s : State) (m : Msg) : State :=
  if !frondMsg s m || !(txnFind s m.line).any (·.needDram) then s
  else
    let p := placeOf s (8 * m.line)
    let others := ((frondReads s).filter (· ≠ (m.agent, m.line))).map fun x => placeOf s (8 * x.2)
    let others := others.filter fun q => q.1 = p.1
    if 3 < others.length || others.any fun q => q.2.1 = p.2.1 && q.2.2 ≠ p.2.2 then regAddSat s aMemFrondBound 47 0 1
    else s

/-- A transaction goes to DRAM for its line (R383); a Frond read that waits for the line takes the read over (R440). -/
def askDram (s : State) (t : Txn) : State :=
  let s := txnPut s { t with needDram := true }
  let s := noteBound s t.req
  let s := (s.coh.waitq.filter fun m => m.line = t.req.line).foldl noteBound s
  count s (32 + homeOf s t.req.line) 0x41

/-- A transaction goes on after a snoop was answered or data arrived. -/
def advance (s : State) (l : Nat) : State :=
  match txnFind s l with
  | none => s
  | some t =>
    if t.granted || !t.snoops.isEmpty || t.needDram then s
    else if t.victim then
      if t.poisonAll then
        match txnBase s t with
        | some d => endRecall s t (some d)
        | none => txnPut s { t with needDram := true }
      else endRecall s t t.dirtyData
    else if needsData t.req || t.poisonAll then
      match txnBase s t with
      | some d => if t.req.type = .WrStash && !t.stashing then sendStash s t d else finishTxn s t d
      | none => askDram s t
    else if t.req.type = .WrStash && !t.stashing then sendStash s t []
    else finishTxn s t (t.dirtyData.getD [])

/-- Opens a transaction on an entry (R374): BUSY, its snoops, and what can follow at once. An upgrade whose requester is
marked no more is a RdU, and a stash that its target cannot take an invalidating write (R383, R389, R391, R392). -/
def beginTxn (s : State) (m : Msg) (e : DirEntry) : State :=
  let m := if m.type = .Upg && !(e.vec.getLsbD m.agent && !e.exclusive) then { m with type := .RdU }
    else if m.type = .WrStash && stashRefused s m.tgt then { m with type := .WrInv } else m
  let (ty, targets) := snoopsFor m e
  let s := count (dirPut s { e with busy := true }) (32 + homeOf s m.line) 0x40
  let s :=
    if m.type = .RdS && m.spec && !targets.isEmpty then
      count (regAddSat s (aCohSpec (homeOf s m.line)) 47 0 1) (32 + homeOf s m.line) 0x44
    else s
  let (s, t) := sendSnoops s ⟨m, [], false, none, false, false, false, false, false, e.vec = 0⟩ ty targets e.exclusive
  advance (txnPut s t) m.line

/-- Opens the recall of a victim (R376). -/
def beginRecall (s : State) (v : DirEntry) : State :=
  let m := { mkMsg .Flush 0 v.line with twin := v.twin }
  let s := dirPut s { v with busy := true }
  let (s, t) := sendSnoops s ⟨m, [], false, none, false, false, false, true, false, false⟩ .SnpInv (holders v) v.exclusive
  advance (txnPut s t) v.line

/-! ## Serving the requests of a slice (R374 to R377) -/

/-- The waiting request without the slice's notes: equal requests differ in their tags. -/
def sameRequest (a b : Msg) : Bool := a.type = b.type && a.agent = b.agent && a.line = b.line && a.txn = b.txn

/-- The recalls that run in the directory set of a line. -/
def recallsIn (s : State) (l : Nat) : Nat :=
  (s.coh.txns.filter fun t => t.victim && homeOf s t.req.line = homeOf s l && t.req.line / 16 % 1024 = l / 16 % 1024).length

/-- The requests that wait for a recall in the directory set of a line. -/
def recallWaiters (s : State) (l : Nat) : Nat :=
  (s.coh.waitq.filter fun m => m.recalling && homeOf s m.line = homeOf s l && m.line / 16 % 1024 = l / 16 % 1024).length

/-- A recall runs on behalf of the waiting request. -/
def recallRuns (s : State) (m : Msg) : Bool := m.recalling && decide (recallWaiters s m.line ≤ recallsIn s m.line)

/-- A slice can act on a waiting request now: its line is not busy, and it has an entry, or a way can be found, or it is
to be refused (R374, R376, R377). -/
def serveable (s : State) (m : Msg) : Bool :=
  (txnFind s m.line).isNone &&
  match dirFind s m.line, dirRoom s m.line with
  | some _, _ => true
  | none, .free => true
  | none, .victim _ => !recallRuns s m
  | none, .full => !recallRuns s m && (classOf m.agent ≠ 0 || overflowFree s m.line m.agent)

/-- A request leaves the queue and its transaction opens; requests of lower classes that wait have been passed (R375). -/
def startRequest (s : State) (m : Msg) (e : DirEntry) : State :=
  let rest := s.coh.waitq.filter fun x => !sameRequest x m
  let rest := rest.map fun x =>
    if homeOf s x.line = homeOf s m.line && classOf m.agent < classOf x.agent then { x with skips := x.skips + 1 } else x
  beginTxn { s with coh := { s.coh with waitq := rest } } { m with skips := 0, recalling := false } e

/-- A slice acts on one waiting request: its transaction opens, a victim's recall opens for it, or it is refused with
Retry (R376, R377). -/
def serveOne (s : State) (m : Msg) : State :=
  let entry (o : Option Nat) : DirEntry := ⟨m.line, false, isTwin s (8 * m.line), true, 0, o⟩
  match dirFind s m.line, dirRoom s m.line with
  | some e, _ => startRequest s m e
  | none, .free => startRequest s m (entry none)
  | none, .victim v =>
    beginRecall { s with coh := { s.coh with
      waitq := s.coh.waitq.map fun x => if sameRequest x m then { x with recalling := true } else x } } v
  | none, .full =>
    if classOf m.agent = 0 then startRequest s m (entry (some m.agent))
    else
      let h := homeOf s m.line
      let s := { s with coh := { s.coh with waitq := s.coh.waitq.filter fun x => !sameRequest x m } }
      let s := count (regAddSat s (aCohRetry h) 47 0 1) (32 + h) 0x43
      let s := if m.n = 7 then assertEdge s 229 else s
      let s := { s with coh := { s.coh with refused := s.coh.refused ++ [m] } }
      send s { mkMsg .Retry m.agent m.line with twin := m.twin, n := Nat.min m.n 4, txn := m.txn, req := m.type }

/-- A slice serves what it can, class by class, oldest first (R375); requests of agents that have died are discarded
(R411). -/
def serveSlice (s : State) (h : Nat) : Nat → State
  | 0 => s
  | n + 1 =>
    let s := settleOverflow s
    match nextWaiting (s.coh.waitq.filter fun m => homeOf s m.line = h && serveable s m) with
    | some m => serveSlice (serveOne s m) h n
    | none => s

/-- A slice goes on after something was freed. -/
def pump (s : State) (h : Nat) : State :=
  let s := { s with coh := { s.coh with waitq := s.coh.waitq.filter fun m => !deadAgent s m.agent } }
  serveSlice s h (3 * s.coh.waitq.length + 1)

/-- A request reaches its home slice (R374 to R377, R411). -/
def accept (s : State) (m : Msg) : State :=
  if deadAgent s m.agent then s
  else
    let s := { s with coh := { s.coh with waitq := s.coh.waitq ++ [m] } }
    pump (noteBound s m) (homeOf s m.line)

/-- After a snoop was answered or data came: the transaction, and then requests that wait. -/
def goOn (s : State) (l : Nat) : State :=
  let s := advance s l
  if (txnFind s l).isSome then s else pump s (homeOf s l)

/-! ## Messages at the home slice -/

/-- A request message of a core arrives at its home slice. -/
def requestArrives (s : State) (t : MsgType) (src line : Nat) : State :=
  match takeMsg s t src line with
  | some (m, s) => accept s m
  | none => s

/-- An answer that no snoop awaits is late (R408). -/
def lateAnswer (s : State) (line : Nat) : State := regAddSat s (aCohLate (homeOf s line)) 47 0 1

/-- The snoop that an answer answers: the agent's, under the same tag (R381, R408). -/
def Snoop.answers (x : Snoop) (m : Msg) : Bool := x.agent = m.agent && x.tag = m.txn

/-- A snoop's answer: the snoop leaves the transaction (R388, R408). -/
def answerSnoop (s : State) (m : Msg) (f : Txn → Txn) : State :=
  match txnFind s m.line with
  | some t =>
    if t.snoops.any fun x => x.answers m && !x.awaitPut then
      goOn (txnPut s (f { t with snoops := t.snoops.filter fun x => !x.answers m })) m.line
    else lateAnswer s m.line
  | none => lateAnswer s m.line

/-- A Put arrives (R383, R388, R408). Where the line's stash is on its way to the sender, the PutAck waits for the sender's
answer, which is then RspEIF: the stashed line was merged before the owner's words came, and must not be installed (R391).
The manual leaves the time of the PutAck open. DESIGN CHOICE, log entry 176. -/
def putArrives (s : State) (t : MsgType) (src line : Nat) : State :=
  match takeMsg s t src line with
  | none => s
  | some (m, s) =>
    let ack (s : State) : State := send s { mkMsg .PutAck src line with twin := m.twin, txn := m.txn }
    let marked := match dirFind s line with
      | some e => e.vec.getLsbD src
      | none => false
    if !marked then ack (lateAnswer s line)
    else
      let s := clearSharer s src line
      let plain (s : State) : State := ack (if t = .PutM then l3Put s line m.data true else s)
      match txnFind s line with
      | some x =>
        if x.snoops.any fun y => y.agent = src then
          let d := if t = .PutM then some m.data else x.dirtyData
          let awaited := x.snoops.any fun y => y.agent = src && y.awaitPut
          let late := x.stashing && !awaited
          let sn := if awaited then x.snoops.filter fun y => y.agent ≠ src
            else x.snoops.map fun y => if y.agent = src then
              { y with putSeen := true, putAck := if late then some m.txn else none } else y
          let s := txnPut s { x with dirtyData := d, snoops := sn }
          goOn (if late then s else ack s) line
        else plain s
      | none => pump (plain s) (homeOf s line)

/-- CmpAck arrives: BUSY ends (R374). -/
def ackArrives (s : State) (agent line : Nat) : State :=
  match takeMsg s .CmpAck agent line with
  | none => s
  | some (_, s) =>
    match txnFind s line with
    | some t =>
      if t.granted && t.req.agent = agent then
        let s := txnDel s line
        let s := match dirFind s line with
          | some e => dirPut s { e with busy := false }
          | none => s
        pump s (homeOf s line)
      else s
    | none => s

/-! ## Snoops at an agent (R59, R378, R385, R392) -/

/-- An agent answers snoops: its domain is not held after a clock fault (R59). -/
def answersSnoops (s : State) (agent : Nat) : Bool :=
  match coreOfAgent agent with
  | some c => !s.sys.held.contains (coreDomain s c)
  | none => true

/-- What a snoop finds and leaves at an agent: the answer and the new line (R378, R383). -/
def snoopAnswer (t : MsgType) (e : CacheLine) : Msg × Option CacheLine :=
  let ackm := { mkMsg .RspAck e.agent e.line with twin := e.twin }
  let data := { mkMsg .RspData e.agent e.line with twin := e.twin, dirty := true, data := e.data }
  match e.st with
  | .M =>
    match t with
    | .SnpS => (data, some { e with st := .S })
    | .SnpInv => (data, none)
    | .SnpClean => (data, some { e with st := .E })
    | _ => (data, some e)
  | .E =>
    match t with
    | .SnpS => (ackm, some { e with st := .S })
    | .SnpInv => (ackm, none)
    | _ => (ackm, some e)
  | .S =>
    match t with
    | .SnpInv => (ackm, none)
    | _ => (ackm, some e)
  | .SM =>
    match t with
    | .SnpInv => (ackm, some { e with st := .IM, data := [] })
    | _ => (ackm, some e)
  | .MI => ({ ackm with type := .RspEIF }, some e)
  | .EI => ({ ackm with type := .RspEIF }, some e)
  | .SI => ({ ackm with type := .RspEIF }, some e)
  | _ => (ackm, some e)

/-- A snoop arrives at its agent and is answered under its tag (R378, R381, R385). -/
def snoopArrives (s : State) (t : MsgType) (agent line : Nat) : State :=
  match takeMsg s t agent line with
  | none => s
  | some (q, s) =>
    match cacheLine s agent line with
    | none => send s { mkMsg .RspAck agent line with twin := q.twin, txn := q.txn }
    | some e =>
      let (m, e') := snoopAnswer t e
      let s := match e' with
        | some x => modLine s agent line fun _ => x
        | none => dropLine s agent line
      send s { m with txn := q.txn }

/-- A target takes no stash (R392): it is Dormant or Off, held in reset or checkstopped. -/
def stashBarred (s : State) (agent : Nat) : Bool :=
  2 ≤ domState s agent ||
  match coreOfAgent agent with
  | some c => (s.core c).run = .held || (s.core c).run = .checkstopped
  | none => true

/-- A stash arrives at an L2 (R388, R392): installed in M, answered as an eviction in flight, or declined with any
dirty words it held. Where the set has no free way its least recently used line is evicted first, and the stash waits
in flight until that Put is acknowledged. A target with a request of its own open on the line declines, and its copy
in SM goes to IM: the manual does not name that case. DEDUCED, log entry 132. -/
def stashArrives (s : State) (agent line : Nat) : State :=
  match takeMsg s .SnpStash agent line with
  | none => s
  | some (m, t) =>
    let held := cacheLine t agent line
    let own := match held with
      | some e => if e.st = .M then some e.data else none
      | none => none
    let d := match own with
      | some o => mergeWords m.twin o m.fresh m.data
      | none => m.data
    let open_ := held.any fun e => e.st = .IS || e.st = .IM || e.st = .SM
    let need := if m.twin then 2 else 1
    let peers := setPeers t agent line .l2
    if held.any (·.st.evicting) then send t { mkMsg .RspEIF agent line with twin := m.twin, txn := m.txn }
    else if open_ || stashBarred t agent ||
        (!hasRoom t agent line .l2 need && peers.all fun e => !e.st.stable) then
      send (leaves t) { mkMsg .RspDecline agent line with twin := m.twin, data := d, txn := m.txn }
    else if hasRoom t agent line .l2 need then
      send (putLine t ⟨agent, line, .M, m.twin, false, false, d⟩) { mkMsg .RspAck agent line with twin := m.twin, txn := m.txn }
    else makeRoom s agent line .l2 need true 3
where
  /-- A declining agent invalidates any copy it holds; a copy in SM goes to IM (R378, R382). -/
  leaves (s : State) : State :=
    match cacheLine s agent line with
    | some e =>
      if e.st.stable then dropLine s agent line
      else if e.st = .SM then modLine s agent line fun x => { x with st := .IM, data := [] }
      else s
    | none => s

/-- A snoop reaches an agent that answers (R59). -/
def snoopCmd (s : State) (t : MsgType) (agent line : Nat) : State :=
  if !answersSnoops s agent then s
  else if t = .SnpStash then stashArrives s agent line else snoopArrives s t agent line

/-! ## Answers at the home slice (R383, R388, R392, R408) -/

/-- RspAck, RspDecline of a stash: the transaction ends with the line at the target or in L3 (R383, R392). -/
def stashAnswered (s : State) (t : Txn) (declined : Option LineData) : State :=
  let l := t.req.line
  let e := entryOf s t
  let cmp := { mkMsg .Cmp t.req.agent l with twin := t.req.twin }
  match declined with
  | none => reply (dirPut (l3Drop s l) { e with exclusive := true, vec := vecSet 0 t.req.tgt true }) { t with snoops := [] } cmp
  | some d =>
    let s := count s (32 + homeOf s l) 0x48
    reply (dirPut (l3Put s l d true) { e with exclusive := false, vec := 0 }) { t with snoops := [] } cmp

/-- The open stash that an answer answers. -/
def stashOpen (s : State) (m : Msg) : Option Txn :=
  match txnFind s m.line with
  | some t => if t.stashing && t.snoops.any (·.answers m) then some t else none
  | none => none

/-- RspAck arrives (R383, R392). -/
def rspAckArrives (s : State) (agent line : Nat) : State :=
  match takeMsg s .RspAck agent line with
  | none => s
  | some (m, s) =>
    match stashOpen s m with
    | some t => stashAnswered s t none
    | none => answerSnoop s m id

/-- RspData arrives (R383): dirty data replaces the L3 and DRAM versions. -/
def rspDataArrives (s : State) (agent line : Nat) : State :=
  match takeMsg s .RspData agent line with
  | none => s
  | some (m, s) => answerSnoop s m fun t => if m.dirty then { t with dirtyData := some m.data } else t

/-- The PutAck that a stash has kept back leaves (R388). -/
def oweAck (s : State) (t : Txn) (agent : Nat) : State :=
  match (t.snoops.find? (·.agent = agent)).bind (·.putAck) with
  | some tag => send s { mkMsg .PutAck agent t.req.line with twin := t.req.twin, txn := tag }
  | none => s

/-- RspEIF arrives (R388): the snoop counts as answered, and its Put is awaited unless it has come. One whose snoop has
timed out is late (R408). -/
def rspEIFArrives (s : State) (agent line : Nat) : State :=
  match takeMsg s .RspEIF agent line with
  | none => s
  | some (m, s) =>
    match txnFind s line with
    | none => lateAnswer s line
    | some t =>
      if !t.snoops.any (·.answers m) then lateAnswer s line
      else
        let s := count (regAddSat s (aCohEif (homeOf s line)) 47 0 1) (32 + homeOf s line) 0x45
        if t.snoops.any fun x => x.answers m && x.putSeen then answerSnoop (oweAck s t agent) m id
        else txnPut s { t with snoops := t.snoops.map fun x => if x.answers m then { x with awaitPut := true } else x }

/-- RspDecline arrives (R392): the slice writes the line into L3. -/
def rspDeclineArrives (s : State) (agent line : Nat) : State :=
  match takeMsg s .RspDecline agent line with
  | none => s
  | some (m, s) =>
    match stashOpen s m with
    | some t => stashAnswered s t (some m.data)
    | none => answerSnoop s m id

/-- PutAck arrives: the line ends in I (R378, R379). -/
def putAckArrives (s : State) (agent line : Nat) : State :=
  match takeMsg s .PutAck agent line with
  | none => s
  | some (_, s) => if (cacheLine s agent line).any (·.st.evicting) then dropLine s agent line else s

/-! ## Snoop timeout, dead agents (R406 to R411) -/

/-- A dead agent's core takes a core reset, its caches too, and is held in it (R411, R726). What a Frond core has done in
its frame stays with its tick group. DEDUCED, log entry 184. -/
def holdDead (s : State) (c : CoreId) : State :=
  let frame := { (s.core c).frame with resyncPending := false }
  let s := (coreToReset s c .held).modCore c fun k => { k with frame := frame }
  { s with coh := { s.coh with caches := s.coh.caches.filter fun e => e.agent ≠ coreNum c } }

/-- The agent-health monitor (R410, R411): three timeouts of one agent within 1 s make it dead. -/
def noteTimeout (s : State) (agent : Nat) : State :=
  let h := (s.coh.timeouts.filter fun e => s.now ≤ e.2 + 1000000000) ++ [(agent, s.now)]
  let s := { s with coh := { s.coh with timeouts := h } }
  let n := (h.filter fun e => e.1 = agent).length
  if 3 ≤ n && !deadAgent s agent then
    let s := regFld s aCohDead agent agent 1
    let s := assertEdge (logFault s 0x05 agent 228 0 (w48 n)) 228
    match coreOfAgent agent with
    | some .medulla => moduleFault s 5
    | some c => holdDead s c
    | none => s
  else s

/-- A snoop timer expires (R406, R407): the transaction completes without the agent, with poisoned data. -/
def timeoutAt (s : State) (agent line : Nat) : State :=
  match txnFind s line with
  | none => s
  | some t =>
    match t.snoops.find? fun x => x.agent = agent with
    | none => s
    | some x =>
      if s.now < x.sent + x.limit || homeHeld s line then s
      else
        let h := homeOf s line
        let s := oweAck (clearSharer s agent line) t agent
        let s := txnPut s { t with snoops := t.snoops.filter (fun y => y.agent ≠ agent), poisonAll := true }
        let s := count (regAddSat s (aCohTimeout h) 47 0 1) (32 + h) 0x46
        let s := regSet s (aCohPoison h) (mk 47 47 1 ||| mk 46 41 agent ||| mk 32 0 line)
        let s := assertEdge (logFault s 0x04 agent (212 + h) (w48 line) (w48 h)) (212 + h)
        noteTimeout (goOn s line) agent

/-! ## DRAM reads (R422, R433, R440, R443, R445) -/

/-- The controller of a line's channel is held in reset after a clock fault (R48, R57). -/
def channelHeld (s : State) (l : Nat) : Bool := s.sys.held.contains (26 + (placeOf s (8 * l)).1)

/-- A line's DRAM read must wait: for a row copy (R445), or, unless it is a Frond read, for an owed refresh (R443). A
controller held in reset answers nothing. -/
def dramWaits (s : State) (l : Nat) : Bool :=
  let cl := complLine s l
  channelHeld s l || (isTwin s (8 * l) && channelHeld s cl) || homeHeld s l ||
  let frond := (frondReads s).any fun x => x.2 = l
  rowCopying s l || (isTwin s (8 * l) && rowCopying s cl) ||
    (!frond && (refreshFirst s l || (isTwin s (8 * l) && refreshFirst s cl)))

/-- The DRAM read of a line returns to its transaction (R422, R433): the L3 takes the fill. A Frond read of a
tick-reserved line uses a reserved slot (R439, R713). -/
def dramReturns (s : State) (line : Nat) (flips again : List (BitVec 64)) : State :=
  match txnFind s line with
  | some t =>
    if t.needDram && !dramWaits s line then
      let s := if (frondReads s).any fun x => x.2 = line then count s (48 + (placeOf s (8 * line)).1) 0x52 else s
      let (d, s) := dramRead s line flips again
      let s := lineMoved s line (isTwin s (8 * line))
      let s := if (l3Find s line).isSome then s else l3Put s line d false
      goOn (txnPut s { t with needDram := false }) line
    else s
  | none => s

/-! ## Transactions run whole

The bridge's engines, the table walkers and instruction fetch run the transaction of one line whole where they can: its
snoops reach their agents and are answered, DRAM returns what it stores, and the answer is taken. Where an agent does
not answer, or the line or its set is busy, the transaction stays open as far as it came, its messages are delivered by
their own commands, and the engine's event is to be commanded again. -/

/-- What a whole transaction came to. -/
inductive Whole (α : Type) where
  | done (a : α) (s : State)
  | held (s : State)

/-- A message of a whole transaction moves on by itself: a snoop whose agent answers, an answer, or a Put. -/
def moves (s : State) (l : Nat) (m : Msg) : Bool :=
  m.line = l && (frontIdx s m.type m.agent l).isSome &&
  match m.type.chan with
  | .snp => answersSnoops s m.agent && (m.type ≠ .SnpStash || hasRoom s m.agent l .l2 (if m.twin then 2 else 1) ||
      stashBarred s m.agent)
  | .rsp => m.type ≠ .CmpAck
  | .wb => true
  | _ => false

/-- Such a message is delivered. -/
def deliver (s : State) (m : Msg) : State :=
  match m.type with
  | .RspAck => rspAckArrives s m.agent m.line
  | .RspData => rspDataArrives s m.agent m.line
  | .RspEIF => rspEIFArrives s m.agent m.line
  | .RspDecline => rspDeclineArrives s m.agent m.line
  | .PutM => putArrives s .PutM m.agent m.line
  | .PutE => putArrives s .PutE m.agent m.line
  | .PutS => putArrives s .PutS m.agent m.line
  | t => snoopCmd s t m.agent m.line

/-- The open transaction of a line runs as far as it goes by itself. -/
def runTxn (s : State) (l : Nat) : Nat → State
  | 0 => s
  | n + 1 =>
    match s.coh.net.find? (moves s l) with
    | some m => runTxn (deliver s m) l n
    | none => if (txnFind s l).any fun t => t.needDram && !dramWaits s l then runTxn (dramReturns s l [] []) l n else s

/-- Enough for the snoops of every agent, their answers and one DRAM read. -/
def wholeFuel : Nat := 80

/-- Nothing of the line is under way. -/
def lineQuiet (s : State) (l : Nat) : Bool :=
  (txnFind s l).isNone && !(s.coh.net.any fun m => m.line = l) && !(s.coh.waitq.any fun m => m.line = l) &&
  !(s.coh.refused.any fun m => m.line = l) && !(s.coh.retries.any fun m => m.line = l)

/-- A requester takes the answer of its whole transaction and acknowledges it (R374). -/
def takeAnswer (s : State) (t : MsgType) (ag l : Nat) : Whole Msg :=
  match takeMsg s t ag l with
  | some (m, s) => .done m (ackArrives (send s { mkMsg .CmpAck ag l with twin := m.twin, txn := m.txn }) ag l)
  | none => .held s

/-- A message can reach its home slice at once: the slice runs, and nothing is ahead of it on its channel (R57, R380). -/
def laneOpen (s : State) (m : Msg) : Bool := !homeHeld s m.line && !s.coh.net.any fun x => sameLane s x m

/-- A request is issued and reaches its home slice at once, under a fresh tag; a stash is counted (R381, R713, R719). -/
def issue (s : State) (m : Msg) : State :=
  let s := if m.type.carriesLine then lineMoved s m.line m.twin else s
  let s := if m.type = .WrStash then count s 63 0x0B2 else s
  let (t, s) := drawTag s
  accept s { m with txn := t }

/-- A request can run whole now. The bridge sends nothing while its clock stands still (R57, R662). -/
def canRequest (s : State) (m : Msg) : Bool :=
  lineQuiet s m.line && !deadAgent s m.agent && laneOpen s m && !(m.agent = 33 && clockStopped s 63)

/-- A change of the steps of the bridge's jobs. -/
def modSteps (s : State) (f : List BridgeStep → List BridgeStep) : State :=
  { s with coh := { s.coh with steps := f s.coh.steps } }

/-- A step of the job that runs now (R393): one that it has made already answers as it did, or is still open; a new one is
made and remembered. Outside a job it is only made. -/
def jobStep (s : State) (m : Msg) (ready : State → Bool) (f : State → Whole Msg) : Whole Msg :=
  if s.coh.job = 0 || m.agent ≠ 33 then (if ready s then f s else .held s)
  else
    let step (r : Option Msg) : BridgeStep := ⟨s.coh.job, m, r, true⟩
    match s.coh.steps.findIdx? fun x => x.job = s.coh.job && !x.used && x.req = m with
    | some i =>
      match (s.coh.steps[i]?).bind (·.answer) with
      | some r => .done r (modSteps s fun l => l.modify i fun x => { x with used := true })
      | none => .held s
    | none =>
      if !ready s then .held s
      else match f s with
        | .done r t => .done r (modSteps t fun l => l ++ [step (some r)])
        | .held t => .held (modSteps t fun l => l ++ [step none])

/-- A job of an engine behind the bridge begins, or goes on after a wait (R393). `job` is its number: a DMA channel, a queue,
an instance or the counter collector. -/
def bridgeJob {α : Type} (s : State) (job : Nat) (f : State → Whole α) : Whole α :=
  let outer := s.coh.job
  let s := modSteps { s with coh := { s.coh with job := job } } fun l =>
    l.map fun x => if x.job = job then { x with used := false } else x
  match f s with
  | .done a t => .done a (modSteps { t with coh := { t.coh with job := outer } } fun l => l.filter fun x => x.job ≠ job)
  | .held t => .held { t with coh := { t.coh with job := outer } }

/-- A job whose answer the engine keeps no more of. -/
def runJob (s : State) (job : Nat) (f : State → Whole Unit) : State :=
  match bridgeJob s job f with
  | .done _ t => t
  | .held t => t

/-! The numbers of the bridge's jobs: one DMA channel each, a queue's completion and its fetch, an instance and the record
it receives, the counter record, an endpoint, and the PCIe link (R393). -/

def jobDma (n : Nat) : Nat := 1 + n
def jobRecord : Nat := 0x10
def jobPcie : Nat := 0x11
def jobUsb (e : Nat) : Nat := 0x20 + e
def jobQueue (q : Nat) : Nat := 0x100 + q
def jobInst (i : Nat) : Nat := 0x200 + i
def jobLand (i : Nat) : Nat := 0x240 + i
def jobFetch (q : Nat) : Nat := 0x400 + q
def jobStream (q : Nat) : Nat := 0x500 + q

/-- A job ends before its time: what it has sent is not asked for again. -/
def dropJob (s : State) (job : Nat) : State := modSteps s fun l => l.filter fun x => x.job ≠ job

/-- The answer of an open step has come to the bridge. -/
def answerStep (s : State) (m : Msg) : State :=
  modSteps s fun l => l.map fun x => if x.req.line = m.line && x.answer.isNone then { x with answer := some m } else x

/-- An access of a job that is no transaction, to Sorus memory or a log, is made once (R393): `a` is its address. -/
def jobOnce (s : State) (a : Nat) (v m : Word) (f : State → Msg × State) : Msg × State :=
  match jobStep s { mkMsg .WrNC 33 a with word := v, word2 := m } (fun _ => true) fun s => .done (f s).1 (f s).2 with
  | .done r s => (r, s)
  | .held s => (mkMsg .WrNC 33 a, s)

/-- A request runs whole. -/
def requestWhole (s : State) (m : Msg) (answer : MsgType) : Whole Msg :=
  jobStep s m (canRequest · m) fun s => takeAnswer (runTxn (issue s m) m.line wholeFuel) answer m.agent m.line

/-- A coherent read of a line by the I/O bridge (R383, RdIO). -/
def bridgeRead (s : State) (l : Nat) : Whole LineData :=
  match requestWhole s { mkMsg .RdIO 33 l with twin := isTwin s (8 * l) } .Data with
  | .done m s => .done m.data s
  | .held s => .held s

/-- A stash for a target; one that is no application core makes it an invalidating write (R391). -/
def stashMsg (l tgt : Nat) : Msg := if tgt < 16 then { mkMsg .WrStash 33 l with tgt := tgt } else mkMsg .WrInv 33 l

/-- A write of some words of one line by the I/O bridge, stashed for an application core or invalidating (R391, R392):
`tgt` names the core of a stash. -/
def bridgeWrite (s : State) (l wmask : Nat) (data : LineData) (tgt : Option Nat) : Whole Unit :=
  let twin := isTwin s (8 * l)
  let m : Msg := match tgt with
    | some t => stashMsg l t
    | none => mkMsg .WrInv 33 l
  match requestWhole s { m with twin := twin, wmask := wmask, data := pairData twin (data.take 8) } .Cmp with
  | .done _ s => .done () s
  | .held s => .held s

/-- An eviction runs whole: its Put is taken and acknowledged. -/
def evictWhole (s : State) (e : CacheLine) : State :=
  let s := evictLine s e
  match s.coh.net.find? fun m => m.agent = e.agent && m.line = e.line && m.type.chan = .wb with
  | some m => if (txnFind s e.line).isNone then putAckArrives (putArrives s m.type e.agent e.line) e.agent e.line else s
  | none => s

/-- Room is made for a line by whole evictions. -/
def roomWhole (s : State) (ag l : Nat) (a : CacheArray) (need : Nat) : Nat → State
  | 0 => s
  | n + 1 =>
    if hasRoom s ag l a need then s
    else match pickOne s ((setPeers s ag l a).filter (·.st.stable)) with
      | (some v, s) => roomWhole (evictWhole s v) ag l a need n
      | (none, s) => s

/-- The state a grant gives (R382). -/
def grantState (g : Nat) : LineState := if g = 3 then .M else if g = 2 then .E else .S

/-- A granted line is installed: of an application core in its L2, and in the L1 that it was asked for; of a Frond or
Medulla core in its L1D or L1I (R365, R367). -/
def installLine (s : State) (ag : Nat) (m : Msg) : State :=
  let e := (cacheLine s ag m.line).getD (awaited ag m.line .IS m.twin false)
  let s := putLine s { e with
    st := grantState m.gnt, twin := m.twin, data := m.data, inL1 := e.inL1 && 16 ≤ ag, inL1I := e.inL1I && 16 ≤ ag }
  if 16 ≤ ag then s
  else
    let s := if e.inL1 then enterL1 s ag m.line .l1d else s
    if e.inL1I then enterL1 s ag m.line .l1i else s

/-- A core's own read of a line, for its table walker (R339) or its fetch (R367), as a normal read through its caches: a
held copy serves, and otherwise a RdS runs whole and the line is installed. -/
def coreRead (s : State) (ag l : Nat) (fetch : Bool) : Whole LineData :=
  let l := dataLine s l
  let twin := isTwin s (8 * l)
  let used (s : State) : State := if fetch then touchL1 s ag l .l1i else match cacheLine s ag l with
    | some e => putLine s e
    | none => s
  match cacheLine s ag l with
  | some e => if e.st.readable then .done e.data (used s) else .held s
  | none =>
    if !lineQuiet s l || deadAgent s ag then .held s
    else
      let a := outerArray ag fetch
      let need := if twin then 2 else 1
      let s := roomWhole s ag l a need 8
      if !hasRoom s ag l a need then .held s
      else
        let s := match coreOfAgent ag with
          | some c => noteEvent s c 0x16
          | none => s
        let s := putLine s ⟨ag, l, .IS, twin, !fetch && 16 ≤ ag, fetch, []⟩
        match requestWhole s { mkMsg .RdS ag l with twin := twin, isFetch := fetch } .Data with
        | .done m s => .done m.data (installLine s ag m)
        | .held s => .held s

/-- A far atomic of a core's walker runs whole (R344, R402): the old value and how it failed. -/
def coreAtomic (s : State) (ag a op : Nat) (v old : Word) : Whole (Word × Nat) :=
  let l := dataLine s (a / 8)
  match requestWhole s { mkMsg .AtomF ag l with
      twin := isTwin s (8 * l), op := op, widx := a % 8, word := v, word2 := old } .Cmp with
  | .done m s => .done (m.word, m.fail) s
  | .held s => .held s

/-- Runs g on what a whole transaction read; a held one stays as it is. -/
def Whole.andThen {α β : Type} (w : Whole α) (g : α → State → Whole β) : Whole β :=
  match w with
  | .done a s => g a s
  | .held s => .held s

/-! ## Words of the engines behind the bridge (R409, R427, R434) -/

/-- A word that an engine reads from DRAM: its value and what is wrong with it: 0 nothing, 1 poisoned, 2 mismatched. -/
def bridgeWord (s : State) (a : Nat) : Whole (Word × Nat) :=
  match bridgeRead s (dataLine s (a / 8)) with
  | .done d s =>
    let w := d.getD (a % 8) (0, false)
    .done (w.1, if w.2 then 1 else if pairMismatch d (a % 8) then 2 else 0) s
  | .held s => .held s

/-- Consecutive words that an engine reads. -/
def bridgeWords (s : State) (a : Nat) : Nat → Whole (List (Word × Nat))
  | 0 => .done [] s
  | n + 1 =>
    match bridgeWord s a with
    | .held s => .held s
    | .done w s =>
      match bridgeWords s (a + 1) n with
      | .done ws s => .done (w :: ws) s
      | .held s => .held s

/-- One word written by an engine; its poison goes with it. -/
def bridgePut (s : State) (a : Nat) (v : Word) (poison : Bool) (tgt : Option Nat) : Whole Unit :=
  let l := dataLine s (a / 8)
  bridgeWrite s l (2 ^ (a % 8)) (oneWord false (a % 8) (v, poison)) tgt

/-- The bits m of one word written by an engine: WMASK names whole words, so the bridge fills a part of one by a read of
it, and the word keeps its poison (R391, R409, R647). -/
def bridgeMerge (s : State) (a : Nat) (v m : Word) (tgt : Option Nat) : Whole Unit :=
  if m = 0xFFFFFFFFFFFF then bridgePut s a v false tgt
  else (bridgeWord s a).andThen fun w s => bridgePut s a (maskedWrite w.1 v m) (w.2 = 1) tgt

/-- Consecutive words written by an engine, each complete before the next (R393). -/
def bridgePuts (s : State) (a : Nat) : List Word → Whole Unit
  | [] => .done () s
  | w :: ws =>
    match bridgePut s a w false none with
    | .done _ s => bridgePuts s (a + 1) ws
    | .held s => .held s

/-- The state that a whole transaction leaves. -/
def Whole.state {α : Type} : Whole α → State
  | .done _ s => s
  | .held s => s

/-- The words from a on, n of them, lie in DRAM regions of the kinds that p admits, below MEM_TOP (R427). -/
def dramSpan (s : State) (p : Nat → Bool) (a n : Nat) : Bool :=
  a + n ≤ memTop s && (upto n).all fun k => p (kindAt s (a + k)) && !isCompl s (a + k)

/-! ## Releasing an agent's caches (R386) -/

/-- Every snoop and stash on its way to an agent is answered. -/
def answerAll (s : State) (ag : Nat) : Nat → State
  | 0 => s
  | n + 1 =>
    match s.coh.net.find? fun m => m.agent = ag && m.type.chan = .snp && (frontIdx s m.type ag m.line).isSome with
    | some m => answerAll (if m.type = .SnpStash then stashArrives s ag m.line else snoopArrives s m.type ag m.line) ag n
    | none => s

/-- Every Put of an agent is taken by its home slice and acknowledged. -/
def drainPuts (s : State) (ag : Nat) : Nat → State
  | 0 => s
  | n + 1 =>
    match s.coh.net.find? fun m => m.agent = ag && (m.type.chan = .wb || m.type = .PutAck) &&
        (frontIdx s m.type ag m.line).isSome with
    | some m => drainPuts (if m.type = .PutAck then putAckArrives s ag m.line else putArrives s m.type ag m.line) ag n
    | none => s

/-- A core writes back and releases its caches with Puts, and answers every snoop sent to it (R386). -/
def releaseCaches (s : State) (ag : Nat) : State :=
  let s := answerAll s ag (2 * s.coh.net.length + 1)
  let s := (s.coh.caches.filter fun e => e.agent = ag).foldl evictLine s
  drainPuts s ag (2 * s.coh.net.length + 1)

/-- Nothing of an agent's lines is under way: no line in a transient state, no snoop or stash to it. -/
def agentQuiet (s : State) (ag : Nat) : Bool :=
  !(s.coh.caches.any fun e => e.agent = ag && !e.st.stable) && !(s.coh.net.any fun m => m.agent = ag)

end Sys2Proof.Machine
end

