-- ==== Sys2Proof/Machine/Flags.lean ====
section
/-! DEFINITION. Floating point in F48, binary32 and binary64 (R86 to R90, R125 to R135): exact values, one rounding,
and the sticky flags of fcs. Every operation answers its result and the flag bits 7:3 it sets. -/

namespace Sys2Proof.Machine

open Sys2Proof

/-- A binary format: exponent bits and fraction bits (R86, R89). -/
structure Fmt where
  eb : Nat
  fb : Nat
deriving DecidableEq, Repr

def fmtF48 : Fmt := ⟨11, 36⟩
def fmtS32 : Fmt := ⟨8, 23⟩
def fmtD64 : Fmt := ⟨11, 52⟩

def fmtOf : Prec → Fmt
  | .f48 => fmtF48
  | .s32 => fmtS32

def Fmt.width (f : Fmt) : Nat := 1 + f.eb + f.fb
def Fmt.bias (f : Fmt) : Int := 2 ^ (f.eb - 1) - 1
def Fmt.emax (f : Fmt) : Nat := 2 ^ f.eb - 1
/-- The weight exponent of the last fraction bit of a subnormal. -/
def Fmt.qmin (f : Fmt) : Int := 1 - f.bias - f.fb
def Fmt.inf (f : Fmt) (neg : Bool) : Nat := neg.toNat * 2 ^ (f.eb + f.fb) + f.emax * 2 ^ f.fb
def Fmt.maxFinite (f : Fmt) (neg : Bool) : Nat := f.inf neg - 1
/-- The default NaN (R89, R90). -/
def Fmt.nan (f : Fmt) : Nat := f.emax * 2 ^ f.fb + 2 ^ (f.fb - 1)
def Fmt.zero (f : Fmt) (neg : Bool) : Nat := neg.toNat * 2 ^ (f.eb + f.fb)

/-- A decoded value: a NaN, an infinity, or ± m × 2^e. -/
inductive FVal where
  | nan (signalling : Bool)
  | inf (neg : Bool)
  | fin (neg : Bool) (m : Nat) (e : Int)
deriving DecidableEq, Repr

/-- Decodes an encoding (R89, R90). -/
def unpack (f : Fmt) (x : Nat) : FVal :=
  let neg := x.testBit (f.eb + f.fb)
  let ex := (x >>> f.fb) % 2 ^ f.eb
  let fr := x % 2 ^ f.fb
  if ex = f.emax then (if fr = 0 then .inf neg else .nan (!fr.testBit (f.fb - 1)))
  else if ex = 0 then .fin neg fr f.qmin
  else .fin neg (fr + 2 ^ f.fb) (f.qmin + ex - 1)

/-- The flags of fcs an operation sets, in the places of R125. -/
def flNV : Nat := 0x80
def flDZ : Nat := 0x40
def flOF : Nat := 0x20
def flUF : Nat := 0x10
def flNX : Nat := 0x08

/-- Whether a magnitude n with a rest is rounded up: mode (R125), sign, parity of n, the rest against one half. -/
def roundUp (rm : Nat) (neg odd : Bool) (rest half : Nat) (sticky : Bool) : Bool :=
  let inexact := rest ≠ 0 || sticky
  if rm = 0 then rest > half || (rest = half && (sticky || odd))
  else if rm = 1 then false
  else if rm = 2 then neg && inexact
  else if rm = 3 then !neg && inexact
  else rest ≥ half

/-- m × 2^e (a little more with `sticky`) rounded to a multiple of 2^q: the multiple, and whether it is inexact. -/
def roundTo (rm : Nat) (neg : Bool) (m : Nat) (e : Int) (sticky : Bool) (q : Int) : Nat × Bool :=
  if q ≤ e then
    let n := m * 2 ^ (e - q).toNat
    (if sticky && roundUp rm neg (n % 2 = 1) 0 1 true then n + 1 else n, sticky)
  else
    let d := (q - e).toNat
    let n := m / 2 ^ d
    let r := m % 2 ^ d
    (if roundUp rm neg (n % 2 = 1) r (2 ^ (d - 1)) sticky then n + 1 else n, r ≠ 0 || sticky)

/-- Rounds ± m × 2^e into a format (R89, R125, R128): encoding and flags. Tininess is detected after rounding. -/
def pack (f : Fmt) (rm : Nat) (neg : Bool) (m : Nat) (e : Int) (sticky : Bool := false) : Nat × Nat :=
  if m = 0 && !sticky then (f.zero neg, 0)
  else
    let top := e + (m.log2 : Int)
    let emin := f.qmin + f.fb
    let q := if f.qmin ≤ top - f.fb then top - f.fb else f.qmin
    let (n, inex) := roundTo rm neg m e sticky q
    let enc := (q - f.qmin).toNat * 2 ^ f.fb + n
    if f.emax * 2 ^ f.fb ≤ enc then
      let big := if rm = 0 || rm = 4 then true else if rm = 1 then false else if rm = 2 then neg else !neg
      (if big then f.inf neg else f.maxFinite neg, flOF + flNX)
    else
      let free := roundTo rm neg m e sticky (top - f.fb)
      let tiny := decide (top < emin) && !(decide (top + 1 = emin) && decide (free.1 = 2 ^ (f.fb + 1)))
      (f.zero neg + enc, (if inex then flNX else 0) + (if tiny && inex then flUF else 0))

/-- A signalling NaN among the operands sets NV (R129). -/
def nvOf (l : List FVal) : Nat := if l.any (fun v => v = .nan true) then flNV else 0

def FVal.isNaN : FVal → Bool
  | .nan _ => true
  | _ => false

/-- The sum of two finite values, exactly: sign, magnitude, exponent. A zero sum of opposite signs is negative only
when rounding toward −∞. -/
def sumExact (rm : Nat) (n1 : Bool) (m1 : Nat) (e1 : Int) (n2 : Bool) (m2 : Nat) (e2 : Int) : Bool × Nat × Int :=
  let e := if e1 ≤ e2 then e1 else e2
  let a : Int := (if n1 then -1 else 1) * (m1 * 2 ^ (e1 - e).toNat : Nat)
  let b : Int := (if n2 then -1 else 1) * (m2 * 2 ^ (e2 - e).toNat : Nat)
  let v := a + b
  if v = 0 then (if n1 = n2 then n1 else rm = 2, 0, e)
  else (decide (v < 0), v.natAbs, e)

/-- Addition of two decoded values (R130). -/
def addV (f : Fmt) (rm : Nat) (a b : FVal) : Nat × Nat :=
  match a, b with
  | .nan _, _ => (f.nan, nvOf [a, b])
  | _, .nan _ => (f.nan, nvOf [a, b])
  | .inf x, .inf y => if x = y then (f.inf x, 0) else (f.nan, flNV)
  | .inf x, .fin _ _ _ => (f.inf x, 0)
  | .fin _ _ _, .inf y => (f.inf y, 0)
  | .fin n1 m1 e1, .fin n2 m2 e2 =>
    let (n, m, e) := sumExact rm n1 m1 e1 n2 m2 e2
    pack f rm n m e

def FVal.neg : FVal → FVal
  | .nan s => .nan s
  | .inf n => .inf (!n)
  | .fin n m e => .fin (!n) m e

/-- Multiplication (R130). -/
def mulV (f : Fmt) (rm : Nat) (a b : FVal) : Nat × Nat :=
  match a, b with
  | .nan _, _ => (f.nan, nvOf [a, b])
  | _, .nan _ => (f.nan, nvOf [a, b])
  | .inf x, .inf y => (f.inf (x != y), 0)
  | .inf x, .fin y m _ => if m = 0 then (f.nan, flNV) else (f.inf (x != y), 0)
  | .fin x m _, .inf y => if m = 0 then (f.nan, flNV) else (f.inf (x != y), 0)
  | .fin n1 m1 e1, .fin n2 m2 e2 => pack f rm (n1 != n2) (m1 * m2) (e1 + e2)

/-- Division (R130): the quotient with enough bits and a sticky rest. -/
def divV (f : Fmt) (rm : Nat) (a b : FVal) : Nat × Nat :=
  match a, b with
  | .nan _, _ => (f.nan, nvOf [a, b])
  | _, .nan _ => (f.nan, nvOf [a, b])
  | .inf _, .inf _ => (f.nan, flNV)
  | .inf x, .fin y _ _ => (f.inf (x != y), 0)
  | .fin x _ _, .inf y => (f.zero (x != y), 0)
  | .fin n1 m1 e1, .fin n2 m2 e2 =>
    if m2 = 0 then (if m1 = 0 then (f.nan, flNV) else (f.inf (n1 != n2), flDZ))
    else
      let k := m2.log2 + f.fb + 4
      pack f rm (n1 != n2) (m1 * 2 ^ k / m2) (e1 - e2 - k) (m1 * 2 ^ k % m2 ≠ 0)

/-- The integer square root, bit by bit from bit k down. -/
def isqrtFrom (n r : Nat) : Nat → Nat
  | 0 => r
  | k + 1 => let t := r + 2 ^ k; if t * t ≤ n then isqrtFrom n t k else isqrtFrom n r k

def isqrt (n : Nat) : Nat := isqrtFrom n 0 (n.log2 / 2 + 1)

/-- Square root (R130). -/
def sqrtV (f : Fmt) (rm : Nat) (a : FVal) : Nat × Nat :=
  match a with
  | .nan _ => (f.nan, nvOf [a])
  | .inf n => if n then (f.nan, flNV) else (f.inf false, 0)
  | .fin n m e =>
    if m = 0 then (f.zero n, 0)
    else if n then (f.nan, flNV)
    else
      let k := 2 * (f.fb + 4) + (if e % 2 = 0 then 0 else 1)
      let x := m * 2 ^ k
      let r := isqrt x
      pack f rm false r ((e - k) / 2) (r * r ≠ x)

/-- ± ga × gb ± gc, rounded once (R130). 0 × ∞ is invalid whatever gc (R129). -/
def fmaV (f : Fmt) (rm : Nat) (a b c : FVal) : Nat × Nat :=
  match a, b with
  | .inf _, .fin _ 0 _ => (f.nan, flNV)
  | .fin _ 0 _, .inf _ => (f.nan, flNV)
  | .nan _, _ => (f.nan, nvOf [a, b, c])
  | _, .nan _ => (f.nan, nvOf [a, b, c])
  | .fin n1 m1 e1, .fin n2 m2 e2 =>
    match c with
    | .nan _ => (f.nan, nvOf [c])
    | .inf z => (f.inf z, 0)
    | .fin n3 m3 e3 =>
      let (n, m, e) := sumExact rm (n1 != n2) (m1 * m2) (e1 + e2) n3 m3 e3
      pack f rm n m e
  | .inf x, .inf y => addV f rm (.inf (x != y)) c
  | .inf x, .fin y _ _ => addV f rm (.inf (x != y)) c
  | .fin x _ _, .inf y => addV f rm (.inf (x != y)) c

/-- Order of two values that are not NaN: −1, 0, 1; the zeros are equal. -/
def cmpV (a b : FVal) : Int :=
  match a, b with
  | .inf x, .inf y => if x = y then 0 else if x then -1 else 1
  | .inf x, _ => if x then -1 else 1
  | _, .inf y => if y then 1 else -1
  | .fin n1 m1 e1, .fin n2 m2 e2 =>
    let e := if e1 ≤ e2 then e1 else e2
    let v : Int := (if n1 then -1 else 1) * (m1 * 2 ^ (e1 - e).toNat : Nat) -
      (if n2 then -1 else 1) * (m2 * 2 ^ (e2 - e).toNat : Nat)
    if v < 0 then -1 else if v = 0 then 0 else 1
  | _, _ => 0

def FVal.isNeg : FVal → Bool
  | .inf n => n
  | .fin n _ _ => n
  | .nan _ => false

/-- FMIN and FMAX (R131): −0 is less than +0; a lone NaN gives the other operand. -/
def minMax (f : Fmt) (wantMax : Bool) (x y : Nat) : Nat × Nat :=
  let a := unpack f x
  let b := unpack f y
  if a.isNaN && b.isNaN then (f.nan, nvOf [a, b])
  else if a.isNaN then (y, nvOf [a])
  else if b.isNaN then (x, nvOf [b])
  else
    let c := cmpV a b
    let less := if c = 0 then a.isNeg else decide (c < 0)
    (if less = wantMax then y else x, 0)

/-- FEQ (kind 0), FLT (1), FLE (2) of R131. -/
def fcmp (f : Fmt) (kind : Nat) (x y : Nat) : Nat × Nat :=
  let a := unpack f x
  let b := unpack f y
  if a.isNaN || b.isNaN then (0, if kind = 0 then nvOf [a, b] else flNV)
  else
    let c := cmpV a b
    ((if kind = 0 then decide (c = 0) else if kind = 1 then decide (c < 0) else decide (c ≤ 0)).toNat, 0)

/-- FCLASS (R130). -/
def fclass (f : Fmt) (x : Nat) : Nat :=
  match unpack f x with
  | .nan true => 2 ^ 8
  | .nan false => 2 ^ 9
  | .inf true => 1
  | .inf false => 2 ^ 7
  | .fin n m _ =>
    if m = 0 then (if n then 2 ^ 3 else 2 ^ 4)
    else if m < 2 ^ f.fb then (if n then 2 ^ 2 else 2 ^ 5)
    else (if n then 2 else 2 ^ 6)

/-- A value to an integer of 48 bits, signed or unsigned (R134). -/
def toIntV (rm : Nat) (signed : Bool) (a : FVal) : Word × Nat :=
  let lo : Int := if signed then -(2 ^ 47 : Int) else 0
  let hi : Int := if signed then (2 ^ 47 : Int) - 1 else (2 ^ 48 : Int) - 1
  match a with
  | .nan _ => (BitVec.ofInt 48 hi, flNV)
  | .inf n => (BitVec.ofInt 48 (if n then lo else hi), flNV)
  | .fin n m e =>
    let (r, inex) := roundTo rm n m e false 0
    let v : Int := if n then -(r : Int) else r
    if v < lo then (BitVec.ofInt 48 lo, flNV)
    else if hi < v then (BitVec.ofInt 48 hi, flNV)
    else (BitVec.ofInt 48 v, if inex then flNX else 0)

/-- An integer to a format (R134). -/
def ofIntV (f : Fmt) (rm : Nat) (v : Int) : Nat × Nat := pack f rm (decide (v < 0)) v.natAbs 0

/-- One format to another (R133, R135). -/
def convV (f : Fmt) (rm : Nat) (a : FVal) : Nat × Nat :=
  match a with
  | .nan _ => (f.nan, nvOf [a])
  | .inf n => (f.inf n, 0)
  | .fin n m e => pack f rm n m e

/-- fcs after an operation: its flags are set on top of the standing ones (R125, R127). -/
def fcsOr (fcs : Word) (fl : Nat) : Word := fcs ||| w48 fl

/-- The rounding mode of fcs (R125). -/
def rmOf (fcs : Word) : Nat := fld fcs 2 0

/-- The encoding an operand register holds in a format (R87). -/
def fin (p : Prec) (w : Word) : Nat := w.toNat % 2 ^ (fmtOf p).width

end Sys2Proof.Machine
end

