-- ==== Sys2Proof/Machine/Crypto.lean ====
section
/-! DEFINITION. The signature check of an image (R65): SHA-384 as FIPS 180-4 defines it, ECDSA verification over P-384 as
FIPS 186-5 defines it, and the trailer that holds the key and the signature. -/

namespace Sys2Proof.Machine

open Sys2Proof

/-! ## SHA-384 -/

/-- The largest r below 2^n whose e-th power is at most v. -/
def rootBits (v e : Nat) : Nat → Nat → Nat
  | 0, r => r
  | n + 1, r => rootBits v e n (if (r + 2 ^ n) ^ e ≤ v then r + 2 ^ n else r)

/-- The first primes, each found from those before it, newest first. -/
def primesFrom (l : List Nat) (c : Nat) : Nat → List Nat
  | 0 => l
  | n + 1 => primesFrom (if l.all fun p => c % p ≠ 0 then c :: l else l) (c + 1) n

/-- The first eighty primes. -/
def primes80 : List Nat := ((primesFrom [] 2 409).reverse).take 80

/-- The 64 bits that follow the point of the e-th root of p. -/
def rootFraction (e p : Nat) : BitVec 64 := BitVec.ofNat 64 (rootBits (p * 2 ^ (64 * e)) e 70 0)

/-- The round constants: cube roots of the first eighty primes. -/
def shaConstants : List (BitVec 64) := primes80.map (rootFraction 3)

/-- The initial hash value of SHA-384: square roots of the ninth to sixteenth primes. -/
def shaStart : List (BitVec 64) := ((primes80.drop 8).take 8).map (rootFraction 2)

def shaBig (x : BitVec 64) (a b c : Nat) : BitVec 64 := x.rotateRight a ^^^ x.rotateRight b ^^^ x.rotateRight c

def shaSmall (x : BitVec 64) (a b c : Nat) : BitVec 64 := x.rotateRight a ^^^ x.rotateRight b ^^^ (x >>> c)

/-- The message schedule, newest word first. -/
def shaSchedule : Nat → List (BitVec 64) → List (BitVec 64)
  | 0, l => l
  | n + 1, l => shaSchedule n
      ((shaSmall (l.getD 1 0) 19 61 6 + l.getD 6 0 + shaSmall (l.getD 14 0) 1 8 7 + l.getD 15 0) :: l)

/-- One round on the working variables a to h. -/
def shaRound (v : List (BitVec 64)) (kw : BitVec 64 × BitVec 64) : List (BitVec 64) :=
  let x (i : Nat) : BitVec 64 := v.getD i 0
  let t1 := x 7 + shaBig (x 4) 14 18 41 + ((x 4 &&& x 5) ^^^ (~~~(x 4) &&& x 6)) + kw.1 + kw.2
  let t2 := shaBig (x 0) 28 34 39 + ((x 0 &&& x 1) ^^^ (x 0 &&& x 2) ^^^ (x 1 &&& x 2))
  [t1 + t2, x 0, x 1, x 2, x 3 + t1, x 4, x 5, x 6]

/-- Bytes read as a number, most significant first. -/
def beNat (l : List Byte) : Nat := l.foldl (fun n b => 256 * n + b.toNat) 0

/-- One block of 128 bytes. -/
def shaBlock (h : List (BitVec 64)) (b : List Byte) : List (BitVec 64) :=
  let w := ((List.range 16).map fun i => BitVec.ofNat 64 (beNat ((b.drop (8 * i)).take 8))).reverse
  let v := (shaConstants.zip (shaSchedule 64 w).reverse).foldl shaRound h
  (h.zip v).map fun p => p.1 + p.2

/-- The blocks of a padded message, n at most. -/
def shaBlocks (h : List (BitVec 64)) (l : List Byte) : Nat → List (BitVec 64)
  | 0 => h
  | n + 1 => if l.isEmpty then h else shaBlocks (shaBlock h (l.take 128)) (l.drop 128) n

/-- A number as n bytes, most significant first. -/
def beBytes (v n : Nat) : List Byte := (List.range n).map fun i => BitVec.ofNat 8 (v / 256 ^ (n - 1 - i))

/-- The padded message: a one bit, zeros, and the length in bits. -/
def shaPad (l : List Byte) : List Byte :=
  l ++ [0x80] ++ List.replicate ((239 - l.length % 128) % 128) 0 ++ beBytes (8 * l.length) 16

/-- The SHA-384 digest of bytes, as a number whose most significant byte comes first. -/
def sha384 (l : List Byte) : BitVec 384 :=
  let p := shaPad l
  BitVec.ofNat 384 (((shaBlocks shaStart p (p.length / 128)).take 6).foldl (fun n w => 2 ^ 64 * n + w.toNat) 0)

/-! ## P-384 -/

def curveP : Nat := 2 ^ 384 - 2 ^ 128 - 2 ^ 96 + 2 ^ 32 - 1

def curveB : Nat :=
  0xB3312FA7E23EE7E4988E056BE3F82D19181D9C6EFE8141120314088F5013875AC656398D8A2ED19D2A85C8EDD3EC2AEF

/-- The order of the base point. -/
def curveN : Nat :=
  0xFFFFFFFFFFFFFFFFFFFFFFFFFFFFFFFFFFFFFFFFFFFFFFFFC7634D81F4372DDF581A0DB248B0A77AECEC196ACCC52973

/-- The base point. -/
def curveG : Nat × Nat :=
  (0xAA87CA22BE8B05378EB1C71EF320AD746E1D3B628BA79B9859F741E082542A385502F25DBF55296C3A545E3872760AB7,
   0x3617DE4A96262C6F5D9E98BF9292DC29F8F41DBD289A147CE9DA3113B5F0B8C00A60B1CE1D7E819D7A431D7C90EA0E5F)

/-- b to the low n bits of e, modulo m. -/
def powMod (m b e : Nat) : Nat → Nat
  | 0 => 1
  | n + 1 =>
    let h := powMod m (b * b % m) (e / 2) n
    if e % 2 = 1 then b * h % m else h

/-- The inverse modulo a prime m below 2^384. -/
def invMod (m a : Nat) : Nat := powMod m a (m - 2) 384

/-- The sum of two points; none is the point at infinity. -/
def pointAdd (a b : Option (Nat × Nat)) : Option (Nat × Nat) :=
  match a, b with
  | none, q => q
  | q, none => q
  | some (x1, y1), some (x2, y2) =>
    let p := curveP
    if x1 = x2 && (y1 + y2) % p = 0 then none
    else
      let l := if x1 = x2 then (3 * x1 * x1 + (p - 3)) * invMod p (2 * y1 % p) % p
        else (y2 + p - y1) * invMod p ((x2 + p - x1) % p) % p
      let x := (l * l + 2 * p - x1 - x2) % p
      some (x, (l * (x1 + p - x) + (p - y1)) % p)

/-- A multiple of a point by the low n bits of k. -/
def pointMul (k : Nat) (a : Option (Nat × Nat)) : Nat → Option (Nat × Nat)
  | 0 => none
  | n + 1 =>
    let h := pointMul (k / 2) (pointAdd a a) n
    if k % 2 = 1 then pointAdd a h else h

/-- A pair of coordinates is a point of the curve. -/
def onCurve (q : Nat × Nat) : Bool :=
  q.1 < curveP && q.2 < curveP && (q.2 * q.2 % curveP = (q.1 * q.1 * q.1 + (curveP - 3) * q.1 + curveB) % curveP)

/-- A valid ECDSA signature (r, s) of a digest under the key q. -/
def ecdsaGood (q : Nat × Nat) (r s : Nat) (digest : BitVec 384) : Bool :=
  let n := curveN
  onCurve q && 1 ≤ r && r < n && 1 ≤ s && s < n &&
  let w := invMod n s
  match pointAdd (pointMul (digest.toNat * w % n) (some curveG) 384) (pointMul (r * w % n) (some q) 384) with
  | some (x, _) => x % n = r
  | none => false

/-! ## The trailer (R65) -/

/-- The words of an image carry a signature that verifies: the key of the trailer has the hash in OTP, and the signature
is one of every word before the trailer. -/
def signatureGood (ws : List Word) : Bool :=
  let n := ws.length - 32
  let t := unpackBytes (ws.drop n) 192
  let key := t.take 96
  let sig := t.drop 96
  32 ≤ ws.length && sha384 key = Config.otpKeyHash &&
  ecdsaGood (beNat (key.take 48), beNat (key.drop 48)) (beNat (sig.take 48)) (beNat (sig.drop 48))
    (sha384 ((ws.take n).flatMap fun w => unpackBytes [w] 6))

end Sys2Proof.Machine
end

