-- ==== Sys2Proof/Machine/Img.lean ====
section
/-! DEFINITION. The Structure Image (chapter 2): reading a slot of the NOR, the checks of R72 and R74, the recovery
structure, and the structure registers with their shadows. -/

namespace Sys2Proof.Machine

open Sys2Proof

/-! ## The NOR (R62, R684) -/

/-- A byte of the NOR; an erased byte reads 0xFF. -/
def norByte (s : State) (i : Nat) : Byte := sread (fun _ => (0xFF : Byte)) s.nor i

/-- Programs or erases bytes of the NOR from offset i on. -/
def norPut (s : State) (i : Nat) : List Byte → State
  | [] => s
  | b :: t => norPut { s with nor := swrite (fun _ => (0xFF : Byte)) s.nor i b } (i + 1) t

/-- Erases n bytes of the NOR from offset i on. -/
def norErase (s : State) (i n : Nat) : State := { s with nor := sdrop (fun k => i ≤ k && k < i + n) s.nor }

/-- Image word w of the area at a byte offset (R62). -/
def norWord (s : State) (base w : Nat) : Word :=
  (upto 6).foldl (fun v k => setFld v (8 * k + 7) (8 * k) (norByte s (base + 6 * w + k)).toNat) 0

/-- The first n image words of an area. -/
def norWords (s : State) (base n : Nat) : List Word := (upto n).map (norWord s base)

/-- Structure Image slot A or B (R61). -/
def imageSlot (k : Nat) : Nat := if k = 0 then 0x400000 else 0x600000

/-- Aelnar slot A or B (R684). -/
def aelnarSlot (k : Nat) : Nat := if k = 0 then 0x800000 else 0x1800000

/-- Logical word i of a slot: the first word of its twin pair (R64). -/
def lword (s : State) (base i : Nat) : Word := norWord s base (2 * i)

/-! ## The directory (R66 to R68) -/

/-- SECTION_COUNT of a slot. -/
def secCount (s : State) (base : Nat) : Nat := fld (lword s base 2) 23 16

/-- LENGTH of a slot, in image words. -/
def imgLength (s : State) (base : Nat) : Nat := (lword s base 3).toNat

/-- The directory: code, offset and length of each section. -/
def directory (s : State) (base : Nat) : List (Nat × Nat × Nat) :=
  (upto (secCount s base)).map fun k =>
    let e := lword s base (6 + k)
    (fld e 47 40, fld e 39 16, fld e 15 0)

/-- The words of a section, if the image holds it. -/
def imageSection? (s : State) (base code : Nat) : Option (List Word) :=
  ((directory s base).find? fun e => e.1 = code).map fun e => (upto e.2.2).map fun i => lword s base (e.2.1 + i)

/-- The words of a section; none where it is absent. -/
def sectionWords (s : State) (base code : Nat) : List Word := (imageSection? s base code).getD []

/-- A known section has a length of R68. -/
def sectionLengthOk (s : State) (base : Nat) (e : Nat × Nat × Nat) : Bool :=
  let n := e.2.2
  match e.1 with
  | 1 => n = 64
  | 2 => n = 6
  | 3 => n = 96
  | 4 => 1 ≤ n && n ≤ 1520
  | 5 => n = 1
  | 6 => n % 2 = 1 && n ≤ 129
  | 7 => n = 64
  | 8 => n = 320
  | 9 => n = 64
  | 10 => n = 3
  | 11 => 1 ≤ n && n = 1 + 2 * fld (lword s base e.2.1) 9 0
  | 12 => n = 2
  | _ => true

/-- Whether two sections share no logical word. -/
def sectionsApart (a b : Nat × Nat × Nat) : Bool :=
  a.2.2 = 0 || b.2.2 = 0 || a.2.1 + a.2.2 ≤ b.2.1 || b.2.1 + b.2.2 ≤ a.2.1

/-- A list of sections of which no two overlap and no code stands twice. -/
def sectionsDistinct : List (Nat × Nat × Nat) → Bool
  | [] => true
  | e :: t => (t.all fun f => sectionsApart e f && e.1 ≠ f.1) && sectionsDistinct t

/-- Check 8 of R72. -/
def directoryOk (s : State) (base : Nat) : Bool :=
  let d := directory s base
  let top := (imgLength s base - 32) / 2
  (d.all fun e => 6 + secCount s base ≤ e.2.1 && e.2.1 + e.2.2 ≤ top) && sectionsDistinct d &&
  (d.all fun e => (1 ≤ e.1 && e.1 ≤ 12) || 0x80 ≤ e.1) &&
  ([1, 2, 3, 5, 6, 8, 9, 11, 12].all fun c => d.any fun e => e.1 = c) &&
  d.all (sectionLengthOk s base)

/-! ## The fields of an image (R69) -/

/-- Pairs of consecutive words. -/
def pairUp : List Word → List (Word × Word)
  | a :: b :: t => (a, b) :: pairUp t
  | _ => []

/-- The image that a slot holds. -/
def imageOf (s : State) (base : Nat) : Image where
  clock := sectionWords s base 1
  tick := sectionWords s base 2
  sorus := sectionWords s base 3
  pads := sectionWords s base 4
  ring := (sectionWords s base 5).headD 0
  dramGlobal := (sectionWords s base 6).headD 0
  regions := pairUp (sectionWords s base 6).tail
  pinna := sectionWords s base 7
  int := sectionWords s base 8
  power := sectionWords s base 9
  counter := match imageSection? s base 10 with
    | some [a, b, c] => some (a, b, c)
    | _ => none
  safe := pairUp (sectionWords s base 11).tail
  sec0 := (sectionWords s base 12).headD 0
  sec1 := (sectionWords s base 12).getD 1 0

/-- The word holds no bit outside a mask. -/
def within (m w : Word) : Bool := w &&& ~~~m = 0

/-- No unlisted bit is set, and no field has a value without a meaning (R69). -/
def imageFieldsOk (i : Image) : Bool :=
  within (mask 23 0) (i.tick.getD 1 0) && ((i.tick.drop 2).all (within (mask 39 0))) &&
  ((i.sorus.take 32).all (within (mask 47 47 ||| mask 36 33 ||| mask 15 0))) &&
  ((i.sorus.drop 32).all (within (mask 47 24 ||| mask 23 6))) &&
  (i.pads.all (within (mask 47 24))) && within (mask 47 30) i.ring && within (mask 15 0) i.dramGlobal &&
  (i.regions.all fun r => within (mask 1 0) r.2) &&
  (i.pinna.all (within (mask 47 24 ||| mask 11 8 ||| 1))) && (i.int.all (within (mask 14 5 ||| 1))) &&
  (i.power.all fun w => within (mask 3 0) w && fld w 2 0 ≤ 2) &&
  (match i.counter with
    | some (a, b, _) => within (mask 47 12) a && within (mask 23 0) b
    | none => true) &&
  (i.safe.all fun e => within (mask 47 44 ||| mask 35 0) e.1 && fld e.1 47 46 ≠ 3) &&
  i.safe.length ≤ 512 && within (mask 47 24 ||| mask 3 0) i.sec0 && within (mask 2 0) i.sec1

/-- The highest frequency of a domain, in kHz, as its chapter states it (R45, R436, R465, R571, R653, R682). -/
def domainMaxKhz (d : Nat) : Nat :=
  if d < 16 then 2400000
  else if 20 ≤ d && d < 24 then 1200000
  else if d = 25 then 600000
  else if 26 ≤ d && d < 34 then 1066670
  else if d = 48 || d = 49 then 600000
  else if d = 51 || d = 52 then 32000
  else (Config.maxKhz d).toNat

/-- The domain of every block that the image itself enables (R74): tick groups with Sorus memory, ring ports and
lanes, the pinna engine, the counter collector and the debug port. -/
def neededDomains (i : Image) : List Nat :=
  [56, 57] ++ ((upto 4).filter fun g => fld (i.tick.getD (2 + g) 0) 15 0 ≠ 0).flatMap (fun g => [20 + g, 24]) ++
  (if bit i.ring 34 then [34, 35] ++ ((upto 4).filter fun k => bit i.ring (30 + k)).map (36 + ·) else []) ++
  (if i.pinna.any fun w => bit w 0 then [59] else []) ++
  (if i.counter.isSome then [60] else []) ++ (if bit i.sec0 3 then [58] else [])

/-- The clock rules (R74). -/
def clockRules (i : Image) : Bool :=
  (i.clock.zipIdx.all fun e =>
    !bit e.1 47 || (1 ≤ fld e.1 23 0 && fld e.1 23 0 ≤ domainMaxKhz e.2 &&
      (!bit e.1 46 || (1 ≤ fld e.1 45 24 && fld e.1 45 24 ≤ fld e.1 23 0)))) &&
  (neededDomains i).all fun d => bit (i.clock.getD d 0) 47

/-- The tick rules (R50, R74). -/
def tickRules (i : Image) : Bool :=
  let tmin := fld (i.tick.getD 0 0) 23 0
  let tmax := fld (i.tick.getD 0 0) 47 24
  let tdef := fld (i.tick.getD 1 0) 23 0
  let grp (g : Nat) : Word := i.tick.getD (2 + g) 0
  1000 ≤ tmin && tmin ≤ tdef && tdef ≤ tmax && tmax ≤ 10000000 &&
  ((upto 16).all fun c => ((upto 4).filter fun g => bit (grp g) c).length ≤ 1) &&
  ((upto 4).all fun g => fld (grp g) 39 24 < tmin &&
    (upto 8).all fun p => !bit (grp g) (16 + p) || (bit (grp g) (2 * p) && bit (grp g) (2 * p + 1)))

/-- The three aliases of the shared pool, the DRAM window and the device register range (R74). -/
def windowPlaces : List (Nat × Nat) :=
  [(0x820000000, 0x820100000), (0x820100000, 0x820200000), (0x820200000, 0x820300000), (0, 0x800000000),
   (0x800000000, 0x810000000)]

/-- One Frond window (R74). -/
def windowRule (banks : List Word) (w : Word) : Bool :=
  let lo := fld w 47 24 * 4096
  let hi := lo + fld w 23 8 * 4096
  fld w 23 8 = 0 ||
  ((windowPlaces.any fun p => p.1 ≤ lo && hi ≤ p.2) &&
    (upto 32).all fun b => !bit (banks.getD b 0) 47 ||
      (upto 3).all fun a =>
        let base := 0x820000000 + 0x100000 * a + 0x8000 * b
        !(lo < base + 0x8000 && base + 0x4000 < hi))

/-- A region as base, end and kind. -/
def regionSpan (r : Word × Word) : Nat × Nat × Nat :=
  (fld r.1 47 24 * 4096, (fld r.1 47 24 + fld r.1 23 0) * 4096, fld r.2 2 0)

/-- No two regions of a list overlap. -/
def regionsApart : List (Nat × Nat × Nat) → Bool
  | [] => true
  | r :: t => (t.all fun q => r.2.1 ≤ q.1 || q.2.1 ≤ r.1 || r.1 = r.2.1 || q.1 = q.2.1) && regionsApart t

/-- The DRAM rules (R74, R428, R430, R438), for a MEM_TOP. -/
def dramRules (i : Image) (top : Nat) : Bool :=
  let rs := i.regions.map regionSpan
  let run := fld i.dramGlobal 7 0
  let unres := fld i.dramGlobal 15 8
  let tmin := fld (i.tick.getD 0 0) 23 0
  let pinned := rs.filter fun r => r.2.2 = 3 && r.1 < r.2.1
  regionsApart rs && (rs.all fun r => r.2.1 ≤ top) &&
  (i.regions.all fun r => fld r.2 2 0 ≠ 1 || fld r.1 23 0 % 2 = 0) &&
  (run = 0 || (4 ≤ run && 25 ≤ unres && tmin ≤ tmin * 4 / (15 * (run + unres)) * 244)) &&
  (pinned.all fun r => r.1 / 2 ^ 20 = (r.2.1 - 1) / 2 ^ 20 &&
    pinned.all fun q => r.1 / 2 ^ 20 = q.1 / 2 ^ 20)

/-- The ring rules (R74). -/
def ringRules (i : Image) : Bool :=
  fld i.ring 47 36 ≤ 0xFFE && (!bit i.ring 35 || bit i.ring 34) &&
  (!bit i.ring 34 || (fld i.ring 31 30 ≠ 0 && fld i.ring 33 32 ≠ 0))

/-- The group of a Frond core in an image. -/
def imageGroup (i : Image) (c : Nat) : Option Nat := (upto 4).find? fun g => bit (i.tick.getD (2 + g) 0) c

/-- A target that names a core enabled after release (R74). -/
def targetEnabled (i : Image) (t : Nat) : Bool :=
  if t < 16 then bit (i.clock.getD t 0) 47
  else if t < 32 then (imageGroup i (t - 16)).isSome
  else t = 32

/-- The interrupt rule (R74). -/
def intRules (i : Image) : Bool :=
  i.int.zipIdx.all fun e => isMedullaSource e.2 || isReservedSource e.2 || targetEnabled i (fld e.1 14 9)

/-- The function codes of R748. -/
def padFuncKnown (f : Nat) : Bool :=
  f ≤ 1 || (4 ≤ f && f ≤ 9) || (0x10 ≤ f && f ≤ 0x2B) || (0x30 ≤ f && f ≤ 0x35) || (0x38 ≤ f && f ≤ 0x3A) || f = 0x3C ||
  (0x40 ≤ f && f ≤ 0x43) || (0x50 ≤ f && f ≤ 0x52)

/-- A function code that stands for one signal (R748). -/
def padFuncSingle (f : Nat) : Bool := !(f ≤ 1 || 0x50 ≤ f)

/-- A ball may carry a function (R747, R748). -/
def ballAllows (pad f : Nat) : Bool :=
  match Config.ballGroup pad with
  | 1 => f < 0x50
  | 2 => f = 0x50
  | 3 => f = 0x52
  | 4 => f = 0x51
  | _ => false

/-- The PAD rules (R74, R748). -/
def padRules (i : Image) : Bool :=
  (i.pads.all fun w => fld w 47 36 ≤ 1519 && padFuncKnown (fld w 35 28) && ballAllows (fld w 47 36) (fld w 35 28)) &&
  apart i.pads
where
  apart : List Word → Bool
    | [] => true
    | w :: t => (t.all fun v => fld v 47 36 ≠ fld w 47 36 &&
        (fld v 35 28 ≠ fld w 35 28 || !padFuncSingle (fld w 35 28))) && apart t

/-- The counter rule (R74). A region of no pages covers no word. -/
def counterRules (i : Image) (top : Nat) : Bool :=
  match i.counter with
  | none => true
  | some (a, b, c) =>
    let lo := fld a 47 12 * 4096
    let hi := lo + fld b 23 0 * 4096
    let rs := (i.regions.map regionSpan).filter fun r => r.1 < r.2.1
    1 ≤ fld b 23 0 && 1 ≤ fld c 47 24 && 1 ≤ fld c 23 0 && hi ≤ top &&
    ((rs.any fun r => r.2.2 = 0 && r.1 ≤ lo && hi ≤ r.2.1) || rs.all fun r => r.2.1 ≤ lo || hi ≤ r.1)

/-- One entry of the SAFE section (R74). -/
def safeRule (i : Image) (e : Word) : Bool :=
  let t := fld e 35 0
  let members := fld (i.tick.getD (2 + fld e 45 44) 0) 15 0
  match fld e 47 46 with
  | 0 => i.pads.any fun w => fld w 47 36 = t && fld w 35 28 = 1 && Config.ballGroup t = 1
  | 1 =>
    let bank := i.sorus.getD ((t - 0x820000000) / 0x8000) 0
    0x820000000 ≤ t && t < 0x820100000 && members &&& fld bank 15 0 ≠ 0 && !(bit bank 47 && 0x4000 ≤ t % 0x8000)
  | 2 => t ≤ 3999
  | _ => false

/-- The SAFE rules (R74): every entry, and no target twice. -/
def safeRules (i : Image) : Bool := (i.safe.all fun e => safeRule i e.1) && apart i.safe
where
  apart : List (Word × Word) → Bool
    | [] => true
    | e :: t => (t.all fun f => !(fld f.1 47 46 = fld e.1 47 46 && fld f.1 35 0 = fld e.1 35 0)) && apart t

/-- The banks recorded as retired in the settings (R522). -/
def retiredBanks (s : State) : List Nat := ((s.mdl.settings.filter fun t => t.kind = 5).map (·.unit)).eraseDups

/-- A shared bank that may serve as a spare: it grants no user, is not twinned, and is not itself retired (R523). -/
def spareBank (i : Image) (retired : List Nat) (b : Nat) : Bool :=
  fld (i.sorus.getD b 0) 36 33 = 0 && fld (i.sorus.getD b 0) 15 0 = 0 && !bit (i.sorus.getD b 0) 47 && !retired.contains b

/-- The bank's word grants a user. -/
def grantsAny (i : Image) (b : Nat) : Bool := fld (i.sorus.getD b 0) 36 33 ≠ 0 || fld (i.sorus.getD b 0) 15 0 ≠ 0

/-- The retired shared banks with their spares, highest-numbered spare first (R523). The banks that grant a user come
first, since only they need one. DEDUCED, log entry 50. -/
def spareMap (i : Image) (retired : List Nat) : List (Nat × Option Nat) :=
  let spares := ((upto 32).filter (spareBank i retired)).reverse
  let out := (upto 32).filter retired.contains
  (out.filter (grantsAny i) ++ out.filter fun b => !grantsAny i b).zipIdx.map fun e => (e.1, spares[e.2]?)

/-- MEM_TOP that the stored channel retirements leave (R427, R729). -/
def retiredChannels (s : State) : List Nat := ((s.mdl.settings.filter fun t => t.kind = 3).map (·.unit)).eraseDups

def plannedTop (s : State) : Nat := (8 - (retiredChannels s).length) * 0x10000000

/-- Check 9 of R72: R69, R74 and the rules it names. -/
def imageConsistent (s : State) (i : Image) : Bool :=
  imageFieldsOk i && clockRules i && tickRules i && ((i.sorus.drop 32).all (windowRule (i.sorus.take 32))) &&
  ringRules i && dramRules i (plannedTop s) &&
  ((i.pinna.filter fun w => bit w 0).map fun w => fld w 47 40).sum ≤ 256 && intRules i && safeRules i &&
  counterRules i (plannedTop s) && padRules i &&
  (spareMap i (retiredBanks s)).all fun e => e.2.isSome || !grantsAny i e.1

/-! ## Validation (R72) -/

/-- STEP_MIN ≤ the part's stepping ≤ STEP_MAX, and PART (R72, R688). -/
def partOk (w1 : Word) : Bool :=
  fld w1 47 32 = 0x4816 && fld w1 31 16 ≤ stepCode && stepCode ≤ fld w1 15 0

/-- Image word w of slot k as the first read of its pair in check 7 returns it. -/
def firstRead (s : State) (nor : NorReads) (k w : Nat) : Word :=
  (nor.flips.filter fun x => x.1 = 2 + k && x.2.1 = w).foldl (fun v x => v ^^^ x.2.2) (norWord s (imageSlot k) w)

/-- The logical words of slot k whose pair mismatches on the first read of check 7. -/
def pairMisses (s : State) (nor : NorReads) (k : Nat) : List Nat :=
  (upto ((imgLength s (imageSlot k) - 32) / 2)).filter fun i =>
    firstRead s nor k (2 * i + 1) ≠ ~~~firstRead s nor k (2 * i)

/-- The pair of a logical word holds a word and its complement. -/
def pairGood (s : State) (base i : Nat) : Bool := norWord s base (2 * i + 1) = ~~~norWord s base (2 * i)

/-- Checks 1 to 6 of R72 on slot k; 0 when it passes. -/
def slotCode6 (s : State) (nor : NorReads) (k : Nat) : Nat :=
  let base := imageSlot k
  let n := imgLength s base
  if nor.fails.contains (2 + k) then 0x0A
  else if lword s base 0 ≠ 0x544355525453 then 0x01
  else if !partOk (lword s base 1) then 0x02
  else if !(fld (lword s base 2) 15 0 = 1 && 1 ≤ secCount s base && secCount s base ≤ 32 && n ≤ 0x40000 &&
      n * 6 ≤ 0x200000 && 2 * (6 + secCount s base) + 32 ≤ n && n % 2 = 0) then 0x03
  else if !signatureGood (norWords s base n) then 0x04
  else if fld (lword s base 2) 47 24 < s.mdl.stFloor then 0x05 else 0

/-- The failure code of slot k by checks 1 to 8 of R72; 0 when it passes. In check 7 a pair that mismatches is read again
(R73). -/
def slotCode8 (s : State) (nor : NorReads) (k : Nat) : Nat :=
  match slotCode6 s nor k with
  | 0 =>
    if !((pairMisses s nor k).all (pairGood s (imageSlot k))) then 0x06
    else if !directoryOk s (imageSlot k) then 0x07 else 0
  | c => c

/-- The section code of a logical word of a slot; 0 for one of the header and the directory. -/
def sectionOf (s : State) (base i : Nat) : Nat :=
  (((directory s base).find? fun e => decide (e.2.1 ≤ i) && decide (i < e.2.1 + e.2.2)).map (·.1)).getD 0

/-- The transients that check 7 met are logged (R73, R707), up to the pair that fails it. -/
def logTransients (s : State) (nor : NorReads) (k : Nat) : State :=
  if slotCode6 s nor k ≠ 0 then s
  else
    ((pairMisses s nor k).takeWhile (pairGood s (imageSlot k))).foldl
      (fun s i => logFault s 0x0C (sectionOf s (imageSlot k) i) 0 (w48 i) 0) s

/-- The failure code of slot k by every check of R72. -/
def slotCode (s : State) (nor : NorReads) (k : Nat) : Nat :=
  match slotCode8 s nor k with
  | 0 =>
    if imageConsistent s (imageOf s (imageSlot k)) && within (mask 9 0) ((sectionWords s (imageSlot k) 11).headD 0) then 0
    else 0x09
  | n => n

/-! ## The recovery structure (R75) -/

/-- Domains that run under the recovery structure. -/
def recoveryDomain (d : Nat) : Bool :=
  d = 0 || (16 ≤ d && d < 20) || (24 ≤ d && d < 34) || d = 44 || d = 45 || (55 ≤ d && d < 59) || 60 ≤ d

def recoveryImage : Image where
  clock := (upto 64).map fun d =>
    if recoveryDomain d then mk 47 47 1 ||| mk 23 0 (if d = 0 then 1200000 else (Config.recoveryKhz d).toNat) else 0
  tick := List.replicate 6 0
  sorus := List.replicate 96 0
  pads := []
  ring := 0
  dramGlobal := 0
  regions := []
  pinna := []
  int := List.replicate 320 0
  power := List.replicate 64 0
  counter := none
  safe := []
  sec0 := 3
  sec1 := 2

/-! ## Structure registers (R78 to R81)

A structure register of register space goes by its address. One inside a block, which holds image fields that appear in
no register, goes by a number above every address: its section and the place of its image word in it. -/

/-- The number of a structure register inside a block. -/
def hiddenReg (code i : Nat) : Nat := 2 ^ 36 + code * 2 ^ 16 + i

/-- The structure fields of a register of register space (R78). -/
def structMask (a : Nat) : Word :=
  match regInfo a with
  | none => 0
  | some _ =>
    if a = aMemTickRsv then mask 15 0
    else if a = aRingCfg then mask 47 30
    else if aSorBankCfg 0 ≤ a && a < aSorBankCfg 32 then mask 47 47 ||| mask 36 33 ||| mask 15 0
    else if aGrpCfg 0 ≤ a && a < aGrpCfg 4 then mask 39 0
    else if aFrondWin 0 0 ≤ a && a < aFrondWin 16 0 then mask 47 6
    else if aRoute 0 ≤ a && a < aRoute 320 then mask 8 8
    else if aPwrPolicy 0 ≤ a && a < aPwrPolicy 64 then mask 1 0
    else 0

/-- The structure fields of a structure register inside a block (R69, R78): a CLOCK word without its tuning field, the
tick bounds, PAD entries, DRAM regions, PINNA entries, FORCE of the POWER section, the COUNTER, SAFE and SECURITY
words. -/
def hiddenMask (code : Nat) : Word :=
  match code with
  | 1 => mask 47 24
  | 9 => mask 3 3
  | _ => mask 47 0

/-- The number of the structure register that holds fstat.GROUP of a Frond core, which the TICK section loads (R503). -/
def groupReg (c : Nat) : Nat := hiddenReg 2 (16 + c)

/-- The Frond core whose fstat a structure register is. -/
def groupRegOf (a : Nat) : Option (Fin 16) :=
  if h : groupReg 0 ≤ a ∧ a < groupReg 16 then some ⟨a - groupReg 0, by unfold groupReg hiddenReg at *; omega⟩ else none

/-- The structure fields of a structure register. -/
def fieldMask (a : Nat) : Word :=
  if a < 2 ^ 36 then structMask a
  else if (groupRegOf a).isSome then mask 35 34
  else hiddenMask ((a - 2 ^ 36) / 2 ^ 16)

/-- Word i of a list of pairs. -/
def pairWord (l : List (Word × Word)) (i : Nat) : Word :=
  if i % 2 = 0 then (l.getD (i / 2) (0, 0)).1 else (l.getD (i / 2) (0, 0)).2

/-- A list of pairs with word i replaced. -/
def pairSet (l : List (Word × Word)) (i : Nat) (v : Word) : List (Word × Word) :=
  modAt l (i / 2) fun p => if i % 2 = 0 then (v, p.2) else (p.1, v)

/-- The SAFE words that an output keeps (R69, R479). -/
def outWords (o : Output) : Word × Word := (mk 47 46 o.kind ||| mk 45 44 o.group ||| mk 35 0 o.target, o.safe)

/-- What a structure register holds. -/
def structGet (s : State) (a : Nat) : Word :=
  if a < 2 ^ 36 then regGet s a
  else match groupRegOf a with
  | some c => (s.core (.frond c)).fstat
  | none =>
    let i := a % 2 ^ 16
    let g := s.struct.image
    match (a - 2 ^ 36) / 2 ^ 16 with
    | 1 => g.clock.getD i 0
    | 2 => g.tick.getD i 0
    | 4 => g.pads.getD i 0
    | 6 => pairWord g.regions i
    | 7 => g.pinna.getD i 0
    | 9 => g.power.getD i 0
    | 10 => match g.counter with
      | some (x, y, z) => [x, y, z].getD i 0
      | none => 0
    | 11 => pairWord (s.outs.map outWords) i
    | 12 => if i = 0 then g.sec0 else g.sec1
    | _ => 0

/-- Sets a structure register. -/
def structSet (s : State) (a : Nat) (v : Word) : State :=
  if a < 2 ^ 36 then regSet s a v
  else match groupRegOf a with
  | some c => s.modCore (.frond c) fun k => { k with fstat := v }
  | none =>
    let i := a % 2 ^ 16
    let g := s.struct.image
    let put (g : Image) : State := { s with struct := { s.struct with image := g } }
    match (a - 2 ^ 36) / 2 ^ 16 with
    | 1 => put { g with clock := g.clock.set i v }
    | 2 => put { g with tick := g.tick.set i v }
    | 4 => put { g with pads := g.pads.set i v }
    | 6 => put { g with regions := pairSet g.regions i v }
    | 7 => put { g with pinna := g.pinna.set i v }
    | 9 => put { g with power := g.power.set i v }
    | 10 => match g.counter with
      | some (x, y, z) => put { g with counter := some (if i = 0 then (v, y, z) else if i = 1 then (x, v, z) else (x, y, v)) }
      | none => s
    | 11 => { s with outs := modAt s.outs (i / 2) fun o =>
        if i % 2 = 0 then { o with kind := fld v 47 46, group := fld v 45 44, target := fld v 35 0 } else { o with safe := v } }
    | 12 => put (if i = 0 then { g with sec0 := v } else { g with sec1 := v })
    | _ => s

/-- Every structure register of register space. -/
def structAddrs : List Nat :=
  [aMemTickRsv, aRingCfg] ++ (upto 32).map aSorBankCfg ++ (upto 4).map aGrpCfg ++ (upto 64).map (aFrondWin 0) ++
  (upto 320).map aRoute ++ (upto 64).map aPwrPolicy

/-- Every structure register inside a block, for what the applied image lists. -/
def hiddenRegs (s : State) : List Nat :=
  let g := s.struct.image
  let of (code n : Nat) : List Nat := (upto n).map (hiddenReg code)
  of 1 g.clock.length ++ [hiddenReg 2 0] ++ (upto 16).map groupReg ++ of 4 g.pads.length ++ of 6 (2 * g.regions.length) ++ of 7 g.pinna.length ++
    of 9 g.power.length ++ (if g.counter.isSome then of 10 3 else []) ++ of 11 (2 * s.outs.length) ++ of 12 2

/-- The section that loads a structure register (R69), as fault code 0x0C names it. -/
def structSection (a : Nat) : Nat :=
  if 2 ^ 36 ≤ a then (a - 2 ^ 36) / 2 ^ 16
  else if a = aMemTickRsv then 0x06
  else if a = aRingCfg then 0x05
  else if aSorBankCfg 0 ≤ a && a < aSorBankCfg 32 then 0x03
  else if aFrondWin 0 0 ≤ a && a < aFrondWin 16 0 then 0x03
  else if aGrpCfg 0 ≤ a && a < aGrpCfg 4 then 0x02
  else if aPwrPolicy 0 ≤ a && a < aPwrPolicy 64 then 0x09
  else 0x08

/-- Every structure register gets its shadow and its last-good copy (R80). -/
def lockStructure (s : State) : State :=
  { s with struct := { s.struct with
      regs := (structAddrs ++ hiddenRegs s).map fun a =>
        ⟨a, ~~~structGet s a &&& fieldMask a, structGet s a &&& fieldMask a⟩ } }

/-- The comparison of one structure register at a tick (R80). A mismatch leaves the last-good copy in force and raises
source 240 once. A block that a clock fault holds in reset compares nothing (R57). -/
def structCompare (s : State) (r : StructReg) : State :=
  let m := fieldMask r.addr
  let v := structGet s r.addr &&& m
  if (regDomain s r.addr).any fun d => s.sys.held.contains d then s
  else if v = ~~~r.shadow &&& m then
    { s with struct := { s.struct with
        regs := s.struct.regs.map fun q => if q.addr = r.addr then { q with good := v } else q } }
  else
    let s := structSet s r.addr ((structGet s r.addr &&& ~~~m) ||| r.good)
    if s.struct.mismatched.contains r.addr then s
    else assertEdge { s with struct := { s.struct with mismatched := r.addr :: s.struct.mismatched } } 240

/-- A rewrite takes effect (R80): register and shadow hold the value of the validated image. -/
def structRewrite (s : State) (a : Nat) : State :=
  let m := fieldMask a
  let good := match s.struct.regs.find? fun r => r.addr = a with
    | some r => r.good
    | none => 0
  let s := structSet s a ((structGet s a &&& ~~~m) ||| good)
  { s with struct := { s.struct with
      regs := s.struct.regs.map fun r => if r.addr = a then { r with shadow := ~~~good &&& m } else r
      mismatched := s.struct.mismatched.filter (· ≠ a) } }

/-- The structure registers at a tick (R80). -/
def structTick (s : State) : State :=
  let s := s.struct.pendingRepair.foldl structRewrite s
  let s := { s with struct := { s.struct with pendingRepair := [] } }
  s.struct.regs.foldl structCompare s

/-- The record of a repair (R80, R707). The manual names word 2 of it by the register address: for a structure register
that has none it is a free value. -/
def logRepair (s : State) (a : Nat) : State :=
  let (w, s) := if a < 2 ^ 36 then (w48 a, s) else s.takeFree
  logFault s 0x0C (structSection a) 240 w 0

/-- STRUCTURE_REPAIR (R80, R81): the Medulla core repairs a mismatched register, or finds its second mismatch within
24 h. -/
def execStructureRepair (a : Nat) (s : State) : Host.Outcome State Fault Refusal :=
  if s.struct.mismatched.contains a && !s.struct.pendingRepair.contains a && medullaActs s then
    if s.struct.repairs.any fun r => r.1 = a && s.now ≤ r.2 + 86400000000000 then .next (moduleFault s 2)
    else
      let s := { s with struct := { s.struct with
        repairs := s.struct.repairs ++ [(a, s.now)], pendingRepair := s.struct.pendingRepair ++ [a] } }
      .next (logRepair (regAddSat s aStructStatus 31 24 1) a)
  else .next s

end Sys2Proof.Machine
end

