-- ==== Sys2Proof/Machine/Mmu.lean ====
section
/-! DEFINITION. Address translation and protection (chapter 9): regimes, table walks, TLBs, the hardware updates of A
and D, memory types and permissions. -/

namespace Sys2Proof.Machine

open Sys2Proof

/-! ## Fields of a table entry (R335) -/

def leafV (e : Word) : Bool := bit e 0
def leafR (e : Word) : Bool := bit e 1
def leafW (e : Word) : Bool := bit e 2
def leafX (e : Word) : Bool := bit e 3
def leafU (e : Word) : Bool := bit e 4
def leafG (e : Word) : Bool := bit e 5
def leafD (e : Word) : Bool := bit e 7

/-- The device types (R345). -/
def isDevice (t : MemType) : Bool := t = .deviceStrict || t = .deviceRelaxed

/-- The memory type of a leaf (R345). -/
def leafType (e : Word) : MemType :=
  match fld e 10 8 with
  | 0 => .writeBack
  | 1 => .writeThrough
  | 2 => .uncached
  | 3 => .deviceStrict
  | 4 => .deviceRelaxed
  | 5 => .twinned
  | _ => .returnStack

/-- A valid entry that is a pointer (R336). -/
def isPointer (e : Word) : Bool := !leafR e && !leafW e && !leafX e

/-- The reason of the page fault an entry raises at a level, if any (R338). A leaf that breaks a condition of reason 3 and
the FRAME requirement of reason 4 reports 3: the rule gives no order between them. DESIGN CHOICE, log entry 168. -/
def entryReason (e : Word) (lvl : Nat) : Option Nat :=
  if !leafV e then some 1
  else if isPointer e then (if lvl = 3 then some 3 else none)
  else if fld e 15 11 ≠ 0 || fld e 10 8 = 7 || (leafW e && !leafR e) then some 3
  else if lvl = 1 && fld e 47 24 ≠ 0 then some 4
  else if lvl = 2 && fld e 35 24 ≠ 0 then some 4
  else none

/-- The output address of a leaf for an input (R337). -/
def leafOut (lvl : Nat) (e : Word) (inp : Nat) : Nat :=
  if lvl = 1 then inp % 2 ^ 36
  else if lvl = 2 then fld e 47 36 * 2 ^ 24 + inp % 2 ^ 24
  else fld e 47 24 * 4096 + inp % 4096

/-- The index of an input at a level (R337). -/
def walkIdx (inp lvl : Nat) : Nat := inp >>> (48 - 12 * lvl) % 4096

/-! ## Regimes (R329) -/

structure Regime where
  phys : Bool
  s1 : Bool
  s2 : Bool
  ctx : Option Nat
deriving DecidableEq, Repr

def regimeOf (k : Core) : Regime :=
  if 2 ≤ k.pl then ⟨true, false, false, none⟩
  else if k.vm then ⟨false, bit k.ptb1 0, bit k.ptb2 0, some (fld k.vmid 11 0)⟩
  else if bit k.ptb1 0 then ⟨false, true, false, none⟩
  else ⟨true, false, false, none⟩

/-! ## Regions and types (R345 to R347) -/

/-- The regions of the physical map (R346, R760). -/
inductive Region where
  | dram
  | dramCompl
  | registers
  | sorus
  | bootRom
  | nor
  | reserved
deriving DecidableEq, Repr

def regionOf (s : State) (a : Nat) : Region :=
  if a < 0x800000000 then (if isCompl s a then .dramCompl else .dram)
  else if a < 0x810000000 then .registers
  else if a < 0x830000000 then .sorus
  else if a < 0x830010000 then .bootRom
  else if 0x840000000 ≤ a && a ≤ 0x841555555 then .nor
  else .reserved

/-- The types a region permits (R346). -/
def regionPermits (s : State) (a : Nat) (t : MemType) : Bool :=
  match regionOf s a with
  | .dram =>
    if isTwin s a then t = .twinned
    else t = .writeBack || t = .writeThrough || t = .uncached || t = .returnStack
  | .dramCompl => false
  | .registers => t = .deviceStrict || t = .deviceRelaxed
  | .sorus => t = .uncached
  | .bootRom => t = .uncached || t = .deviceRelaxed
  | .nor => t = .uncached || t = .deviceRelaxed
  | .reserved => false

/-- The type of an address in the physical regime (R330, R331, R346, R760); none where the map gives none. -/
def physType (s : State) (k : Core) (a : Nat) : Option MemType :=
  match regionOf s a with
  | .dram =>
    if isTwin s a then some .twinned
    else if k.rshi.toNat ≤ 0x80000000 && k.rslo.toNat ≤ a && a < k.rshi.toNat then some .returnStack
    else some .writeBack
  | .dramCompl => none
  | .registers => some .deviceStrict
  | _ => some .uncached

/-- Strength in the order of R347. -/
def typeRank : MemType → Nat
  | .writeBack => 0
  | .writeThrough => 1
  | .uncached => 2
  | .deviceRelaxed => 3
  | .deviceStrict => 4
  | .twinned => 5
  | .returnStack => 6

/-- The final type of two stages (R347); none is the combination fault. -/
def combineTypes (t1 t2 : MemType) : Option MemType :=
  match t2 with
  | .writeBack => some t1
  | .twinned => if t1 = .writeBack || t1 = .twinned then some .twinned else none
  | .returnStack => if t1 = .returnStack then some .returnStack else none
  | _ => if t1 = .twinned || t1 = .returnStack then none else some (if typeRank t1 < typeRank t2 then t2 else t1)

/-! ## Permissions (R348, R350) -/

/-- ecause.W for an access kind (R351). -/
def kindWrites (kind : Nat) : Bool := kind = 2 || kind = 3 || kind = 4 || kind = 6 || kind = 7

/-- DETAIL of classes 0x10 to 0x14 (R350). -/
def xDetail (reason lvl : Nat) (walk : Bool) (kind : Nat) : Nat :=
  reason * 4096 + lvl * 1024 + walk.toNat * 512 + kind

/-- A page fault of stage 1: class 0x10 on fetch, else 0x11. -/
def pageFault (reason lvl kind : Nat) (va : Word) : Exc :=
  exc (if kind = 0 then 0x10 else 0x11) (xDetail reason lvl false kind) va (kindWrites kind)

def permFault (reason lvl kind : Nat) (va : Word) : Exc :=
  exc 0x12 (xDetail reason lvl false kind) va (kindWrites kind)

def pageFault2 (reason lvl : Nat) (walk : Bool) (kind gpa : Nat) : Exc :=
  exc 0x13 (xDetail reason lvl walk kind) (w48 gpa) (kindWrites kind)

def permFault2 (reason lvl : Nat) (walk : Bool) (kind gpa : Nat) : Exc :=
  exc 0x14 (xDetail reason lvl walk kind) (w48 gpa) (kindWrites kind)

/-- The missing permission bit of an access kind (R348). -/
def missingBit (kind : Nat) (r w x : Bool) : Option Nat :=
  match kind with
  | 0 => if x then none else some 3
  | 1 => if r then none else some 1
  | 3 => if !r then some 1 else if !w then some 2 else none
  | 5 => if r then none else some 1
  | _ => if w then none else some 2

/-- The type rule of an access kind (R348). -/
def typeRule (kind : Nat) (t : MemType) : Bool :=
  match kind with
  | 0 => t = .writeBack || t = .writeThrough || t = .uncached || t = .twinned
  | 1 => true
  | 2 => t ≠ .returnStack
  | 3 => t ≠ .returnStack
  | 7 => t = .writeBack || t = .twinned
  | _ => t = .returnStack

/-- The U rule of stage 1 (R348). -/
def uRule (pl kind : Nat) (u : Bool) : Bool := if u then !(kind = 0 && pl = 1) else pl = 1

/-- The reason of a permission failure at one stage, in the order of R348. -/
def stageReason (stage1 : Bool) (pl kind : Nat) (p : StagePerm) : Option Nat :=
  let e := p.entryVal
  match missingBit kind (leafR e) (leafW e) (leafX e) with
  | some n => some n
  | none =>
    if stage1 && !uRule pl kind (leafU e) then some 4
    else if !typeRule kind (leafType e) then some 5 else none

/-! ## Walks (R339, R340) -/

/-- What a step of a translation comes to: a result, a fault and whether the access is known to be to device memory
(R123, R276), or a wait for a busy line. -/
inductive Walk (α : Type) where
  | ok (a : α) (s : State)
  | fault (e : Exc) (device : Bool) (s : State)
  | busy (s : State)

/-- The step that follows a result. -/
def Walk.andThen {α β : Type} (w : Walk α) (g : α → State → Walk β) : Walk β :=
  match w with
  | .ok a s => g a s
  | .fault e d s => .fault e d s
  | .busy s => .busy s

/-- A table word as the walker reads it: through its core's caches (R339), or for an instance of the pinna engine through
the bridge (R608). -/
def tableRead (s : State) (ag pa : Nat) (e5 : Exc) : Walk Word :=
  if memTop s ≤ pa || isCompl s pa then .fault e5 false s
  else
    match if ag = 33 then bridgeRead s (dataLine s (pa / 8)) else coreRead s ag (pa / 8) false with
    | .held s => .busy s
    | .done d s =>
      let w := d.getD (pa % 8) (0, false)
      if pairMismatch d (pa % 8) then .fault (exc 0x18 0 (w48 pa)) false s
      else if w.2 then .fault (exc 0x19 0 (w48 pa)) false s
      else .ok w.1 s

/-- A stage-2 walk from a table (R340), with n levels left. -/
def walk2 (s : State) (ag : Nat) (walk : Bool) (kind gpa : Nat) (base : Nat) : Nat → Walk StagePerm
  | 0 => .fault (pageFault2 3 3 walk kind gpa) false s
  | n + 1 =>
    let lvl := 3 - n
    let ea := base * 4096 + walkIdx gpa lvl
    (tableRead s ag ea (pageFault2 5 lvl walk kind gpa)).andThen fun e s =>
      match entryReason e lvl with
      | some r => .fault (pageFault2 r lvl walk kind gpa) false s
      | none => if isPointer e then walk2 s ag walk kind gpa (fld e 47 24) n else .ok ⟨lvl, ea, e, 0, 0, true, true⟩ s

/-- Where a stage-1 table entry stands: its physical address, and what the stage-2 leaf of its table page says. -/
structure TablePlace where
  pa : Nat
  lvl : Nat
  w : Bool
  ok : Bool
  used : List StagePerm

/-- The stage-2 translation of a stage-1 table address (R340). A table read needs R alone in that leaf, with reason 1,
WALK = 1 and the KIND of the access, and no type rule: R348 names the update of an entry, KIND 7, and no read of one.
DEDUCED, log entry 128. -/
def tablePlace (s : State) (k : Core) (ag : Nat) (r : Regime) (kind ga : Nat) (used : List StagePerm) : Walk TablePlace :=
  if r.s2 then
    (walk2 s ag true kind ga (fld k.ptb2 47 24) 3).andThen fun p s =>
      if leafR p.entryVal then
        .ok ⟨leafOut p.level p.entryVal ga, p.level, leafW p.entryVal, typeRule 7 (leafType p.entryVal), used ++ [p]⟩ s
      else .fault (permFault2 1 p.level true kind ga) false s
  else .ok ⟨ga, 0, true, true, used⟩ s

/-- A stage-1 walk (R340): its leaf and the stage-2 leaves that its table addresses used. A table word that stage 2 maps
outside the DRAM or into a complement half is the page fault of stage 1 with reason 5: R339 does not say of which stage.
DESIGN CHOICE, log entry 169. -/
def walk1 (s : State) (k : Core) (ag : Nat) (r : Regime) (va : Word) (kind base : Nat) (used : List StagePerm) :
    Nat → Walk (StagePerm × List StagePerm)
  | 0 => .fault (pageFault 3 3 kind va) false s
  | n + 1 =>
    let lvl := 3 - n
    let ga := base * 4096 + walkIdx va.toNat lvl
    (tablePlace s k ag r kind ga used).andThen fun p s =>
      (tableRead s ag p.pa (pageFault 5 lvl kind va)).andThen fun e s =>
        match entryReason e lvl with
        | some q => .fault (pageFault q lvl kind va) false s
        | none =>
          if isPointer e then walk1 s k ag r va kind (fld e 47 24) p.used n
          else .ok (⟨lvl, p.pa, e, ga, p.lvl, p.w, p.ok⟩, p.used) s

/-! ## A complete translation -/

/-- A translation with each stage's leaf kept apart (R348, R353). -/
structure Xlate where
  pa : Nat
  type : MemType
  s1 : Option StagePerm
  s2 : Option StagePerm
  used : List StagePerm
deriving DecidableEq, Repr

/-- The class of a failed region or combination check (R349): the stage-2 permission fault wherever stage 2 is
enabled, stage 2 only included, and the permission fault elsewhere, stage 1 only of a guest included. The rule names
the single-stage and physical regimes and the two stages alone. DEDUCED, log entry 131. -/
def lateFault (r : Regime) (reason lvl kind : Nat) (va : Word) (gpa : Nat) : Exc :=
  if r.s2 then permFault2 reason lvl false kind gpa else permFault reason lvl kind va

/-- Combination and region checks, after the stages (R346 to R348). -/
def lateChecks (s : State) (r : Regime) (va : Word) (kind gpa pa lvl : Nat) (t1 t2 : MemType) :
    Except (Exc × Bool) MemType :=
  match combineTypes t1 t2 with
  | none => .error (lateFault r 7 lvl kind va gpa, false)
  | some t => if regionPermits s pa t then .ok t else .error (lateFault r 6 lvl kind va gpa, isDevice t)

/-- The type a stage's leaf gives; a disabled stage gives normal write-back (R347). -/
def stageType (p : Option StagePerm) : MemType := (p.map fun q => leafType q.entryVal).getD .writeBack

/-- Everything after the leaves are known: permissions of each stage, then combination and region (R348). The LEVEL of
a failed combination or region check is that of the stage-2 leaf, else of the stage-1 leaf: R350 names no table level
for them. DEDUCED, log entry 129. -/
def judge (s : State) (k : Core) (r : Regime) (va : Word) (kind : Nat) (s1 s2 : Option StagePerm)
    (used : List StagePerm) : Except (Exc × Bool) Xlate :=
  let gpa := match s1 with
    | some p => leafOut p.level p.entryVal va.toNat
    | none => va.toNat
  let bad1 := match s1 with
    | some p => (stageReason true k.pl kind p).map fun q => permFault q p.level kind va
    | none => none
  let bad2 := match s2 with
    | some p => (stageReason false k.pl kind p).map fun q => permFault2 q p.level false kind gpa
    | none => none
  let pa := match s2 with
    | some p => leafOut p.level p.entryVal gpa
    | none => gpa
  let lvl := match s2, s1 with
    | some p, _ => p.level
    | none, some p => p.level
    | none, none => 0
  match bad1, bad2 with
  | some x, _ => .error (x, isDevice (stageType s1))
  | none, some x => .error (x, (combineTypes (stageType s1) (stageType s2)).any isDevice)
  | none, none =>
    match lateChecks s r va kind gpa pa lvl (stageType s1) (stageType s2) with
    | .error x => .error x
    | .ok t => .ok ⟨pa, t, s1, s2, used⟩

/-- The judgement of a translation as a step of it. -/
def judged (s : State) (x : Except (Exc × Bool) Xlate) : Walk Xlate :=
  match x with
  | .error e => .fault e.1 e.2 s
  | .ok x => .ok x s

/-- The walk of R340 for an access, every table word read now. Under two stages, where no final type is known, an access
counts as one to device memory (R276) after a stage-1 permission failure of a device leaf, and not after a stage-2 page
fault: the manual names neither case. DESIGN CHOICE, log entry 166. -/
def walkAll (s : State) (k : Core) (ag : Nat) (r : Regime) (va : Word) (kind : Nat) : Walk Xlate :=
  let first : Walk (Option StagePerm × List StagePerm) :=
    if r.s1 then
      (walk1 s k ag r va kind (fld k.ptb1 47 24) [] 3).andThen fun q s =>
        match stageReason true k.pl kind q.1 with
        | some n => .fault (permFault n q.1.level kind va) (isDevice (leafType q.1.entryVal)) s
        | none => .ok (some q.1, q.2) s
    else if 2 ^ 36 ≤ va.toNat then .fault (pageFault 2 0 kind va) false s
    else .ok (none, []) s
  first.andThen fun q s =>
    let gpa := match q.1 with
      | some p => leafOut p.level p.entryVal va.toNat
      | none => va.toNat
    if r.s2 then
      (walk2 s ag false kind gpa (fld k.ptb2 47 24) 3).andThen fun p s => judged s (judge s k r va kind q.1 (some p) q.2)
    else judged s (judge s k r va kind q.1 none q.2)

/-! ## TLBs (R353 to R355) -/

/-- An entry stands for a virtual address under a regime (R355). -/
def tlbMatch (r : Regime) (asid : Nat) (va : Nat) (e : TlbEntry) : Bool :=
  e.ctx = r.ctx && (e.global || e.asid = asid) && (if e.big then va / 2 ^ 24 = e.vpage else va / 4096 = e.vpage)

/-- The entry of a complete translation, of the smaller page size of its stages (R354). -/
def tlbEntryOf (k : Core) (r : Regime) (va : Word) (x : Xlate) : TlbEntry :=
  let small (p : Option StagePerm) : Bool := match p with
    | some p => p.level = 3
    | none => false
  let big := !(small x.s1 || small x.s2)
  let sz := if big then 2 ^ 24 else 4096
  { big := big, vpage := va.toNat / sz, ctx := r.ctx, asid := fld k.asid 15 0,
    global := (x.s1.map fun p => leafG p.entryVal).getD false, ppage := x.pa / sz, s1 := x.s1, s2 := x.s2, bad := false }

/-- The entry of an address that passes both disabled stages of a guest (R329): its own page, with the physical map's
type as it is used (R330). -/
def identityEntry (k : Core) (r : Regime) (va : Nat) : TlbEntry :=
  { big := false, vpage := va / 4096, ctx := r.ctx, asid := fld k.asid 15 0, global := false, ppage := va / 4096,
    s1 := none, s2 := none, bad := false }

/-- The set of the L2 TLB (R353). -/
def l2Set (e : TlbEntry) : Nat := e.vpage % 512

/-- Puts an entry into a first-level TLB; a full one replaces the entry that pseudo-LRU picks, which the manual does
not fix (R353). -/
def tlbFirstPut (l : List TlbEntry) (e : TlbEntry) (free : Nat) : List TlbEntry :=
  if l.length < 48 then e :: l else e :: l.eraseIdx (Config.tlbVictim free).val

/-- Puts an entry in front of its L2 set, which keeps four (R353). -/
def tlbL2Put (l : List TlbEntry) (e : TlbEntry) : List TlbEntry :=
  let same := l.filter fun x => l2Set x = l2Set e && x ≠ e
  let other := l.filter fun x => l2Set x ≠ l2Set e
  (e :: same.take 3) ++ other

/-- Fills the first-level TLB of an access kind. -/
def tlbFill (s : State) (c : CoreId) (kind : Nat) (e : TlbEntry) : State :=
  let s := s.modCore c fun k =>
    if kind = 0 then { k with tlb := { k.tlb with itlb := tlbFirstPut k.tlb.itlb e s.free } }
    else { k with tlb := { k.tlb with dtlb := tlbFirstPut k.tlb.dtlb e s.free } }
  { s with free := s.free + 1 }

/-- Discards every TLB entry of a core that satisfies a condition. -/
def Core.tlbDrop (k : Core) (p : TlbEntry → Bool) : Core :=
  { k with tlb := { k.tlb with
      itlb := k.tlb.itlb.filter fun e => !p e
      dtlb := k.tlb.dtlb.filter fun e => !p e
      l2 := k.tlb.l2.filter fun e => !p e } }

/-- An entry with a parity error is discarded, which is counted (R356). -/
def discardBad (s : State) (c : CoreId) (e : TlbEntry) : State :=
  noteEvent (s.modCore c fun k => k.tlbDrop (· = e)) c 0x20

/-- A TLB lookup: first level, then L2 for 4096-word pages, then L2 for 16-Mword pages (R353, R354). One that finds a
parity error finds nothing, and the access walks again (R356). A miss that the L2 TLB serves is noted here, and one that
needs a walk with the walk. -/
def tlbLookup (s : State) (c : CoreId) (r : Regime) (va : Nat) (kind : Nat) : Option TlbEntry × State :=
  let k := s.core c
  let asid := fld k.asid 15 0
  let hit := tlbMatch r asid va
  match (if kind = 0 then k.tlb.itlb else k.tlb.dtlb).find? hit with
  | some e => if e.bad then (none, discardBad s c e) else (some e, s)
  | none =>
    match (match k.tlb.l2.find? (fun e => !e.big && hit e) with
      | some e => some e
      | none => k.tlb.l2.find? (fun e => e.big && hit e)) with
    | some e =>
      if e.bad then (none, discardBad s c e)
      else
        let s := (noteEvent s c 0x17).modCore c fun k => { k with tlb := { k.tlb with l2 := tlbL2Put k.tlb.l2 e } }
        (some e, tlbFill s c kind e)
    | none => (none, s)

/-- A translation that has been made fills the L2 TLB and the first-level TLB of its kind (R354). -/
def tlbEnter (s : State) (c : CoreId) (kind : Nat) (e : TlbEntry) : State :=
  tlbFill (s.modCore c fun k => { k with tlb := { k.tlb with l2 := tlbL2Put k.tlb.l2 e } }) c kind e

/-! ## Hardware updates (R343, R344) -/

/-- What an update of a table entry did. -/
inductive Updated where
  | done (s : State) (v : Word)
  | changed (s : State)
  | bad (e : Exc) (s : State)
  | busy (s : State)

/-- The compare-and-swap of R344 at the entry's home slice: a far ACAS of the core (R402). An entry word that is poisoned
or mismatched by then raises its class as a table read does (R172, R339). -/
def casEntry (s : State) (ag pa : Nat) (old new : Word) : Updated :=
  match coreAtomic s ag pa 2 new old with
  | .held s => .busy s
  | .done (v, fail) s =>
    if fail = 1 then .bad (exc 0x19 0 (w48 pa)) s
    else if fail = 2 then .bad (exc 0x18 0 (w48 pa)) s
    else if v = old then .done s new else .changed s

/-- The state after a translation and its updates. -/
inductive Walked where
  | ok (s : State) (x : Xlate)
  | fault (s : State) (e : Exc) (device : Bool)
  | wait (s : State)
  | again (s : State)

/-- Sets bit n in one leaf if it is clear (R341, R343). -/
def setLeafBit (s : State) (ag n : Nat) (p : StagePerm) : Updated :=
  if bit p.entryVal n then .done s p.entryVal
  else casEntry s ag p.entryPa p.entryVal (setBit p.entryVal n true)

/-- The fault of an update that the stage-2 leaf of the table page forbids (R343, R348 KIND 7). -/
def updateFault (r : Regime) (n : Nat) (p : StagePerm) : Option Exc :=
  if r.s2 && !bit p.entryVal n then
    if !p.tableW then some (permFault2 2 p.tableLvl true 7 p.tableGpa)
    else if !p.tableOk then some (permFault2 5 p.tableLvl true 7 p.tableGpa)
    else none
  else none

/-- Sets bit n in the leaf of one stage of a translation. -/
def setStageBit (s : State) (ag n : Nat) (x : Xlate) (p : Option StagePerm) (g : Xlate → StagePerm → Xlate) : Walked :=
  match p with
  | none => .ok s x
  | some q =>
    match setLeafBit s ag n q with
    | .done s v => .ok s (g x { q with entryVal := v })
    | .changed s => .again s
    | .bad e s => .fault s e (isDevice x.type)
    | .busy s => .wait s

/-- Sets bit n in the leaves of a translation: stage 1, stage 2. The write of a stage-1 entry does not set D in the
stage-2 leaf that maps its table page: R343 does not say that it does. DEDUCED, log entry 130. -/
def setLeafBits (s : State) (ag : Nat) (r : Regime) (n : Nat) (x : Xlate) : Walked :=
  match x.s1.bind (updateFault r n) with
  | some e => .fault s e (isDevice x.type)
  | none =>
    match setStageBit s ag n x x.s1 fun x q => { x with s1 := some q } with
    | .ok s x => setStageBit s ag n x x.s2 fun x q => { x with s2 := some q }
    | o => o

/-- A leaf as an update of the entry that q stands for leaves it: two uses of one entry see one value. -/
def StagePerm.after (q p : StagePerm) : StagePerm := if p.entryPa = q.entryPa then { p with entryVal := q.entryVal } else p

/-- Sets A in the stage-2 leaves that the table addresses used (R340, R341); a leaf that several of them, or the access
itself, used is written once. -/
def setUsed (s : State) (ag : Nat) (x : Xlate) : Walked := go s { x with used := [] } x.used x.used.length
where
  go (s : State) (x : Xlate) (ps : List StagePerm) : Nat → Walked
  | 0 => .ok s x
  | n + 1 =>
    match ps with
    | [] => .ok s x
    | p :: ps =>
      match setStageBit s ag 6 x (some p) fun x q =>
          { x with s2 := x.s2.map q.after, used := x.used.map q.after ++ [q] } with
      | .ok s x => go s x (ps.map fun p => ((x.used.getLast?).map fun q => q.after p).getD p) n
      | o => o

/-- A walk, its A updates, and the fill of both TLBs (R340, R341, R354). An entry that changed walks once more. -/
def walkFill (s : State) (c : CoreId) (r : Regime) (va : Word) (kind : Nat) : Nat → Walked
  | 0 => .wait s
  | n + 1 =>
    let k := s.core c
    let ag := coreNum c
    match walkAll s k ag r va kind with
    | .busy s => .wait s
    | .fault e d s => .fault s e d
    | .ok x s =>
      match setUsed s ag x with
      | .ok s x =>
        match setLeafBits s ag r 6 x with
        | .ok s x => .ok (tlbEnter (noteEvent (noteEvent s c 0x17) c 0x18) c kind (tlbEntryOf k r va x)) x
        | .again s => walkFill s c r va kind n
        | o => o
      | .again s => walkFill s c r va kind n
      | o => o

/-- The physical regime (R330, R331, R346). A reserved address has no type: a fetch breaks the type rule there, a data
access is the violation of R761. -/
def physXlate (s : State) (k : Core) (r : Regime) (va : Word) (kind : Nat) : Except (Exc × Bool) Xlate :=
  if 2 ^ 36 ≤ va.toNat then .error (pageFault 2 0 kind va, false)
  else
    match physType s k va.toNat with
    | none => .error (lateFault r 6 0 kind va va.toNat, false)
    | some t =>
      let fetchBad := kind = 0 && regionOf s va.toNat = .reserved
      let stackFree := t = .writeBack && 0x80000000 < k.rshi.toNat
      if fetchBad || !(typeRule kind t || (4 ≤ kind && kind ≤ 6 && stackFree)) then
        .error (permFault 5 0 kind va, isDevice t)
      else .ok ⟨va.toNat, t, none, none, []⟩

/-- A translation from a TLB entry: the same checks as the walk's (R348). -/
def fromEntry (s : State) (k : Core) (r : Regime) (va : Word) (kind : Nat) (e : TlbEntry) : Except (Exc × Bool) Xlate :=
  let sz := if e.big then 2 ^ 24 else 4096
  let pa := e.ppage * sz + va.toNat % sz
  if e.s1.isNone && e.s2.isNone then physXlate s k r (w48 pa) kind
  else match judge s k r va kind e.s1 e.s2 [] with
    | .ok x => .ok { x with pa := pa }
    | .error x => .error x

/-- The answer of a check as a translation. -/
def walkedOf (s : State) (x : Except (Exc × Bool) Xlate) : Walked :=
  match x with
  | .error e => .fault s e.1 e.2
  | .ok x => .ok s x

/-- Translates one access of a core (R262, R340). Frond and Medulla cores issue physical addresses. A guest with both
stages disabled keeps its TLB context (R329). -/
def translate (s : State) (c : CoreId) (va : Word) (kind : Nat) : Walked :=
  match c with
  | .app _ =>
    let k := s.core c
    let r := regimeOf k
    if r.phys then walkedOf s (physXlate s k r va kind)
    else if !r.s1 && 2 ^ 36 ≤ va.toNat then .fault s (pageFault 2 0 kind va) false
    else
      match tlbLookup s c r va.toNat kind with
      | (some e, s) => walkedOf s (fromEntry s k r va kind e)
      | (none, s) =>
        if r.s1 || r.s2 then walkFill s c r va kind 2
        else match physXlate s k r va kind with
          | .ok x => .ok (tlbEnter (noteEvent s c 0x17) c kind (identityEntry k r va.toNat)) x
          | .error e => .fault s e.1 e.2
  | _ =>
    let t := match regionOf s va.toNat with
      | .dram => if isTwin s va.toNat then MemType.twinned else .writeBack
      | .registers => .deviceStrict
      | _ => .uncached
    .ok s ⟨va.toNat, t, none, none, []⟩

/-! ## The D update of a write (R343, R344) -/

/-- A write through a translation that has a leaf with D clear. -/
def needsDirty (kind : Nat) (x : Xlate) : Bool :=
  let clean (p : Option StagePerm) : Bool := p.any fun q => !leafD q.entryVal
  kindWrites kind && (clean x.s1 || clean x.s2)

/-- The fault that the D update of a write meets, before anything is written (R343, R348 KIND 7). -/
def dirtyFault (s : State) (c : CoreId) (kind : Nat) (x : Xlate) : Option Exc :=
  if needsDirty kind x then x.s1.bind (updateFault (regimeOf (s.core c)) 7) else none

/-- The leaves that a D update would write still hold what the translation was made from (R344). -/
def leavesStand (s : State) (kind : Nat) (x : Xlate) : Bool :=
  let ok (p : Option StagePerm) : Bool := p.all fun q => leafD q.entryVal || (peekWord s q.entryPa).1 = q.entryVal
  !needsDirty kind x || (ok x.s1 && ok x.s2)

/-- The TLB entries of a page are discarded, for an entry that changed (R344). -/
def dropPage (s : State) (c : CoreId) (va : Word) : State :=
  let r := regimeOf (s.core c)
  s.modCore c fun k => k.tlbDrop (tlbMatch r (fld k.asid 15 0) va.toNat)

/-- The D update of a committed write (R343, R344): the leaves take D, and the TLB entries with them. -/
def setDirty (s : State) (c : CoreId) (va : Word) (kind : Nat) (x : Xlate) : Walked :=
  let r := regimeOf (s.core c)
  if needsDirty kind x then
    let asid := fld (s.core c).asid 15 0
    match setLeafBits s (coreNum c) r 7 x with
    | .ok s y =>
      let fix (e : TlbEntry) : TlbEntry := if tlbMatch r asid va.toNat e then { e with s1 := y.s1, s2 := y.s2 } else e
      .ok (s.modCore c fun k => { k with tlb := { k.tlb with
        itlb := k.tlb.itlb.map fix, dtlb := k.tlb.dtlb.map fix, l2 := k.tlb.l2.map fix } }) y
    | .again s => .again (dropPage s c va)
    | o => o
  else .ok s x

end Sys2Proof.Machine
end

