-- ==== Sys2Proof/Machine/Int.lean ====
section
/-! DEFINITION. Interrupts, time base, compare timers, capture units and watchdogs (chapter 8): what a write of their
registers does, and their events. -/

namespace Sys2Proof.Machine

open Sys2Proof

/-- A write that only sets, keeps and clears the bits of its register (R10, R13). -/
def plainWrite (s : State) (a : Nat) (v : Word) : State :=
  match regInfo a with
  | some i => regSet s a (i.merge (regGet s a) v)
  | none => s

/-- A write or access that a chapter states is logged, at its register. -/
def refuseWrite (s : State) (rq : Requester) (cause a : Nat) : State := rqViolation s cause rq true a

/-- The core a requester is, if it is one. -/
def rqCore : Requester → Option CoreId
  | .core c => some c
  | _ => none

/-- The core with a target number is enabled after release (R69, R465). -/
def coreEnabled (s : State) (t : Nat) : Bool :=
  if t < 16 then domainEnabled s t
  else if t < 32 then match groupOf s (t - 16) with
    | some g => domainEnabled s (20 + g)
    | none => false
  else t = 32

/-! ## Interrupt controller registers (R293 to R310) -/

/-- A write of INT_SRC_ROUTE (R294). -/
def routeWrite (s : State) (rq : Requester) (n : Nat) (v : Word) : State :=
  let old := regGet s (aRoute n)
  let t := fld v 14 9
  if bit old 8 || !coreEnabled s t then refuseWrite s rq 6 (aRoute n)
  else if fld v 2 1 = 0 || (bit v 35 && (16 ≤ t || fld v 2 1 ≠ 1)) then refuseWrite s rq 9 (aRoute n)
  else represent (represent (plainWrite s (aRoute n) v) (fld old 14 9)) t

/-- A write of INT_SRC_STATE (R298). -/
def srcStateWrite (s : State) (n : Nat) (v : Word) : State :=
  let s := if bit v 9 then regFld s (aSrcState n) 47 40 0 else s
  let level := isLevelSource n
  let s := if bit v 0 && (!level || !srcLine s n) then regFld s (aSrcState n) 0 0 0 else s
  represent s (regF s (aRoute n) 14 9)

/-- A core's copy of source n's active state ends (R297). CORE keeps the number of the core that held it: R298 gives
the field no value for a source that is not active. DESIGN CHOICE, log entry 127; the banked source 63 shows its core's
number while it is active and zero otherwise. -/
def endActive (s : State) (t n : Nat) : State :=
  let s := regFld s (aSrcState n) 1 1 0
  let s := match coreOfAgent t with
    | some c => s.modCore c fun k => { k with active := k.active.filter (· ≠ n) }
    | none => s
  represent s (regF s (aRoute n) 14 9)

/-- Source 63 of a core is pending with priority 0: it is polled and never presented (R295, R304, R309). -/
def polled63 (s : State) (t : Nat) : Bool :=
  src63Line s t && match coreOfAgent t with
  | some c => fld (s.core c).virtCtl 2 0 = 0
  | none => false

/-- A write of INT_EOI by the core with target number t (R303). The level source 63 with priority 0 keeps its PEND while
its condition holds. -/
def eoiWrite (s : State) (rq : Requester) (v : Word) : State :=
  let n := fld v 8 0
  let t := rqNum rq
  let virt := match rqCore rq with
    | some c => n = 63 && (s.core c).src63Active
    | none => false
  if n = 511 then s
  else if virt then
    match rqCore rq with
    | some c => represent (s.modCore c fun k => { k with src63Active := false, active := k.active.filter (· ≠ 63) }) t
    | none => s
  else if n = 63 && polled63 s t then s
  else if n < 320 && srcAct s n && regF s (aSrcState n) 33 28 = t then endActive s t n
  else if n < 320 && srcPend s n && regF s (aRoute n) 7 5 = 0 && regF s (aRoute n) 14 9 = t then
    if isLevelSource n && srcLine s n then s else represent (regFld s (aSrcState n) 0 0 0) t
  else refuseWrite s rq 9 aIntEoi

/-- A write of INT_SWI (R305). -/
def swiWrite (s : State) (v : Word) : State := if fld v 2 0 = 7 then s else assertEdge s (56 + fld v 2 0)

/-- A write of INT_VIRT_CTL, banked by requester (R310). -/
def virtCtlWrite (s : State) (rq : Requester) (v : Word) : State :=
  match rqCore rq with
  | some c => represent (s.modCore c fun k => { k with virtCtl := v &&& 0xF }) (coreNum c)
  | none => plainWrite s aIntVirtCtl v

/-- INT_CUR of a core (R302): what the controller presents now, without a presentation that it has withdrawn. APRIO is
the priority that the active source's route gives now: the manual does not say whether it is the one at acceptance.
DESIGN CHOICE, log entry 126. -/
def intCur (s : State) (c : CoreId) : Word :=
  let pres := match selectSource s (coreNum c) with
    | some p => mk 47 47 1 ||| mk 46 44 p.prio ||| mk 40 32 p.src
    | none => 0
  let act := (s.core c).active
  let prio (n : Nat) : Nat := if n = 63 then fld (s.core c).virtCtl 2 0 else regF s (aRoute n) 7 5
  let top := match act with
    | n :: _ => mk 15 15 1 ||| mk 14 12 (prio n) ||| mk 8 0 n
    | [] => 0
  pres ||| mk 23 16 act.length ||| top

/-- INT_POLL of a requester (R304). -/
def intPoll (s : State) (t : Nat) : Word :=
  match (upto 320).find? fun n =>
      if n = 63 then polled63 s t
      else srcPend s n && regB s (aRoute n) 0 && regF s (aRoute n) 7 5 = 0 && regF s (aRoute n) 14 9 = t with
  | some n => mk 47 47 1 ||| mk 8 0 n
  | none => 0

/-- INT_VPEND of a core (R310). -/
def intVpend (s : State) (t : Nat) : Word :=
  match firstHeld s t with
  | some n => mk 47 47 1 ||| mk 43 32 (regF s (aRoute n) 47 36) ||| mk 8 0 n
  | none => 0

/-! ## Interrupt events -/

/-- The pad of a source that a pad drives is placed: the PHY interrupts of the Ethernet ports and the two pad edge groups
(R291, R631, R748). -/
def sourcePadded (s : State) (n : Nat) : Bool :=
  match n with
  | 131 => funcPlaced s 0x34
  | 135 => funcPlaced s 0x35
  | 190 => funcPlaced s 0x08
  | 191 => funcPlaced s 0x09
  | _ => true

/-- A level at a source's input (R291): an edge source rises with it. Source 63 follows its own condition (R309). -/
def execInterruptSourceAssert (n : Fin 320) (line : Bool) (s : State) : Host.Outcome State Fault Refusal :=
  if n.val = 63 || !unitRuns s 62 || !sourcePadded s n.val then .next s
  else if isLevelSource n.val then .next (setLine s n.val line)
  else .next (setEdgeInput s n.val line)

/-- The acceptance of a presented source (R296, R297): the number that entry writes into DETAIL. The presentation ends
with it. -/
def acceptSource (s : State) (c : CoreId) (p : Presented) : Nat × State :=
  let t := coreNum c
  let selected := selectSource s t = some p
  let s := s.modCore c fun k => { k with presented := none }
  if selected then
    if p.src = 63 then
      (63, represent (s.modCore c fun k => { k with src63Active := true, active := 63 :: k.active }) t)
    else
      let w := regGet s (aSrcState p.src)
      let pend := isLevelSource p.src && bit w 2
      let s := regSet s (aSrcState p.src) (setBit (setBit (setFld w 33 28 t) 1 true) 0 pend)
      (p.src, represent (s.modCore c fun k => { k with active := p.src :: k.active }) t)
  else
    (511, represent s t)

/-- R267: the core takes an interrupt of priority p for level k. -/
def Core.takesInterrupt (k : Core) (p : Presented) : Bool :=
  k.iml < p.prio && k.eml < lowLevel p.lvl && k.pl ≤ p.lvl

/-- The first word of a split store has been performed, and the second waits (R210). -/
def Access.begun (a : Access) : Bool :=
  a.fin = .store && match a.refs with
    | [r] => r.elem = .dword
    | _ => false

/-- The core stands at an instruction boundary where an interrupt can be taken: it runs, no delay slot is pending
(R229), no access that cannot be discarded is in flight (R312) and none is half performed (R210), and on a Frond core the
first instruction of the frame has completed (R472). -/
def Core.atBoundary (k : Core) : Bool :=
  k.run = .running && k.slot.isNone && k.frame.firstDone && !k.frame.stopped &&
  match k.waiting with
  | none => true
  | some (.access a) => !a.begun
  | some .tlbsync => true
  | some (.tlbi _) => true
  | some (.maintenance _ _ sent) => !sent
  | some .barrier => true
  | _ => false

/-- The status that the instruction after this boundary will run under: a write that takes effect at it counts (R218,
R224). -/
def Core.nextStatus (k : Core) : Word := k.statusQueue.foldl (fun st w => if w.left = 0 then w.value else st) k.status

/-- The status that this boundary stands under (R224): of an instruction that waits and would be discarded, the one that it
runs under, else that of the next instruction. -/
def Core.boundaryStatus (k : Core) : Word := if k.waiting.isSome then k.status else k.nextStatus

/-- INTERRUPT_ENTRY (R267, R273, R296): the presented source is accepted and the core enters its level. A barrier that
it discards executes again and does not count twice (R478). -/
def execInterruptEntry (c : CoreId) (s : State) : Host.Outcome State Fault Refusal :=
  let k := s.core c
  match presentedNow s c with
  | some p =>
    if k.atBoundary && { k with status := k.boundaryStatus }.takesInterrupt p && unitRuns s 62 && coreClocked s c then
      let (n, s) := acceptSource s c p
      let s := if k.waiting = some .barrier then
          s.modCore c fun k => { k with frame := { k.frame with barriers := k.frame.barriers - 1 } }
        else s
      let k := (s.core c).flushStatus
      let cause := ecauseWord n 0 0 0 false k.vm 0x20
      let k := k.enter p.lvl cause 0x20 0 k.pc (some p.prio)
      .next (represent (coreCount (s.setCore c (k.setPc c k.pc)) c 0x1E 0) (coreNum c))
    else .next s
  | none => .next s

/-! ## Time base registers (R316) -/

/-- A read of TB_LO latches the high word for the requester (R316, R179). -/
def readTbLo (s : State) (rq : Requester) : Word × State :=
  match rq with
  | .core c => (s.tbl, s.modCore c fun k => { k with tbhLatch := s.tbh })
  | _ => (s.tbl, { s with tbLatch := sins s.tbLatch (rqNum rq) s.tbh })

/-- A read of TB_HI returns the latched word (R316). -/
def readTbHi (s : State) (rq : Requester) : Word :=
  match rq with
  | .core c => (s.core c).tbhLatch
  | _ => aget s.tbLatch (rqNum rq) 0

/-! ## Compare timers (R320) -/

/-- COMPARE_TIMER_FIRE (R320). -/
def execCompareTimerFire (n : Fin 8) (s : State) : Host.Outcome State Fault Refusal :=
  let ctl := regGet s (aTmrCtl n.val)
  let cmp := regGet s (aTmrCmp n.val)
  if s.timeCounts && bit ctl 47 && (s.tbl - cmp).toNat < 2 ^ 47 then
    let s := assertEdge s (178 + n.val)
    if bit ctl 46 && fld ctl 39 0 ≠ 0 then .next (regSet s (aTmrCmp n.val) (cmp + w48 (fld ctl 39 0)))
    else .next (regFld s (aTmrCtl n.val) 47 47 0)
  else .next s

/-! ## Timestamp capture (R318, R319) -/

def fifo (s : State) (u : Nat) : List (Word × Bool) := s.timers.capture.getD u []

def setFifo (s : State) (u : Nat) (l : List (Word × Bool)) : State :=
  setLine { s with timers := { s.timers with capture := s.timers.capture.set u l } } (186 + u) (!l.isEmpty)

/-- TIMESTAMP_CAPTURE (R318): an edge at the pad that the PAD section gives unit u. -/
def execTimestampCapture (u : Fin 4) (rise : Bool) (s : State) : Host.Outcome State Fault Refusal :=
  let mode := regF s (aTsStat u.val) 14 13
  let wanted := mode = 3 || (mode = 1 && rise) || (mode = 2 && !rise)
  if wanted && funcPlaced s (4 + u.val) && s.timeCounts then
    if 16 ≤ (fifo s u.val).length then .next (regFld s (aTsStat u.val) 15 15 1)
    else .next (setFifo s u.val (fifo s u.val ++ [(s.tbl, rise)]))
  else .next s

/-- TS_CAP_STAT as read: RISE and COUNT follow the FIFO (R319). -/
def tsStat (s : State) (u : Nat) : Word :=
  let l := fifo s u
  regGet s (aTsStat u) ||| mk 4 0 l.length ||| (match l with
    | (_, r) :: _ => mk 12 12 r.toNat
    | [] => 0)

/-- TS_CAP_HEAD as read (R319). -/
def tsHead (s : State) (u : Nat) : Word := match fifo s u with
  | (t, _) :: _ => t
  | [] => 0

/-- A write of TS_CAP_POP (R319). -/
def popWrite (s : State) (u : Nat) (v : Word) : State := if bit v 0 then setFifo s u (fifo s u).tail else s

/-! ## Watchdogs (R322 to R326) -/

def wdogStart (s : State) (w : Nat) : Nat := s.timers.wdogStart.getD w 0

def setWdogStart (s : State) (w t : Nat) : State :=
  { s with timers := { s.timers with wdogStart := s.timers.wdogStart.set w t } }

/-- The count of a watchdog starts anew on domain 57's count (R322, R324); a paused one starts from zero on its resumption
(R326). -/
def restartWdog (s : State) (w : Nat) : State :=
  let s := setWdogStart s w s.ref
  if (sget s.timers.wdogPaused w).isSome then
    { s with timers := { s.timers with wdogPaused := sins s.timers.wdogPaused w s.ref } }
  else s

/-- A write of WDOG_CTL (R323). TIMEOUT_MS and GRACE_MS take any value written, those above 60 000 too: the manual
gives their ranges and not what such a write does. DESIGN CHOICE, log entry 125. -/
def wdogCtlWrite (s : State) (w : Nat) (v : Word) : State :=
  let old := regGet s (aWdogCtl w)
  let new := if bit old 46 then old else setFld old 31 0 (fld v 31 0)
  let new := if bit v 46 then setBit new 46 true else new
  let ok := 1 ≤ fld new 15 0 && fld new 15 0 ≤ 60000
  if bit v 47 && ok && !bit old 47 then restartWdog (regSet s (aWdogCtl w) (setBit new 47 true)) w
  else regSet s (aWdogCtl w) new

/-- The requesters whose kick a watchdog accepts (R324). -/
def kickAdmits (s : State) (rq : Requester) (w : Nat) : Bool :=
  match rq with
  | .core (.app i) => if w < 16 then i.val = w && 1 ≤ (s.core (.app i)).pl else 32 ≤ w && (s.core (.app i)).pl = 3
  | .core (.frond i) => 16 ≤ w && w < 32 && i.val = w - 16
  | _ => false

/-- A write of WDOG_KICK (R324). -/
def kickWrite (s : State) (rq : Requester) (w : Nat) (v : Word) : State :=
  if !kickAdmits s rq w then refuseWrite s rq 1 (aWdogKick w)
  else if v ≠ 0xA5C3 then refuseWrite s rq 9 (aWdogKick w)
  else if regF s (aWdogCtl w) 33 32 < 2 then restartWdog (regFld s (aWdogCtl w) 33 32 0) w
  else s

/-- The watchdog counts on domain 57: enabled and not paused (R322, R323, R326). -/
def wdogCounts (s : State) (w : Nat) : Bool := regB s (aWdogCtl w) 47 && (sget s.timers.wdogPaused w).isNone

/-- The watchdogs in a set pause (R326). -/
def pauseWdogs (s : State) (p : Nat → Bool) : State :=
  { s with timers := { s.timers with
      wdogPaused := (upto 36).foldl (fun l w => if p w && (sget l w).isNone then sins l w s.ref else l)
        s.timers.wdogPaused } }

/-- The watchdogs in a set resume from the paused count (R326). -/
def resumeWdogs (s : State) (p : Nat → Bool) : State :=
  (upto 36).foldl (fun s w =>
    match sget s.timers.wdogPaused w with
    | some t =>
      if p w then
        let s := setWdogStart s w (wdogStart s w + (s.ref - t))
        { s with timers := { s.timers with wdogPaused := sdel s.timers.wdogPaused w } }
      else s
    | none => s) s

/-- The source of a watchdog's stage 1 (R291, R325). -/
def wdogSource (w : Nat) : Nat := if w < 16 then 162 + w else if w < 32 then 36 + (w - 16) else 52 + (w - 32)

/-- WATCHDOG_STAGE_1 (R325): due TIMEOUT_MS after the last kick. -/
def execWatchdogStage1 (w : Fin 36) (s : State) : Host.Outcome State Fault Refusal :=
  let ctl := regGet s (aWdogCtl w.val)
  if wdogCounts s w.val && fld ctl 33 32 = 0 && wdogStart s w.val + fld ctl 15 0 * 1000000 ≤ s.ref then
    .next (assertEdge (regFld s (aWdogCtl w.val) 33 32 1) (wdogSource w.val))
  else .next s

/-- The Medulla core resets a core after its watchdog's stage 2, as after a checkstop (R325, R736). The reset of a core
that has checkstopped already is CORE_RESET's, which waits for its record and for DBG_HOLD (R736, R770). One that has not
checkstopped is reset at once, whatever DBG_HOLD says: R736 and R770 name the reset after a checkstop alone. DESIGN CHOICE,
log entry 119. -/
def wdogResetCore (s : State) (c : CoreId) : State := if (s.core c).run = .checkstopped then s else coreToReset s c .held

/-- WATCHDOG_STAGE_2 (R325): due GRACE_MS after stage 1. -/
def execWatchdogStage2 (w : Fin 36) (s : State) : Host.Outcome State Fault Refusal :=
  let ctl := regGet s (aWdogCtl w.val)
  if wdogCounts s w.val && fld ctl 33 32 = 1 &&
      wdogStart s w.val + (fld ctl 15 0 + fld ctl 31 16) * 1000000 ≤ s.ref then
    let s := logFault (regFld s (aWdogCtl w.val) 33 32 2) 0x10 w.val 0 0 0
    if w.val < 16 then
      match coreOfAgent w.val with
      | some c => .next (wdogResetCore s c)
      | none => .next s
    else if w.val < 32 then
      match groupOf s (w.val - 16) with
      | some g => .next (safeGroup s g 4)
      | none => .next s
    else .next (safeGroup s (w.val - 32) 5)
  else .next s

end Sys2Proof.Machine
end

