-- ==== Sys2Proof/Machine/Frond.lean ====
section
/-! DEFINITION. Frond cluster and tick groups (chapter 12): the registers, the frame, outputs, overruns, the safe state
and lockstep pairs. -/

namespace Sys2Proof.Machine

open Sys2Proof

/-- STATE of a Frond core (R466): 0 parked, 1 init, 2 joined, 3 retired. -/
def frondState (s : State) (i : Nat) : Nat := regF s (aFrondStat i) 47 46

def setFrondState (s : State) (i st : Nat) : State := regFld s (aFrondStat i) 47 46 st

/-- Frond core i as a core number. -/
def frondId (i : Nat) : CoreId := .frond ⟨i % 16, Nat.mod_lt _ (by decide)⟩

/-- The cores that act together: both cores of a lockstep pair, else the core alone (R470). -/
def unitOf (s : State) (i : Nat) : List Nat := if isPair s (i / 2) then [i / 2 * 2, i / 2 * 2 + 1] else [i]

def setUnitState (s : State) (i st : Nat) : State := (unitOf s i).foldl (fun s j => setFrondState s j st) s

/-- The members of group g that count: each core of the group but the checker of a pair (R470). -/
def groupUnits (s : State) (g : Nat) : List Nat := (upto 16).filter fun i => (grpMembers s g).testBit i && !isChecker s i

/-- The joined members of a group (R466). -/
def joinedIn (s : State) (g : Nat) : List Nat := (groupUnits s g).filter fun i => frondState s i = 2

/-- The frame start of a group in nanoseconds of the time base (R464). -/
def frameStartTbl (s : State) (g : Nat) : Word := regGet s aTickLast + w48 (regF s (aGrpCfg g) 39 24)

/-! ## Registers -/

/-- START of a parked core (R467). -/
def frondStart (s : State) (rq : Requester) (i : Nat) : State :=
  if frondState s i ≠ 0 then s
  else
    let c := frondId i
    if (s.core c).run ≠ .parked then refuseWrite s rq 9 (aFrondCtl i)
    else
      let boot := w48 (regF s (aFrondCtl i) 36 0)
      setUnitState (s.modCore c fun k => { k.toReset with pc := boot, run := .running }) i 1

/-- A write of FROND_CORE_CTL (R467, R468, R470, R500). A PARK of a parked core is dropped, and a write with START and
PARK both set starts the core and leaves the PARK pending: R468 names the ignored PARK of a retired core alone. DESIGN
CHOICE, log entry 171. -/
def frondCtlWrite (s : State) (rq : Requester) (i : Nat) (v : Word) : State :=
  if isChecker s i then refuseWrite s rq 9 (aFrondCtl i)
  else
    let s := plainWrite s (aFrondCtl i) v
    let s := if bit v 47 then frondStart s rq i else s
    if bit v 46 && (frondState s i = 1 || frondState s i = 2) then
      s.modCore (frondId i) fun k => { k with frame := { k.frame with parkPending := true } }
    else s

/-- A write of TICK_GRP_CTL (R486). -/
def grpCtlWrite (s : State) (rq : Requester) (g : Nat) (v : Word) : State :=
  if bit v 0 then
    let st := regGet s (aGrpStat g)
    if bit st 5 && causePermits (fld st 11 8) then regFld s (aGrpStat g) 4 4 1
    else refuseWrite s rq 9 (aGrpCtl g)
  else s

/-- TMIN_NS and TMAX_NS of the applied image (R69). -/
def tickMin (s : State) : Nat := fld (s.struct.image.tick.getD 0 0) 23 0
def tickMax (s : State) : Nat := fld (s.struct.image.tick.getD 0 0) 47 24

/-- A write of TICK_PERIOD (R82, R461). -/
def tickPeriodWrite (s : State) (rq : Requester) (v : Word) : State :=
  let p := fld v 23 0
  if tickMin s ≤ p && p ≤ tickMax s then
    let old := regF s aTickPeriod 23 0
    let s := plainWrite s aTickPeriod v
    { s with tick := { s.tick with pendingPeriod := s.tick.pendingPeriod ++ [(p, s.now, old)] } }
  else refuseWrite s rq 6 aTickPeriod

/-! ## The frame -/

/-- A core begins its frame in one step (R471, R490). One that is held or checkstopped keeps its registers and executes
nothing (R271, R469). -/
def beginFrame (s : State) (i : Nat) : State :=
  let c := frondId i
  let tick := regGet s aTickCount
  s.modCore c fun k =>
    let resync := k.frame.resyncPending
    let fresh : FrameState := { k.frame with
      fendDone := false, barriers := 0, stopped := false, resyncPending := false, firstDone := false, written := [] }
    if k.run = .held || k.run = .checkstopped then { k with frame := { fresh with resyncPending := resync } }
    else
    let k := if resync then
        { k with g := Core.reset.g, b := Core.reset.b, mul := Core.reset.mul, fcs := Core.reset.fcs, lctl := 0,
                 ls := Core.reset.ls, le := Core.reset.le, lc := Core.reset.lc, cpoly := k.cpoly }
      else k
    { k with
      pc := k.fentry &&& 0x1FFFFFFFFF
      status := w48 (fld k.fstat 11 0)
      lctl := setFld k.lctl 1 0 0
      rsp := k.rslo
      fstat := setBit (setFld k.fstat 47 36 (fld tick 11 0)) 33 resync
      run := .running
      statusQueue := []
      slot := none
      waiting := none
      frame := fresh }

/-- Back and published copies of a group's outputs take the front values (R481). -/
def freshOutputs (s : State) (g : Nat) : State :=
  { s with outs := s.outs.map fun o => if o.group = g then { o with back := o.front, published := o.front } else o }

/-- A core whose init program has ended joins (R467). -/
def joinUnit (s : State) (i : Nat) : State :=
  if (s.core (frondId i)).frame.joinPending then
    (setUnitState s i 2).modCore (frondId i) fun k => { k with frame := { k.frame with joinPending := false } }
  else s

/-- FRAME_START (R464, R471): once after each tick, PHASE_NS after it. -/
def execFrameStart (g : Fin 4) (s : State) : Host.Outcome State Fault Refusal :=
  let phase := regF s (aGrpCfg g.val) 39 24
  let since := (s.tbl - regGet s aTickLast).toNat
  if s.tick.running && regGet s aTickCount ≠ 0 && !s.tick.started.contains g.val && phase ≤ since then
    let s := { s with tick := { s.tick with started := g.val :: s.tick.started } }
    let s := (groupUnits s g.val).foldl joinUnit s
    let s := regFld (freshOutputs s g.val) (aGrpStat g.val) 31 16 0
    .next ((joinedIn s g.val).foldl beginFrame s)
  else .next s

/-- What drives a pad that is an output (R480): its level, or nothing: high impedance. -/
def padDrive (s : State) (pad : Nat) : Option Bool :=
  match s.outs.find? fun o => o.kind = 0 && o.target = pad with
  | some o => if bit o.front 1 then some (bit o.front 0) else none
  | none => none

/-- The outputs a member has written become its published copies (R481). -/
def publish (s : State) (i : Nat) : State :=
  let w := (s.core (frondId i)).frame.written
  { s with outs := s.outs.mapIdx fun n o => if w.contains n then { o with published := o.back } else o }

/-- FEND of a core completes (R473, R491, R499, R500). -/
def fendDone (s : State) (i : Nat) : State :=
  let c := frondId i
  let idle (s : State) (join : Bool) : State := s.modCore c fun k =>
    { k with run := .idle, waiting := none, frame := { k.frame with fendDone := true, joinPending := join } }
  let s := if isPair s (i / 2) then regFld s (aPairStat (i / 2)) 1 0 0 else s
  if frondState s i = 1 then idle s true
  else
    match groupOf s i with
    | none => idle s false
    | some g =>
      let ns := satN 24 (s.tbl - frameStartTbl s g).toNat
      let s := publish s i
      let s := (unitOf s i).foldl (fun s j =>
        let s := regFld (regFld s (aGrpStat g) (16 + j) (16 + j) 1) (aFrondStat j) 23 0 ns
        if regF s (aFrondPeak j) 23 0 < ns then regFld s (aFrondPeak j) 23 0 ns else s) s
      idle s false

/-- FBAR of core i is open (R478): every other joined member has executed as many, or has completed FEND. -/
def barrierOpen (s : State) (i : Nat) : Bool :=
  frondState s i ≠ 2 ||
  match groupOf s i with
  | none => true
  | some g =>
    (joinedIn s g).all fun j =>
      j = i || (s.core (frondId j)).frame.fendDone ||
        (s.core (frondId i)).frame.barriers ≤ (s.core (frondId j)).frame.barriers

/-! ## The deadline (R475, R482 to R487) -/

/-- A joined member that is late: it has not completed FEND, and its pair has not met a mismatch in this frame, which
stopped it (R474, R483, R489). A later frame of a member that is held or checkstopped is late again (R272, R469). -/
def isLate (s : State) (i : Nat) : Bool :=
  let k := s.core (frondId i)
  !k.frame.fendDone && !(k.frame.resyncPending && k.frame.stopped)

/-- What an abandoned frame leaves in flight (R475): an access that waits, which completes at memory and writes no
register. -/
def leftInFlight : Option Waiting → Option Waiting
  | some (.access a) => some (.access { a with fin := .drop })
  | some (.atomicDone a pa) => some (.atomicDone { a with fin := .drop } pa)
  | some (.aperture a ws) => some (.aperture { a with fin := .drop } ws)
  | _ => none

/-- The frame of a core is abandoned (R475, R503). What waits joins what earlier frames left in flight, and issued
multiply-unit writes stay due. A held or checkstopped core keeps
its registers (R271). -/
def abandon (s : State) (i : Nat) : State :=
  let s := s.modCore (frondId i) fun k =>
    if k.run = .held || k.run = .checkstopped then { k with waiting := none, slot := none }
    else
      { k with abandoned := k.abandoned ++ (leftInFlight k.waiting).toList
               waiting := none, slot := none, fstat := setBit k.fstat 32 true, run := .idle }
  (unitOf s i).foldl (fun s j => assertEdge (count (regAddSat s (aFrondStat j) 39 24 1) (16 + j) 0x32) j) s

/-- A joined member at the deadline: abandoned if late, else its frame was on time (R475, R710). -/
def judgeUnit (s : State) (i : Nat) : State :=
  if isLate s i then abandon s i
  else
    let s := s.modCore (frondId i) fun k =>
      if k.run = .held || k.run = .checkstopped then k else { k with fstat := setBit k.fstat 32 false }
    if (s.core (frondId i)).frame.fendDone then (unitOf s i).foldl (fun s j => count s (16 + j) 0x31) s else s

/-- PARK takes effect (R411, R468, R469, R736): a checkstopped core stays so until the Medulla core resets it, and a dead
agent's core until the next module reset; one that the Medulla core has reset already is parked. -/
def parkUnit (s : State) (i : Nat) : State :=
  let k := s.core (frondId i)
  if k.frame.parkPending && (frondState s i = 1 || frondState s i = 2) then
    let stays := k.run = .checkstopped || regB s aCohDead (16 + i)
    (setUnitState s i 0).modCore (frondId i) fun k =>
      { k with run := if stays then k.run else .parked, waiting := none, slot := none, frame := FrameState.reset }
  else s

/-- The deadline of one group at a tick (R482 to R487). -/
def deadline (s : State) (g : Nat) : State :=
  let joined := joinedIn s g
  let mismatch := s.tick.mismatch.contains g
  let late := joined.any (isLate s)
  let complete := !joined.isEmpty && !late && !mismatch
  let st := regGet s (aGrpStat g)
  let s := joined.foldl judgeUnit s
  let ovr := if late then Nat.min (fld st 1 0 + 1) 3 else if complete then 0 else fld st 1 0
  let s := regFld s (aGrpStat g) 1 0 ovr
  let s := if late then regAddSat s (aGrpStat g) 47 32 1 else s
  let s := if complete then assertEdge s (28 + g) else s
  let s := if late && ovr = 3 && fld st 1 0 ≠ 3 then safeGroup s g 1 else s
  let st := regGet s (aGrpStat g)
  let released := bit st 4 && complete
  let s := if released then regSet s (aGrpStat g) (setFld (setFld (setBit (setBit st 5 false) 4 false) 11 8 0) 1 0 0) else s
  let safe := bit (regGet s (aGrpStat g)) 5
  let s := if safe then setFronts s g (·.safe)
    else if mismatch then setFronts s g (·.safe)
    else if late then s
    else if joined.isEmpty then s
    else setFronts s g (·.published)
  let s := regFld s (aGrpStat g) 7 7 (!safe && !mismatch && late).toNat
  let s := regFld s (aGrpStat g) 6 6 (!safe && mismatch).toNat
  let s := regFld s (aGrpStat g) 31 16 0
  let s := (groupUnits s g).foldl parkUnit s
  (joinedIn s g).foldl (fun s i => s.modCore (frondId i) fun k =>
    { k with frame := { k.frame with fendDone := false, barriers := 0, written := [], stopped := true } }) s

/-- SAFE_STATE_ENTRY (R484, R774): the group meets a cause of R484. -/
def execSafeStateEntry (g : Fin 4) (cause : Nat) (s : State) : Host.Outcome State Fault Refusal :=
  if cause = 1 || (3 ≤ cause && cause ≤ 6) then .next (safeGroup s g.val cause) else .next s

/-! ## Lockstep pairs (R488 to R491) -/

/-- LOCKSTEP_MISMATCH (R488, R489): only while the pair executes instructions. -/
def execLockstepMismatch (p : Fin 8) (s : State) : Host.Outcome State Fault Refusal :=
  let i := 2 * p.val
  let c := frondId i
  let k := s.core c
  if isPair s p.val && k.run = .running && !k.frame.fendDone && !k.frame.stopped then
    let s := assertEdge (regAddSat (regAddSat s (aPairStat p.val) 23 8 1) (aPairStat p.val) 1 0 1) (20 + p.val)
    if frondState s i = 1 then
      .next ((setUnitState s i 0).modCore c fun k =>
        { k with run := .parked, waiting := none, slot := none, frame := FrameState.reset })
    else
      let s := s.modCore c fun k => { k with waiting := none, slot := none,
                                             frame := { k.frame with stopped := true, resyncPending := true } }
      match groupOf s i with
      | some g => .next { s with tick := { s.tick with mismatch := g :: s.tick.mismatch } }
      | none => .next s
  else .next s

end Sys2Proof.Machine
end

