-- ==== Sys2Proof/Machine/Sorus.lean ====
section
/-! DEFINITION. Sorus memory (chapter 13): banks and aliases, who may use them, the stored word, set and clear aliases,
twinned banks, output words, and the column and bank records of the Medulla core. -/

namespace Sys2Proof.Machine

open Sys2Proof

/-- Where a Sorus address leads (R505): private Sorus of a core, or the shared pool through an alias (0 normal, 1 set,
2 clear) at an offset. -/
inductive SorusPlace where
  | priv (c off : Nat)
  | shared (alias_ off : Nat)
deriving DecidableEq, Repr

def sorusPlace (a : Nat) : Option SorusPlace :=
  if 0x810000000 ≤ a && a < 0x810040000 then some (.priv ((a - 0x810000000) / 0x4000) (a % 0x4000))
  else if 0x820000000 ≤ a && a < 0x820300000 then some (.shared ((a - 0x820000000) / 0x100000) (a % 0x100000))
  else none

/-- The key under which the word is stored: its normal address. -/
def placeKey : SorusPlace → Nat
  | .priv c o => 0x810000000 + 0x4000 * c + o
  | .shared _ o => 0x820000000 + o

/-- Who asks for a Sorus word. -/
inductive SorusUser where
  | sense
  | ring
  | frond (c : Nat)
  | dma
  | app (pl : Nat)
  | medulla
  | debug
deriving DecidableEq, Repr

/-- The bank is twinned (R526). -/
def bankTwin (s : State) (b : Nat) : Bool := b < 32 && regB s (aSorBankCfg b) 47

/-- The address lies in the upper half of a twinned bank (R518). -/
def upperHalf (s : State) (p : SorusPlace) : Bool :=
  match p with
  | .shared _ o => bankTwin s (o / 0x8000) && 0x4000 ≤ o % 0x8000
  | .priv _ _ => false

/-- The grant of a shared bank (R508). -/
def bankGrants (s : State) (b : Nat) (u : SorusUser) : Bool :=
  let w := regGet s (aSorBankCfg b)
  match u with
  | .sense => bit w 35
  | .ring => bit w 36
  | .frond c => bit w c
  | .dma => bit w 34
  | .app _ => bit w 33
  | .debug => bit w 33
  | .medulla => true

/-- A write to private Sorus of core c is open: the core is parked, retired or held (R509). -/
def privWritable (s : State) (c : Nat) : Bool :=
  regF s (aFrondStat c) 47 46 = 0 || regF s (aFrondStat c) 47 46 = 3 ||
  match coreOfAgent (16 + c) with
  | some k => (s.core k).run = .held
  | none => false

/-- The output whose target is a Sorus word (R480). -/
def outputAt (s : State) (a : Nat) : Option Nat :=
  s.outs.findIdx? fun o => o.kind = 1 && o.target = a

/-- R508 to R510, R518: the access is permitted. -/
def sorusPermits (s : State) (u : SorusUser) (p : SorusPlace) (write : Bool) : Bool :=
  !upperHalf s p &&
  !(write && (outputAt s (placeKey p)).isSome) &&
  match p with
  | .shared _ o => bankGrants s (o / 0x8000) u
  | .priv c _ =>
    match u with
    | .frond f => f = c
    | .app pl => 2 ≤ pl && (!write || privWritable s c)
    | .debug => !write || privWritable s c
    | .medulla => !write || privWritable s c
    | _ => false

/-- What the self-test leaves in a word (R521): zero, or all ones in the upper half of a bank that the applied image
twins. -/
def sorusFill (s : State) (k : Nat) : SorusWord :=
  let o := k - 0x820000000
  let upper := 0x820000000 ≤ k && o / 0x8000 < 32 && 0x4000 ≤ o % 0x8000 &&
    bit (s.struct.image.sorus.getD (o / 0x8000) 0) 47
  ⟨if upper then 0xFFFFFFFFFFFF else 0, false, .good⟩

def sorusRaw (s : State) (k : Nat) : SorusWord := sread (sorusFill s) s.sorus k

/-- Stores a word; a queued write-back of it is cancelled (R515). -/
def sorusPut (s : State) (k : Nat) (w : SorusWord) : State :=
  { s with
    sorus := swrite (sorusFill s) s.sorus k w
    sorusCtl := { s.sorusCtl with writeBacks := s.sorusCtl.writeBacks.filter fun e => e.1 ≠ k } }

/-- The half-array of a key. -/
def keyHalf (k : Nat) : Nat := if 0x820000000 ≤ k then k % 0x8000 / 0x4000 else 0

/-- The bank of a key. -/
def keyBank (k : Nat) : Nat :=
  if 0x820000000 ≤ k then (k - 0x820000000) / 0x8000 else 32 + (k - 0x810000000) / 0x4000

/-- Stores a retirement or soft repair in the settings. -/
def storeSetting (s : State) (t : Retired) : State :=
  { s with mdl := { s.mdl with settings := s.mdl.settings ++ [t] } }

/-- A bank is marked for retirement at the next start-up (R519, R522). A fault in the array of a spare is charged to the
bank that it serves: its counts and columns stand under the retired bank's number, whose STATE 2 no mark replaces. The
manual names no bank for it (R523). DESIGN CHOICE, log entry 173. -/
def markBank (s : State) (n : Nat) : State :=
  if regF s (aSorBankStat n) 47 46 = 0 then
    storeSetting (regFld s (aSorBankStat n) 47 46 1) ⟨5, n, 0, 0, 0, s.mdl.sfmt, 0⟩
  else s

/-- The soft entries of a bank that wait for the next start-up (R522). -/
def softPending (s : State) (n : Nat) : List Retired :=
  s.mdl.settings.filter fun t => t.kind = 4 && t.unit = n && !((upto 4).any fun j =>
    regB s (aSorRepair n j) 47 && regB s (aSorRepair n j) 46 && regF s (aSorRepair n j) 6 6 * 64 +
      regF s (aSorRepair n j) 5 0 = t.col)

/-- A corrected read enters the column's history (R522): the third different word within 24 h makes a column fault, which
needs no second entry while one waits. -/
def noteColumn (s : State) (k col : Nat) : State :=
  let n := keyBank k
  let h := keyHalf k
  let same (e : Nat × Nat × Nat × Nat × Nat) : Bool := e.1 = n && e.2.1 = h && e.2.2.1 = col
  let recent := s.sorusCtl.columns.filter fun e => s.now ≤ e.2.2.2.2 + 86400000000000
  let l := (recent.filter fun e => !(same e && e.2.2.2.1 = k)) ++ [(n, h, col, k, s.now)]
  let fresh := !recent.any fun e => same e && e.2.2.2.1 = k
  let s := { s with sorusCtl := { s.sorusCtl with columns := l } }
  if fresh && (l.filter same).length = 3 then
    let s := regSet s aSorErrLast (mk 47 47 1 ||| mk 46 45 2 ||| mk 44 44 h ||| mk 43 38 col ||| mk 35 0 k)
    let s := assertEdge (logFault s 0x07 n 231 (w48 k) (w48 (h * 64 + col))) 231
    let waiting := softPending s n
    if waiting.any fun t => t.col = h * 64 + col then s
    else if regF s (aSorBankStat n) 39 37 + regF s (aSorBankStat n) 36 34 + waiting.length < 4 then
      recordSoft s n (h * 64 + col)
    else markBank s n
  else s
where
  /-- A soft repair entry enters the settings (R522, R743). -/
  recordSoft (s : State) (n col : Nat) : State :=
    logFault (storeSetting s ⟨4, n, 0, 0, col, s.mdl.sfmt, 0⟩) 0x12 4 231 (w48 col) (w48 n)

/-- One stored word read and decoded under R515: the word, its poison, and the counts. -/
def sorusDecode (s : State) (k : Nat) : Word × Bool × State :=
  let w := sorusRaw s k
  let n := keyBank k
  match w.code with
  | .good => (w.data, w.poison, s)
  | .transient v => (v, w.poison, { s with sorus := swrite (sorusFill s) s.sorus k { w with code := .good } })
  | .oneBit col =>
    let s := regAddSat s (aSorBankStat n) 15 0 1
    let s := { s with sorusCtl := { s.sorusCtl with writeBacks := s.sorusCtl.writeBacks ++ [(k, { w with code := .good })] } }
    (w.data, w.poison, noteColumn s k col)
  | .uncorrectable =>
    let s := regAddSat s (aSorBankStat n) 23 16 1
    let s := regSet s aSorErrLast (mk 47 47 1 ||| mk 35 0 k)
    let s := assertEdge (logFault s 0x08 n 242 (w48 k) 0) 242
    (w.data, true, { s with sorus := swrite (sorusFill s) s.sorus k ⟨w.data, true, .good⟩ })

/-- What a Sorus read delivers: the word, poisoned or not, and whether a twin mismatch persists (R518). -/
structure SorusRead where
  data : Word
  poison : Bool
  mismatch : Bool
deriving DecidableEq, Repr

/-- A persistent twin mismatch of a bank (R518, R519). -/
def sorusMismatch (s : State) (k : Nat) : State :=
  let n := keyBank k
  let s := regAddSat s aSorTwinStat 47 24 1
  let s := regSet s aSorErrLast (mk 47 47 1 ||| mk 46 45 1 ||| mk 35 0 k)
  let s := assertEdge (logFault s 0x06 n 230 (w48 k) 0) 230
  let h := (s.sorusCtl.twins.filter fun e => s.now ≤ e.2 + 86400000000000) ++ [(n, s.now)]
  let s := { s with sorusCtl := { s.sorusCtl with twins := h } }
  if 2 ≤ (h.filter fun e => e.1 = n).length then markBank s n else s

/-- The bad side of a pair is rebuilt at rank 21 and counted (R518). -/
def sorusRebuild (s : State) (k : Nat) (v : Word) : State :=
  let s := regAddSat s aSorTwinStat 23 0 1
  { s with sorusCtl := { s.sorusCtl with
      writeBacks := (s.sorusCtl.writeBacks.filter fun e => e.1 ≠ k) ++ [(k, ⟨v, false, .good⟩)] } }

/-- One read of both halves of a twinned word (R518); `mismatch`: both are good and not complementary. -/
def sorusBoth (s : State) (k : Nat) : SorusRead × State :=
  let (w, pw, s) := sorusDecode s k
  let (c, pc, s) := sorusDecode s (k + 0x4000)
  if pw && pc then (⟨w, true, false⟩, s)
  else if pw then (⟨~~~c, false, false⟩, sorusRebuild s k (~~~c))
  else if pc then (⟨w, false, false⟩, sorusRebuild s (k + 0x4000) (~~~w))
  else (⟨w, false, decide (c ≠ ~~~w)⟩, s)

/-- A read of a twinned word (R518): a mismatch is read again, after which it was a transient, which counts, or persists. -/
def sorusTwinRead (s : State) (k : Nat) : SorusRead × State :=
  let (r, s) := sorusBoth s k
  if !r.mismatch then (r, s)
  else
    let (q, t) := sorusBoth s k
    if q.mismatch then (q, sorusMismatch t k) else (q, regAddSat t aSorTwinStat 23 0 1)

/-- A read of one stored word, both halves in a twinned bank (R515, R518). -/
def sorusReadKey (s : State) (k : Nat) : SorusRead × State :=
  if bankTwin s (keyBank k) && keyBank k < 32 then sorusTwinRead s k
  else
    let (w, p, s) := sorusDecode s k
    (⟨w, p, false⟩, s)

/-- A load of a Sorus word; an output word returns its front copy (R480, R510). -/
def sorusLoad (s : State) (p : SorusPlace) : SorusRead × State :=
  let s := count s 62 0xA0
  match outputAt s (placeKey p) with
  | some i => (⟨(s.outs[i]?.map (·.front)).getD 0, false, false⟩, s)
  | none => sorusReadKey s (placeKey p)

/-- A whole word stored, with its complement in a twinned bank (R514, R518). -/
def sorusWriteWord (s : State) (k : Nat) (v : Word) (poison : Bool) : State :=
  let s := sorusPut s k ⟨v, poison, .good⟩
  if bankTwin s (keyBank k) then sorusPut s (k + 0x4000) ⟨~~~v, poison, .good⟩ else s

/-- The outcome of a store to Sorus. -/
inductive SorusStore where
  | done (s : State)
  | poisoned (s : State)
  | mismatched (s : State)

/-- A store of the bits m of a word through a place (R514, R516 to R519). -/
def sorusStore (s : State) (p : SorusPlace) (v m : Word) : SorusStore :=
  let k := placeKey p
  let s := count s 62 0xA0
  let al := match p with
    | .priv _ _ => 0
    | .shared a _ => a
  if al = 0 && m = 0xFFFFFFFFFFFF then .done (sorusWriteWord s k v false)
  else
    let (r, s) := sorusReadKey s k
    if r.mismatch then .mismatched s
    else if al = 0 then .done (sorusWriteWord s k (maskedWrite r.data v m) r.poison)
    else if r.poison then .poisoned s
    else .done (sorusWriteWord s k (if al = 1 then r.data ||| (v &&& m) else r.data &&& ~~~(v &&& m)) false)

/-- The new word an atomic operation writes, if it writes one (R168). -/
def atomicNew (op : AtomicOp) (old gb gc : Word) : Word :=
  match op with
  | .add => old + gb
  | .swap => gb
  | .cas => if old = gc then gb else old
  | .or => old ||| gb
  | .and => old &&& gb

/-- A store to the report word (R594). -/
def reportStore (s : State) (key : Nat) : State :=
  if key = fld s.touch.ctl 35 0 + 0xFFF then assertEdge (regFld s aTouchStat 0 0 1) 296 else s

/-- A refused write of the sense writer, the touch writer or the ring engine is logged (R480, R508). They are no agents of
R29 and work at no level, so both fields of the record are free values. -/
def engineViolation (s : State) (a : Nat) : State :=
  let (w, s) := s.takeFree
  violation s 8 (fld w 5 0) (fld w 7 6) true a

/-- A write by the sense writer, the touch writer or the ring engine: a bank that does not grant it, the upper half of a
twinned bank and an output word refuse it (R480, R508, R518); else the word is stored whole. Sorus memory whose clock
stands still takes nothing (R57). The touch writer never writes a report word. -/
def sorusEngineWrite (s : State) (u : SorusUser) (a : Nat) (v : Word) : State :=
  match sorusPlace a with
  | some p =>
    if clockStopped s 24 then s
    else if sorusPermits s u p true then reportStore (sorusWriteWord s (placeKey p) v false) (placeKey p)
    else engineViolation s a
  | none => s

/-- Consecutive words that one of them writes. -/
def sorusEngineWrites (s : State) (u : SorusUser) (a : Nat) : List Word → State
  | [] => s
  | w :: ws => sorusEngineWrites (sorusEngineWrite s u a w) u (a + 1) ws

/-- SORUS_WRITE_BACK (R515): bank n performs its oldest queued write-back. -/
def execSorusWriteBack (bank : Fin 48) (s : State) : Host.Outcome State Fault Refusal :=
  if clockStopped s 24 then .next s
  else match s.sorusCtl.writeBacks.find? fun e => keyBank e.1 = bank.val with
  | some e => .next (sorusPut s e.1 e.2)
  | none => .next s

end Sys2Proof.Machine
end

