-- ==== Sys2Proof/Machine/Sense.lean ====
section
/-! DEFINITION. Sense and touch front ends (chapter 15): register writes, the sample latch of a tick, the sense writer,
calibration, faults, and the touch scan. -/

namespace Sys2Proof.Machine

open Sys2Proof

/-- FUNC of a ball in the applied PAD section (R69); 0 is the reset function. -/
def padFunc (s : State) (ball : Nat) : Nat :=
  match s.struct.image.pads.find? fun w => fld w 47 36 = ball with
  | some w => fld w 35 28
  | none => 0

/-- Channel c has its pads (R571): without them it delivers what a disabled channel does. -/
def chanPads (s : State) (c : Nat) : Bool :=
  padFunc s (Config.senseBalls c).1 = 0x50 && padFunc s (Config.senseBalls c).2 = 0x50

/-- Touch line n has its pad (R586). -/
def linePad (s : State) (n : Nat) : Bool := padFunc s (Config.touchBall n) = 0x51

/-- The front end of domain d runs: while the frame tick does, and its units act (R571, R586, R595). -/
def frontRuns (s : State) (d : Nat) : Bool := s.tick.running && unitRuns s d

/-! ## Register writes (R582, R584, R592, R598, R599) -/

/-- The bank at a normal-alias shared-pool address, if it grants SENSE. -/
def senseBankAt (s : State) (a : Nat) : Bool :=
  0x820000000 ≤ a && a < 0x820100000 && bankGrants s ((a - 0x820000000) / 0x8000) .sense

/-- A write of SENSE_CTL (R582, R598). -/
def senseCtlWrite (s : State) (rq : Requester) (v : Word) : State :=
  let v := if fld v 39 36 ≤ 8 then v else setFld v 39 36 (regF s aSenseCtl 39 36)
  let base := fld v 35 0
  let ok := senseBankAt s base && base % (32 * 2 ^ fld v 39 36) = 0
  if bit v 47 && !ok then refuseWrite s rq 9 aSenseCtl else plainWrite s aSenseCtl v

def modChan (s : State) (c : Nat) (f : SenseChan → SenseChan) : State :=
  { s with sense := { s.sense with chans := modAt s.sense.chans c f } }

def modDac (s : State) (d : Nat) (f : DacState → DacState) : State :=
  { s with sense := { s.sense with dacs := modAt s.sense.dacs d f } }

/-- A write of SENSE_CH_CFG (R577, R598). -/
def senseCfgWrite (s : State) (c : Nat) (v : Word) : State :=
  let r := fld v 43 40
  let old := regGet s (aSenseCfg c)
  let w := if r = 0 || 8 ≤ r then v else setFld v 43 40 (fld old 43 40)
  let s := plainWrite s (aSenseCfg c) w
  if bit v 46 && !bit old 36 then modChan (regFld s (aSenseCfg c) 36 36 1) c fun x => { x with calWait := true } else s

/-- The sum of ILIM_MA over the DACs other than d (R580). -/
def otherLimits (s : State) (d : Nat) : Nat :=
  (upto 8).foldl (fun n k => if k = d then n else n + regF s (aExcCfg k) 39 32) 0

/-- A write of SENSE_EXC_CFG (R580, R598). -/
def excCfgWrite (s : State) (rq : Requester) (d : Nat) (v : Word) : State :=
  let old := regGet s (aExcCfg d)
  let v := if fld v 47 46 ≤ 2 then v else setFld v 47 46 (fld old 47 46)
  let v := if fld v 12 0 ≤ 4500 then v else setFld v 12 0 (fld old 12 0)
  let i := fld v 39 32
  if !(1 ≤ i && i ≤ 30) || i ≤ fld old 39 32 then
    plainWrite s (aExcCfg d) (if 1 ≤ i && i ≤ 30 then v else setFld v 39 32 (fld old 39 32))
  else if otherLimits s d + i ≤ 120 then plainWrite s (aExcCfg d) v
  else refuseWrite (plainWrite s (aExcCfg d) (setFld v 39 32 (fld old 39 32))) rq 9 (aExcCfg d)

/-- A write of TOUCH_CTL (R592). -/
def touchCtlWrite (s : State) (rq : Requester) (v : Word) : State :=
  let base := fld v 35 0
  if bit v 47 && !(senseBankAt s base && base % 4096 = 0) then refuseWrite s rq 9 aTouchCtl
  else plainWrite s aTouchCtl v

/-- A field of a written value kept where the new one is out of range (R598, R599). -/
def keepUnless (ok : Bool) (v old : Word) (hi lo : Nat) : Word := if ok then v else setFld v hi lo (fld old hi lo)

/-- A write of TOUCH_CFG (R599). -/
def touchCfgWrite (s : State) (v : Word) : State :=
  let old := regGet s aTouchCfg
  let v := keepUnless (decide (1 ≤ fld v 47 32)) v old 47 32
  let v := keepUnless (decide (50 ≤ fld v 31 23) && decide (fld v 31 23 ≤ 500)) v old 31 23
  let v := keepUnless (decide (1 ≤ fld v 22 16)) v old 22 16
  let v := keepUnless (decide (1 ≤ fld v 15 12)) v old 15 12
  plainWrite s aTouchCfg v

/-- A write of TOUCH_STAT (R599): an FSET without exactly 8 bits is ignored, and the other fields take the write. -/
def touchStatWrite (s : State) (rq : Requester) (v : Word) : State :=
  if popFrom v 24 16 = 8 then plainWrite s aTouchStat v
  else refuseWrite (plainWrite s aTouchStat (setFld v 39 24 (regF s aTouchStat 39 24))) rq 9 aTouchStat

/-! ## The sample latch of a tick (R573 to R579) -/

/-- MODE in force of the DAC that a channel's REF names (R579). -/
def refMode (s : State) (ref : Nat) : Nat :=
  if 8 ≤ ref then fld (s.sense.dacs.getD (ref - 8) DacState.reset).applied 47 46 else 0

/-- VREF of a channel in nanovolts (R572, R579): the internal 2.5 V, or the magnitude of what its DAC measures at its sense
inputs. -/
def vref (s : State) (ref : Nat) : Nat := if 8 ≤ ref then regF s (aExcStat (ref - 8)) 12 0 * 1000000 else 2500000000

/-- Modulator cycles since the previous tick, capped (R573): edges of a 32 MHz clock. -/
def modCycles (s : State) : Nat := Nat.max 1 (Nat.min 65536 (s.now * 4 / 125 - s.sense.lastLatch * 4 / 125))

/-- The binomial n + 2 over 2. -/
def triangle (n : Nat) : Nat := (n + 1) * (n + 2) / 2

/-- The weight of the cycle k cycles before the last in a sinc3 filter of ratio r (R573): three sums over r cycles, one after
another. -/
def sinc3Weight (r k : Nat) : Nat :=
  if k < r then triangle k
  else if k < 2 * r then triangle k - 3 * triangle (k - r)
  else if k ≤ 3 * r - 3 then triangle (3 * r - 3 - k) else 0

/-- The weight in a sinc1 filter over the last n cycles. -/
def sinc1Weight (n k : Nat) : Nat := if k < n then 1 else 0

/-- The sum of a channel's input with the weights of a filter whose total is given; cycles beyond the list had its last value. -/
def filterSum (w : Nat → Nat) (total : Nat) (x : List Int) : Int :=
  let near := x.zipIdx.foldl (fun (a : Int × Nat) e => (a.1 + e.1 * (w e.2 : Int), a.2 + w e.2)) (0, 0)
  near.1 + x.getLastD 0 * ((total - near.2 : Nat) : Int)

/-- The raw result of a channel (R572, R573, R579): the filter over its input, normalised to the number of cycles, as a fraction
of the range VREF / 2^GAIN in counts of 2^-23, and what the front end adds. In MODE 2 of its DAC the filter is sinc1 and leaves
out the first 8 cycles after the reversal. During a calibration the inputs are shorted (R577). With no VREF the modulator has
no range. DESIGN CHOICE, log entry 138. -/
def rawResult (s : State) (cfg : Word) (shorted : Bool) (r : RawSample) : Int :=
  let ref := fld cfg 43 40
  let n := modCycles s
  let x := if shorted then [] else r.input
  let (sum, total) : Int × Nat :=
    if refMode s ref = 2 then (filterSum (sinc1Weight (n - 8)) (n - 8) x, n - 8)
    else if bit cfg 44 then (filterSum (sinc1Weight n) n x, n)
    else (filterSum (sinc3Weight n) (n ^ 3) x, n ^ 3)
  sum * (2 ^ (23 + fld cfg 39 37) : Int) / ((vref s ref * total : Nat) : Int) + r.added

/-- The corrected sample and its overrange (R575). -/
def correct (raw : Int) (cal : Word) : BitVec 24 × Bool :=
  let v := (raw - sgn 24 (fld cal 47 24)) * (fld cal 23 0 : Int) / 4194304
  if v > 0x7FFFFF then (0x7FFFFF, true)
  else if v < -0x7FFFFF then (0x800001, true)
  else (BitVec.ofInt 24 v, false)

/-- Channel c latches at a tick under the configuration in force, and the written configuration comes into force
(R576, R577, R584). A channel whose units do not act delivers what a disabled one does and counts nothing. -/
def latchChan (s : State) (c : Nat) (r : RawSample) : State :=
  let ref := fld ((s.sense.chans.getD c SenseChan.reset).applied) 43 40
  let dacBad := 8 ≤ ref && regB s (aExcStat (ref - 8)) 47
  let on := chanPads s c
  let cal := regGet s (aSenseCal c)
  let cfg := regGet s (aSenseCfg c)
  let s := modChan s c fun x =>
    if !unitRuns s (51 + c / 16) then { x with sample := 0x800000, overrange := false, faultBit := false } else
    let en := bit x.applied 47 && on
    let dark := x.settle < 3 || x.calTicks.isSome || x.fault || dacBad
    let raw := rawResult s x.applied x.calTicks.isSome r
    let (v, ov) := correct raw cal
    let x := if !en then { x with sample := 0x800000, overrange := false, faultBit := false }
      else if dark then { x with sample := 0x800000, overrange := false, faultBit := true }
      else { x with sample := v, overrange := ov || r.overload || vref s ref = 0, faultBit := false }
    let x := match x.calTicks with
      | some n => if n < 64 then { x with calTicks := some (n + 1), calSum := x.calSum + raw } else x
      | none => if x.calWait then { x with calWait := false, calTicks := some 0, calSum := 0 } else x
    let rise := bit cfg 47 && !bit x.applied 47
    { x with settle := if rise then 0 else Nat.min 3 (x.settle + 1), applied := cfg }
  let x := s.sense.chans.getD c SenseChan.reset
  setLine s (256 + c) (x.overrange || x.faultBit)

/-- DAC d at a tick: the window that ends keeps its polarity, the next one starts (R579). -/
def latchDac (s : State) (d : Nat) : State :=
  let cfg := regGet s (aExcCfg d)
  modDac (quiet s d) d fun x =>
    let two (w : Word) : Bool := fld w 47 46 = 2
    { x with slotPolarity := x.polarity, polarity := two cfg && two x.applied && !x.polarity, applied := cfg }
where
  /-- A DAC whose MODE is 0 measures nothing and limits nothing (R598). -/
  quiet (s : State) (d : Nat) : State :=
    if regF s (aExcCfg d) 47 46 = 0 then regFld (regFld s (aExcStat d) 46 32 0) (aExcStat d) 12 0 0 else s

/-- What DAC d drives, in mV (R579, R596): nothing while it is off, high impedance. -/
def dacDrives (s : State) (d : Nat) : Option Int :=
  let x := s.sense.dacs.getD d DacState.reset
  let v : Int := fld x.applied 12 0
  if fld x.applied 47 46 = 0 || clockStopped s (51 + d / 4) then none else some (if x.polarity then -v else v)

/-- Every channel and DAC at a tick (R573); the sense writer has yet to write its slot (R39, R584). -/
def latchSense (s : State) (raw : List RawSample) : State :=
  let s := (upto 32).foldl (fun s c => latchChan s c (raw.getD c ⟨[], 0, false⟩)) s
  let s := (upto 8).foldl latchDac s
  let ctl := regGet s aSenseCtl
  { s with sense := { s.sense with ctl := ctl, unwritten := bit ctl 47, lastLatch := s.now } }

/-! ## The sense writer (R582, R583) -/

/-- The address of the slot of a tick. -/
def slotBase (s : State) : Nat :=
  fld s.sense.ctl 35 0 + 32 * ((regGet s aTickCount).toNat % 2 ^ fld s.sense.ctl 39 36)

/-- Bit c of a status word for each channel. -/
def chanBits (s : State) (f : SenseChan → Bool) : Nat :=
  (upto 32).foldl (fun n c => n + (f (s.sense.chans.getD c SenseChan.reset)).toNat * 2 ^ c) 0

/-- Slot words 0 to 17 (R582). -/
def slotWords (s : State) : List Word :=
  let sample (c : Nat) : BitVec 24 := (s.sense.chans.getD c SenseChan.reset).sample
  let pol := (upto 8).foldl (fun n d => n + ((s.sense.dacs.getD d DacState.reset).slotPolarity).toNat * 2 ^ d) 0
  let flt := (upto 8).foldl (fun n d => n + (regB s (aExcStat d) 47).toNat * 2 ^ d) 0
  (upto 16).map (fun k => ofHalves (sample (2 * k + 1)) (sample (2 * k))) ++
    [mk 47 32 (fld (regGet s aTickCount) 15 0) ||| mk 31 0 (chanBits s (·.overrange)),
     mk 47 40 pol ||| mk 39 32 flt ||| mk 31 0 (chanBits s (·.faultBit))]

/-- SENSE_WRITE (R583): once after each tick while SENSE_CTL.EN is in force. -/
def senseWrite (s : State) : State :=
  if s.sense.unwritten && !clockStopped s 24 then
    let s := sorusEngineWrites s .sense (slotBase s) (slotWords s)
    { s with sense := { s.sense with unwritten := false } }
  else s

/-- A sample word that the writer has not written in the current frame (R39). -/
def sampleUnwritten (s : State) (key : Nat) : Bool :=
  s.sense.unwritten && slotBase s ≤ key && key < slotBase s + 18

/-! ## Calibration and faults (R577, R578, R580) -/

/-- OFFSET_CALIBRATION_END (R577). -/
def execOffsetCalibrationEnd (c : Fin 32) (s : State) : Host.Outcome State Fault Refusal :=
  let x := s.sense.chans.getD c.val SenseChan.reset
  if x.calTicks = some 64 && frontRuns s (51 + c.val / 16) then
    let s := regFld (regFld s (aSenseCal c.val) 47 24 (uns 24 ((x.calSum + 32) / 64))) (aSenseCfg c.val) 36 36 0
    .next (modChan s c.val fun x => { x with calTicks := none, calSum := 0 })
  else .next s

/-- INPUT_FAULT (R578): what one tick finds of a channel's input common mode. -/
def execInputFault (c : Fin 32) (out : Bool) (s : State) : Host.Outcome State Fault Refusal :=
  if !frontRuns s (51 + c.val / 16) then .next s
  else .next (modChan s c.val fun x =>
    if out then
      { x with outCount := Nat.min 4 (x.outCount + 1), inCount := 0, fault := x.fault || 3 ≤ x.outCount }
    else { x with outCount := 0, inCount := Nat.min 4 (x.inCount + 1), fault := x.fault && !(3 ≤ x.inCount) })

/-- A DAC runs at its current limit (R580): i is its current in whole mA, and `lim` decides where that is the limit itself. -/
def dacLimited (cfg : Word) (lim : Bool) (i : Nat) : Bool :=
  decide (fld cfg 39 32 < i) || (decide (i = fld cfg 39 32) && lim)

/-- Its sense voltage is off by more than 2 % (R580): v is in whole mV, and `off` decides where its rounding does not. -/
def dacAstray (cfg : Word) (off : Bool) (v : Nat) : Bool :=
  let set := fld cfg 12 0
  let d := (v - set) + (set - v)
  decide (set + 25 < 50 * d) || (decide (set ≤ 50 * d + 25) && off)

/-- DAC_FAULT (R580): what one tick finds of a DAC, its current i in mA and its sense voltage v in mV; FAULT is set and cleared
after four ticks. It never drives more than its limit. -/
def execDacFault (d : Fin 8) (lim off : Bool) (i v : Nat) (s : State) : Host.Outcome State Fault Refusal :=
  if !s.tick.running then .next s else
  let x := s.sense.dacs.getD d.val DacState.reset
  let on := fld x.applied 47 46 ≠ 0 && !clockStopped s (51 + d.val / 4)
  let lim := dacLimited x.applied lim i
  let bad := on && (lim || dacAstray x.applied off v)
  let nb := if bad then Nat.min 4 (x.bad + 1) else 0
  let nk := if bad then 0 else Nat.min 4 (x.ok + 1)
  let old := regB s (aExcStat d.val) 47
  let fault := if nb = 4 then true else if nk = 4 then false else old
  let s := modDac s d.val fun x => { x with bad := nb, ok := nk }
  let st := mk 47 47 fault.toNat ||| mk 46 46 (on && lim).toNat ||| mk 39 32 (if on then Nat.min i (fld x.applied 39 32) else 0) |||
    mk 12 0 (if on then satN 13 v else 0)
  .next (setLine (regSet s (aExcStat d.val) st) (288 + d.val) fault)

/-! ## Touch (R586 to R594) -/

/-- The active frequencies of an FSET, lowest first (R587). -/
def activeOf (fset : Nat) : List Nat := (upto 16).filter fun k => fset.testBit k

/-- TX lines whose active frequency differs between two FSETs: line 8s + j takes the j-th (R589). -/
def changedTx (a b : Nat) : List Nat :=
  (upto 48).filter fun t => (activeOf a).getD (t % 8) 99 ≠ (activeOf b).getD (t % 8) 99

/-- Source 297 (R591). -/
def touchLine (s : State) : State := setLine s 297 (regF s aTouchStat 3 2 ≠ 0)

/-- SCAN_START (R588): at a tick whose TICK_COUNT is a multiple of the SCAN_TICKS in force. A start that meets a running scan is
skipped and counted. The written TOUCH_CTL and TOUCH_CFG take effect at a start; WATER = 0 clears FILM (R591). -/
def execScanStart (s : State) : Host.Outcome State Fault Refusal :=
  let n := regGet s aTickCount
  let cfg := regGet s aTouchCfg
  let ctl := regGet s aTouchCtl
  if frontRuns s 53 && n ≠ 0 && n ≠ s.touch.lastTick && n.toNat % fld s.touch.cfg 47 32 = 0 then
    let s := { s with touch := { s.touch with lastTick := n } }
    if regB s aTouchStat 1 then .next (regAddSat s aTouchStat 47 40 1)
    else if bit ctl 47 then
      let f := regF s aTouchStat 39 24
      let fresh := if s.touch.lastEn && !s.touch.baseline.isEmpty then changedTx s.touch.fset f else upto 48
      let s := { s with touch := { s.touch with ctl := ctl, cfg := cfg, startTb := s.tbl, freshTx := fresh,
                                                lastEn := true, fset := f } }
      let s := regFld s aTouchStat 1 1 1
      .next (if bit ctl 45 then s
        else touchLine (regFld { s with touch := { s.touch with filmClear := 0 } } aTouchStat 3 3 0))
    else .next { s with touch := { s.touch with lastEn := false } }
  else .next s

/-- A signed 24-bit value that saturates like a sample (R575, R589). -/
def satSample (v : Int) : Int := if v > 0x7FFFFF then 0x7FFFFF else if v < -0x7FFFFF then -0x7FFFFF else v

/-- The values of a scan after its last step (R589, R591). -/
structure ScanResult where
  deltas : List Int
  baseline : List Int
  rx : List Int
  tx : List Int
  film : Nat
deriving DecidableEq, Repr

/-- Deltas of the 3840 nodes against a baseline (R586, R589). -/
def scanDeltas (s : State) (meas : List Int) : List Int :=
  (upto 3840).map fun n =>
    let t := n / 80
    if linePad s t && linePad s (48 + n % 80) && !s.touch.freshTx.contains t then
      satSample (s.touch.baseline.getD n 0 - meas.getD n 0)
    else 0

/-- The film count (R591). -/
def filmCount (thr self : Nat) (deltas rx tx : List Int) : Nat :=
  (upto 3840).foldl (fun k n =>
    if thr ≤ (deltas.getD n 0).natAbs && rx.getD (n % 80) 0 < self && tx.getD (n / 80) 0 < self then k + 1 else k) 0

def scanResult (s : State) (meas selfRx selfTx : List Int) : ScanResult :=
  let water := bit s.touch.ctl 45
  let d := scanDeltas s meas
  let rx := (upto 80).map fun r => if water && linePad s (48 + r) then satSample (selfRx.getD r 0) else 0
  let tx := (upto 48).map fun t => if water && linePad s t then satSample (selfTx.getD t 0) else 0
  ⟨d, [], rx, tx, if water then filmCount (regF s aTouchThr 47 32) (regF s aTouchThr 31 16) d rx tx else 0⟩

/-- FILM and the scans below the count (R591). -/
def nextFilm (s : State) (count : Nat) : Bool × Nat :=
  if !bit s.touch.ctl 45 then (false, 0)
  else if fld s.touch.cfg 22 16 ≤ count then (true, 0)
  else if regB s aTouchStat 3 then
    (if 3 ≤ s.touch.filmClear then (false, 0) else (true, s.touch.filmClear + 1))
  else (false, 0)

/-- The new baseline of each node (R589), with FILM as this scan leaves it. -/
def nextBaseline (s : State) (meas : List Int) (r : ScanResult) (film : Bool) : List Int :=
  let thr := regF s aTouchThr 47 32
  let sh := fld s.touch.cfg 15 12
  (upto 3840).map fun n =>
    let d := r.deltas.getD n 0
    if s.touch.freshTx.contains (n / 80) then meas.getD n 0
    else if d.natAbs < thr && !film then s.touch.baseline.getD n 0 - d / (2 ^ sh : Int)
    else s.touch.baseline.getD n 0

/-- The replacement of a noisy frequency (R590). -/
def replaceNoisy (s : State) (noise : List Nat) : State :=
  let thr := regF s aTouchThr 15 0
  let f := s.touch.fset
  let noisy := (upto 16).map fun k =>
    if f.testBit k && thr < noise.getD k 0 then s.touch.noisy.getD k 0 + 1 else 0
  let idle := (upto 16).filter fun k => !f.testBit k && noise.getD k 0 < thr
  let low := idle.foldl (fun m k => Nat.min m (noise.getD k 0)) thr
  let s := { s with touch := { s.touch with noisy := noisy } }
  let flag := ((upto 16).any fun k => f.testBit k && thr < noise.getD k 0) && idle.isEmpty
  let s := regFld s aTouchStat 2 2 flag.toNat
  match pickOne s ((upto 16).filter fun k => 3 ≤ noisy.getD k 0) with
  | (none, s) => s
  | (some a, s) =>
    match pickOne s (idle.filter fun k => noise.getD k 0 = low) with
    | (none, s) => s
    | (some b, s) =>
      let cur := regF s aTouchStat 39 24
      if cur.testBit a && !cur.testBit b then
        let s := regFld s aTouchStat 39 24 (cur - 2 ^ a + 2 ^ b)
        { s with touch := { s.touch with noisy := s.touch.noisy.set a 0 } }
      else s

/-- Values packed two per word (R592). -/
def packPairs (n : Nat) (l : List Int) : List Word :=
  (upto n).map fun k => ofHalves (BitVec.ofInt 24 (l.getD (2 * k + 1) 0)) (BitVec.ofInt 24 (l.getD (2 * k) 0))

/-- Steps of a scan: listen, six mutual, two self with WATER (R587). -/
def scanSteps (s : State) : Nat := if bit s.touch.ctl 45 then 9 else 7

/-- TOUCH_FRAME_WRITE (R589 to R593): after the last step. -/
def execTouchFrameWrite (meas selfRx selfTx : List Int) (noise : List Nat) (s : State) :
    Host.Outcome State Fault Refusal :=
  let due := scanSteps s * fld s.touch.cfg 31 23 * 1000 ≤ (s.tbl - s.touch.startTb).toNat
  if regB s aTouchStat 1 && due && frontRuns s 53 then
    let r := scanResult s meas selfRx selfTx
    let (film, clear) := nextFilm s r.film
    let base := nextBaseline s meas r film
    let k := s.touch.scan
    let f := s.touch.fset
    let s := replaceNoisy s noise
    let s := regFld s aTouchStat 3 3 film.toNat
    let area := fld s.touch.ctl 35 0 + 0x800 * (k % 2)
    let header := mk 47 32 k ||| mk 31 16 f ||| mk 3 3 film.toNat ||| mk 2 2 (regF s aTouchStat 2 2) |||
      mk 1 1 (fld s.touch.ctl 46 46) ||| mk 0 0 (fld s.touch.ctl 45 45)
    let s := sorusEngineWrites s .sense (area + 1) ([s.touch.startTb, w48 r.film, 0] ++ packPairs 1920 r.deltas ++
      packPairs 40 r.rx ++ packPairs 24 r.tx)
    let s := sorusEngineWrite s .sense area header
    let s := { s with touch := { s.touch with baseline := base, filmClear := clear, scan := k + 1, freshTx := [] } }
    let s := regFld (regFld s aTouchStat 23 8 k) aTouchStat 1 1 0
    .next (touchLine s)
  else .next s

end Sys2Proof.Machine
end

