-- ==== Sys2Proof/Machine/Wire.lean ====
section
/-! DEFINITION. The wire of the Bellaos ring: check words (R535), the layout of a frame (R533, R534), blocks, lanes and the
scrambler (R530, R531), LINK blocks and their parities (R545), and the ports that send (R554, R569). -/

namespace Sys2Proof.Machine

open Sys2Proof

/-! ## Ports -/

def ringPort (s : State) (p : Nat) : RingPort := s.ring.ports.getD p RingPort.reset

def modRing (s : State) (f : Ring → Ring) : State := { s with ring := f s.ring }

def modRingPort (s : State) (p : Nat) (f : RingPort → RingPort) : State :=
  modRing s fun r => { r with ports := modAt r.ports p f }

/-- This node's ring address (R564). -/
def nodeNum (s : State) : Nat := regF s aRingCfg 47 36

/-- RING_STAT.STATE (R554). -/
def ringState (s : State) : Nat := regF s aRingStat 47 45

def linkUp (s : State) (p : Nat) : Bool := regB s (aRingPort p) 7

/-- The transmit domain of a port runs (R48, R57). -/
def portSends (s : State) (p : Nat) : Bool := !s.sys.held.contains (34 + p)

/-- A receive lane of a port runs (R48, R57). -/
def portHears (s : State) (p : Nat) : Bool := !(s.sys.held.contains (36 + 2 * p) && s.sys.held.contains (37 + 2 * p))

/-- The live lanes of a port (R569). -/
def liveLanes (s : State) (p : Nat) : Nat := (regB s (aRingPort p) 4).toNat + (regB s (aRingPort p) 5).toNat

/-- The blocks that leave in one entry of outBlocks: a wake pattern has 4096 (R562). -/
def RingOut.blocks (o : RingOut) : Nat := if o.type = 0x20 then 4096 else 1

/-- A control block leaves by a port outside a frame, at a time; TRAIN and WAKE have a lane of their own (R532, R562). It
counts as sent (R713, R719). -/
def sendBlockAt (s : State) (p type a b : Nat) (lane : Option Nat) (time : Nat) : State :=
  if !portSends s p then s
  else
    let o : RingOut := ⟨p, type, a, b, lane, time⟩
    let s := modRing s fun r => { r with outBlocks := r.outBlocks ++ [o] }
    bwAdd (count s (56 + p) 0x60 o.blocks) (24 + 2 * p) o.blocks

/-- A control block that arrived outside a frame counts as received (R719), and IDLE blocks do not. DESIGN CHOICE, log entry
183. -/
def hearBlock (s : State) (p : Nat) : State := bwAdd s (25 + 2 * p) 1

/-- When the port next sends IDLE blocks, in whose place a control block can leave. -/
def idleAt (s : State) (p : Nat) : Nat := Nat.max s.now (ringPort s p).busyTo

/-- A control block leaves by a port in the place of an IDLE block (R532). -/
def sendBlock (s : State) (p type a b : Nat) : State := sendBlockAt s p type a b none (idleAt s p)

/-- A DLY_REQ leaves by a port (R550); a SEQ that comes round again names the newer request. -/
def sendDly (s : State) (p time : Nat) : State :=
  let q := (ringPort s p).dlySeq
  modRingPort (sendBlockAt s p 0x11 q.toNat 0 none time) p fun x =>
    { x with dlySeq := q + 1, dlyOpen := q :: x.dlyOpen.filter (· ≠ q) }

/-- The lanes of a port that its training uses (R555, R559): enabled and not retired. -/
def trainLanes (s : State) (p : Nat) : List Nat :=
  (upto 2).filter fun k => (regF s aRingCfg (31 + 2 * p) (30 + 2 * p)).testBit k && !(regF s (aRingPort p) 3 2).testBit k

/-- A port trains its link (R554, R555): a TRAIN block carries its lane's number on each lane. -/
def trainPort (s : State) (p : Nat) : State :=
  let l := trainLanes s p
  modRingPort (l.foldl (fun s k => sendBlockAt s p 0x10 k 0 (some k) s.now) s) p fun x => { x with training := !l.isEmpty }

/-- No port trains: the node has left state 1 (R554). -/
def trained (s : State) : Bool := s.ring.ports.all fun x => !x.training

/-! ## Check words (R535) -/

/-- The words that the check of a section covers: those before the check word, the fill word of a process section too. -/
def covered (x : Section) : List Word := if x.words.length = 32 then x.words ++ [x.fill.setWidth 48] else x.words

/-- The check word of a section with a number. -/
def checkOf (n : Nat) (l : List Word) : Word := mk 47 32 n ||| mk 31 0 (crc32c l)

/-- The stomped check word. -/
def stompOf (n : Nat) (l : List Word) : Word := mk 47 32 n ||| mk 31 0 (0xFFFFFFFF ^^^ crc32c l)

/-- The section number that a check word names. -/
def sectionNumber (x : Section) : Nat := fld x.check 47 32

/-- The check of section number n is right: its content can be trusted. -/
def sectionGood (n : Nat) (x : Section) : Bool := x.check = checkOf n (covered x)

def sectionStomped (n : Nat) (x : Section) : Bool := x.check = stompOf n (covered x)

/-- The check is wrong, and not stomped (R546). -/
def sectionBad (n : Nat) (x : Section) : Bool := !sectionGood n x && !sectionStomped n x

/-- The section with its check recomputed. -/
def sealSection (n : Nat) (x : Section) : Section := { x with check := checkOf n (covered x) }

/-- The section with its check stomped. -/
def stompSection (n : Nat) (x : Section) : Section := { x with check := stompOf n (covered x) }

/-- A section found bad leaves with its check stomped (R546). -/
def stompBad (n : Nat) (x : Section) : Section := if sectionBad n x then stompSection n x else x

/-! ## Frame layout (R533 to R536) -/

/-- S: the process sections (R536). -/
def secsOf (values twins : Nat) : Nat := (values + twins + 31) / 32

/-- W: the blocks of a frame (R533). -/
def frameBlocks (fr : RingFrame) : Nat :=
  8 + 35 * (secsOf fr.values fr.twins + fr.rtx) + 18 * fr.cells.length

/-- b: what a block takes in a paced and in an unpaced frame, in ns (R547). -/
def blockNs (fr : RingFrame) : Nat := if fr.pace then 4 else 2

/-- The word position of process value i (R536). -/
def valuePos (fr : RingFrame) (i : Nat) : Nat := if i < fr.twins then 2 * i else fr.twins + i

/-- The words of the header section (R534). -/
def headerWords (fr : RingFrame) : List Word :=
  [fr.tickCount,
   mk 47 36 fr.master ||| mk 35 24 fr.hops ||| mk 23 0 fr.accDelay,
   mk 47 47 fr.acting.toNat ||| mk 46 46 fr.wrapped.toNat ||| mk 45 45 fr.mpassed.toNat ||| mk 44 44 fr.narrow.toNat |||
     mk 43 43 fr.pace.toNat ||| mk 42 40 1 ||| mk 39 39 fr.west.toNat ||| mk 38 38 fr.hov.toNat ||| mk 35 24 fr.hnode |||
     mk 23 0 fr.periodNs,
   mk 47 36 fr.values ||| mk 35 24 fr.twins ||| mk 23 16 fr.cells.length ||| mk 15 12 fr.rtx]

/-- The header section of a copy (R534, R535). -/
def headerSection (fr : RingFrame) : Section := ⟨headerWords fr, 0, fr.headerCheck⟩

/-- A change of the header keeps its check good where it was good, and leaves it stomped where it was not (R535, R546). -/
def editHeader (fr : RingFrame) (f : RingFrame → RingFrame) : RingFrame :=
  let x := f fr
  { x with headerCheck :=
      if sectionGood 0 (headerSection fr) then checkOf 0 (headerWords x) else stompOf 0 (headerWords x) }

/-- A copy under the header that words H0 to H3 give (R534); the header in its place stays a bad one. -/
def withHeader (fr : RingFrame) (l : List Word) : RingFrame :=
  let h1 := l.getD 1 0
  let h2 := l.getD 2 0
  let h3 := l.getD 3 0
  let x := { fr with
    tickCount := l.getD 0 0
    master := fld h1 47 36, hops := fld h1 35 24, accDelay := fld h1 23 0
    acting := bit h2 47, wrapped := bit h2 46, mpassed := bit h2 45, narrow := bit h2 44, pace := bit h2 43
    west := bit h2 39, hov := bit h2 38, hnode := fld h2 35 24, periodNs := fld h2 23 0
    values := fld h3 47 36, twins := fld h3 35 24, rtx := fld h3 15 12 }
  { x with headerCheck := stompOf 0 (headerWords x) }

/-- A message cell as the section of its words (R542): the cell header and 15 payload words, the unused ones zero. -/
def cellSection (c : Cell) : Section :=
  ⟨(mk 47 47 c.full.toNat ||| mk 46 35 c.dst ||| mk 34 23 c.src ||| mk 22 15 c.chan ||| mk 14 11 c.words.length |||
    mk 10 0 c.seq) :: (c.words ++ List.replicate (15 - c.words.length) 0), 0, c.check⟩

/-- The cell that a section of words holds (R542). -/
def sectionCell (x : Section) : Cell :=
  let h := x.words.getD 0 0
  ⟨bit h 47, fld h 46 35, fld h 34 23, fld h 22 15, fld h 10 0, (x.words.drop 1).take (fld h 14 11), x.check⟩

/-- A cell with its check recomputed for its place. -/
def sealCell (n : Nat) (c : Cell) : Cell := { c with check := checkOf n (covered (cellSection c)) }

/-- A bad cell leaves with its check stomped (R546). -/
def stompCell (n : Nat) (c : Cell) : Cell := { c with check := (stompBad n (cellSection c)).check }

/-- The sections of a copy by number (R535): the header, the process sections, the cells. -/
def numbered (fr : RingFrame) : List (Nat × Section) :=
  (0, headerSection fr) :: (fr.sections.zipIdx.map fun e => (e.2 + 1, e.1)) ++
    fr.cells.zipIdx.map fun e => (e.2 + 1 + fr.sections.length, cellSection e.1)

/-- The sections in the retransmit slots of a copy, by the number that each names. -/
def slotted (fr : RingFrame) : List (Nat × Section) := fr.retrans.filterMap fun o => o.map fun x => (sectionNumber x, x)

/-- Every bad section of a copy leaves with its check stomped, those of the retransmit slots too (R546). -/
def stompAll (fr : RingFrame) : RingFrame :=
  { fr with
    headerCheck := (stompBad 0 (headerSection fr)).check
    sections := fr.sections.zipIdx.map fun e => stompBad (e.2 + 1) e.1
    cells := fr.cells.zipIdx.map fun e => stompCell (e.2 + 1 + fr.sections.length) e.1
    retrans := fr.retrans.map fun o => o.map fun x => stompBad (sectionNumber x) x }

/-! ## Blocks (R530, R532, R533) -/

/-- A data block before scrambling: one word. -/
def dataBlock (w : Word) : Block := ⟨1, w⟩

/-- A control block before scrambling: its type and payload. -/
def controlBlock (type payload : Nat) : Block := ⟨2, mk 47 40 type ||| mk 39 0 payload⟩

/-- The control types of R532. -/
def controlTypes : List Nat := [0x00, 0x01, 0x02, 0x03, 0x10, 0x11, 0x12, 0x20, 0x21]

/-- A control block that leaves outside a frame (R532). -/
def RingOut.block (o : RingOut) : Block :=
  controlBlock o.type (match o.type with
    | 0x12 => o.a * 2 ^ 16 + o.b
    | 0x20 => o.a * 2 ^ 28
    | 0x21 => o.a * 2 ^ 28 + o.b * 2 ^ 27
    | _ => o.a)

/-- The data blocks of a section: its words and its check word. -/
def sectionBlocks (x : Section) : List Block := (covered x ++ [x.check]).map dataBlock

/-- The 34 blocks of a retransmit slot before its LINK: an empty slot and what a section leaves of one hold zero words. -/
def slotBlocks (o : Option Section) : List Block :=
  let l := match o with
    | some x => sectionBlocks x
    | none => []
  l ++ List.replicate (34 - l.length) (dataBlock 0)

/-- The blocks of a copy in order before scrambling (R533); none stands where a LINK block goes. -/
def copyItems (fr : RingFrame) : List (Option Block) :=
  let part (l : List Block) : List (Option Block) := l.map some ++ [none]
  some (controlBlock 0x01 0) :: part (sectionBlocks (headerSection fr)) ++ fr.sections.flatMap (part ∘ sectionBlocks) ++
    fr.cells.flatMap (part ∘ sectionBlocks ∘ cellSection) ++ fr.retrans.flatMap (part ∘ slotBlocks) ++
    [some (controlBlock 0x02 0)]

/-- The places of the LINK blocks in a copy, in blocks from SOF (R533). -/
def linkPlaces (fr : RingFrame) : List Nat :=
  let n := fr.sections.length
  let c := fr.cells.length
  6 :: (upto n).map (fun k => 41 + 35 * k) ++ (upto c).map (fun k => 24 + 35 * n + 18 * k) ++
    (upto fr.retrans.length).map fun k => 41 + 35 * n + 18 * c + 35 * k

/-! ## Lanes, scrambler and parity (R530, R531, R545) -/

/-- One payload bit through the scrambler 1 + x^39 + x^58, whose last 58 line bits are st, the latest in bit 0. -/
def scrambleBit (st : BitVec 58) (b : Bool) : Bool := (b != st.getLsbD 38) != st.getLsbD 57

/-- A payload through the scrambler, bit 0 first: the line bits, and the scrambler after them. The manual names no order of the
bits of a payload. DESIGN CHOICE, log entry 181. -/
def scramble (st : BitVec 58) (p : Word) : Word × BitVec 58 :=
  (upto 48).foldl (fun a i =>
    let b := scrambleBit a.2 (p.getLsbD i)
    (setBit a.1 i b, (a.2 <<< 1) ||| (if b then 1 else 0))) (0, st)

/-- Line bits through the descrambler, bit 0 first: the payload, and the 58 line bits that it holds after them. -/
def descramble (st : BitVec 58) (p : Word) : Word × BitVec 58 :=
  (upto 48).foldl (fun a i =>
    let b := p.getLsbD i
    (setBit a.1 i (scrambleBit a.2 b), (a.2 <<< 1) ||| (if b then 1 else 0))) (0, st)

/-- The interleaved parity of a payload (R545): bit i of payload bits j with j mod 8 = i. -/
def parity8 (p : Word) : BitVec 8 := (upto 6).foldl (fun a k => a ^^^ p.extractLsb' (8 * k) 8) 0

/-- The parity of the blocks of a lane. -/
def laneParity (l : List Block) : BitVec 8 := l.foldl (fun a b => a ^^^ parity8 b.payload) 0

/-- The sync errors among blocks that a lane received (R530, R532): sync header 00 or 11, or an unlisted control type. -/
def syncErrors (st : BitVec 58) : List Block → Nat
  | [] => 0
  | b :: t =>
    let d := descramble st b.payload
    let bad := b.sync = 0 || b.sync = 3 || (b.sync = 2 && !controlTypes.contains (fld d.1 47 40))
    bad.toNat + syncErrors d.2 t

/-- The errors that a lane counts at a LINK block (R545, R559): sync errors, and each parity bit that differs. -/
def laneFaults (x : LaneIn) : Nat :=
  let e := x.bip ^^^ laneParity x.blocks
  syncErrors x.before x.blocks + ((upto 8).filter fun i => e.getLsbD i).length

/-- The lane that carries block k of a stream (R531). -/
def laneOf (live : BitVec 2) (k : Nat) : Nat := if live = 3 then k % 2 else if live = 1 then 0 else 1

/-- The payload of a LINK block (R532): the parities of the live lanes, the request, and LRET. -/
def linkPayload (live : BitVec 2) (b0 b1 : BitVec 8) (l : LinkOut) : Nat :=
  (if live.getLsbD 0 then b0.toNat else 0) * 2 ^ 32 + (if live.getLsbD 1 then b1.toNat else 0) * 2 ^ 24 +
    l.nak.isSome.toNat * 2 ^ 23 + l.nak.getD 0 % 2 ^ 11 * 2 ^ 12 + l.lret.toNat * 2 ^ 10

/-- The blocks on the wire from block k on, each with its lane: c holds the scramblers and the parities so far, and the
LINK blocks still to come. A LINK block is covered by no parity. -/
def wireFrom (c : SentCopy) (k : Nat) : List (Option Block) → List (Nat × Block)
  | [] => []
  | o :: t =>
    let n := laneOf c.live k
    let b := o.getD (controlBlock 0x03 (linkPayload c.live c.bip0 c.bip1 (c.links.headD ⟨none, 0⟩)))
    let r := scramble (if n = 0 then c.scr0 else c.scr1) b.payload
    let c := if n = 0 then { c with scr0 := r.2 } else { c with scr1 := r.2 }
    let c := match o with
      | none => { c with bip0 := 0, bip1 := 0, links := c.links.tail }
      | some _ => if n = 0 then { c with bip0 := c.bip0 ^^^ parity8 r.1 } else { c with bip1 := c.bip1 ^^^ parity8 r.1 }
    (n, ⟨b.sync, r.1⟩) :: wireFrom c (k + 1) t

/-- What a sent copy put on the lanes of its port, block by block. -/
def SentCopy.wire (c : SentCopy) : List (Nat × Block) := wireFrom c 0 (copyItems c.frame)

/-- When block k of a sent copy leaves. -/
def SentCopy.leaves (c : SentCopy) (k : Nat) : Nat := c.start + blockNs c.frame * k

/-- When the section of retransmit slot j of a sent copy begins to leave. -/
def SentCopy.slotLeaves (c : SentCopy) (j : Nat) : Nat :=
  c.leaves (7 + 35 * c.frame.sections.length + 18 * c.frame.cells.length + 35 * j)

/-- The LINK blocks of a sent copy that leave from a time on go through f. -/
def SentCopy.editLinks (c : SentCopy) (now : Nat) (f : LinkOut → LinkOut) : SentCopy :=
  { c with links := (c.links.zip (linkPlaces c.frame)).map fun e => if now ≤ c.leaves e.2 then f e.1 else e.1 }

/-- The first LINK block that leaves from a time on without a request gets one; none where no such block is left. -/
def SentCopy.ask (c : SentCopy) (now sec : Nat) : Option SentCopy :=
  ((c.links.zip (linkPlaces c.frame)).findIdx? fun e => now ≤ c.leaves e.2 && e.1.nak.isNone).map fun j =>
    { c with links := modAt c.links j fun l => { l with nak := some sec } }

/-- The newest copy that a port sent goes through f, which may decline. -/
def editNewest (f : SentCopy → Option SentCopy) (p : Nat) : List SentCopy → Option (List SentCopy)
  | [] => none
  | c :: t => if c.port = p && !(t.any fun d => d.port = p) then (f c).map (· :: t) else (editNewest f p t).map (c :: ·)

/-- A section is asked for in the next LINK block that the port sends (R546): of the copy that is leaving by it, else of the
next. DEDUCED, log entry 181. -/
def askSection (s : State) (p sec : Nat) : State :=
  match editNewest (fun c => c.ask s.now sec) p s.ring.outFrames with
  | some l => modRing s fun r => { r with outFrames := l }
  | none => modRingPort s p fun x => { x with nak := x.nak ++ [sec] }

end Sys2Proof.Machine
end

