-- ==== Sys2Proof/Machine/Pinna.lean ====
section
/-! DEFINITION. The pinna engine (chapter 16): instances and their states, queue records and their transfers, the two
stages of address translation, freeze, save and restore, and migration over ring channel 1. -/

namespace Sys2Proof.Machine

open Sys2Proof

/-! ## Records and instances -/

def pinInst (s : State) (i : Nat) : PinnaInst := s.pinna.insts.getD i PinnaInst.reset

def modInst (s : State) (i : Nat) (f : PinnaInst → PinnaInst) : State :=
  { s with pinna := { s.pinna with insts := modAt s.pinna.insts i f } }

def pinQ (s : State) (q : Nat) : QueueState := s.pinna.queues.getD q QueueState.reset

def modQ (s : State) (q : Nat) (f : QueueState → QueueState) : State :=
  { s with pinna := { s.pinna with queues := modAt s.pinna.queues q f } }

/-- STATE of an instance (R611): 0 Off, 1 Run, 2 Freeze pending, 3 Frozen, 4 Restored, 5 Error. -/
def pinState (s : State) (i : Nat) : Nat := regF s (aInstStat i) 47 45

def setPinState (s : State) (i st : Nat) : State := regFld s (aInstStat i) 47 45 st

def setErr (s : State) (i e : Nat) : State := regFld s (aInstStat i) 39 36 e

/-- The PINNA entry of the applied image (R69). -/
def pinEntry (s : State) (i : Nat) : Word := s.struct.image.pinna.getD i 0

/-- The image grants instance i the class (R601). -/
def classGranted (s : State) (i c : Nat) : Bool := bit (pinEntry s i) (8 + c)

/-- MAXQ and MAXDESC in force since the instance's setup (R612). -/
def maxQ (s : State) (i : Nat) : Nat := fld (pinInst s i).limit 47 40
def maxDesc (s : State) (i : Nat) : Nat := fld (pinInst s i).limit 39 24

def qEn (s : State) (q : Nat) : Bool := regB s (aQCfg q) 47
def qRx (s : State) (q : Nat) : Bool := regB s (aQCfg q) 46
def qClass (s : State) (q : Nat) : Nat := regF s (aQCfg q) 45 44
def qInst (s : State) (q : Nat) : Nat := regF s (aQCfg q) 43 38
def qLocal (s : State) (q : Nat) : Nat := regF s (aQCfg q) 37 30
def qUnit (s : State) (q : Nat) : Nat := regF s (aQCfg q) 29 22
def qStash (s : State) (q : Nat) : Bool := regB s (aQCfg q) 21
def qScore (s : State) (q : Nat) : Nat := regF s (aQCfg q) 20 17
def qLog (s : State) (q : Nat) : Nat := regF s (aQRing q) 3 0

/-- The queue record of local queue j of instance i (R615). -/
def queueOf (s : State) (i j : Nat) : Option Nat := (upto 256).find? fun q => qEn s q && qInst s q = i && qLocal s q = j

/-- The queue records that instance i holds. -/
def queuesOf (s : State) (i : Nat) : List Nat := (upto 256).filter fun q => qEn s q && qInst s q = i

/-- An enabled queue of a running instance that has not stopped (R605, R611). -/
def qRuns (s : State) (q : Nat) : Bool := qEn s q && pinState s (qInst s q) = 1 && !(pinQ s q).stopped

/-- Descriptors posted and not yet taken by a transfer (R607). -/
def qPosted (s : State) (q : Nat) : Bool :=
  let x := pinQ s q
  (x.tail + 65536 - x.head) % 65536 > x.flights.length

/-- Source 64 + i (R628). -/
def pinLine (s : State) (i : Nat) : State :=
  setLine s (64 + i) (pinState s i = 1 && fld (regGet s (aPage i + 1)) 2 0 &&& fld (regGet s (aPage i + 2)) 2 0 ≠ 0)

/-- A cause bit of an instance is set (R627). -/
def pinCause (s : State) (i n : Nat) : State := pinLine (regFld s (aPage i + 1) n n 1) i

/-- A frame, slot or message of a queue is dropped (R601 to R603, R611). -/
def dropQ (s : State) (q : Nat) (n : Nat := 1) : State :=
  count (modQ s q fun x => { x with drop := satN 16 (x.drop + n) }) 61 0x91 n

/-! ## Translation (R608, R609) -/

/-- The two stages of an instance, in the form that the walker of chapter 9 takes. -/
def pinCore (s : State) (i : Nat) : Core :=
  let s1 := regGet s (aPage i + 3)
  let v := regF s (aInstCfg i) 47 36
  { Core.reset with
    ptb1 := mk 47 24 (fld s1 47 24) ||| mk 0 0 (fld s1 0 0), asid := w48 (fld s1 23 8)
    ptb2 := regGet s (aInstS2 i), vmid := w48 v, status := 0x1000 }

def pinRegime (s : State) (i : Nat) : Regime :=
  let k := pinCore s i
  ⟨false, bit k.ptb1 0, bit k.ptb2 0, some (fld k.vmid 11 0)⟩

/-- The outcome of one engine access. -/
inductive PinAt where
  | ok (s : State) (pa : Nat)
  | bad (s : State)
  | wait (s : State)

/-- A read needs R, a write needs W; U and X are ignored (R608). -/
def pinStageOk (write : Bool) (p : Option StagePerm) : Bool :=
  match p with
  | some q => if write then leafW q.entryVal else leafR q.entryVal
  | none => true

/-- The final type of a translation, if the region permits it and the engine may use it (R608). -/
def pinType (s : State) (pa : Nat) (s1 s2 : Option StagePerm) : Option MemType :=
  let ty (p : Option StagePerm) : Option MemType := p.map fun q => leafType q.entryVal
  let given := match ty s1, ty s2 with
    | none, none => none
    | a, b => some (combineTypes (a.getD .writeBack) (b.getD .writeBack))
  let t := match given with
    | some t => t
    | none => match regionOf s pa with
      | .dram => some (if isTwin s pa then .twinned else .writeBack)
      | .registers => none
      | .sorus => some .uncached
      | _ => none
  match t with
  | some t =>
    if regionPermits s pa t && (t = .writeBack || t = .writeThrough || t = .uncached || t = .twinned) &&
        !(regionOf s pa = .dram && memTop s ≤ pa) then some t else none
  | none => none

/-- A stage-2 failure is logged against the instance, once for each access (R393, R608). -/
def pinFail (s : State) (i q : Nat) (va : Word) (e : Exc) : State :=
  if e.cls = 0x13 || e.cls = 0x14 then
    (jobOnce s (2 ^ 48 + va.toNat) (w48 q) (w48 e.cls) fun s => (mkMsg .Cmp 33 0, logFault s 0x18 i 0 va (w48 q))).2
  else s

/-- A failed combination or region check, which under two stages is a stage-2 permission fault (R347, R349). A type that the
region permits and the engine may not use is a failure of neither stage (R608). -/
def pinLate (s : State) (i : Nat) (va : Word) (gpa pa : Nat) (s1 s2 : Option StagePerm) : Option Exc :=
  match lateChecks s (pinRegime s i) va 1 gpa pa 3 (stageType s1) (stageType s2) with
  | .error e => some e.1
  | .ok _ => none

/-- What the leaves found give: the address, or the failure of a stage. -/
def pinJudge (s : State) (i q : Nat) (va : Word) (write : Bool) (s1 s2 : Option StagePerm) : PinAt :=
  let gpa := match s1 with
    | some p => leafOut p.level p.entryVal va.toNat
    | none => va.toNat
  let pa := match s2 with
    | some p => leafOut p.level p.entryVal gpa
    | none => gpa
  if !pinStageOk write s1 then .bad s
  else if !pinStageOk write s2 then .bad (pinFail s i q va (permFault2 1 3 false 1 gpa))
  else match pinType s pa s1 s2 with
    | some _ => .ok s pa
    | none => .bad (match pinLate s i va gpa pa s1 s2 with
      | some e => pinFail s i q va e
      | none => s)

/-- Puts an entry into the translation cache of 256 (R609); which entry leaves a full one the manual does not say. -/
def pinCachePut (s : State) (e : Nat × TlbEntry) : State :=
  if s.pinna.cache.length < 256 then { s with pinna := { s.pinna with cache := e :: s.pinna.cache } }
  else
    let (w, s) := s.takeFree
    { s with pinna := { s.pinna with cache := e :: s.pinna.cache.eraseIdx (w.toNat % 256) } }

/-- The leaves of both stages for an address, each walked where its stage is enabled (R335 to R340, R608). A stage-1
permission failure comes before the stage-2 walk (R276). -/
def pinLeaves (s : State) (i : Nat) (va : Word) (kind : Nat) :
    Walk (Option StagePerm × Option StagePerm × List StagePerm) :=
  let k := pinCore s i
  let r := pinRegime s i
  let first : Walk (Option StagePerm × List StagePerm) :=
    if r.s1 then (walk1 s k 33 r va kind (fld k.ptb1 47 24) [] 3).andThen fun q s => .ok (some q.1, q.2) s
    else if 2 ^ 36 ≤ va.toNat then .fault (pageFault 2 0 kind va) false s
    else .ok (none, []) s
  first.andThen fun q s =>
    let gpa := match q.1 with
      | some p => leafOut p.level p.entryVal va.toNat
      | none => va.toNat
    if !pinStageOk (kind = 2) q.1 then .fault (permFault kind 3 kind va) false s
    else if r.s2 then (walk2 s 33 false kind gpa (fld k.ptb2 47 24) 3).andThen fun p s => .ok (q.1, some p, q.2) s
    else .ok (q.1, none, q.2) s

/-- The A bits of a translation, and for a write its D bits (R344). -/
def pinBits (s : State) (r : Regime) (write : Bool) (x : Xlate) : Walked :=
  match setUsed s 33 x with
  | .ok s x =>
    match setLeafBits s 33 r 6 x with
    | .ok s x => if write then setLeafBits s 33 r 7 x else .ok s x
    | o => o
  | o => o

/-- A complete walk with its A and D updates and the fill of the translation cache (R344, R608, R609). -/
def pinWalk (s : State) (i q : Nat) (va : Word) (write : Bool) : Nat → PinAt
  | 0 => .wait s
  | n + 1 =>
    let r := pinRegime s i
    match pinLeaves s i va (if write then 2 else 1) with
    | .busy s => .wait s
    | .fault e _ s => .bad (pinFail s i q va e)
    | .ok (s1, s2, used) s =>
      match pinJudge s i q va write s1 s2 with
      | .ok s pa =>
        match pinBits s r write ⟨pa, .writeBack, s1, s2, used⟩ with
        | .wait s => .wait s
        | .again s => pinWalk s i q va write n
        | .fault s e _ => .bad (pinFail s i q va e)
        | .ok s x => .ok (count (pinCachePut s (i, tlbEntryOf (pinCore s i) r va x)) 61 0x92) pa
      | o => o

/-- Translates a word address of an instance (R608). -/
def pinTranslate (s : State) (i q : Nat) (va : Word) (write : Bool) : PinAt :=
  let r := pinRegime s i
  if !r.s1 && !r.s2 then
    if 2 ^ 36 ≤ va.toNat then .bad s else pinJudge s i q va write none none
  else
    let asid := fld (pinCore s i).asid 15 0
    let dirty (p : Option StagePerm) : Bool := match p with
      | some x => leafD x.entryVal
      | none => true
    match s.pinna.cache.find? fun e => e.1 = i && tlbMatch r asid va.toNat e.2 && (!write || (dirty e.2.s1 && dirty e.2.s2)) with
    | some e => pinJudge s i q va write e.2.s1 e.2.s2
    | none => pinWalk s i q va write 2

/-- Every cached translation of an instance goes (R609). -/
def pinFlush (s : State) (i : Nat) : State :=
  { s with pinna := { s.pinna with cache := s.pinna.cache.filter fun e => e.1 ≠ i } }

/-! ## Words in memory -/

/-- An access that its Sorus bank refuses the DMA port: a violation of R508 of the bridge, and STATUS 1. -/
def pinRefused (s : State) (write : Bool) (pa : Nat) : State :=
  (jobOnce s pa 0 (w48 write.toNat) fun s => (mkMsg .Cmp 33 0, rqViolation s 8 .pcieHost write pa)).2

/-- A Sorus word read through the DMA port, once for each access of a job: its value, and 2 if it is poisoned, 3 if it is
mismatched. A bank whose clock stands still answers nothing (R57, R393, R518). -/
def bankRead (s : State) (p : SorusPlace) (a : Nat) : Whole (Word × Nat) :=
  if clockStopped s 24 then .held s
  else
    let (m, s) := jobOnce s (2 ^ 36 + a) 0 0 fun s =>
      let (r, s) := sorusLoad s p
      ({ mkMsg .Data 33 a with word := r.data, fail := if r.poison then 2 else if r.mismatch then 3 else 0 }, s)
    .done (m.word, m.fail) s

/-- The bits m of a Sorus word stored through the DMA port, once for each access of a job: 0, or 2 for a poisoned word and 3
for a mismatched one that the store builds on (R57, R393, R516 to R519). -/
def bankStore (s : State) (p : SorusPlace) (a : Nat) (v m : Word) : Whole Nat :=
  if clockStopped s 24 then .held s
  else
    let (r, s) := jobOnce s (2 ^ 36 + a) v m fun s =>
      match sorusStore s p v m with
      | .done s => (mkMsg .Cmp 33 a, reportStore s (placeKey p))
      | .poisoned s => ({ mkMsg .Cmp 33 a with fail := 2 }, s)
      | .mismatched s => ({ mkMsg .Cmp 33 a with fail := 3 }, s)
    .done r.fail s

/-- A word read by the engine: its value and a STATUS of R605 (R602, R608). -/
def pinRead (s : State) (i q : Nat) (va : Word) : Whole (Word × Nat) :=
  match pinTranslate s i q va false with
  | .wait s => .held s
  | .bad s => .done (0, 1) s
  | .ok s pa =>
    match regionOf s pa with
    | .dram => (bridgeWord s pa).andThen fun w s => .done (w.1, if w.2 = 0 then 0 else 1 + w.2) s
    | .sorus =>
      match sorusPlace pa with
      | some p =>
        if sorusPermits s .dma p false then bankRead s p pa else .done (0, 1) (pinRefused s false pa)
      | none => .done (0, 1) s
    | _ => .done (0, 1) s

/-- Consecutive words read by the engine, in order, up to the first failure. -/
def pinReads (s : State) (i q : Nat) (va : Word) : Nat → List Word → Whole (List Word × Nat)
  | 0, acc => .done (acc.reverse, 0) s
  | n + 1, acc =>
    match pinRead s i q va with
    | .done (w, 0) s => pinReads s i q (va + 1) n (w :: acc)
    | .done (_, st) s => .done (acc.reverse, st) s
    | .held s => .held s

/-- The core that a queue's writes are stashed for (R610). -/
def pinStash (s : State) (q : Nat) : Option Nat := if qRx s q && qStash s q then some (qScore s q) else none

/-- A word written by the engine: a STATUS of R605 (R608, R610). -/
def pinWrite (s : State) (i q : Nat) (va v m : Word) : Whole Nat :=
  match pinTranslate s i q va true with
  | .wait s => .held s
  | .bad s => .done 1 s
  | .ok s pa =>
    match regionOf s pa with
    | .dram => (bridgeMerge s pa v m (pinStash s q)).andThen fun _ s => .done 0 s
    | .sorus =>
      match sorusPlace pa with
      | some p =>
        if sorusPermits s .dma p true then bankStore s p pa v m else .done 1 (pinRefused s true pa)
      | none => .done 1 s
    | _ => .done 1 s

/-- The bits of word k that n bytes fill. -/
def byteMask (n k : Nat) : Word := if 6 * k + 6 ≤ n then 0xFFFFFFFFFFFF else w48 (2 ^ (8 * (n - 6 * k)) - 1)

/-- Packed bytes written from an address on, whole or up to the first failure: STATUS and bytes written. -/
def pinWrites (s : State) (i q : Nat) (va : Word) (n k : Nat) : List Word → Whole (Nat × Nat)
  | [] => .done (0, n) s
  | w :: ws =>
    match pinWrite s i q (va + w48 k) w (byteMask n k) with
    | .done 0 s => pinWrites s i q va n (k + 1) ws
    | .done st s => .done (st, 6 * k) s
    | .held s => .held s

/-! ## Descriptors (R604 to R607) -/

/-- The address of descriptor n of a queue. -/
def descAddr (s : State) (q n : Nat) : Word := setFld (regGet s (aQRing q)) 3 0 0 + w48 (4 * (n % 2 ^ qLog s q))

/-- The descriptor that the next transfer of a queue works on. -/
def nextDesc (s : State) (q : Nat) : Nat := (pinQ s q).head + (pinQ s q).flights.length

/-- The four words of a descriptor, and the STATUS of the first that is bad: a poisoned or mismatched word is read on past,
for the completion needs the others (R605). -/
def descWords (s : State) (i q : Nat) (va : Word) : Nat → List Word → Nat → Whole (List Word × Nat)
  | 0, acc, st => .done (acc.reverse, st) s
  | n + 1, acc, st =>
    match pinRead s i q va with
    | .done (w, e) s =>
      if e = 1 then .done (acc.reverse, 1) s else descWords s i q (va + 1) n (w :: acc) (if st = 0 then e else st)
    | .held s => .held s

/-- A descriptor by its address. -/
def descAt (s : State) (i q : Nat) (at_ : Word) : Whole (List Word × Nat) := descWords s i q at_ 4 [] 0

/-- Descriptor n of a queue. -/
def readDesc (s : State) (i q n : Nat) : Whole (List Word × Nat) := descAt s i q (descAddr s q n)

/-- Words of a descriptor written by their places, in order: the STATUS of a failure. -/
def pinPuts (s : State) (i q : Nat) (at_ : Word) : List (Nat × Word) → Whole Nat
  | [] => .done 0 s
  | p :: ps =>
    (pinWrite s i q (at_ + w48 p.1) p.2 0xFFFFFFFFFFFF).andThen fun st s =>
      (pinPuts s i q at_ ps).andThen fun st' s => .done (Nat.max st st') s

/-- What an RX descriptor of LEN bytes takes of a transfer (R604, R605): STATUS and bytes. -/
def rxTakes (len status : Nat) (bytes : List Byte) : Nat × List Byte :=
  if len = 0 then (4, [])
  else if status ≠ 0 then (status, bytes.take len)
  else if len < bytes.length then (5, bytes.take len)
  else (0, bytes)

/-- The data of an RX transfer reaches its buffer: STATUS and bytes written (R606). -/
def rxData (s : State) (q : Nat) (f : Flight) (d : List Word) (status : Nat) (bytes : List Byte) : Whole (Nat × Nat) :=
  let (status, bytes) := rxTakes (fld (d.getD 1 0) 23 0) status bytes
  if bytes.isEmpty then .done (status, 0) s
  else
    (pinWrites s f.inst q (d.getD 0 0) bytes.length 0 (packBytes bytes)).andThen fun r s =>
      .done (if r.1 = 0 then status else r.1, r.2) s

/-- A queue whose frame has ended has no rest of it to send (R633). -/
def endCut (s : State) (q : Nat) : State :=
  if s.io.ethCut.isEmpty then s else { s with io := { s.io with ethCut := s.io.ethCut.filter fun k => k.q ≠ q } }

/-- A descriptor has completed (R605, R606): HEAD advances, and a failing one stops its queue, whose frames that no
descriptor has taken are dropped. -/
def passHead (s : State) (q : Nat) (f : Flight) (status : Nat) (irq : Bool) : State :=
  let stops := 1 ≤ status && status ≤ 3
  let rest := (pinQ s q).flights.tail
  let s := modQ (endCut s q) q fun x => { x with
    head := (x.head + 1) % 65536, flights := if stops then [] else rest, slots := 0
    stopped := x.stopped || stops, last := if stops then status else x.last }
  let s := if stops && !rest.isEmpty then dropQ s q rest.length else s
  let s := if !f.tx && status = 4 then dropQ s q else s
  let s := count s 61 0x90
  let s := if stops then pinCause s f.inst 1 else s
  if irq then pinCause s f.inst 0 else s

/-- What a transfer writes at its end (R605, R606): the data, D2, D3, then D1 with OWN = 0. The answer is its STATUS and
whether it sets COMP. A descriptor that may not be read or written gives STATUS 1, and one with a bad word the STATUS of
that word and no data. -/
def endDesc (s : State) (q : Nat) (f : Flight) (at_ : Word) (status : Nat) (bytes : List Byte) (done : Nat) :
    Whole (Nat × Bool) :=
  (descAt s f.inst q at_).andThen fun d s =>
    if d.2 = 1 then .done (1, false) s
    else
      let moved := if d.2 ≠ 0 then .done (d.2, if f.tx then done else 0) s
        else if f.tx then .done (status, done) s
        else rxData s q f d.1 status bytes
      moved.andThen fun r s =>
        let aux := match f.aux with
          | some a => if d.2 = 0 then [(2, a)] else []
          | none => []
        let d3 := mk 47 40 r.1 ||| mk 23 0 r.2
        (pinPuts s f.inst q at_ (aux ++ [(3, d3), (1, setBit (d.1.getD 1 0) 47 false)])).andThen fun st s =>
          .done (if st = 0 then r.1 else st, bit (d.1.getD 1 0) 46) s

/-- A transfer ends, and its descriptor has completed (R605, R606). -/
def endFlight (s : State) (q : Nat) (f : Flight) (status : Nat) (bytes : List Byte) (done : Nat) : Whole Unit :=
  (bridgeJob s (jobQueue q) fun s => endDesc s q f (descAddr s q (pinQ s q).head) status bytes done).andThen fun r s =>
    .done () (passHead s q f r.1 r.2)

/-- The limit of a TX transfer's length (R601, R632, R638). -/
def txLenOk (s : State) (q len : Nat) (d2 : Word) : Bool :=
  match qClass s q with
  | 0 => 60 ≤ len && len ≤ 9212
  | 1 => 1 ≤ len && len ≤ 90
  | 2 => 1 ≤ len && len ≤ (if bit d2 33 then 64 else 8)
  | _ => false

/-- The next TX descriptor with its whole buffer (R605): D2, the bytes, and a STATUS. -/
def txFetch (s : State) (q : Nat) : Whole (Word × List Byte × Nat) :=
  bridgeJob s (jobFetch q) fun s =>
  (readDesc s (qInst s q) q (nextDesc s q)).andThen fun d s =>
    let len := fld (d.1.getD 1 0) 23 0
    let d2 := d.1.getD 2 0
    if d.2 ≠ 0 then .done (0, [], d.2) s
    else if !txLenOk s q len d2 then .done (d2, [], 4) s
    else
      (pinReads s (qInst s q) q (d.1.getD 0 0) ((len + 5) / 6) []).andThen fun ws s =>
        .done (d2, if ws.2 = 0 then unpackBytes ws.1 len else [], ws.2) s

/-- A transfer of a queue starts. -/
def startFlight (s : State) (q : Nat) (f : Flight) : State := modQ s q fun x => { x with flights := x.flights ++ [f] }

/-- A received frame or message for a queue (R601, R605, R611): it takes the next posted descriptor, or it is
dropped. -/
def rxOffer (s : State) (q : Nat) (bytes : List Byte) (aux : Word) : State :=
  if !unitRuns s 59 then s
  else if !qRuns s q || !qPosted s q then dropQ s q
  else startFlight s q ⟨qInst s q, false, bytes, some aux, 0⟩

/-- A state that takes RX traffic, if only to drop it and count it: Run, Freeze pending, Frozen, and Restored until RUN
(R611 and the example of R624). -/
def rxState (st : Nat) : Bool := 1 ≤ st && st ≤ 4

/-- The RX queue of lowest number that takes a frame of a unit (R601). -/
def rxQueue (s : State) (cls unit : Nat) (p : Nat → Bool) : Option Nat :=
  (upto 256).find? fun q =>
    qEn s q && qRx s q && qClass s q = cls && qUnit s q = unit && rxState (pinState s (qInst s q)) && p q

/-- Whether the unit of a TX queue has failed its transfer (R605): link down, bus-off, or not enabled. -/
def unitDown (s : State) (q : Nat) : Bool :=
  match qClass s q with
  | 0 => !regB s (aEth (qUnit s q % 2) 0) 47 || !regB s (aEth (qUnit s q % 2) 0) 41
  | 2 => !regB s (aCan (qUnit s q % 8) 0) 47 || regF s (aCan (qUnit s q % 8) 0) 41 40 = 2
  | _ => false

/-! ## Message cells (R542, R543) -/

/-- A message waits for a free cell, with the next SEQ of its destination and channel. -/
def queueCell (s : State) (dst chan : Nat) (words : List Word) : State :=
  let seq := match s.ring.seqs.find? fun e => e.1 = dst && e.2.1 = chan with
    | some e => e.2.2
    | none => 0
  let rest := s.ring.seqs.filter fun e => !(e.1 = dst && e.2.1 = chan)
  { s with ring := { s.ring with
      txq := s.ring.txq ++ [⟨true, dst, nodeNum s, chan, seq, words, 0⟩]
      seqs := (dst, chan, (seq + 1) % 2048) :: rest } }

/-- A transfer that the management view has ended completes (R617): its queue is no longer what it was, so no HEAD
advances and nothing stops. -/
def passEnded (s : State) (q : Nat) (f : Flight) (status : Nat) (irq : Bool) : State :=
  let s := count (modQ (endCut s q) q fun x => { x with ending := x.ending.tail }) 61 0x90
  let s := if !f.tx && status = 4 then dropQ s q else s
  let s := if 1 ≤ status && status ≤ 3 then pinCause s f.inst 1 else s
  if irq then pinCause s f.inst 0 else s

/-- The oldest ended transfer of a queue ends at the descriptor that it worked on. -/
def endEnded (s : State) (q : Nat) (at_ : Word) (f : Flight) (status : Nat) (bytes : List Byte) (done : Nat) : Whole Unit :=
  (bridgeJob s (jobQueue q) fun s => endDesc s q f at_ status bytes done).andThen fun r s =>
    .done () (passEnded s q f r.1 r.2)

/-- The STATUS of a transfer that ends by itself: one that an abort or its unit has given it already, or a failure of the
unit. -/
def ownStatus (s : State) (q status : Nat) (f : Flight) : Nat :=
  if f.status ≠ 0 then f.status else if status = 7 && unitDown s q then 7 else 0

/-- DESCRIPTOR_COMPLETION (R605, R606): the oldest transfer of the queue ends, unless the rest of its frame still waits to be
sent (R633); on a TX queue with none in flight, the next descriptor is fetched and completes if it fails, or sends its ring
message. -/
def completeQueue (s : State) (q status : Nat) : State :=
  if s.io.ethCut.any (fun k => k.q = q) && !unitDown s q then s
  else match (pinQ s q).ending, (pinQ s q).flights with
  | (at_, f) :: _, _ => (endEnded s q at_ f (ownStatus s q status f) f.bytes f.bytes.length).state
  | [], f :: _ => (endFlight s q f (ownStatus s q status f) f.bytes f.bytes.length).state
  | [], [] =>
    if qRx s q || !qRuns s q || !qPosted s q then s
    else
      ((txFetch s q).andThen fun x s =>
        let (d2, bytes, st) := x
        let f : Flight := ⟨qInst s q, true, bytes, none, st⟩
        if st ≠ 0 then endFlight s q f st [] 0
        else if unitDown s q && status = 7 then endFlight s q f 7 [] 0
        else if qClass s q = 1 then
          (endFlight s q f 0 bytes bytes.length).andThen fun _ s =>
            .done () (queueCell s (fld d2 47 36) (qUnit s q) (packBytes bytes))
        else .done () s).state

def execDescriptorCompletion (q : Fin 256) (status : BitVec 8) (s : State) : Host.Outcome State Fault Refusal :=
  .next (if unitRuns s 59 then completeQueue s q.val status.toNat else s)

/-- A transfer is to end with a STATUS after `done` bytes. -/
def Flight.stopAt (f : Flight) (status done : Nat) : Flight := { f with status := status, bytes := f.bytes.take done }

/-- Every transfer of a queue that has a STATUS of its own ends in order. Where a line that one needs is busy, it and the
later ones end at later DESCRIPTOR_COMPLETIONs. -/
def endStopped (s : State) (q : Nat) : Nat → State
  | 0 => s
  | n + 1 =>
    match (pinQ s q).ending, (pinQ s q).flights with
    | (at_, f) :: _, _ =>
      if f.status = 0 then s
      else match endEnded s q at_ f f.status f.bytes f.bytes.length with
        | .done _ s => endStopped s q n
        | .held s => s
    | [], f :: _ =>
      if f.status = 0 then s
      else match endFlight s q f f.status f.bytes f.bytes.length with
        | .done _ s => endStopped s q n
        | .held s => s
    | [], [] => s

/-- The transfers of a queue end with a STATUS, whole; one that has a STATUS keeps it. -/
def stopQueue (s : State) (q status : Nat) : State :=
  let s := modQ (dropJob s (jobQueue q)) q fun x => { x with
    flights := x.flights.map fun f => if f.status = 0 then { f with status := status } else f }
  endStopped s q ((pinQ s q).ending.length + (pinQ s q).flights.length)

/-- Transfers aborted at a word boundary (R617, R618): the manual does not fix how far each got. -/
def abortList (s : State) : List Flight → List Flight × State
  | [] => ([], s)
  | f :: t =>
    let (l, s) := abortList s t
    if f.status ≠ 0 then (f :: l, s)
    else
      let (w, s) := s.takeFree
      (f.stopAt 6 (6 * (w.toNat % (f.bytes.length / 6 + 1))) :: l, s)

/-- The transfers of a queue that the management view has ended are aborted (R617). -/
def abortEnded (s : State) (q : Nat) : State :=
  let x := pinQ s q
  if x.ending.isEmpty then s
  else
    let (l, s) := abortList s (x.ending.map (·.2))
    let s := modQ (dropJob s (jobQueue q)) q fun y => { y with ending := (x.ending.map (·.1)).zip l }
    endStopped s q l.length

/-- Every transfer of a queue is aborted (R618). -/
def abortQueue (s : State) (q : Nat) : State :=
  let s := abortEnded s q
  let (l, s) := abortList s (pinQ s q).flights
  let s := modQ (dropJob s (jobQueue q)) q fun y => { y with flights := l }
  endStopped s q ((pinQ s q).ending.length + l.length)

/-- The transfers in flight of a queue. -/
def QueueState.inFlight (x : QueueState) : List Flight := x.ending.map (·.2) ++ x.flights

/-- Some queue has a transfer in flight (R618). -/
def pinnaBusy (s : State) : Bool := s.pinna.queues.any fun x => !x.inFlight.isEmpty

/-- The transfers in flight. -/
def pinnaFlights (s : State) : Nat := s.pinna.queues.foldl (fun n x => n + x.inFlight.length) 0

/-- A forced entry of domain 59 (R618): how many transfers it aborts, and the state. -/
def pinnaAbortAll (s : State) : Nat × State :=
  let t := (upto 256).foldl abortQueue s
  (pinnaFlights s - pinnaFlights t, t)

/-! ## Sense streams (R602) -/

/-- The 18 words of the current slot, read through the DMA port. -/
def slotReads (s : State) (a : Nat) : Nat → List Word → Whole (List Word × Nat)
  | 0, acc => .done (acc.reverse, 0) s
  | n + 1, acc =>
    match sorusPlace a with
    | none => .done (acc.reverse, 1) s
    | some p =>
      if !sorusPermits s .dma p false then .done (acc.reverse, 1) s
      else (bankRead s p a).andThen fun r s =>
        if r.2 ≠ 0 then .done (acc.reverse, r.2) s else slotReads s (a + 1) n (r.1 :: acc)

/-- The slot of this frame reaches the descriptor of a sense stream whose LEN has room for it (R602): STATUS and bytes. -/
def slotCopy (s : State) (q : Nat) (f : Flight) (buf : Word) : Whole (Nat × Nat) :=
  let n := (pinQ s q).slots
  (slotReads s (slotBase s) 18 []).andThen fun w s =>
    if w.2 ≠ 0 then .done (w.2, 108 * n) s
    else (pinWrites s f.inst q (buf + w48 (18 * n)) 108 0 w.1).andThen fun r s => .done (r.1, 108 * n + r.2) s

/-- The queue's copy of this frame's slot (R602): the descriptor completes when its buffer holds LEN / 108 slots. One too
short for a single slot completes with STATUS 0x04, and the slot of this tick is lost. -/
def streamCopy (s : State) (q : Nat) : Whole Unit :=
  let i := qInst s q
  let mark (s : State) : State := modQ s q fun x => { x with copied := true }
  (readDesc s i q (pinQ s q).head).andThen fun d s =>
    let x := pinQ s q
    let len := fld (d.1.getD 1 0) 23 0
    let first := if x.slots = 0 then regGet s aTickCount else x.firstTick
    let f : Flight := ⟨i, true, [], some first, 0⟩
    if d.2 ≠ 0 then (endFlight s q f d.2 [] (108 * x.slots)).andThen fun _ s => .done () (dropQ (mark s) q)
    else if len < 108 then (endFlight s q f 4 [] 0).andThen fun _ s => .done () (dropQ (mark s) q)
    else
      (slotCopy s q f (d.1.getD 0 0)).andThen fun r s =>
        if r.1 ≠ 0 then (endFlight s q f r.1 [] r.2).andThen fun _ s => .done () (mark s)
        else if x.slots + 1 = len / 108 then (endFlight s q f 0 [] r.2).andThen fun _ s => .done () (mark s)
        else .done () (modQ (mark s) q fun x => { x with slots := x.slots + 1, firstTick := first })

/-- SENSE_STREAM_COPY (R602): once in each frame, after the sense writer has completed the slot. -/
def execSenseStreamCopy (q : Fin 256) (s : State) : Host.Outcome State Fault Refusal :=
  let q := q.val
  if !unitRuns s 59 || !(qEn s q && qRx s q && qClass s q = 3) || (pinQ s q).copied || s.sense.unwritten ||
      !bit s.sense.ctl 47 || !rxState (pinState s (qInst s q)) then .next s
  else if !qRuns s q || !qPosted s q then .next (dropQ (modQ s q fun x => { x with copied := true }) q)
  else .next (runJob s (jobStream q) fun s => streamCopy s q)

/-! ## Queue records and the guest page -/

/-- The transfers in flight of a queue go on at their descriptors until the next tick (R617). -/
def leaveFlights (s : State) (q : Nat) : State :=
  let at_ (n : Nat) : Word := descAddr s q ((pinQ s q).head + n)
  modQ s q fun x => { x with
    ending := x.ending ++ x.flights.zipIdx.map fun e => (at_ e.2, e.1)
    flights := [] }

/-- A management command has ended queues with transfers in flight (R617): DISAGREE, and the log. -/
def endQueues (s : State) (rq : Requester) (i a : Nat) (qs : List Nat) : State :=
  let live := qs.filter fun q => !(pinQ s q).flights.isEmpty
  if live.isEmpty then s else refuseWrite (live.foldl leaveFlights (regFld s (aInstStat i) 44 44 1)) rq 9 a

/-- A write of PINNA_Q_CFG (R617, R626). -/
def qCfgWrite (s : State) (rq : Requester) (q : Nat) (v : Word) : State :=
  let i := fld v 43 38
  let c := fld v 45 44
  let others := (queuesOf s i).filter (· ≠ q)
  let bad := !classGranted s i c || maxQ s i < others.length + 1 || (others.any fun r => qLocal s r = fld v 37 30) ||
    maxDesc s i < 2 ^ qLog s q || 12 < qLog s q || (c = 3 && !bit v 46)
  if bit v 47 then
    if bad then refuseWrite s rq 9 (aQCfg q)
    else
      let rise := !qEn s q
      let s := plainWrite s (aQCfg q) v
      if rise then modQ s q fun x => { QueueState.reset with ending := x.ending, copied := x.copied } else s
  else
    let old := qInst s q
    let was := qEn s q
    let s := plainWrite s (aQCfg q) v
    if was then endQueues s rq old (aQCfg q) [q] else s

/-- A write of PINNA_INST_LIMIT within its bounds (R82). -/
def instLimitWrite (s : State) (rq : Requester) (i : Nat) (v : Word) : State :=
  let e := pinEntry s i
  if bit e 0 && fld v 47 40 ≤ fld e 47 40 && fld v 39 24 ≤ fld e 39 24 then plainWrite s (aInstLimit i) v
  else refuseWrite s rq 6 (aInstLimit i)

/-- A write of PINNA_INST_MIG: a fresh record may arrive (R622). -/
def instMigWrite (s : State) (i : Nat) (v : Word) : State :=
  modInst (regFld (plainWrite s (aInstMig i) v) (aInstStat i) 42 42 0) i fun x => { x with recvWords := [], recvDone := 0 }

/-- A write of PQ_TAIL (R607, R617). -/
def pqTailWrite (s : State) (rq : Requester) (i j : Nat) (v : Word) : State :=
  if pinState s i = 0 then regFld s (aInstStat i) 44 44 1
  else match queueOf s i j with
    | none => regFld s (aInstStat i) 44 44 1
    | some q =>
      let t := fld v 15 0
      if 2 ^ qLog s q < (t + 65536 - (pinQ s q).head) % 65536 then refuseWrite s rq 9 (aPage i + 0x100 + 4 * j)
      else modQ s q fun x => { x with tail := t }

/-- A write of PQ_CTL (R605, R627). -/
def pqCtlWrite (s : State) (i j : Nat) (v : Word) : State :=
  if pinState s i = 0 || !bit v 0 then s
  else match queueOf s i j with
    | some q => modQ s q fun x => { x with stopped := false }
    | none => s

/-- A write of PI_CAUSE, PI_MASK or PI_S1 (R609, R627, R628). -/
def pageWrite (s : State) (i o : Nat) (v : Word) : State :=
  if pinState s i = 0 then s
  else
    let s := pinLine (plainWrite s (aPage i + o) v) i
    if o = 3 then pinFlush s i else s

/-- A read of a register of an instance page (R611, R627). -/
def pageRead (s : State) (i o : Nat) : Word :=
  if pinState s i = 0 then 0
  else if o = 0 then
    mk 47 24 (regF s (aInstCfg i) 35 12) ||| mk 23 16 (regF s (aInstLimit i) 47 40) ||| mk 15 8 (fld (pinEntry s i) 15 8) |||
      mk 5 0 i
  else if o < 4 then regGet s (aPage i + o)
  else if 0x100 ≤ o && o < 0x500 then
    match queueOf s i ((o - 0x100) / 4) with
    | some q =>
      let x := pinQ s q
      if o % 4 = 0 then w48 x.tail
      else if o % 4 = 1 then mk 47 47 x.stopped.toNat ||| mk 46 40 x.last ||| mk 39 24 x.drop ||| mk 15 0 x.head
      else 0
    | none => 0
  else 0

/-! ## Commands of PINNA_INST_CTL (R611 to R624) -/

/-- The record may stand at an address: in a normal DRAM region, below MEM_TOP (R621). -/
def recordPlace (s : State) (a n : Nat) : Bool := dramSpan s (· = 0) a n

/-- The queue records of an instance are freed (R624). -/
def freeQueues (s : State) (i : Nat) : State := (queuesOf s i).foldl (fun s q => regFld s (aQCfg q) 47 47 0) s

/-- The save record of an instance (R621), with its EPOCH as it stands. -/
def saveRecord (s : State) (i : Nat) : List Word :=
  let qs := (upto 256).filterMap fun j => queueOf s i j
  let nq := qs.length
  let classes := qs.foldl (fun m q => m ||| 2 ^ qClass s q) 0
  let x := pinInst s i
  let head := [mk 47 32 0x4816 ||| mk 31 16 1 ||| mk 15 0 (9 + 8 * nq),
    mk 47 36 (nodeNum s) ||| mk 35 30 i ||| mk 23 0 (regF s (aInstStat i) 23 0),
    mk 47 36 (regF s (aInstCfg i) 47 36) ||| mk 15 8 classes ||| mk 7 0 nq,
    regGet s (aPage i + 3),
    mk 47 24 (regF s (aPage i + 2) 23 0) ||| mk 23 0 (regF s (aPage i + 1) 23 0),
    x.freezeTb, x.freezeTick, 0]
  let body := qs.flatMap fun q =>
    let y := pinQ s q
    [regGet s (aQCfg q) &&& (mask 46 44 ||| mask 37 22), regGet s (aQRing q), regGet s (aQFilt q), regGet s (aQMask q),
     w48 y.head, w48 y.tail, w48 y.drop, 0]
  let l := head ++ body
  l ++ [w48 (crc32c l)]

/-- SAVE (R621): EPOCH, the place of the record, and then the engine writes it. -/
def saveInst (s : State) (i : Nat) : State :=
  let e := satN 24 (regF s (aInstStat i) 23 0 + 1)
  let s := regFld s (aInstStat i) 23 0 e
  if recordPlace s (regF s (aInstSave i) 35 0) (saveRecord s i).length then modInst s i fun x => { x with job := 0x10 }
  else setErr (setPinState s i 5) i 7

/-- The engine writes the save record (R621). -/
def writeRecord (s : State) (i : Nat) : Whole Unit :=
  (bridgePuts s (regF s (aInstSave i) 35 0) (saveRecord s i)).andThen fun _ s =>
    .done () (regFld s (aInstStat i) 43 43 1)

/-- Word 0 of a migration cell (R622). -/
def migWord (kind src dst off : Nat) : Word := mk 47 40 kind ||| mk 39 34 src ||| mk 33 28 dst ||| mk 15 0 off

/-- The DATA cells of a record from an offset on (R622). -/
def dataCells (s : State) (node src dst off : Nat) (l : List Word) : Nat → State
  | 0 => s
  | n + 1 =>
    match l with
    | [] => s
    | _ => dataCells (queueCell s node 1 (migWord 1 src dst off :: l.take 14)) node src dst (off + 14) (l.drop 14) n

/-- Sends, or sends again, the record of an instance from its last ACK (R622). -/
def sendFrom (s : State) (i : Nat) : State :=
  let x := pinInst s i
  let node := regF s (aInstMig i) 47 36
  let stale (c : Cell) : Bool := c.chan = 1 && fld (c.words.getD 0 0) 47 40 = 1 && fld (c.words.getD 0 0) 39 34 = i
  let s := { s with ring := { s.ring with txq := s.ring.txq.filter fun c => !stale c } }
  dataCells s node i (regF s (aInstMig i) 35 30) x.sendAcked (x.sendBuf.drop x.sendAcked) (x.sendBuf.length + 1)

/-- SEND (R622): the record is read and its cells are sent. One with a poisoned word, or that may not stand where
PINNA_INST_SAVE says, sends nothing (R409, R621). -/
def sendInst (s : State) (i : Nat) : Whole Unit :=
  let a := regF s (aInstSave i) 35 0
  let n := 9 + 8 * (queuesOf s i).length
  if recordPlace s a n then
    (bridgeWords s a n).andThen fun ws s =>
      if ws.all (fun w => w.2 = 0) then
        .done () (sendFrom (modInst s i fun x => { x with
          sendBuf := ws.map (·.1), sendAcked := 0, sendFrames := 0, sendTries := 0 }) i)
      else .done () s
  else .done () s

/-- A source instance is asked to release an EPOCH (R624): whether it does, and the state. -/
def releaseInst (s : State) (i epoch : Nat) : Bool × State :=
  if (pinInst s i).releasedEpochs.contains epoch then (true, s)
  else if pinState s i = 3 && regF s (aInstStat i) 23 0 = epoch then
    let s := regFld (setPinState (freeQueues s i) i 0) (aInstStat i) 40 40 1
    let s := modInst s i fun x => { x with releasedEpochs := epoch :: x.releasedEpochs, sendBuf := [] }
    (true, pinLine s i)
  else (false, s)

/-- The free queue records, lowest first. -/
def freeRecords (s : State) : List Nat := (upto 256).filter fun q => !qEn s q

/-- The queues of a record are written to free queue records with STASH = 0 (R623). -/
def loadQueues (s : State) (i : Nat) (r : List Word) : List (Nat × Nat) → State
  | [] => s
  | (j, q) :: t =>
    let w (k : Nat) : Word := r.getD (8 + 8 * j + k) 0
    let s := regSet s (aQCfg q) (setFld (w 0 &&& (mask 46 44 ||| mask 37 22)) 43 38 i ||| mk 47 47 1)
    let s := regSet (regSet (regSet s (aQRing q) (w 1)) (aQFilt q) (w 2)) (aQMask q) (w 3)
    let s := modQ s q fun x => { QueueState.reset with
      head := fld (w 4) 15 0, tail := fld (w 5) 15 0, drop := fld (w 6) 15 0, ending := x.ending }
    loadQueues s i r t

/-- CLAIM goes out on channel 1 (R624). -/
def sendClaim (s : State) (i : Nat) : State :=
  let r := (pinInst s i).recvWords.getD 1 0
  queueCell s (fld r 47 36) 1 [migWord 3 (fld r 35 30) i 0, w48 (fld r 23 0)]

/-- Check 5 (R624): the source on this node answers at once, another node is claimed from. -/
def askRelease (s : State) (i : Nat) (w1 : Word) : State :=
  if fld w1 47 36 = nodeNum s then
    let (ok, s) := releaseInst s (fld w1 35 30) (fld w1 23 0)
    if ok then regFld s (aInstStat i) 41 41 1 else setErr (setPinState s i 0) i 5
  else sendClaim (modInst s i fun x => { x with claiming := true, claimFrames := 0, claimTries := 1 }) i

/-- The identity check of a record that has been read (R623), each word with what is wrong with it: the first code that
fails. -/
def recordErr (s : State) (i : Nat) (ws : List (Word × Nat)) : Nat :=
  let r := ws.map (·.1)
  let w0 := r.getD 0 0
  let len := ws.length
  let nq := fld (r.getD 2 0) 7 0
  let cls (j : Nat) : Nat := fld (r.getD (8 + 8 * j) 0) 45 44
  let size (j : Nat) : Nat := 2 ^ fld (r.getD (9 + 8 * j) 0) 3 0
  if !(9 ≤ len && ws.all (fun w => w.2 = 0) && r.getD (len - 1) 0 = w48 (crc32c (r.take (len - 1)))) then 1
  else if !(fld w0 47 32 = 0x4816 && fld w0 31 16 = 1 && len = 9 + 8 * nq) then 2
  else if !((upto nq).all fun j => classGranted s i (cls j)) then 3
  else if maxQ s i < nq || !((upto nq).all fun j => size j ≤ maxDesc s i) || (freeRecords s).length < nq then 4
  else 0

/-- A record that has passed checks 1 to 4: the instance is Restored, and its source is asked (R623, R624). -/
def loadRecord (s : State) (i : Nat) (r : List Word) : State :=
  let s := loadQueues s i r ((upto (fld (r.getD 2 0) 7 0)).zip (freeRecords s))
  let s := regSet s (aPage i + 3) (r.getD 3 0)
  let s := regSet s (aPage i + 2) (w48 (fld (r.getD 4 0) 26 24))
  let s := regSet s (aPage i + 1) (w48 (fld (r.getD 4 0) 2 0))
  let s := regFld (setErr (setPinState (pinFlush s i) i 4) i 0) (aInstStat i) 41 41 0
  askRelease (modInst s i fun x => { x with recvWords := r, recvDone := r.length }) i (r.getD 1 0)

/-- RESTORE (R623): the checks in order; the instance is Restored, or stays Off with ERR. A record that may not stand where
PINNA_INST_SAVE says fails check 1. -/
def restoreInst (s : State) (i : Nat) : Whole Unit :=
  let a := regF s (aInstSave i) 35 0
  if !recordPlace s a 1 then .done () (setErr s i 1)
  else
    (bridgeWord s a).andThen fun w0 s =>
      let len := fld w0.1 15 0
      if !recordPlace s a len then .done () (setErr s i 1)
      else
        (bridgeWords s a len).andThen fun ws s =>
          let e := recordErr s i ws
          .done () (if e ≠ 0 then setErr s i e else loadRecord s i (ws.map (·.1)))

/-- Record words that have arrived are written to the record's place; the last of them sets RECVD (R622). -/
def landRecord (s : State) (i : Nat) : Whole Unit :=
  let x := pinInst s i
  let a := regF s (aInstSave i) 35 0
  (bridgePuts s (a + x.recvDone) (x.recvWords.drop x.recvDone)).andThen fun _ s =>
    let s := modInst s i fun x => { x with recvDone := x.recvWords.length }
    .done () (if fld (x.recvWords.getD 0 0) 15 0 ≤ x.recvWords.length then regFld s (aInstStat i) 42 42 1 else s)

/-- The engine goes on with what an instance has it do in memory. A line that is busy delays it until the bridge's
messages have come or the next tick. -/
def pinnaJob (s : State) (i : Nat) : State :=
  let x := pinInst s i
  let fin (f : State → Nat → Whole Unit) : State :=
    runJob s (jobInst i) fun s => (f s i).andThen fun _ s => .done () (modInst s i fun x => { x with job := 0 })
  if x.recvDone < x.recvWords.length then runJob s (jobLand i) fun s => landRecord s i
  else match x.job with
    | 0x10 => fin writeRecord
    | 0x20 => fin sendInst
    | 0x40 => fin restoreInst
    | _ => s

/-- Every instance's work in memory goes on. -/
def pinnaJobs (s : State) : State := if unitRuns s 59 then (upto 64).foldl pinnaJob s else s

/-- The engine begins what it has to do for an instance, unless its domain has agreed to stop: then it begins at a later
tick (R665). -/
def beginJob (s : State) (i : Nat) : State := if unitRuns s 59 then pinnaJob s i else s

/-- A command that changes STATE ends what the engine did for the instance. -/
def endJob (s : State) (i : Nat) : State := dropJob (modInst s i fun x => { x with job := 0 }) (jobInst i)

/-- A command that the engine performs in memory begins. -/
def startJob (s : State) (i cmd : Nat) : State := beginJob (modInst (endJob s i) i fun x => { x with job := cmd }) i

/-- RUN (R611, R612, R624). -/
def runInst (s : State) (rq : Requester) (i : Nat) : State :=
  let go (s : State) : State := pinLine (regFld (setPinState s i 1) (aInstStat i) 40 40 0) i
  match pinState s i with
  | 0 =>
    if bit (pinEntry s i) 0 && !s.sys.recovery then
      let s := modInst s i fun x => { x with limit := regGet s (aInstLimit i) }
      go ((queuesOf s i).foldl (fun s q => modQ (leaveFlights s q) q fun x => { x with head := 0, tail := 0, slots := 0 }) s)
    else refuseWrite s rq 9 (aInstCtl i)
  | 4 => if regB s (aInstStat i) 41 then go s else refuseWrite s rq 9 (aInstCtl i)
  | _ => refuseWrite s rq 9 (aInstCtl i)

/-- STOP (R611, R617). -/
def stopInst (s : State) (rq : Requester) (i : Nat) : State :=
  let s := modInst (setPinState (endJob s i) i 0) i fun x => { x with claiming := false, sendBuf := [] }
  endQueues (pinLine s i) rq i (aInstCtl i) (queuesOf s i)

/-- A write of PINNA_INST_CTL (R611). -/
def instCtlWrite (s : State) (rq : Requester) (i : Nat) (v : Word) : State :=
  let st := pinState s i
  let no := refuseWrite s rq 9 (aInstCtl i)
  match fld v 7 0 with
  | 0x01 => runInst (if st = 0 then endJob s i else s) rq i
  | 0x02 => if st = 0 then no else stopInst s rq i
  | 0x04 => if st = 1 then pinLine (setPinState s i 2) i else no
  | 0x08 => if st = 3 then pinLine (setPinState (endJob s i) i 1) i else no
  | 0x10 => if st = 3 then beginJob (saveInst (endJob s i) i) i else no
  | 0x20 => if st = 3 then startJob s i 0x20 else no
  | 0x40 => if st = 0 then startJob s i 0x40 else no
  | 0x80 => if st = 0 then no else pinCause s i 2
  | _ => no

/-! ## Migration cells (R622, R624) -/

/-- The engine does something only while domain 59 runs (R57, R600). -/
def ifPinna (s : State) (g : State → State) : State := if unitRuns s 59 then g s else s

/-- DATA arrives at the destination: record words in order, and the ACK. A record that may not stand where
PINNA_INST_SAVE says is not taken. -/
def migData (s : State) (node src dst off : Nat) (words : List Word) : State :=
  let m := regGet s (aInstMig dst)
  let a := regF s (aInstSave dst) 35 0
  let x := pinInst s dst
  if !(pinState s dst = 0 && bit m 29 && fld m 47 36 = node && fld m 35 30 = src) then s
  else
    let fresh := off = x.recvWords.length && !regB s (aInstStat dst) 42
    let l := if fresh then x.recvWords ++ words else x.recvWords
    if !recordPlace s a (Nat.max (fld (l.getD 0 0) 15 0) l.length) then s
    else
      let s := if fresh then pinnaJob (modInst s dst fun x => { x with recvWords := l }) dst else s
      queueCell s node 1 [migWord 2 src dst l.length, w48 (fld (l.getD 1 0) 23 0)]

def execMigrationData (node : Nat) (srcInst dstInst : Fin 64) (off : Nat) (words : List Word) (s : State) :
    Host.Outcome State Fault Refusal := .next (ifPinna s fun s => migData s node srcInst.val dstInst.val off words)

/-- ACK arrives at the source. -/
def migAck (s : State) (node src dst off : Nat) : State :=
  let m := regGet s (aInstMig src)
  let x := pinInst s src
  if fld m 47 36 = node && fld m 35 30 = dst && x.sendAcked < off && off ≤ x.sendBuf.length then
    modInst s src fun x => { x with
      sendAcked := off, sendFrames := 0, sendTries := 0, sendBuf := if off = x.sendBuf.length then [] else x.sendBuf }
  else s

def execMigrationAck (node : Nat) (srcInst dstInst : Fin 64) (off : Nat) (s : State) :
    Host.Outcome State Fault Refusal := .next (ifPinna s fun s => migAck s node srcInst.val dstInst.val off)

/-- CLAIM arrives at the source: RELEASE or REFUSE. -/
def migClaim (s : State) (node src dst epoch : Nat) : State :=
  let (ok, s) := releaseInst s src epoch
  queueCell s node 1 [migWord (if ok then 4 else 5) src dst 0, w48 epoch]

def execMigrationClaim (node : Nat) (srcInst dstInst : Fin 64) (epoch : Nat) (s : State) :
    Host.Outcome State Fault Refusal := .next (ifPinna s fun s => migClaim s node srcInst.val dstInst.val epoch)

/-- The destination awaits an answer about this record. -/
def claimOpen (s : State) (node src dst epoch : Nat) : Bool :=
  let w := (pinInst s dst).recvWords.getD 1 0
  (pinInst s dst).claiming && pinState s dst = 4 && fld w 47 36 = node && fld w 35 30 = src && fld w 23 0 = epoch

/-- RELEASE or REFUSE arrives at the destination. -/
def migAnswer (s : State) (node src dst epoch : Nat) (ok : Bool) : State :=
  if claimOpen s node src dst epoch then
    let s := modInst s dst fun x => { x with claiming := false }
    if ok then regFld s (aInstStat dst) 41 41 1 else setErr (setPinState s dst 0) dst 5
  else s

def execMigrationRelease (node : Nat) (srcInst dstInst : Fin 64) (epoch : Nat) (s : State) :
    Host.Outcome State Fault Refusal := .next (ifPinna s fun s => migAnswer s node srcInst.val dstInst.val epoch true)

def execMigrationRefuse (node : Nat) (srcInst dstInst : Fin 64) (epoch : Nat) (s : State) :
    Host.Outcome State Fault Refusal := .next (ifPinna s fun s => migAnswer s node srcInst.val dstInst.val epoch false)

/-- A cell of channel 1 for this node (R622). -/
def migrationCell (s : State) (node : Nat) (words : List Word) : State :=
  ifPinna s fun s =>
  let w := words.getD 0 0
  let src := fld w 39 34
  let dst := fld w 33 28
  let epoch := fld (words.getD 1 0) 23 0
  match fld w 47 40 with
  | 1 => migData s node src dst (fld w 15 0) words.tail
  | 2 => migAck s node src dst (fld w 15 0)
  | 3 => migClaim s node src dst epoch
  | 4 => migAnswer s node src dst epoch true
  | 5 => migAnswer s node src dst epoch false
  | _ => s

/-- MIGRATION_RESEND_TIMEOUT (R622): 4 frames have passed without progress. -/
def execMigrationResendTimeout (i : Fin 64) (s : State) : Host.Outcome State Fault Refusal :=
  let x := pinInst s i.val
  if unitRuns s 59 && pinState s i.val = 3 && !x.sendBuf.isEmpty && 4 ≤ x.sendFrames then
    if x.sendTries = 8 then
      .next (setErr (setPinState (modInst s i.val fun x => { x with sendBuf := [] }) i.val 5) i.val 6)
    else .next (sendFrom (modInst s i.val fun x => { x with sendTries := x.sendTries + 1, sendFrames := 0 }) i.val)
  else .next s

/-- CLAIM_TIMEOUT (R624): 4 frames after a CLAIM without an answer. -/
def execClaimTimeout (i : Fin 64) (s : State) : Host.Outcome State Fault Refusal :=
  let x := pinInst s i.val
  if unitRuns s 59 && x.claiming && pinState s i.val = 4 && 4 ≤ x.claimFrames then
    if x.claimTries = 8 then
      .next (setErr (setPinState (modInst s i.val fun x => { x with claiming := false }) i.val 0) i.val 6)
    else .next (sendClaim (modInst s i.val fun x => { x with claimTries := x.claimTries + 1, claimFrames := 0 }) i.val)
  else .next s

/-! ## The tick (R617, R620) -/

/-- A pending instance freezes if it has no transfer in flight (R620). -/
def freezeOne (s : State) (i : Nat) : State :=
  if pinState s i = 2 && s.pinna.queues.all (fun x => x.inFlight.all fun f => f.inst ≠ i) then
    let s := regFld (setPinState s i 3) (aInstStat i) 43 43 0
    modInst s i fun x => { x with freezeTb := s.tbl, freezeTick := regGet s aTickCount }
  else s

/-- The pinna engine at a tick: freezes, then the aborts of R617, then the frame counts of R622 and R624. Its clock runs to
the commit of domain 59 and through it, so an instance freezes at the very tick that commits its agreement (R41, R620,
R666). -/
def pinnaTick (s : State) : State :=
  if s.power.quiescent || domState s 59 ≠ 0 || s.sys.held.contains 59 then s
  else
    let s := pinnaJobs ((upto 64).foldl freezeOne s)
    let s := (upto 256).foldl abortEnded s
    { s with pinna := { s.pinna with
        queues := s.pinna.queues.map fun x => { x with copied := false }
        insts := s.pinna.insts.map fun x => { x with sendFrames := x.sendFrames + 1, claimFrames := x.claimFrames + 1 } } }

/-- Broadcast TLB maintenance reaches the translation cache (R362, R609). -/
def pinnaTlbi (s : State) (p : TlbEntry → Bool) : State :=
  { s with pinna := { s.pinna with cache := s.pinna.cache.filter fun e => !p e.2 } }

end Sys2Proof.Machine
end

