-- ==== Sys2Proof/Machine/Io.lean ====
section
/-! DEFINITION. Ethernet, CAN FD and RS-485 (chapter 17), and the DMA engine (chapter 23). -/

namespace Sys2Proof.Machine

open Sys2Proof

/-- A frame with a bad FCS, or longer than MAXLEN, counts as dropped (R632). -/
def ethDrop (s : State) (p : Nat) : State := count s (58 + p) 0x72

/-! ## Ethernet (R631 to R637) -/

/-- The preempted frame of a port, if it has one (R633). -/
def cutOf (s : State) (p : Nat) : Option EthCut := s.io.ethCut.find? fun c => c.port = p

/-- The port has no preempted frame any more. -/
def dropCut (s : State) (p : Nat) : State :=
  { s with io := { s.io with ethCut := s.io.ethCut.filter fun c => c.port ≠ p } }

/-- Every transfer in flight on the TX queues of a unit completes with STATUS 0x07 (R632, R640); the rest of a preempted
frame is not sent. -/
def failUnit (s : State) (cls unit : Nat) : State :=
  (upto 256).foldl (fun s q => if qClass s q = cls && qUnit s q = unit && !qRx s q then stopQueue s q 7 else s)
    (if cls = 0 then dropCut s unit else s)

/-- The link of a port goes down or comes up (R632). -/
def ethLink (s : State) (p : Nat) (up : Bool) : State :=
  let s := regFld s (aEth p 0) 41 41 up.toNat
  if up then s else failUnit s 0 p

/-- A write of ETH_CTL (R635, R637). -/
def ethCtlWrite (s : State) (p : Nat) (v : Word) : State :=
  let old := regGet s (aEth p 0)
  let v := keepUnless (fld v 46 45 ≠ 3) v old 46 45
  let v := keepUnless (decide (64 ≤ fld v 13 0) && decide (fld v 13 0 ≤ 9216)) v old 13 0
  let s := plainWrite s (aEth p 0) (v &&& ~~~(mask 43 43))
  let s := if bit v 43 then { s with io := { s.io with swapPending := s.io.swapPending.set p true } } else s
  let s := regFld s (aEth p 0) 43 43 0
  if bit v 47 then s else ethLink s p false

/-- A write of ETH_CYCLE (R637): 1000 ns to 1 s, or 0. -/
def ethCycleWrite (s : State) (p : Nat) (v : Word) : State :=
  let n := fld v 31 0
  if n = 0 || (1000 ≤ n && n ≤ 1000000000) then plainWrite s (aEth p 3) v else s

/-- A write of ETH_GCL_BASE (R635): the time base that its 48 bits name is the one nearest to now. DEDUCED, log entry 84. -/
def gclBaseWrite (s : State) (p : Nat) (v : Word) : State :=
  let ahead := (v - s.tbl).toNat
  let at_ := if ahead < 2 ^ 47 then s.now + ahead else s.now - (2 ^ 48 - ahead)
  let s := plainWrite s (aEth p 2) v
  { s with io := { s.io with gclStart := s.io.gclStart.set p at_ } }

/-- The transmitter of a port runs (R48). -/
def ethTxRuns (s : State) (p : Nat) : Bool := unitRuns s (40 + 2 * p)

/-- A write of ETH_MDIO (R637): one frame at a time. One written after the port's domain has agreed to stop leaves when the
domain acts again (R665). -/
def mdioWrite (s : State) (p : Nat) (v : Word) : State :=
  if s.io.mdioBusy.getD p false then s
  else
    let s := regSet s (aEth p 9) (setBit v 47 true)
    if ethTxRuns s p then
      { s with io := { s.io with mdioBusy := s.io.mdioBusy.set p true, mdioLog := s.io.mdioLog ++ [(p, v)] } }
    else
      { s with io := { s.io with mdioBusy := s.io.mdioBusy.set p true, mdioDue := s.io.mdioDue.set p true } }

/-- MDIO_FRAME_COMPLETE (R637); without its two pads no frame completes (R630), and none while its domain does not act
(R662). -/
def execMdioFrameComplete (port : Fin 2) (d : BitVec 16) (s : State) : Host.Outcome State Fault Refusal :=
  let p := port.val
  if s.io.mdioBusy.getD p false && ethTxRuns s p && funcPlaced s (0x30 + 2 * p) && funcPlaced s (0x31 + 2 * p) then
    let w := regGet s (aEth p 9)
    let late := if s.io.mdioDue.getD p false then [(p, setBit w 47 false)] else []
    let s := regSet s (aEth p 9) (setFld (setBit w 47 false) 15 0 d.toNat)
    .next { s with io := { s.io with
      mdioBusy := s.io.mdioBusy.set p false, mdioDue := s.io.mdioDue.set p false, mdioLog := s.io.mdioLog ++ late } }
  else .next s

/-- The receiver of a port runs (R48). -/
def ethRxRuns (s : State) (p : Nat) : Bool := unitRuns s (41 + 2 * p)

/-- ETHERNET_LINK_CHANGE (R632). -/
def execEthernetLinkChange (port : Fin 2) (up : Bool) (s : State) : Host.Outcome State Fault Refusal :=
  if up && !(regB s (aEth port.val 0) 47 && ethRxRuns s port.val) then .next s else .next (ethLink s port.val up)

/-- The destination MAC as a 48-bit value, byte 0 lowest (R4, R601). -/
def destMac (bytes : List Byte) : Word := (packBytes (bytes.take 6)).getD 0 0

/-- ETHERNET_FRAME_RECEIVE (R601, R632, R634): bytes without FCS; the command stands at the end of the start-of-frame
delimiter. -/
def execEthernetFrameReceive (port : Fin 2) (bytes : List Byte) (fcsOk : Bool) (s : State) :
    Host.Outcome State Fault Refusal :=
  let p := port.val
  let ctl := regGet s (aEth p 0)
  if !bit ctl 47 || !bit ctl 41 || !ethRxRuns s p then .next s
  else
    let s := bwAdd (count s (58 + p) 0x71) (29 + 2 * p) (bytes.length + 4)
    if !fcsOk || fld ctl 13 0 < bytes.length + 4 then .next (ethDrop s p)
    else
      let mac := destMac bytes
      match rxQueue s 0 p fun q => mac &&& regGet s (aQMask q) = regGet s (aQFilt q) &&& regGet s (aQMask q) with
      | some q => .next (setLine (rxOffer s q bytes s.tbl) (129 + 4 * p) true)
      | none => .next s

/-- Traffic class of a TX frame (R633): its VLAN PCP through ETH_PCP_MAP, or 0 untagged. -/
def ethClass (s : State) (p : Nat) (bytes : List Byte) : Nat :=
  if bytes.getD 12 0 = 0x81 && bytes.getD 13 0 = 0x00 then
    let pcp := (bytes.getD 14 0).toNat / 32
    fld (regGet s (aEth p 1)) (3 * pcp + 2) (3 * pcp)
  else 0

/-- The address of gate list entry e of a bank (R637). -/
def gclAddr (p bank e : Nat) : Nat := if e < 64 then aEth p (0x80 + 64 * bank + e) else aEth p (0x100 + 64 * bank + e - 64)

/-- The gate entries of the active bank up to the end of the list: gates and length. -/
def gclList (s : State) (p bank e : Nat) : Nat → List (Nat × Nat)
  | 0 => []
  | n + 1 =>
    let w := regGet s (gclAddr p bank e)
    if fld w 31 0 = 0 then [] else (fld w 47 40, fld w 31 0) :: gclList s p bank (e + 1) n

/-- The entries cut at the cycle end; the last one's gates hold until then. -/
def gclFit (cycle : Nat) : List (Nat × Nat) → List (Nat × Nat)
  | [] => if cycle = 0 then [] else [(0xFF, cycle)]
  | [(g, _)] => [(g, cycle)]
  | (g, n) :: t => if cycle ≤ n then [(g, cycle)] else (g, n) :: gclFit (cycle - n) t

/-- The entries from a position of the cycle on. -/
def gclFrom (pos : Nat) : List (Nat × Nat) → List (Nat × Nat)
  | [] => []
  | (g, n) :: t => if pos < n then (g, n - pos) :: t else gclFrom (pos - n) t

/-- How long a class's gate stays open from the front of a list. -/
def openFor (c : Nat) : List (Nat × Nat) → Nat
  | [] => 0
  | (g, n) :: t => if g.testBit c then n + openFor c t else 0

/-- The list with its last entry held for n ns more: with TLOCK the next cycle starts at the next tick only (R635). -/
def gclHold (n : Nat) : List (Nat × Nat) → List (Nat × Nat)
  | [] => []
  | [(g, k)] => [(g, k + n)]
  | e :: t => e :: gclHold n t

/-- The time since the gate cycle started (R635): at the latest tick with TLOCK; none before the first cycle. -/
def cyclePos (s : State) (p : Nat) : Option Nat :=
  let cycle := regF s (aEth p 3) 31 0
  if regB s (aEth p 0) 44 then some (s.tbl - regGet s aTickLast).toNat
  else
    let base := s.io.gclStart.getD p 0
    if base ≤ s.now then some ((s.now - base) % cycle) else none

/-- How long the gate of a class stays open; none: always (R635, R637). -/
def gateOpen (s : State) (p c : Nat) : Option Nat :=
  let cycle := regF s (aEth p 3) 31 0
  if cycle = 0 then none
  else match cyclePos s p with
    | none => none
    | some pos =>
      let l := gclFit cycle (gclList s p (regF s (aEth p 0) 42 42) 0 128)
      let l := if regB s (aEth p 0) 44 then gclHold (s.tick.curNs - cycle) l else l
      if l.all fun e => e.1.testBit c then none else some (openFor c (gclFrom pos l ++ l))

/-- A tenth of a nanosecond for each byte at the port's rate (R631). -/
def byteTime (s : State) (p : Nat) : Nat :=
  match regF s (aEth p 0) 46 45 with
  | 0 => 80
  | 1 => 32
  | _ => 8

/-- The port's rate in kb/s (R631). -/
def portRate (s : State) (p : Nat) : Nat := 80000000 / byteTime s p

/-- Nanoseconds a frame takes with its preamble and FCS at the port's rate (R631). -/
def frameNs (s : State) (p len : Nat) : Nat := ((Nat.max 60 len + 12) * byteTime s p + 9) / 10

/-- A class is preemptable (R633, R637). -/
def preemptable (s : State) (p c : Nat) : Bool := bit (regGet s (aEth p 0)) (33 + c)

/-- The least and greatest part of a frame that may leave first, when it is preempted: each fragment has at least 64 bytes
with its check (R633). -/
def cutRange (lo hi len : Nat) : Option (Nat × Nat) :=
  let lo := Nat.max 60 lo
  let hi := Nat.min hi (len - 60)
  if lo ≤ hi then some (lo, hi) else none

/-- The bytes of a frame whose gate stays open for n ns that fit in that time (R636). -/
def bytesIn (s : State) (p n : Nat) : Nat := n * 10 / byteTime s p - 12

/-- Where a preemptable frame that starts now is preempted by its gate (R636): none where it leaves whole. -/
def gateCut (s : State) (p c len : Nat) : Option (Nat × Nat) :=
  match gateOpen s p c with
  | none => none
  | some n =>
    if preemptable s p c && n < frameNs s p len then
      (cutRange 0 (bytesIn s p n) len).map fun r => (r.2, r.2)
    else none

/-- The gate of a class lets a frame start (R636): it is open for the whole frame, or the frame is preemptable and it is open
for a first fragment. -/
def gateLets (s : State) (p c len : Nat) : Bool :=
  match gateOpen s p c with
  | none => true
  | some n => frameNs s p len ≤ n || (gateCut s p c len).isSome

/-- A launch time has passed (R636): 0 is none. -/
def launchPassed (s : State) (l : Word) : Bool := l = 0 || (s.tbl - l).toNat < 2 ^ 47

/-- A queue of a unit sends. -/
def queueSending (s : State) (cls unit q : Nat) : Bool :=
  qClass s q = cls && qUnit s q = unit && !qRx s q && !(pinQ s q).inFlight.isEmpty

/-- The traffic class of the frame that a queue sends. -/
def sendingClass (s : State) (p q : Nat) : Nat := ethClass s p (((pinQ s q).inFlight.map (·.bytes)).getD 0 [])

/-- Some queue of a unit sends. -/
def unitSending (s : State) (cls unit : Nat) : Bool := (upto 256).any fun q => queueSending s cls unit q

/-! The credit-based shaper of classes 4 to 7 (R633). Its rules are those of IEEE 802.1Qav: PRESUMED, log entry 85. -/

/-- Idle slope of a class in kb/s (R637); 0: no shaper. -/
def idleSlope (s : State) (p c : Nat) : Nat := if 4 ≤ c then regF s (aEth p c) 47 24 else 0

/-- The credit of a class. -/
def credit (s : State) (p c : Nat) : Credit := s.io.ethCredit.getD (4 * p + (c - 4)) ⟨0, 0, false⟩

/-- The credit of a class now: it rises at the idle slope while a frame waits, and up to 0 without one; credit above 0 is lost
when none waits. -/
def creditNow (s : State) (p c : Nat) : Int :=
  let k := credit s p c
  let v : Int := k.value + (idleSlope s p c * (s.now - k.since) : Nat)
  if k.waits then v else min v 0

/-- The credit of a class is noted. -/
def setCredit (s : State) (p c : Nat) (k : Credit) : State :=
  if c < 4 then s else { s with io := { s.io with ethCredit := s.io.ethCredit.set (4 * p + (c - 4)) k } }

/-- The shaper lets a frame of a class leave. -/
def creditLets (s : State) (p c : Nat) : Bool := idleSlope s p c = 0 || decide (0 ≤ creditNow s p c)

/-- A frame of a class waits. -/
def creditWait (s : State) (p c : Nat) : State := setCredit s p c ⟨creditNow s p c, s.now, true⟩

/-- A frame of a class leaves: the credit falls at the port's rate less the idle slope while it is sent. -/
def creditSend (s : State) (p c len : Nat) : State :=
  let ns := frameNs s p len
  setCredit s p c ⟨creditNow s p c - ((portRate s p - idleSlope s p c) * ns : Nat), s.now + ns, false⟩

/-- Bytes of a frame leave the port: a frame, or a fragment of one. -/
def ethOut (s : State) (p : Nat) (bytes : List Byte) : State :=
  { s with io := { s.io with ethTx := s.io.ethTx ++ [(p, bytes)], ethStart := s.io.ethStart.set p s.now } }

/-- Bytes of a frame leave up to a point of the range where it is preempted, which the manual leaves open within it; the rest
waits (R633, R636). -/
def ethOutCut (s : State) (p q : Nat) (bytes : List Byte) (r : Option (Nat × Nat)) : State :=
  match r with
  | none => ethOut s p bytes
  | some (lo, hi) =>
    let (w, s) := s.takeFree
    let n := lo + w.toNat % (hi - lo + 1)
    let s := ethOut (count s (58 + p) 0x73) p (bytes.take n)
    { s with io := { s.io with ethCut := ⟨p, q, bytes.drop n⟩ :: s.io.ethCut } }

/-- The latest entry of the port in what has been sent, cut to n bytes. -/
def cutLast (p n : Nat) : List (Nat × List Byte) → List (Nat × List Byte)
  | [] => []
  | e :: t => if e.1 = p && !(t.any fun x => x.1 = p) then (p, e.2.take n) :: t else e :: cutLast p n t

/-- The bytes that the port's latest frame or fragment has. -/
def onWire (s : State) (p : Nat) : List Byte := match s.io.ethTx.reverse.find? fun e => e.1 = p with
  | some e => e.2
  | none => []

/-- Where an express frame may preempt the frame in flight (R633): its class is preemptable, none of the port is preempted
yet, and both parts are long enough. PRESUMED, log entry 85. -/
def expressCut (s : State) (p : Nat) : Option (Nat × Nat) :=
  let l := onWire s p
  let sent := (s.now - s.io.ethStart.getD p 0) * 10 / byteTime s p - 8
  match (upto 256).find? fun q => queueSending s 0 p q with
  | some q =>
    if preemptable s p (sendingClass s p q) && (cutOf s p).isNone then cutRange sent l.length l.length else none
  | none => none

/-- The frame in flight of a port is preempted (R633). -/
def preempt (s : State) (p : Nat) (r : Nat × Nat) : State :=
  let l := onWire s p
  let q := ((upto 256).find? fun q => queueSending s 0 p q).getD 0
  let (w, s) := s.takeFree
  let n := r.1 + w.toNat % (r.2 - r.1 + 1)
  count { s with io := { s.io with
    ethTx := cutLast p n s.io.ethTx, ethCut := ⟨p, q, l.drop n⟩ :: s.io.ethCut } } (58 + p) 0x73

/-- The wire of a port is free: nothing is in flight but a preempted frame, whose latest fragment has left. -/
def wireFree (s : State) (p : Nat) : Bool :=
  match cutOf s p with
  | none => !unitSending s 0 p
  | some c => decide (s.io.ethStart.getD p 0 + frameNs s p (onWire s p).length ≤ s.now) &&
      !(upto 256).any fun q => q ≠ c.q && queueSending s 0 p q

/-- The rest of a preempted frame goes on, whole or up to the next close of its gate (R633, R636). -/
def ethResume (s : State) (p : Nat) (k : EthCut) : State :=
  let c := sendingClass s p k.q
  if wireFree s p && gateLets s p c k.rest.length then
    ethOutCut (dropCut s p) p k.q k.rest (gateCut s p c k.rest.length)
  else s

/-- Sources 128 to 130 of port 0 and 132 to 134 of port 1 (R291): transmit, receive, TSN time event. The line rises with the
event. DESIGN CHOICE, log entry 74. -/
def ethEvent (s : State) (p k : Nat) : State := setLine s (128 + 4 * p + k) true

/-- A frame that has been read leaves, or waits for its time, its shaper and the wire; one that may not be sent completes.
One that is late by more than 1 ms leaves at once, whatever its gate says. -/
def ethSend (s : State) (p q : Nat) (d2 : Word) (bytes : List Byte) (st : Nat) : Whole Unit :=
  if st ≠ 0 then endFlight s q ⟨qInst s q, true, [], none, st⟩ st [] 0
  else
    let c := ethClass s p bytes
    let pad := bytes ++ List.replicate (60 - bytes.length) 0
    let late := d2 ≠ 0 && launchPassed s d2 && 1000000 < (s.tbl - d2).toNat
    let express := !preemptable s p c
    let cut := if express then expressCut s p else none
    let wire := (wireFree s p && (express || (cutOf s p).isNone)) || cut.isSome
    if !launchPassed s d2 then .done () s
    else if !wire || (!late && !(gateLets s p c pad.length && creditLets s p c)) then .done () (creditWait s p c)
    else
      let s := match cut with
        | some r => if wireFree s p then s else preempt s p r
        | none => s
      let s := if late then regAddSat s (aEth p 8) 47 0 1 else s
      let f : Flight := ⟨qInst s q, true, bytes, if d2 = 0 then none else some s.tbl, 0⟩
      let s := creditSend s p c pad.length
      let s := ethOutCut s p q pad (if late then none else gateCut s p c pad.length)
      .done () (ethEvent (bwAdd (count (startFlight s q f) (58 + p) 0x70) (28 + 2 * p) (pad.length + 4)) p 0)

/-- ETHERNET_FRAME_TRANSMIT (R605, R632 to R634, R636): the next frame of queue q leaves, or its preempted frame goes on. -/
def execEthernetFrameTransmit (port : Fin 2) (q : Fin 256) (s : State) : Host.Outcome State Fault Refusal :=
  let p := port.val
  let q := q.val
  let ctl := regGet s (aEth p 0)
  if !(bit ctl 47 && bit ctl 41 && qClass s q = 0 && qUnit s q = p && !qRx s q) || !ethTxRuns s p || !unitRuns s 59 then .next s
  else match (cutOf s p).filter fun k => k.q = q with
    | some k => .next (ethResume s p k)
    | none =>
      if !(qRuns s q && qPosted s q) then .next s
      else .next ((txFetch s q).andThen fun x s => ethSend s p q x.1 x.2.1 x.2.2).state

/-- GATE_CYCLE_START (R635): a pending SWAP makes the inactive bank active. -/
def execGateCycleStart (port : Fin 2) (s : State) : Host.Outcome State Fault Refusal :=
  let p := port.val
  if ethTxRuns s p && regF s (aEth p 3) 31 0 ≠ 0 && cyclePos s p = some 0 then
    let s := ethEvent s p 2
    if s.io.swapPending.getD p false then
      let s := regFld s (aEth p 0) 42 42 (1 - regF s (aEth p 0) 42 42)
      .next { s with io := { s.io with swapPending := s.io.swapPending.set p false } }
    else .next s
  else .next s

/-! ## CAN FD (R638 to R641) -/

/-- Source 136 + n (R640). -/
def canLine (s : State) (n : Nat) : State :=
  setLine s (136 + n) (regF s (aCan n 0) 41 40 ≠ 0 || s.io.canOvf.getD n false)

/-- The error counters after a frame (R640): the standard counts each error on the bus, which no command names, so what a
frame adds is a free value of 0 to 127 for each counter, of which a good frame takes 1 off again. The controller is error
passive while one of them exceeds 127. TEC beyond 255 is bus-off, which is a command of its own, so it stops at 255.
PRESUMED, log entry 75. -/
def canErrors (s : State) (n : Nat) : State :=
  let a := aCan n 0
  let (w, s) := s.takeFree
  let step (old add : Nat) : Nat := Nat.min 255 (old + add % 128) - (if add % 128 = 0 then 1 else 0)
  let tec := step (regF s a 39 32) (fld w 6 0)
  let rec' := step (regF s a 31 24) (fld w 14 8)
  let s := regFld (regFld s a 39 32 tec) a 31 24 rec'
  canLine (regFld s a 41 40 (if 128 ≤ tec || 128 ≤ rec' then 1 else 0)) n

/-- The controller takes part in the bus: enabled, with its pads, not bus-off (R630, R640), and its domain runs. -/
def canLive (s : State) (n : Nat) : Bool :=
  unitRuns s 54 && regB s (aCan n 0) 47 && regF s (aCan n 0) 41 40 ≠ 2 && funcPlaced s (0x10 + 2 * n) && funcPlaced s (0x11 + 2 * n)

/-- The controller rejoins (R640). -/
def canRejoin (s : State) (n : Nat) : State :=
  if regF s (aCan n 0) 41 40 = 2 then canLine (regFld (regFld (regFld s (aCan n 0) 41 40 0) (aCan n 0) 39 32 0) (aCan n 0) 31 24 0) n
  else s

/-- A write of CAN_CTL (R640, R641). -/
def canCtlWrite (s : State) (n : Nat) (v : Word) : State :=
  let s := plainWrite s (aCan n 0) v
  if bit v 45 then canRejoin s n else s

/-- A write of CAN_NBT or CAN_DBT (R641). -/
def canTimingWrite (s : State) (n o : Nat) (v : Word) : State :=
  if regB s (aCan n 0) 47 then s else plainWrite s (aCan n o) v

/-- The identifier word of D2 (R601, R604). -/
def canWord (id : BitVec 29) (ide fdf brs : Bool) : Word :=
  mk 33 33 fdf.toNat ||| mk 32 32 brs.toNat ||| mk 29 29 ide.toNat ||| mk 28 0 id.toNat

/-- CAN_FRAME_RECEIVE (R601, R639): the command stands at the start-of-frame bit. -/
def execCanFrameReceive (n : Fin 8) (id : BitVec 29) (ide fdf _brs : Bool) (bytes : List Byte) (s : State) :
    Host.Outcome State Fault Refusal :=
  if !canLive s n.val || (if fdf then 64 else 8) < bytes.length then .next s
  else
    let w := canWord id ide false false
    match rxQueue s 2 n.val fun q => w &&& regGet s (aQMask q) = regGet s (aQFilt q) &&& regGet s (aQMask q) with
    | none => .next (canErrors s n.val)
    | some q =>
      let ovf := !qRuns s q || !qPosted s q
      let s := rxOffer s q bytes s.tbl
      .next (canErrors { s with io := { s.io with canOvf := s.io.canOvf.set n.val ovf } } n.val)

/-- The frame of lowest identifier, as a number, among the first pending descriptors of the queues that are left (R639):
queue, D2 and bytes. One whose descriptor fails is left to its DESCRIPTOR_COMPLETION. -/
def canFirst (s : State) (n : Nat) (best : Option (Nat × Word × List Byte)) :
    List Nat → Whole (Option (Nat × Word × List Byte))
  | [] => .done best s
  | q :: qs =>
    if qClass s q = 2 && qUnit s q = n && !qRx s q && qRuns s q && qPosted s q then
      match txFetch s q with
      | .done (d2, bytes, 0) s =>
        canFirst s n (if best.all fun y => decide (fld d2 28 0 < fld y.2.1 28 0) then some (q, d2, bytes) else best) qs
      | .done _ s => canFirst s n best qs
      | .held s => .held s
    else canFirst s n best qs

/-- CAN_FRAME_TRANSMIT (R639): the frame of lowest identifier is sent. -/
def execCanFrameTransmit (n : Fin 8) (s : State) : Host.Outcome State Fault Refusal :=
  if !canLive s n.val || regB s (aCan n.val 0) 44 || unitSending s 2 n.val || !unitRuns s 59 then .next s
  else .next ((canFirst s n.val none (upto 256)).andThen fun x s => match x with
    | none => .done () s
    | some (q, d2, bytes) =>
      let s := { s with io := { s.io with canTx := s.io.canTx ++ [(n.val, d2, bytes)] } }
      .done () (canErrors (startFlight s q ⟨qInst s q, true, bytes, none, 0⟩) n.val)).state

/-- BUS_OFF (R640). -/
def execBusOff (n : Fin 8) (s : State) : Host.Outcome State Fault Refusal :=
  if canLive s n.val then
    let s := regFld (regFld s (aCan n.val 0) 41 40 2) (aCan n.val 0) 39 32 0xFF
    .next (canLine (failUnit s 2 n.val) n.val)
  else .next s

/-- BUS_OFF_RECOVERY (R640). -/
def execBusOffRecovery (n : Fin 8) (s : State) : Host.Outcome State Fault Refusal :=
  if regB s (aCan n.val 0) 46 && unitRuns s 54 then .next (canRejoin s n.val) else .next s

/-! ## DMA (R766 to R768) -/

def dmaChan (s : State) (n : Nat) : DmaChan := s.dma.getD n DmaChan.reset

def modDma (s : State) (n : Nat) (f : DmaChan → DmaChan) : State := { s with dma := modAt s.dma n f }

/-- Source 154 + n (R766). -/
def dmaLine (s : State) (n : Nat) : State := setLine s (154 + n) (regB s (aDma n 3) 46 && regB s (aDma n 2) 45)

def dmaMoved (s : State) (n : Nat) : Nat := regF s (aDma n 3) 23 0

/-- A word that DMA may read or write (R767): in a DRAM region of kind normal or twinned, or a Sorus bank that grants it. -/
def dmaPlace (s : State) (a : Nat) (write : Bool) : Bool :=
  match sorusPlace a with
  | some p => sorusPermits s .dma p write
  | none => dramSpan s (fun k => k < 2) a 1 && regionOf s a = .dram

/-- The channel ends (R767). -/
def dmaEnd (s : State) (n err : Nat) : State :=
  let s := regFld (regFld (regFld s (aDma n 3) 47 47 0) (aDma n 3) 46 46 1) (aDma n 3) 45 44 err
  dmaLine (dropJob s (jobDma n)) n

/-- A word read by DMA: none for a poisoned or mismatched one. -/
def dmaRead (s : State) (a : Nat) : Whole (Option Word) :=
  (match sorusPlace a with
  | some p => bankRead s p a
  | none => bridgeWord s a).andThen fun w s => .done (if w.2 = 0 then some w.1 else none) s

/-- A word written by DMA (R391, R767). An alias store that it discards counts once in UE of its bank (R517). -/
def dmaWrite (s : State) (a : Nat) (v : Word) : Whole Unit :=
  match sorusPlace a with
  | some p => (bankStore s p a v 0xFFFFFFFFFFFF).andThen fun e s =>
      .done () (if e = 0 then s else regAddSat s (aSorBankStat (keyBank (placeKey p))) 23 16 1)
  | none => bridgePut s a v false none

/-- One word of a channel from where it stands, each access made once: false at a poisoned word (R393, R767). -/
def dmaStep (s : State) (n : Nat) : Whole Bool :=
  let c := dmaChan s n
  let i := dmaMoved s n
  bridgeJob s (jobDma n) fun s =>
    (dmaRead s (c.src + i)).andThen fun r s => match r with
      | none => .done false s
      | some v => (dmaWrite s (c.dst + i) v).andThen fun _ s => .done true (regAdd s (aDma n 3) 23 0 1)

/-- Moves k words from where the channel stands; ERR 1 at a poisoned word (R767). -/
def dmaMove (s : State) (n : Nat) : Nat → Whole Nat
  | 0 => .done 0 s
  | k + 1 => (dmaStep s n).andThen fun ok s => if ok then dmaMove s n k else .done 1 s

/-! ## RS-485 UARTs (R642, R643, R768) -/

def uartTx (s : State) (u : Nat) : List (BitVec 9) := s.io.uartTx.getD u []
def uartRx (s : State) (u : Nat) : List (BitVec 9) := s.io.uartRx.getD u []
def setTx (s : State) (u : Nat) (l : List (BitVec 9)) : State := { s with io := { s.io with uartTx := s.io.uartTx.set u l } }
def setRx (s : State) (u : Nat) (l : List (BitVec 9)) : State := { s with io := { s.io with uartRx := s.io.uartRx.set u l } }

/-- A write of UART_CFG (R643). -/
def uartCfgWrite (s : State) (u : Nat) (v : Word) : State :=
  let old := regGet s (aUart u 0)
  let v := keepUnless (fld v 46 45 ≠ 3) v old 46 45
  let v := keepUnless (fld v 44 43 ≠ 3) v old 44 43
  let v := keepUnless (decide (8 ≤ fld v 15 0)) v old 15 0
  plainWrite s (aUart u 0) v

/-- A character enters the TX FIFO, or is dropped (R643). -/
def uartQueue (s : State) (u : Nat) (ch : BitVec 9) : State :=
  if 64 ≤ (uartTx s u).length then regFld s (aUart u 2) 13 13 1 else setTx s u (uartTx s u ++ [ch])

/-- A read of UART_DATA takes the oldest character (R643). -/
def uartTake (s : State) (u : Nat) : Word × State :=
  match uartRx s u with
  | [] => (0, s)
  | c :: t => (c.zeroExtend 48, setRx s u t)

/-- UART_STAT as read (R643). -/
def uartStat (s : State) (u : Nat) : Word :=
  setFld (setFld (regGet s (aUart u 2)) 22 16 (64 - (uartTx s u).length)) 6 0 (uartRx s u).length

/-- A paced channel is at work (R768). -/
def dmaPaced (s : State) (n : Nat) : Bool :=
  unitRuns s 63 && regB s (aDma n 3) 47 && (dmaChan s n).paced && (dmaChan s n).err = 0 && regB s (aUart (n / 2) 2) (14 + n % 2) &&
  dmaMoved s n < (dmaChan s n).words

/-- Channel 2u + 1 fills free TX entries (R768). -/
def dmaFeed (s : State) (u : Nat) : Nat → State
  | 0 => s
  | k + 1 =>
    let n := 2 * u + 1
    if dmaPaced s n && (uartTx s u).length < 64 then
      match bridgeJob s (jobDma n) fun s => dmaRead s ((dmaChan s n).src + dmaMoved s n) with
      | .held s => s
      | .done none s => modDma s n fun c => { c with err := 1 }
      | .done (some v) s => dmaFeed (regAdd (uartQueue s u (v.extractLsb' 0 9)) (aDma n 3) 23 0 1) u k
    else s

/-- Channel 2u takes received characters while the destination can be written (R768). -/
def dmaDrain (s : State) (u : Nat) : Nat → State
  | 0 => s
  | k + 1 =>
    let n := 2 * u
    if dmaPaced s n && !(uartRx s u).isEmpty then
      match bridgeJob s (jobDma n) fun s => dmaWrite s ((dmaChan s n).dst + dmaMoved s n) (uartTake s u).1 with
      | .done _ s => dmaDrain (regAdd (uartTake s u).2 (aDma n 3) 23 0 1) u k
      | .held s => s
    else s

/-- Source 144 + u (R291): characters wait in the RX FIFO, or an error flag of UART_STAT stands. DESIGN CHOICE, log entry
74. -/
def uartLine (s : State) (u : Nat) : State :=
  setLine s (144 + u) (!(uartRx s u).isEmpty || regF s (aUart u 2) 13 11 ≠ 0)

/-- Paced channels of a UART go on (R768), and its line follows. -/
def uartDma (s : State) (u : Nat) : State := uartLine (dmaDrain (dmaFeed s u 64) u 64) u

/-- A character reaches the RX FIFO (R642, R643). -/
def uartStore (s : State) (u : Nat) (ch : BitVec 9) : State :=
  if 64 ≤ (uartRx s u).length then regFld s (aUart u 2) 12 12 1 else setRx s u (uartRx s u ++ [ch])

/-- The data bits of a character in the UART's format (R642). -/
def uartBits (s : State) (u : Nat) (ch : BitVec 9) : BitVec 9 :=
  match regF s (aUart u 0) 46 45 with
  | 0 => ch &&& 0x7F
  | 1 => ch &&& 0xFF
  | _ => ch

/-- The receiver takes a character (R642): the address match of 9-bit mode, then the FIFO. -/
def uartReceive (s : State) (u : Nat) (ch : BitVec 9) (err : Bool) : State :=
  let cfg := regGet s (aUart u 0)
  let ch := uartBits s u ch
  let s := if err then regFld s (aUart u 2) 11 11 1 else s
  if fld cfg 46 45 = 2 && bit cfg 40 then
    if ch.getLsbD 8 then
      { s with io := { s.io with uartMatched := s.io.uartMatched.set u (ch.toNat % 256 = fld cfg 39 32) } }
    else if s.io.uartMatched.getD u false then uartDma (uartStore s u ch) u
    else uartLine s u
  else uartDma (uartStore s u ch) u

/-- The UART has its pads and is enabled (R630), and its domain runs. -/
def uartLive (s : State) (u : Nat) : Bool :=
  unitRuns s 54 && regB s (aUart u 0) 47 && funcPlaced s (0x20 + 3 * u) && funcPlaced s (0x21 + 3 * u)

/-- The driver is enabled (R642): while an enabled UART has characters to send. -/
def uartDrives (s : State) (u : Nat) : Bool := uartLive s u && !(uartTx s u).isEmpty

/-- UART_CHARACTER_RECEIVE (R642): with ECHO = 0 the line is ignored while the driver is enabled. -/
def execUartCharacterReceive (u : Fin 4) (ch : BitVec 9) (err : Bool) (s : State) : Host.Outcome State Fault Refusal :=
  if uartLive s u.val && (regB s (aUart u.val 0) 41 || !uartDrives s u.val) then .next (uartReceive s u.val ch err) else .next s

/-- UART_CHARACTER_TRANSMIT (R642): the oldest queued character is sent. -/
def execUartCharacterTransmit (u : Fin 4) (s : State) : Host.Outcome State Fault Refusal :=
  match uartTx s u.val with
  | [] => .next s
  | c :: t =>
    if uartLive s u.val then
      let s := setTx s u.val t
      let s := { s with io := { s.io with uartLine := s.io.uartLine.set u.val (s.io.uartLine.getD u.val [] ++ [uartBits s u.val c]) } }
      let s := if regB s (aUart u.val 0) 41 then uartReceive s u.val c false else s
      .next (uartDma s u.val)
    else .next s

/-! ## DMA registers and events -/

/-- A write of DMA_CTL (R766, R767). -/
def dmaCtlWrite (s : State) (rq : Requester) (n : Nat) (v : Word) : State :=
  if bit v 47 && regB s (aDma n 3) 47 then refuseWrite s rq 9 (aDma n 2)
  else
    let s := dmaLine (plainWrite s (aDma n 2) v) n
    if bit v 47 then
      let src := regF s (aDma n 0) 35 0
      let dst := regF s (aDma n 1) 35 0
      let w := fld v 23 0
      let paced := bit v 46
      let srcOk := (paced && n % 2 = 0) || (upto w).all fun k => dmaPlace s (src + k) false
      let dstOk := (paced && n % 2 = 1) || (upto w).all fun k => dmaPlace s (dst + k) true
      let s := modDma s n fun _ => ⟨src, dst, w, paced, if srcOk && dstOk then 0 else 2⟩
      let s := regFld (regFld (regFld s (aDma n 3) 47 47 1) (aDma n 3) 45 44 0) (aDma n 3) 23 0 0
      if paced then uartDma s (n / 2) else s
    else s

/-- DMA_CHANNEL_END (R767): the words are moved and the channel ends. A paced channel ends when it has moved its
words. -/
def execDmaChannelEnd (n : Fin 8) (s : State) : Host.Outcome State Fault Refusal :=
  let n := n.val
  let c := dmaChan s n
  if !regB s (aDma n 3) 47 || !unitRuns s 63 then .next s
  else if c.err ≠ 0 then .next (dmaEnd s n c.err)
  else if c.paced then (if c.words ≤ dmaMoved s n then .next (dmaEnd s n 0) else .next s)
  else .next ((dmaMove s n (c.words - dmaMoved s n)).andThen fun e s => .done () (dmaEnd s n e)).state

/-- A channel is moving words (R667). -/
def dmaBusy (s : State) : Bool := (upto 8).any fun n => regB s (aDma n 3) 47

/-- A forced entry ends every busy channel after some of its words (R669); how many the manual does not fix. -/
def dmaAbortAll (s : State) : Nat × State :=
  (upto 8).foldl (fun (p : Nat × State) n =>
    let (k, s) := p
    if regB s (aDma n 3) 47 then
      let (w, s) := s.takeFree
      let c := dmaChan s n
      let left := if c.paced || c.err ≠ 0 then 0 else w.toNat % (c.words - dmaMoved s n + 1)
      (k + 1, dmaEnd (dmaMove s n left).state n 3)
    else p) (0, s)

end Sys2Proof.Machine
end

