-- ==== Sys2Proof/Machine/Disp.lean ====
section
/-! DEFINITION. The display pipeline (chapter 17): double-buffered registers, blanks, outputs, the tone engine, and
the colour that an output shows at a point. -/

namespace Sys2Proof.Machine

open Sys2Proof

/-! ## Registers (R656, R660, R661) -/

/-- A double-buffered register as it is in force. -/
def shown (s : State) (a : Nat) : Word := sread regReset s.disp.shown a

def planeAddr (p k : Nat) : Nat := aDisp (0x10 + 8 * p + k)

/-- A write of DISP_PLANE_CTL (R660). -/
def planeCtlWrite (s : State) (p : Nat) (v : Word) : State :=
  let a := planeAddr p 0
  plainWrite s a (keepUnless (fld v 45 44 ≠ 3) v (regGet s a) 45 44)

/-- The registers that R656 double-buffers: planes, tone engine and backgrounds. -/
def buffered : List Nat :=
  (upto 6).flatMap (fun p => (upto 5).map (planeAddr p)) ++ [aDisp 2, aDisp 4, aDisp 5, aDisp 6, aDisp 7, aDispOut 0 3,
    aDispOut 1 3] ++ (upto 132).map fun i => aDisp (0x100 + i)

/-- A write of DISP_CTL (R656): the values written so far wait for each output's next blank. -/
def dispCtlWrite (s : State) (v : Word) : State :=
  if bit v 47 then
    { s with disp := { s.disp with
        commitPending := [true, true]
        committed := buffered.foldl (fun l a => swrite regReset l a (regGet s a)) s.disp.committed } }
  else s

/-- The total of the four parts of a line or a frame (R661). -/
def timingTotal (w : Word) : Nat := fld w 47 36 + fld w 35 24 + fld w 23 12 + fld w 11 0

/-- The timing exceeds 3840 × 2160 at 60 Hz, or the pixel clock its limit (R661). -/
def timingBad (s : State) (o pclk : Nat) : Bool :=
  let h := regGet s (aDispOut o 1)
  let v := regGet s (aDispOut o 2)
  600000 < pclk || 3840 < fld h 47 36 || 2160 < fld v 47 36 ||
    3840 * 2160 * 60 * (timingTotal h * timingTotal v) < fld h 47 36 * fld v 47 36 * pclk * 1000

/-- The output shows pictures. -/
def dispRuns (s : State) (o : Nat) : Bool := regB s (aDispOut o 0) 47 && regB s (aDispOut o 4) 46 && unitRuns s (48 + o)

/-- The line that an output scans (R661), from its timings and the time since its latest vertical blank began. The manual does
not number the lines: line 0 is the first active one, and the blank begins at line VACT. DEDUCED, log entry 105. -/
def outLine (s : State) (o : Nat) : Nat :=
  let h := timingTotal (regGet s (aDispOut o 1))
  let v := regGet s (aDispOut o 2)
  let lines := (s.now - s.disp.blankAt.getD o 0) * regF s (aDispOut o 0) 23 0 / (1000000 * h)
  if !dispRuns s o || h = 0 || timingTotal v = 0 then 0 else (fld v 47 36 + lines) % timingTotal v

/-- The output is within its vertical blank. -/
def inBlank (s : State) (o : Nat) : Bool := decide (regF s (aDispOut o 2) 47 36 ≤ outLine s o)

/-- The scan of an output starts, in its vertical blank. -/
def scanStart (s : State) (o : Nat) : State :=
  { s with disp := { s.disp with blankAt := s.disp.blankAt.set o s.now, missing := s.disp.missing.filter (·.1 ≠ o) } }

/-- HPD follows the hot-plug detect pad of an output, where the PAD section places it (R661, R748). -/
def setHpd (s : State) (o : Nat) (on : Bool) : State :=
  regFld s (aDispOut o 4) 47 47 (on && funcPlaced s (0x40 + o)).toNat

/-- No operand says how the hot-plug pad stands: a display that answers on the AUX channel is there, and otherwise it is a free
value. DESIGN CHOICE, log entry 105. -/
def hpdAfter (s : State) (o : Nat) (answered : Bool) : State :=
  if answered then setHpd s o true
  else
    let (w, s) := s.takeFree
    setHpd s o (bit w 0)

/-- A write of DISP_OUT_CTL (R661). While EN = 1 the register is locked, but for EN itself after a failed training. -/
def dispOutCtlWrite (s : State) (rq : Requester) (o : Nat) (v : Word) : State :=
  let a := aDispOut o 0
  let old := regGet s a
  if bit old 47 && regF s (aDispOut o 4) 45 44 = 3 then
    if bit v 47 then regFld s (aDispOut o 4) 45 44 1 else regFld s a 47 47 0
  else if bit old 47 then refuseWrite s rq 9 a
  else
    let n := fld v 45 43
    let lanes := 1 ≤ n && n ≤ 4 && (bit v 46 || n ≠ 3)
    let v := keepUnless lanes v old 45 43
    let v := keepUnless (fld v 42 41 ≠ 3) v old 42 41
    let v := keepUnless (decide (80 ≤ fld v 36 24) && decide (fld v 36 24 ≤ 4500)) v old 36 24
    if bit v 47 && timingBad s o (fld v 23 0) then refuseWrite s rq 9 a
    else
      let s := plainWrite s a v
      if bit v 47 then
        if bit v 46 then scanStart (regFld s (aDispOut o 4) 46 46 1) o
        else regFld (regFld s (aDispOut o 4) 45 44 1) (aDispOut o 4) 46 46 0
      else s

/-- A write of DISP_OUT_H or DISP_OUT_V (R661). -/
def dispTimingWrite (s : State) (rq : Requester) (o k : Nat) (v : Word) : State :=
  if regB s (aDispOut o 0) 47 then refuseWrite s rq 9 (aDispOut o k) else plainWrite s (aDispOut o k) v

/-- A transfer of an output is sent with its LEN payload bytes from DISP_OUT_DATA (R661). -/
def sendXfer (s : State) (o : Nat) : State :=
  let w := regGet s (aDispOut o 5)
  let data := (unpackBytes ((upto 3).map fun k => regGet s (aDispOut o (6 + k))) 18).take (fld w 4 0)
  { s with disp := { s.disp with xfers := s.disp.xfers ++ [(o, w, data)], xferDue := s.disp.xferDue.set o false } }

/-- A write of DISP_OUT_XFER (R661): a DSI-2 packet that is written while video runs waits for the vertical blank. -/
def dispXferWrite (s : State) (o : Nat) (v : Word) : State :=
  let a := aDispOut o 5
  if bit v 47 then
    if regB s a 46 then s
    else
      let s := regFld (plainWrite s a v) a 46 46 1
      if bit v 42 && regB s (aDispOut o 0) 47 && !inBlank s o then
        { s with disp := { s.disp with xferDue := s.disp.xferDue.set o true } }
      else sendXfer s o
  else plainWrite s a v

/-- XFER_COMPLETE (R661). -/
def execXferComplete (o : Fin 2) (result : BitVec 3) (reply : List Word) (s : State) : Host.Outcome State Fault Refusal :=
  let a := aDispOut o.val 5
  if regB s a 46 && result.toNat ≤ 4 && unitRuns s (48 + o.val) && !s.disp.xferDue.getD o.val false then
    let s := if regB s a 42 then s else hpdAfter s o.val (result.toNat ≤ 2)
    let s := regFld (regFld s a 46 46 0) a 45 43 result.toNat
    .next ((upto 3).foldl (fun s k => match reply[k]? with
      | some w => regSet s (aDispOut o.val (6 + k)) w
      | none => s) s)
  else .next s

/-- EDP_LINK_TRAINING (R661). -/
def execEdpLinkTraining (o : Fin 2) (passed : Bool) (s : State) : Host.Outcome State Fault Refusal :=
  let a := aDispOut o.val 4
  if regF s a 45 44 = 1 && unitRuns s (48 + o.val) then
    let s := hpdAfter s o.val passed
    .next (if passed then scanStart (regFld (regFld s a 45 44 2) a 46 46 1) o.val else regFld s a 45 44 3)
  else .next s

/-! ## The tone engine (R658, R659) -/

/-- Threshold k in force, in lux (R659). -/
def toneT (s : State) (k : Nat) : Nat := fld (shown s (aDisp (4 + k))) 47 24

/-- The filtered light as lux (R660). -/
def luxNow (s : State) : Nat := (s.disp.lux / 65536).toNat

/-- The lower band and the weight that the light asks for (R659). -/
def toneWant (s : State) : Nat × Nat :=
  let f := luxNow s
  match (upto 3).find? fun k => toneT s k ≤ f && f < toneT s (k + 1) with
  | some k => (k, 64 * (f - toneT s k) / (toneT s (k + 1) - toneT s k))
  | none => (3, 0)

/-- The tone filter at a tick (R658), rounded either way where the quotient is not exact, and source 301 where f crosses
a threshold (R659). -/
def toneTick (s : State) : State :=
  if !unitRuns s 50 then s
  else
  let ctl := shown s (aDisp 2)
  let x := s.sense.chans.getD (fld ctl 47 43) SenseChan.reset
  let before := luxNow s
  let scale := fld ctl 23 0
  let (f, s) : Int × State :=
    if scale = 0 then (0, s)
    else if x.sample = 0x800000 then (s.disp.lux, s)
    else
      let d := x.sample.toInt * (scale : Int) - s.disp.lux
      let q : Int := 2 ^ fld ctl 42 39
      if d % q = 0 then (s.disp.lux + d / q, s)
      else
        let (w, s) := s.takeFree
        (s.disp.lux + d / q + (bit w 0).toNat, s)
  let s := { s with disp := { s.disp with lux := f } }
  let after := luxNow s
  let s := regFld s (aDisp 0) 23 0 (satN 24 after)
  if (upto 4).any fun k => decide (toneT s k ≤ before) != decide (toneT s k ≤ after) then assertEdge s 301 else s

/-- The applied weight moves at a blank by at most 1/64 toward the one wanted (R659). A band that is entered from below
starts at weight 0, one entered from above at weight 64. -/
def toneStep (s : State) (o : Nat) : State :=
  let (k, w) := toneWant s
  let b := s.disp.band.getD o 0
  let cur := s.disp.weight.getD o 0
  let start := if b = k then cur else if b < k then 0 else 64
  let next := if start < w then start + 1 else if w < start then start - 1 else start
  { s with disp := { s.disp with band := s.disp.band.set o k, weight := s.disp.weight.set o next } }

/-- A quotient of the picture: where it is not exact, the manual does not state which way it is rounded. -/
def qdiv (n d : Nat) : Nat := n / d + (if n % d = 0 then 0 else (Config.pictureUp n d).toNat)

/-- Two values blended with a weight in 64ths, from the lower band. A rising blend is rounded down, as in chapter 18's
example. -/
def toneMix (w a b : Nat) : Nat := if a ≤ b then a + (b - a) * w / 64 else qdiv (a * (64 - w) + b * w) 64

/-- Point i of the curve in force on an output. -/
def curvePoint (s : State) (o i : Nat) : Nat :=
  let k := s.disp.band.getD o 0
  let pt (k : Nat) : Nat := fld (shown s (aDisp (0x100 + 33 * k + i))) 11 0
  toneMix (s.disp.weight.getD o 0) (pt k) (pt (Nat.min 3 (k + 1)))

/-- The curve at a 12-bit level, interpolated linearly between its 33 points (R659). -/
def toneMap (s : State) (o x : Nat) : Nat :=
  let a := curvePoint s o (x / 128)
  let b := curvePoint s o (Nat.min 32 (x / 128 + 1))
  qdiv (a * (128 - x % 128) + b * (x % 128)) 128

/-- The backlight duty of an output (R659). -/
def toneDuty (s : State) (o : Nat) : Nat :=
  let k := s.disp.band.getD o 0
  let d (k : Nat) : Nat := fld (shown s (aDisp (4 + k))) 11 0
  toneMix (s.disp.weight.getD o 0) (d k) (d (Nat.min 3 (k + 1)))

/-! ## Blanks and underruns (R656, R657) -/

/-- A double-buffered register as the latest COMMIT found it. -/
def committed (s : State) (a : Nat) : Word := sread regReset s.disp.committed a

/-- The double-buffered registers that an output's blank applies (R656): those of its planes, old and new, of the tone
engine and of its background. -/
def commitSet (s : State) (o : Nat) : List Nat :=
  let planes := (upto 6).filter fun p =>
    fld (committed s (planeAddr p 0)) 46 46 = o || fld (shown s (planeAddr p 0)) 46 46 = o
  planes.flatMap (fun p => (upto 5).map (planeAddr p)) ++ [aDisp 2, aDisp 4, aDisp 5, aDisp 6, aDisp 7, aDispOut o 3] ++
    (upto 132).map fun i => aDisp (0x100 + i)

/-- VERTICAL_BLANK (R656, R659). The composition and tone engine acts in a domain of its own. -/
def execVerticalBlank (o : Fin 2) (s : State) : Host.Outcome State Fault Refusal :=
  let o := o.val
  if !dispRuns s o then .next s
  else
    let s := scanStart s o
    let s := if s.disp.xferDue.getD o false then sendXfer s o else s
    if !unitRuns s 50 then .next (assertEdge s (298 + o))
    else
    let s :=
      if s.disp.commitPending.getD o false then
        let sh := (commitSet s o).foldl (fun l a => swrite regReset l a (committed s a)) s.disp.shown
        { s with disp := { s.disp with shown := sh, commitPending := s.disp.commitPending.set o false } }
      else s
    .next (assertEdge (toneStep s o) (298 + o))

/-- UNDERRUN (R657) on the line that is scanned. Which planes' data had not arrived, and from which pixel on, no operand says: a
free value keeps it, which names a plane by each of bits 5:0 and the pixel by bits 17:6. -/
def execUnderrun (o : Fin 2) (s : State) : Host.Outcome State Fault Refusal :=
  if dispRuns s o.val then
    let (w, s) := s.takeFree
    let s := { s with disp := { s.disp with missing := s.disp.missing ++ [(o.val, outLine s o.val, w)] } }
    .next (assertEdge (regAddSat s (aDisp 0) 47 24 1) 300)
  else .next s

/-- The pixel of a plane at a point of an output had not arrived when its line was scanned (R657). -/
def pixelMissing (s : State) (o p x y : Nat) : Bool :=
  s.disp.missing.any fun e => e.1 = o && e.2.1 = y && bit e.2.2 p && fld e.2.2 17 6 ≤ x

/-! ## The picture (R654, R655, R659) -/

/-- A colour of three 12-bit components and its alpha. -/
structure Pixel where
  a : Nat
  r : Nat
  g : Nat
  b : Nat
deriving DecidableEq, Repr

/-- An 8-bit component as 12 bits. -/
def wide8 (v : Nat) : Nat := (Config.wide8 (BitVec.ofNat 8 v)).toNat

/-- Source pixel (x, y) of a plane (R654, R660). -/
def planePixel (s : State) (p x y : Nat) : Pixel :=
  let base := fld (shown s (planeAddr p 1)) 35 0
  let row := base + y * fld (shown s (planeAddr p 2)) 23 0
  match fld (shown s (planeAddr p 0)) 45 44 with
  | 0 =>
    let h := fld (peekWord s (row + x / 2)).1 (24 * (x % 2) + 23) (24 * (x % 2))
    ⟨0xFFF, wide8 (h / 65536), wide8 (h / 256 % 256), wide8 (h % 256)⟩
  | 1 =>
    let w := (peekWord s (row + x)).1
    ⟨fld w 47 36, fld w 35 24, fld w 23 12, fld w 11 0⟩
  | _ =>
    let v := fld (peekWord s (row + x / 6)).1 (8 * (x % 6) + 7) (8 * (x % 6))
    let c := shown s (planeAddr p 4)
    ⟨0xFFF, qdiv (fld c 35 24 * v) 255, qdiv (fld c 23 12 * v) 255, qdiv (fld c 11 0 * v) 255⟩

/-- The size a plane is shown at (R654, R660): planes 0 and 1 scale by 0.5 to 4, others not at all; a size outside the
rule is shown unscaled. -/
def planeSize (s : State) (p : Nat) : Nat × Nat :=
  let z := shown s (planeAddr p 2)
  let d := shown s (planeAddr p 3)
  let (w, h, dw, dh) := (fld z 47 36, fld z 35 24, fld d 23 12, fld d 11 0)
  let ok := if p < 2 then w ≤ 2 * dw && dw ≤ 4 * w && h ≤ 2 * dh && dh ≤ 4 * h else dw = w && dh = h
  if ok then (dw, dh) else (w, h)

/-- Two components blended by an alpha of 12 bits. -/
def mixA (a top under : Nat) : Nat := qdiv (top * a + under * (0xFFF - a)) 0xFFF

/-- Two pixels interpolated linearly, f in 1/4096 from the first. -/
def mixPixel (f : Nat) (p q : Pixel) : Pixel :=
  let m (a b : Nat) : Nat := qdiv (a * (4096 - f) + b * f) 4096
  ⟨m p.a q.a, m p.r q.r, m p.g q.g, m p.b q.b⟩

/-- Pixel (x, y) of a plane as it is shown: its source pixel, or the bilinear mean of four where the plane is scaled
(R654). -/
def shownPixel (s : State) (p x y : Nat) : Pixel :=
  let z := shown s (planeAddr p 2)
  let (w, h) := (fld z 47 36, fld z 35 24)
  let (dw, dh) := planeSize s p
  if dw = w && dh = h then planePixel s p x y
  else
    let at_ (n m k : Nat) : Nat × Nat × Nat :=
      let t := if n = m then k * 4096 else Config.scaleAt n m k
      (Nat.min (n - 1) (t / 4096), Nat.min (n - 1) (t / 4096 + 1), t % 4096)
    let (x0, x1, fx) := at_ w dw x
    let (y0, y1, fy) := at_ h dh y
    mixPixel fy (mixPixel fx (planePixel s p x0 y0) (planePixel s p x1 y0))
      (mixPixel fx (planePixel s p x0 y1) (planePixel s p x1 y1))

/-- The background colour of an output (R655). -/
def background (s : State) (o : Nat) : Pixel :=
  let bg := shown s (aDispOut o 3)
  ⟨0xFFF, fld bg 35 24, fld bg 23 12, fld bg 11 0⟩

/-- A point lies in the active area of an output (R660, R661). -/
def activeAt (s : State) (o x y : Nat) : Bool :=
  decide (x < regF s (aDispOut o 1) 47 36) && decide (y < regF s (aDispOut o 2) 47 36)

/-- One plane over the colour beneath it at a point of an output (R655, R659): nothing outside the active area (R660), and the
background colour where its data had not arrived (R657). -/
def planeOver (s : State) (o p x y : Nat) (under : Pixel) : Pixel :=
  let ctl := shown s (planeAddr p 0)
  let d := shown s (planeAddr p 3)
  let (w, h) := planeSize s p
  let (px, py) := (fld d 47 36, fld d 35 24)
  if bit ctl 47 && fld ctl 46 46 = o && px ≤ x && x < px + w && py ≤ y && y < py + h && activeAt s o x y then
    if pixelMissing s o p x y then background s o
    else
    let q := shownPixel s p (x - px) (y - py)
    let m (v : Nat) : Nat := if bit ctl 43 then toneMap s o v else v
    let a := qdiv (q.a * fld ctl 42 31) 0xFFF
    ⟨0xFFF, mixA a (m q.r) under.r, mixA a (m q.g) under.g, mixA a (m q.b) under.b⟩
  else under

/-- The colour of an output at a point (R655): the background, then the planes in order. -/
def outPixel (s : State) (o x y : Nat) : Pixel :=
  (upto 6).foldl (fun u p => planeOver s o p x y u) (background s o)

end Sys2Proof.Machine
end

