-- ==== Sys2Proof/Machine/Pcie.lean ====
section
/-! DEFINITION. PCIe and the USB service port (chapter 17). -/

namespace Sys2Proof.Machine

open Sys2Proof

/-! ## PCIe registers (R644 to R648) -/

/-- Sources 150 and 151 (R648). -/
def pcieLines (s : State) : State :=
  let st := regGet s (aPcie 1)
  setLine (setLine s 150 (bit st 47)) 151 (bit st 46 || bit st 44)

/-- A PCIE_STAT flag is set. -/
def pcieFlag (s : State) (n : Nat) : State := pcieLines (regFld s (aPcie 1) n n 1)

/-- Words that 2^LOG2 bytes fill (R648). -/
def windowWords (bytes : Nat) : Nat := (bytes + 5) / 6

/-- The kinds of one region that cover a window, or none (R645, R648). -/
def windowKind (s : State) (base n : Nat) : Option Nat :=
  if n = 0 || memTop s < base + n then none
  else
    let one := match regionAt s base with
      | some (b, p, k) => if base + n ≤ b + (if k = 1 then p / 2 else p) * 4096 then some k else none
      | none => if (s.struct.image.regions.any fun r =>
          base < (fld r.1 47 24 + fld r.1 23 0) * 4096 && fld r.1 47 24 * 4096 < base + n) then none else some 0
    one

/-- The link goes down. -/
def pcieDown (s : State) : State :=
  let was := regB s (aPcie 0) 41
  let s := regFld (regFld s (aPcie 0) 41 41 0) (aPcie 0) 40 38 0
  let s := regFld s (aPcie 0) 29 24 0
  if was then pcieFlag s 47 else s

/-- A write of PCIE_CTL (R644, R648). -/
def pcieCtlWrite (s : State) (rq : Requester) (v : Word) : State :=
  let old := regGet s (aPcie 0)
  let v := keepUnless (fld v 45 44 ≠ 3) v old 45 44
  let m := mask 46 42 ||| mask 15 0
  let frozen := bit old 47 && (old &&& m) ≠ (v &&& m)
  let roleBad := s.io.pcieRoleFixed && bit old 46 != bit v 46
  let v1 := if bit old 47 then (v &&& ~~~m) ||| (old &&& m) else v
  let v2 := if s.io.pcieRoleFixed then setBit v1 46 (bit old 46) else v1
  let s := plainWrite s (aPcie 0) v2
  let s := if frozen || roleBad then refuseWrite s rq 9 (aPcie 0) else s
  if bit v 47 && !bit old 47 then
    let w := regGet s (aPcie 2)
    let ok := windowKind s (fld w 35 0) (windowWords (2 ^ fld w 47 44 * 1048576)) = some 0
    { s with io := { s.io with pcieRoleFixed := true, pcieEpOk := ok } }
  else if !bit v 47 then pcieDown s else s

/-- A write of PCIE_EP_WIN (R648): LOG2 0 to 12. -/
def epWinWrite (s : State) (rq : Requester) (v : Word) : State :=
  if regB s (aPcie 0) 47 then refuseWrite s rq 9 (aPcie 2)
  else plainWrite s (aPcie 2) (keepUnless (decide (fld v 47 44 ≤ 12)) v (regGet s (aPcie 2)) 47 44)

/-- A write of an outbound window register (R648). -/
def rpOutWrite (s : State) (rq : Requester) (w o : Nat) (v : Word) : State :=
  let a := aPcie (0x10 + 2 * w + o)
  if regB s (aPcie (0x10 + 2 * w)) 47 then refuseWrite s rq 9 a
  else if o = 0 then plainWrite s a (keepUnless (decide (fld v 11 0 ≤ 2048)) v (regGet s a) 11 0)
  else plainWrite s a v

/-- A write of an inbound window register (R648): EN only over one normal or twinned region. -/
def rpInWrite (s : State) (rq : Requester) (w o : Nat) (v : Word) : State :=
  let a := aPcie (0x30 + 2 * w + o)
  if regB s (aPcie (0x30 + 2 * w)) 47 then refuseWrite s rq 9 a
  else if o = 0 then
    let v := keepUnless (decide (16 ≤ fld v 46 42)) v (regGet s a) 46 42
    let k := windowKind s (fld v 35 0) (windowWords (2 ^ fld v 46 42))
    if bit v 47 && k ≠ some 0 && k ≠ some 1 then refuseWrite s rq 9 a else plainWrite s a v
  else plainWrite s a v

/-- A configuration request that PCIE_CFG_CTL starts (R648). -/
def pcieCfgCtlWrite (s : State) (v : Word) : State :=
  if regB s (aPcie 0x41) 47 || !(bit v 1 || bit v 0) then s
  else
    let bus := regF s (aPcie 0x40) 47 40
    let sec := regF s (aPcie 0) 15 8
    let sub := regF s (aPcie 0) 7 0
    if bus = sec || (sec < bus && bus ≤ sub) then
      let out := (bit v 1, if bus = sec then 0 else 1, regGet s (aPcie 0x40), regGet s (aPcie 0x41))
      let s := regFld s (aPcie 0x41) 47 47 1
      { s with io := { s.io with cfgRead := bit v 1, cfgOut := s.io.cfgOut ++ [out] } }
    else regFld s (aPcie 0x41) 46 44 1

/-- The port's link and transaction layers run (R48). -/
def pcieRuns (s : State) : Bool := unitRuns s 44 && unitRuns s 45

/-- CONFIG_COMPLETION (R648). -/
def execConfigCompletion (cpl : BitVec 3) (d : BitVec 32) (s : State) : Host.Outcome State Fault Refusal :=
  if pcieRuns s && regB s (aPcie 0x41) 47 && cpl.toNat ≤ 4 then
    let s := regFld (regFld s (aPcie 0x41) 47 47 0) (aPcie 0x41) 46 44 cpl.toNat
    .next (if s.io.cfgRead && cpl = 0 then regFld s (aPcie 0x41) 31 0 d.toNat else s)
  else .next s

/-- PERST follows the PERST_N pad of an endpoint (R648); without the pad it stays 0. -/
def pciePerst (s : State) (on : Bool) : State :=
  regFld s (aPcie 0) 35 35 (on && !regB s (aPcie 0) 46 && funcPlaced s 0x38).toNat

/-- PCIE_LINK_CHANGE (R648). The state number that LTSSM shows stands in another document, whether training recorded a
correctable error and whether the host asserted PERST_N as the link went down no operand says: all three are free values. The
pad is high while the link is up. Log entry 86. -/
def execPcieLinkChange (up : Bool) (width gen : Nat) (s : State) : Host.Outcome State Fault Refusal :=
  let ctl := regGet s (aPcie 0)
  if up then
    if pcieRuns s && bit ctl 47 && (width = 1 || width = 2 || width = 4) && width ≤ 2 ^ fld ctl 45 44 && gen ≤ fld ctl 43 42 then
      let (w, s) := s.takeFree
      let s := regFld (regFld (regFld s (aPcie 0) 41 41 1) (aPcie 0) 40 38 width) (aPcie 0) 37 36 gen
      let s := pciePerst (regFld s (aPcie 0) 29 24 w.toNat) false
      let s := if bit w 6 then regFld s (aPcie 1) 45 45 1 else s
      .next (if bit ctl 41 then s else pcieFlag s 47)
    else .next s
  else
    let (w, s) := s.takeFree
    let s := pciePerst (pcieDown s) (bit w 7)
    .next (if bit ctl 47 then regFld s (aPcie 0) 29 24 w.toNat else s)

/-! ## Inbound windows (R645 to R647) -/

/-- The words that n bytes from byte b of a window touch (R647): byte B is byte B mod 6 of word BASE + B / 6. -/
def winSpan (b n : Nat) : Nat := if n = 0 then 0 else (b + n - 1) / 6 - b / 6 + 1

/-- Bytes read through a window, and whether a word was poisoned (R647). -/
def winRead (s : State) (base b n : Nat) : Whole (List Byte × Bool) :=
  (bridgeWords s (base + b / 6) (winSpan b n)).andThen fun ws s =>
    .done (((unpackBytes (ws.map (·.1)) (6 * ws.length)).drop (b % 6)).take n, ws.any fun w => w.2 ≠ 0) s

/-- Words, each with the bits that are written, put one after another (R647). -/
def winPuts (s : State) (a : Nat) : List (Word × Word) → Whole Unit
  | [] => .done () s
  | w :: ws => (bridgeMerge s a w.1 w.2 none).andThen fun _ s => winPuts s (a + 1) ws

/-- Bytes written through a window: partial words are filled by a read of the word (R647). -/
def winWrite (s : State) (base b : Nat) (bytes : List Byte) : Whole Unit :=
  let pad (x : Byte) : List Byte := List.replicate (b % 6) x
  winPuts s (base + b / 6) ((packBytes (pad 0 ++ bytes)).zip (packBytes (pad 0 ++ List.replicate bytes.length 0xFF)))

/-- Bytes in parts of n, at least one part. -/
def partsOf (n : Nat) : List Byte → Nat → List (List Byte)
  | l, 0 => [l]
  | l, k + 1 => if l.length ≤ n then [l] else l.take n :: partsOf n (l.drop n) k

/-- A completion is sent, in parts of at most 512 bytes (R644). -/
def pcieAnswer (s : State) (bytes : List Byte) (st : Nat) : State :=
  let l := (partsOf 512 bytes (bytes.length / 512)).map fun x => (x, st)
  bwAdd (count { s with io := { s.io with pcieReply := s.io.pcieReply ++ l } } 60 0x81) 33 bytes.length

/-- What a request through a window does (R647). -/
def winServe (s : State) (r : InboundReq) : Whole Unit :=
  if r.write then winWrite s r.base r.off r.bytes
  else (winRead s r.base r.off r.len).andThen fun x s => .done () (pcieAnswer s x.1 (if x.2 then 1 else 0))

/-- The requests of the link go on, oldest first (R647): one that meets a busy line waits, and the later ones behind it. -/
def pcieGo (s : State) : Nat → State
  | 0 => s
  | n + 1 =>
    match s.io.pcieIn with
    | [] => s
    | r :: t =>
      if !pcieRuns s then s
      else match bridgeJob s jobPcie fun s => winServe s r with
        | .done _ s => pcieGo { s with io := { s.io with pcieIn := t } } n
        | .held s => s

/-- A request through a window, behind those that wait (R647). -/
def winRequest (s : State) (base b : Nat) (write : Bool) (len : Nat) (bytes : List Byte) : State :=
  let s := { s with io := { s.io with pcieIn := s.io.pcieIn ++ [⟨base, b, write, len, bytes⟩] } }
  pcieGo s s.io.pcieIn.length

/-- The inbound window that covers a PCIe byte range: BASE and offset (R646, R648). -/
def rpInFind (s : State) (addr len : Nat) : Option (Nat × Nat) :=
  ((upto 8).find? fun w =>
    let c := regGet s (aPcie (0x30 + 2 * w))
    let p := (regGet s (aPcie (0x31 + 2 * w))).toNat * 65536
    bit c 47 && p ≤ addr && addr + len ≤ p + 2 ^ fld c 46 42).map fun w =>
      (regF s (aPcie (0x30 + 2 * w)) 35 0, addr - (regGet s (aPcie (0x31 + 2 * w))).toNat * 65536)

/-- An Unsupported Request (R645, R646); on a root port it is logged and raises source 151. -/
def pcieUr (s : State) (addr : Nat) (write root : Bool) : State :=
  let s := if write then s else pcieAnswer s [] 2
  if root then
    let s := regFld s (aPcie 1) 35 0 (addr / 65536)
    rqViolation (pcieFlag s 46) 9 .pcieHost write addr
  else s

/-! ## The aperture (R649) -/

/-- The aperture covers a word. -/
def inAperture (a : Nat) : Bool := 0x808000000 ≤ a && a ≤ 0x80FFFFFFF

/-- The PCIe byte address of an aperture word, if an enabled window covers it on a root port. -/
def apertureByte (s : State) (a : Nat) : Option Nat :=
  if !regB s (aPcie 0) 46 then none
  else
    ((upto 8).find? fun w =>
      let c := regGet s (aPcie (0x10 + 2 * w))
      let base := 0x808000000 + fld c 26 16 * 65536
      bit c 47 && base ≤ a && a < base + fld c 11 0 * 65536).map fun w =>
        (regGet s (aPcie (0x11 + 2 * w))).toNat * 65536 +
          6 * (a - (0x808000000 + regF s (aPcie (0x10 + 2 * w)) 26 16 * 65536))

/-- A memory write sent through the aperture. -/
def apertureWrite (s : State) (b : Nat) (words : List Word) : State :=
  bwAdd (count { s with io := { s.io with pcieOut := s.io.pcieOut ++ [(b, unpackBytes words (6 * words.length))] } } 60 0x81) 33
    (6 * words.length)

/-- An aperture read ended with an error or without a completion (R649). -/
def apertureError (s : State) : State := pcieFlag s 44

/-! ## USB (R650 to R652) -/

/-- Sources 152 and 153 (R651). -/
def usbLines (s : State) : State :=
  let st := regGet s (aUsb 1)
  let w1c := mask 44 44 ||| mask 42 41 ||| mask 26 18 ||| mask 8 0
  setLine (setLine s 152 ((st &&& regGet s (aUsb 2) &&& w1c) ≠ 0)) 153 (bit st 41)

/-- A write of USB_EP_CFG (R651). -/
def usbEpCfgWrite (s : State) (j : Nat) (v : Word) : State :=
  let a := aUsbEp j 0
  let v := keepUnless (decide (8 ≤ fld v 26 16) && decide (fld v 26 16 ≤ 1024)) v (regGet s a) 26 16
  let v := if j < 2 then setFld v 46 45 0 else v
  let s := plainWrite s a v
  if bit v 43 then regFld s (aUsbEp j 3) 47 47 0 else s

/-- A write of USB_EP_RING (R651): LOG2SIZE 0 to 12, BASE a multiple of 4. -/
def usbEpRingWrite (s : State) (j : Nat) (v : Word) : State :=
  let a := aUsbEp j 1
  plainWrite s a (setFld (keepUnless (decide (fld v 47 44 ≤ 12)) v (regGet s a) 47 44) 1 0 0)

/-- A write of USB_EP_TAIL, as R607 states for PQ_TAIL (R651). -/
def usbEpTailWrite (s : State) (rq : Requester) (j : Nat) (v : Word) : State :=
  if 2 ^ regF s (aUsbEp j 1) 47 44 < (fld v 15 0 + 65536 - regF s (aUsbEp j 3) 15 0) % 65536 then
    refuseWrite s rq 9 (aUsbEp j 2)
  else plainWrite s (aUsbEp j 2) v

/-- The controller presents itself to the host (R651); without its VBUS pad it stays down (R630, R650). -/
def usbLive (s : State) : Bool :=
  regB s (aUsb 0) 47 && regB s (aUsb 0) 45 && unitRuns s 46 && unitRuns s 47 && funcPlaced s 0x3C

/-- USB_SETUP (R652). -/
def execUsbSetup (bytes : List Byte) (s : State) : Host.Outcome State Fault Refusal :=
  if usbLive s && bytes.length = 8 then
    let s := regSet s (aUsb 3) ((packBytes (bytes.take 6)).getD 0 0)
    let s := regSet s (aUsb 4) ((packBytes (bytes.drop 6)).getD 0 0)
    let s := regFld (regFld s (aUsbEp 0 0) 44 44 0) (aUsbEp 1 0) 44 44 0
    .next (usbLines (regFld s (aUsb 1) 42 42 1))
  else .next s


/-- A place that USB may use (R652). -/
def usbPlace (s : State) (a n : Nat) : Bool := dramSpan s (fun k => k = 0 || k = 1) a n

/-- A descriptor of an endpoint ring has completed (R651, R652): HEAD advances, and STATUS 1 or 2 stops the ring. -/
def usbPass (s : State) (j : Nat) (st : Nat) (irq : Bool) : State :=
  let s := regFld s (aUsbEp j 3) 15 0 (regF s (aUsbEp j 3) 15 0 + 1)
  let s := if st = 1 || st = 2 then regFld (regFld s (aUsbEp j 3) 47 47 1) (aUsbEp j 3) 46 40 st else s
  let b := (if j % 2 = 0 then 0 else 18) + j / 2
  if irq then usbLines (regFld s (aUsb 1) b b 1) else s

/-- D2 zero, D3, and then D1 with OWN = 0 of a descriptor (R652), and the ring goes on. -/
def usbFinish (s : State) (j ring : Nat) (d1 : Word) (st done : Nat) : Whole Unit :=
  (bridgePuts s (ring + 2) [0, mk 47 40 st ||| mk 23 0 done]).andThen fun _ s =>
    (bridgePut s (ring + 1) (setBit d1 47 false) false none).andThen fun _ s => .done () (usbPass s j st (bit d1 46))

/-- The address of an endpoint's descriptor at HEAD (R651). -/
def usbDesc (s : State) (j : Nat) : Nat :=
  regF s (aUsbEp j 1) 35 0 + 4 * (regF s (aUsbEp j 3) 15 0 % 2 ^ regF s (aUsbEp j 1) 47 44)

/-- An endpoint has a descriptor to work on: enabled, not stopped, one posted (R651). -/
def usbPosted (s : State) (j : Nat) : Bool :=
  regB s (aUsbEp j 0) 47 && !regB s (aUsbEp j 3) 47 && regF s (aUsbEp j 3) 15 0 ≠ regF s (aUsbEp j 2) 15 0

/-- The packets of an IN descriptor (R652): MAXPKT bytes each, and an empty one after a whole number of them where ZLP asks for
it, or for no data at all. -/
def usbPackets (s : State) (j : Nat) (d1 : Word) (l : List Byte) : List (Nat × List Byte) :=
  let n := Nat.max 1 (regF s (aUsbEp j 0) 26 16)
  let last := if bit d1 45 && !l.isEmpty && l.length % n = 0 then [[]] else []
  (partsOf n l (l.length / n) ++ last).map fun p => (j, p)

/-- The data of a USB transfer (R652): STATUS, bytes moved, and what an IN endpoint sends. -/
def usbMove (s : State) (j : Nat) (d0 : Word) (len : Nat) (bytes : List Byte) : Whole (Nat × Nat × Option (List Byte)) :=
  if j % 2 = 1 && len = 0 then .done (4, 0, none) s
  else if len ≠ 0 && !(d0.toNat < 2 ^ 36 && usbPlace s d0.toNat ((len + 5) / 6)) then .done (1, 0, none) s
  else if j % 2 = 0 then
    (bridgeWords s d0.toNat ((len + 5) / 6)).andThen fun ws s =>
      .done (if ws.any fun w => w.2 ≠ 0 then (2, 0, none) else (0, len, some (unpackBytes (ws.map (·.1)) len))) s
  else
    let got := bytes.take len
    (winWrite s d0.toNat 0 got).andThen fun _ s => .done (if len < bytes.length then 5 else 0, got.length, none) s

/-- The descriptor at HEAD of an endpoint completes (R652): it fails, or its data move. -/
def usbWork (s : State) (j : Nat) (bytes : List Byte) (fails : Bool) : Whole Unit :=
  let ring := usbDesc s j
  let pass (s : State) : State := { s with io := { s.io with usbFail := s.io.usbFail.filter (· ≠ j) } }
  if !usbPlace s ring 4 then .done () (pass (usbPass s j 1 false))
  else (bridgeWords s ring 2).andThen fun d s =>
    let d0 := d.getD 0 (0, 0)
    let d1 := d.getD 1 (0, 0)
    if d0.2 ≠ 0 || d1.2 ≠ 0 then (usbFinish s j ring d1.1 2 0).andThen fun _ s => .done () (pass s)
    else if fails then (usbFinish s j ring d1.1 7 0).andThen fun _ s => .done () (pass s)
    else (usbMove s j d0.1 (fld d1.1 23 0) bytes).andThen fun r s =>
      (usbFinish s j ring d1.1 r.1 r.2.1).andThen fun _ s => match r.2.2 with
        | some l => .done () { s with io := { s.io with epSent := s.io.epSent ++ usbPackets s j d1.1 l } }
        | none => .done () s

/-- USB_DESCRIPTOR_COMPLETION (R652): `bytes` arrived on an OUT endpoint; `status` 7 says that the transfer failed. -/
def execUsbDescriptorCompletion (e : Fin 18) (bytes : List Byte) (status : BitVec 8) (s : State) :
    Host.Outcome State Fault Refusal :=
  let j := e.val
  let fails := s.io.usbFail.contains j
  if !(regB s (aUsb 0) 47 && unitRuns s 47 && usbPosted s j) && !fails then .next s
  else if (regB s (aUsbEp j 0) 44 || !usbLive s) && status ≠ 7 && !fails then .next s
  else .next (runJob s (jobUsb j) fun s => usbWork s j bytes (status = 7 || fails))

/-- A descriptor of an endpoint that is in progress fails with the link (R652), once its writes can be made. -/
def usbFailGo (s : State) (j : Nat) : State :=
  if s.io.usbFail.contains j && unitRuns s 47 then runJob s (jobUsb j) fun s => usbWork s j [] true else s

/-- A bus reset, a disconnect or CONNECT = 0 fails the descriptors in progress (R652). Whether the controller has begun the one
at HEAD the manual does not say: a free value for each endpoint. DESIGN CHOICE, log entry 180. -/
def usbFailAll (s : State) : State :=
  (upto 18).foldl (fun s j =>
    if usbPosted s j && !s.io.usbFail.contains j then
      let (w, s) := s.takeFree
      if bit w 0 then
        usbFailGo (dropJob { s with io := { s.io with usbFail := j :: s.io.usbFail } } (jobUsb j)) j
      else s
    else s) s

/-- SPEED changes (R651): LINKCHG is set, and where the port is no longer connected its transfers fail (R652). -/
def usbSpeed (s : State) (speed : Nat) : State :=
  if regF s (aUsb 1) 46 45 = speed then s
  else
    let s := regFld (regFld s (aUsb 1) 46 45 speed) (aUsb 1) 41 41 1
    if speed = 0 then usbFailAll s else s

/-- A write of USB_CTL (R651): a port that is disabled, or presents itself no more, is not connected. -/
def usbCtlWrite (s : State) (v : Word) : State :=
  let s := plainWrite s (aUsb 0) v
  usbLines (if bit v 47 && bit v 45 then s else usbSpeed s 0)

/-- USB_BUS_RESET (R651, R652). -/
def execUsbBusReset (s : State) : Host.Outcome State Fault Refusal :=
  if usbLive s then .next (usbLines (usbFailAll (regFld s (aUsb 1) 44 44 1))) else .next s

/-- USB_LINK_CHANGE (R651, R652): with SS = 0 the port reaches high speed at most. -/
def execUsbLinkChange (vbus : Bool) (speed : BitVec 2) (susp : Bool) (s : State) : Host.Outcome State Fault Refusal :=
  if clockStopped s 47 then .next s
  else
    let vbus := vbus && funcPlaced s 0x3C
    let speed := if usbLive s && speed.toNat ≤ 2 then Nat.min speed.toNat (if regB s (aUsb 0) 46 then 2 else 1) else 0
    let turned := regB s (aUsb 1) 47 != vbus
    let s := regFld (regFld s (aUsb 1) 47 47 vbus.toNat) (aUsb 1) 43 43 susp.toNat
    .next (usbLines (usbSpeed (if turned then regFld s (aUsb 1) 41 41 1 else s) speed))

/-- What waited for a line behind the bridge goes on: the pinna engine, the link, the UARTs' paced channels and the endpoints
that fail (R393). -/
def bridgeGoesOn (s : State) : State :=
  let s := pcieGo (pinnaJobs s) s.io.pcieIn.length
  let s := (upto 4).foldl (fun s u => if dmaPaced s (2 * u) || dmaPaced s (2 * u + 1) then uartDma s u else s) s
  s.io.usbFail.foldl usbFailGo s

end Sys2Proof.Machine
end

