-- ==== Sys2Proof/Machine/Pwr.lean ====
section
/-! DEFINITION. Power states and wake (chapter 18) and the thermal monitor (chapter 22): votes, agreements, refusals,
the commit at a tick, wakes, Quiescent, and clock frequencies. -/

namespace Sys2Proof.Machine

open Sys2Proof

/-! ## Domains -/

/-- A domain of the Run-only class (R663). -/
def runOnly (d : Nat) : Bool := (16 ≤ d && d < 20) || (24 ≤ d && d < 34) || (55 ≤ d && d < 59) || 60 ≤ d

/-- The cores of a domain. -/
def domainCores (s : State) (d : Nat) : List CoreId :=
  ((upto 33).filterMap coreOfAgent).filter fun c => coreDomain s c = d && (match c with
    | .frond i => (groupOf s i.val).isSome
    | _ => true)

/-- An interrupt that wakes the domain's core (R672). -/
def wakeInterrupt (s : State) (d : Nat) : Bool :=
  (domainCores s d).any fun c => (upto 320).any fun n => deliverable s (coreNum c) n

/-- The domains that a wake source wakes (R673), by its bit of PWR_WAKE_CFG less 36. -/
def wakeDomains (b : Nat) : List Nat :=
  if b < 8 then [54] else if b = 8 then [53] else if b = 9 then [40, 41] else if b = 10 then [42, 43]
  else [34, 35, 36, 37, 38, 39]

/-! ## Votes (R665 to R671) -/

/-- The reasons of R667 that stand for a domain. -/
def refusesFor (s : State) (d r : Nat) : Bool :=
  match r with
  | 1 => (d = 59 && pinnaBusy s || d = 63 && dmaBusy s) && !(s.power.force && bit (s.struct.image.power.getD d 0) 3)
  | 2 =>
    if 40 ≤ d && d < 44 then regB s (aEth ((d - 40) / 2) 0) 41 || unitSending s 0 ((d - 40) / 2)
    else if d = 44 || d = 45 then regB s (aPcie 0) 41
    else if d = 46 || d = 47 then regF s (aUsb 1) 46 45 ≠ 0
    else if d = 48 || d = 49 then regB s (aDispOut (d - 48) 0) 47
    else if d = 50 then regB s (aDispOut 0 0) 47 || regB s (aDispOut 1 0) 47
    else d = 54 && ((upto 8).any fun n => unitSending s 2 n)
  | 3 =>
    if d = 51 || d = 52 then
      ((upto 16).any fun k => regB s (aSenseCfg (16 * (d - 51) + k)) 47) || (upto 8).any fun k => regF s (aExcCfg k) 47 46 ≠ 0
    else d = 53 && regB s aTouchCtl 47
  | 4 => wakeInterrupt s d
  | 6 =>
    if 20 ≤ d && d < 24 then !(joinedIn s (d - 20)).isEmpty
    else 34 ≤ d && d < 40 && regF s aRingStat 47 45 ≠ 0
  | _ => false

/-- A vote ends without a commit or with one (R666, R668, R670). -/
def endVote (s : State) (result : Nat) : State :=
  let s := (upto 64).foldl (fun s d => regFld s (aPwrPolicy d) 45 45 0) s
  let s := regFld (regFld s aPwrVote 43 42 0) aPwrVote 41 40 result
  { s with power := { s.power with participants := [], agreed := [], startNext := s.power.pendingGo.isSome } }

/-- A participant refuses or withdraws (R668). -/
def refuseVote (s : State) (d reason : Nat) : State :=
  let others := s.power.agreed.any (· ≠ d)
  let a := aPwrCnt s.power.target
  let s := if others then regAddSat s a 31 16 1 else regAddSat s a 47 32 1
  let s := regFld (regFld s a 15 8 d) a 7 4 reason
  assertEdge (endVote s (if others then 3 else 2)) 303

/-- A vote completes when the last participant has agreed (R666). -/
def settleVote (s : State) : State :=
  if s.power.participants.all fun d => s.power.agreed.contains d then
    { regFld s aPwrVote 43 42 2 with power := { s.power with doneTb := s.now } }
  else s

/-- A vote starts (R665, R675). -/
def startVote (s : State) (force quiescent : Bool) : State :=
  let live := (upto 64).filter fun d => domState s d ≠ 3
  let ps := if quiescent then live else live.filter fun d => regF s (aPwrPolicy d) 41 40 ≠ domState s d
  let early := ps.filter fun d =>
    if quiescent then domState s d = 2 else regF s (aPwrPolicy d) 41 40 < domState s d
  let deepest := ps.foldl (fun m d => Nat.max m (regF s (aPwrPolicy d) 41 40)) 0
  let s := early.foldl (fun s d => regFld s (aPwrPolicy d) 45 45 1) s
  let s := { s with power := { s.power with
    participants := ps, agreed := early, force := force, quiescentVote := quiescent,
    target := if quiescent then 2 else if deepest = 2 then 1 else 0, voteTb := s.now, startNext := false
    goals := ps.map fun d => (d, regF s (aPwrPolicy d) 41 40) } }
  settleVote (regFld s aPwrVote 43 42 1)

/-- A write of PWR_VOTE (R665, R670, R675). -/
def voteWrite (s : State) (rq : Requester) (v : Word) : State :=
  let high := 3 ≤ rqLevel s rq
  let asks := bit v 47 && (bit v 46 || bit v 45)
  let s := regFld s aPwrVote 15 0 (fld v 15 0)
  let s := if asks && !high then refuseWrite s rq 1 aPwrVote else s
  let force := bit v 46 && high
  let quies := bit v 45 && high
  if !bit v 47 then s
  else if regF s aPwrVote 43 42 ≠ 0 || s.power.startNext then
    { regFld s aPwrVote 44 44 1 with power := { s.power with pendingGo := some (force, quies) } }
  else startVote s force quies

/-- The state that the running vote takes a participant to: its TARGET when the vote started (R670). -/
def goalOf (s : State) (d : Nat) : Nat := ((s.power.goals.find? fun e => e.1 = d).map (·.2)).getD 0

/-- The participant has stopped, so that it may agree (R665, R671, R675). -/
def canAgree (s : State) (d : Nat) : Bool :=
  ((domainCores s d).all fun c =>
    let k := s.core c
    (k.run ≠ .running || (k.waiting.isNone && k.storeBuffer.isEmpty)) && k.abandoned.isEmpty && agentQuiet s (coreNum c)) &&
  (!(16 ≤ d && d < 20) || (s.coh.txns.isEmpty && s.coh.net.isEmpty)) &&
  (!(26 ≤ d && d < 34) || s.memctl.writeBacks.isEmpty) &&
  (d ≠ 63 || s.coh.steps.all fun e => s.power.force && jobDma 0 ≤ e.job && e.job ≤ jobDma 7) &&
  (d ≠ 25 || s.power.participants.all fun p => p = 25 || s.power.agreed.contains p) &&
  !([1, 2, 3, 4, 6].any fun r => refusesFor s d r)

/-- The cores of a domain write back and release their caches (R386, R671). -/
def emptyCaches (s : State) (d : Nat) : State :=
  (domainCores s d).foldl (fun s c => releaseCaches s (coreNum c)) s

/-- AGREE (R665, R669, R671, R675). In a forced entry the transfers of a domain with FORCE = 1 are aborted first; one whose
line is busy still holds the agreement up. -/
def execAgree (d : Fin 64) (s : State) : Host.Outcome State Fault Refusal :=
  let d := d.val
  if regF s aPwrVote 43 42 = 1 && s.power.participants.contains d && !s.power.agreed.contains d && canAgree s d then
    let (n, s) := if s.power.force && d = 59 then pinnaAbortAll s else if s.power.force && d = 63 then dmaAbortAll s else (0, s)
    let s := regAddSat s aPwrVote 15 0 n
    if d = 59 && pinnaBusy s then .next s else
    let s := if s.power.quiescentVote || goalOf s d = 2 then emptyCaches s d else s
    let s := if d = 25 && s.power.quiescentVote then copyLogs s else s
    let s := regFld s (aPwrPolicy d) 45 45 1
    .next (settleVote { s with power := { s.power with agreed := d :: s.power.agreed } })
  else .next s

/-- REFUSE (R667, R668): a participant refuses for a reason that stands, or withdraws its agreement for reason 4. -/
def execRefuse (d : Fin 64) (reason : Nat) (s : State) : Host.Outcome State Fault Refusal :=
  let d := d.val
  let ph := regF s aPwrVote 43 42
  let agreed := s.power.agreed.contains d
  if (ph = 1 || ph = 2) && s.power.participants.contains d && refusesFor s d reason && (!agreed || reason = 4) then
    .next (refuseVote s d reason)
  else .next s

/-- VOTE_ANSWER_TIMEOUT (R667): no answer within VOTE_TO_US. -/
def execVoteAnswerTimeout (d : Fin 64) (s : State) : Host.Outcome State Fault Refusal :=
  if regF s aPwrVote 43 42 = 1 && s.power.participants.contains d.val && !s.power.agreed.contains d.val &&
      s.power.voteTb + regF s aPwrCtl 15 0 * 1000 ≤ s.now then
    .next (refuseVote s d.val 5)
  else .next s

/-- A write of PWR_CTL: 1 to 65 535 (R681). -/
def pwrCtlWrite (s : State) (v : Word) : State := if fld v 15 0 = 0 then s else plainWrite s aPwrCtl v

/-- A write of PWR_WAKE_CFG: TOUCH_MS 10 to 1000 (R681). -/
def wakeCfgWrite (s : State) (v : Word) : State :=
  let ms := fld v 35 26
  plainWrite s aPwrWakeCfg (keepUnless (decide (10 ≤ ms) && decide (ms ≤ 1000)) v (regGet s aPwrWakeCfg) 35 26)

/-- A write of PWR_DOM_POLICY (R82, R663, R681). -/
def policyWrite (s : State) (rq : Requester) (d : Nat) (v : Word) : State :=
  let t := fld v 41 40
  let limit := Nat.min (if runOnly d then 0 else 2) (regF s (aPwrPolicy d) 1 0)
  if t = 3 then s
  else if limit < t then refuseWrite s rq 6 (aPwrPolicy d)
  else regFld s (aPwrPolicy d) 41 40 t

/-- A write of CLK_DOM_FREQ (R82, R679). -/
def freqWrite (s : State) (rq : Requester) (d : Nat) (v : Word) : State :=
  let f := fld v 23 0
  let e := clockWord s d
  if !(bit e 47 && bit e 46 && fld e 45 24 ≤ f && f ≤ fld e 23 0) then refuseWrite s rq 6 (aClkFreq d)
  else if 20 ≤ d && d ≤ 24 && (upto 4).any fun g => !(joinedIn s g).isEmpty then refuseWrite s rq 9 (aClkFreq d)
  else
    let s := plainWrite s (aClkFreq d) v
    { s with power := { s.power with pendFreq := d :: s.power.pendFreq.filter (· ≠ d) } }

/-! ## Wakes (R672, R673) -/

/-- A core leaves Dormant (R357, R403). -/
def wakeCore (s : State) (c : CoreId) : State :=
  s.modCore c fun k => { k with
    tlb := if k.tlb.invalWhileDormant then Tlbs.reset else k.tlb
    contention := [] }

/-- The watchdog pauses with its core or group (R326). -/
def wdogOf (s : State) (d w : Nat) : Bool :=
  if w < 16 then w = d
  else if w < 32 then groupOf s (w - 16) = some (d - 20) && 20 ≤ d
  else w - 32 = d - 20 && 20 ≤ d

/-- A core enters Dormant: it acknowledges at once every broadcast operation that it has not received, and invalidates
for it at its wake (R357, R362). -/
def sleepCore (s : State) (c : CoreId) : State :=
  let n := coreNum c
  if s.sys.tlbOps.any fun e => e.2.2.contains n then
    let s := s.modCore c fun k => { k with tlb := { k.tlb with invalWhileDormant := true } }
    { s with sys := { s.sys with tlbOps :=
      (s.sys.tlbOps.map fun e => (e.1, e.2.1, e.2.2.filter (· ≠ n))).filter fun e => !e.2.2.isEmpty } }
  else s

/-- A domain enters Dormant: its caches are empty and its watchdogs pause (R326, R386). -/
def enterDormant (s : State) (d : Nat) : State :=
  pauseWdogs ((domainCores s d).foldl sleepCore (emptyCaches s d)) (wdogOf s d)

/-- A domain's STATE changes at a commit or a wake. -/
def setDomain (s : State) (d st : Nat) : State :=
  let old := domState s d
  let s := regFld s (aPwrPolicy d) 47 46 st
  let s := if old = 2 && st ≠ 2 then resumeWdogs ((domainCores s d).foldl wakeCore s) (wdogOf s d) else s
  if old ≠ 2 && st = 2 then enterDormant s d else s

/-- A domain returns to Run by itself (R672). -/
def wakeDomain (s : State) (d : Nat) : State :=
  let old := domState s d
  let s := regFld (setDomain s d 0) (aPwrPolicy d) 41 40 0
  if old = 2 then assertEdge s 304 else s

/-- A participant of the running vote refuses, or withdraws its agreement, when a wake condition arises for it (R667,
R668). -/
def wakeRefuses (s : State) (ds : List Nat) : State :=
  let ph := regF s aPwrVote 43 42
  match if ph = 1 || ph = 2 then ds.find? fun d => s.power.participants.contains d else none with
  | some d => refuseVote s d 4
  | none => s

/-- DORMANT_WAKE (R668, R672). -/
def execDormantWake (d : Fin 64) (s : State) : Host.Outcome State Fault Refusal :=
  let d := d.val
  let st := domState s d
  let source := st = 2 && (upto 12).any fun b => (wakeDomains b).contains d && regB s aPwrWakeCfg (36 + b)
  if !s.power.quiescent && (st = 1 || st = 2) && (wakeInterrupt s d || source) then
    .next (wakeDomain (wakeRefuses s [d]) d)
  else .next s

/-- The pad that a wake source watches is placed (R631, R673, R748). -/
def wakePadded (s : State) (b : Nat) : Bool :=
  if b < 8 then funcPlaced s (0x11 + 2 * b) else if b = 9 || b = 10 then funcPlaced s (0x34 + (b - 9)) else true

/-- The ring's wake pattern names this node or every node (R562). -/
def wakeNamed (s : State) (node : Nat) : Bool := node = nodeNum s || node = 0xFFF

/-- WAKE_SOURCE (R562, R668, R673, R677). -/
def execWakeSource (e : WakeEvent) (s : State) : Host.Outcome State Fault Refusal :=
  let b := e.bit.val
  if !regB s aPwrWakeCfg (36 + b) || !wakePadded s b || b = 11 && !wakeNamed s e.node then .next s
  else if s.power.quiescent then
    let s := regFld s aPwrWakeStat (36 + b) (36 + b) 1
    .next { s with power := { s.power with wakePending := true } }
  else
    .next ((wakeDomains b).foldl (fun s d => if domState s d = 2 then wakeDomain s d else s) (wakeRefuses s (wakeDomains b)))

/-- TOUCH_MS have passed since the latest touch wake scan, or none has run since the entry (R674). -/
def touchScanDue (s : State) : Bool :=
  s.power.touchSums.isNone || decide (s.power.touchRef + regF s aPwrWakeCfg 35 26 * 1000000 ≤ s.ref)

/-- TOUCH_WAKE_SCAN (R674): the sums of the 80 RX lines. -/
def execTouchWakeScan (sums : List Nat) (s : State) : Host.Outcome State Fault Refusal :=
  if s.power.quiescent && regB s aPwrWakeCfg 44 && !regB s aTouchCtl 47 && touchScanDue s then
    let s := { s with power := { s.power with touchRef := s.ref } }
    match s.power.touchSums with
    | none => .next { s with power := { s.power with touchSums := some sums } }
    | some old =>
      let thr := regF s aPwrWakeCfg 15 0
      let moved := (old.zip sums).any fun p => thr < (if p.1 < p.2 then p.2 - p.1 else p.1 - p.2)
      if moved then .next { regFld s aPwrWakeStat 44 44 1 with power := { s.power with wakePending := true } } else .next s
  else .next s

/-! ## The tick (R666, R676, R679) -/

/-- The commit of Quiescent (R662, R676). -/
def enterQuiescent (s : State) : State :=
  let s := (upto 64).foldl emptyCaches s
  let s := { s with outs := s.outs.map fun o => if o.kind = 0 then { o with front := o.safe } else o }
  let s := dacsOff s
  let s := closeRing s
  let s := { s with
    tick := { s.tick with running := false }
    cnt := { s.cnt with windowValid := false }
    power := { s.power with quiescent := true, enteredTb := s.ref, wakePending := false, touchSums := none } }
  pauseWdogs (regFld s aTickStat 1 0 0) fun _ => true

/-- A participant for which a wake condition stands (R668); one that moves to a shallower state has none. -/
def withdraws (s : State) (d : Nat) : Bool :=
  (s.power.quiescentVote && domState s d ≠ 2 || domState s d < goalOf s d) && refusesFor s d 4

/-- The power controller at a tick (R666, R668, R670): a vote completed before this nanosecond commits, unless a wake
condition has arisen, or a held GO starts. -/
def powerTick (s : State) : State :=
  if regF s aPwrVote 43 42 = 2 && s.power.doneTb < s.now then
    match s.power.participants.find? (withdraws s) with
    | some d => refuseVote s d 4
    | none =>
    let quies := s.power.quiescentVote
    let ps := s.power.participants
    let s := if quies then s else ps.foldl (fun s d => setDomain s d (goalOf s d)) s
    let s := assertEdge (endVote s 1) 302
    if quies then enterQuiescent s else s
  else if s.power.startNext then
    match s.power.pendingGo with
    | some (f, q) =>
      let s := { regFld s aPwrVote 44 44 0 with power := { s.power with pendingGo := none, startNext := false } }
      startVote s f q
    | none => s
  else s

/-- Frequencies written since the last tick apply (R679). -/
def freqTick (s : State) : State :=
  let s := s.power.pendFreq.foldl (fun s d => regFld s (aClkFreq d) 47 24 (regF s (aClkFreq d) 23 0)) s
  { s with power := { s.power with pendFreq := [] } }

/-! ## The exit from Quiescent (R677) -/

/-- The tick starts one TICK_PERIOD from now on a master or a node without a ring (R36, R677). -/
def startTick (s : State) : State :=
  let p := regF s aTickPeriod 23 0
  let s := regFld (regFld s aTickStat 1 0 1) aTickStat 47 24 p
  { s with tick := { s.tick with running := true, curNs := p, next := s.now + p, pendingPeriod := [] } }

/-- The ring ports train after release or an exit, or the bypass stays (R555, R561, R677). The node joins anew: what it
kept of an earlier ring is gone, but for what R556 keeps until reset; each port wraps until its link is up (R548). -/
def openRing (s : State) : State :=
  if regB s aRingCfg 34 && !regB s aRingCtl 47 then
    let r := s.ring
    let s := regFld s aRingStat 47 45 1
    let s := { s with
      sys := { s.sys with bypass := false }
      ring := { r with
        aligned := false, header := false, hdrEast := false, joinedFrames := 0, dupStreak := 0, holdoverFrames := 0
        claims := 0, claimed := false, lowerClaim := false, handover := none, announced := false, handed := false
        stop := false, streaks := [], narrowSeen := false, clearSeen := 0, paceNow := false } }
    let s := (upto 2).foldl (fun s p => trainPort (regFld s (aRingPort p) 6 6 1) p) s
    if trained s then assertEdge (regFld s aRingStat 47 45 2) 237 else s
  else closeRing s

/-- A channel fails step 1, 3 or 4 of its training at a wake (R450, R457). -/
def failsWake (train : List Nat) (c : Nat) : Bool :=
  let t := train.getD c 0
  t = 1 || t = 3 || t = 4

/-- The time base takes the reference cycles counted since the entry (R677): whole periods of 40 ns, and where `late` one
more, within the bound of ±40 ns. -/
def countSlept (s : State) (late : Bool) : State :=
  let n := (s.ref - s.power.enteredTb) / 40 + late.toNat
  { s with tb := s.tb + BitVec.ofNat 96 (40 * n) }

/-- The controllers repeat their training on wake (R450): `train` holds the TRAIN code of each failing channel. -/
def wakeChannels (s : State) (train : List Nat) : State :=
  let s := ((channelsIn s).filter (failsWake train)).foldl
    (fun s c => retireChannel (regFld s (aMemChStat c) 11 8 (train.getD c 0)) c) s
  { s with memctl := { s.memctl with refreshDue := List.replicate 8 s.now } }

/-- Every domain is back in its state before entry (R677, step 4): the ring or the tick starts (step 5). A second
retirement's hold stands (R448, R739). -/
def wakeModule (s : State) : State :=
  match s.sys.mode with
  | .running =>
    let s := openRing s
    if !regB s aRingCfg 34 || regB s aRingCfg 35 then startTick s else s
  | _ => s

/-- QUIESCENT_EXIT (R677). -/
def execQuiescentExit (late : Bool) (train : List Nat) (s : State) : Host.Outcome State Fault Refusal :=
  if s.power.quiescent && s.power.wakePending then
    let slept := (s.ref - s.power.enteredTb) / 1000000
    let s := countSlept s late
    let s := resumeWdogs { s with power := { s.power with quiescent := false, wakePending := false } } fun w =>
      !((upto 64).any fun d => domState s d = 2 && wdogOf s d w)
    let s := regFld (wakeChannels s train) aPwrWakeStat 31 0 (satN 32 slept)
    .next (assertEdge (wakeModule s) 304)
  else .next s

/-! ## The thermal monitor (R756, R757) -/

/-- A write of THERM_CFG: 90 to 118 °C (R757). -/
def thermCfgWrite (s : State) (v : Word) : State :=
  let w := fld v 11 0
  if 360 ≤ w && w ≤ 472 then plainWrite s aThermCfg v else s

/-- The highest of the readings. -/
def maxReading (l : List Int) : Int := l.foldl (fun m v => if m < v then v else m) (l.headD 0)

/-- THERMAL_MONITOR_READ (R756), readings in quarters of a degree: warning, critical, and the trip at 125 °C. -/
def execThermalMonitorRead (die : List Int) (dram : Int) (s : State) : Host.Outcome State Fault Refusal :=
  if s.sys.mode = .off then .next s
  else
    let t := maxReading die
    let old := regGet s aThermStat
    let s := regFld (regFld s aThermStat 47 36 (uns 12 t)) aThermStat 35 24 (uns 12 dram)
    let thr : Int := (regF s aThermCfg 11 0 : Int)
    let level (was : Bool) (at_ : Int) : Bool := if at_ ≤ t then true else was && at_ - 8 < t
    let warn := level (bit old 1) thr
    let crit := level (bit old 2) 480
    let s := setLine (regFld s aThermStat 1 1 warn.toNat) 305 warn
    let s := setLine (regFld s aThermStat 2 2 crit.toNat) 306 crit
    let sensor := (die.findIdx? fun v => v = t).getD 0
    let s := if crit && !bit old 2 then logFault s 0x0E sensor 306 0 (regGet s aThermStat) else s
    if 500 ≤ t && !bit old 3 then
      .next (moduleFault { regFld s aThermStat 3 3 1 with sys := { s.sys with thermN := true } } 9)
    else .next s

end Sys2Proof.Machine
end

