-- ==== Sys2Proof/Machine/Start.lean ====
section
/-! DEFINITION. Resets and start-up (chapters 19 and 21): the boot control record, the Aelnar check, the start-up
stages, the release of the clusters, core resets and the module's reset inputs. -/

namespace Sys2Proof.Machine

open Sys2Proof

/-! ## The boot control record (R686, R687) -/

/-- The copy in use: the valid one with the higher sequence number (R686). -/
def newestCopy (l : List (Option BootRec)) : Option (Nat × BootRec) :=
  match l.getD 0 none, l.getD 1 none with
  | none, none => none
  | some a, none => some (0, a)
  | none, some b => some (1, b)
  | some a, some b => if a.seq < b.seq then some (1, b) else some (0, a)

/-- An update of the record writes the other copy under the next sequence number (R686). -/
def writeBoot (s : State) (r : BootRec) : State :=
  let at_ := match newestCopy s.mdl.bootCopies with
    | some (i, _) => 1 - i
    | none => 0
  let r := { r with seq := (r.seq + 1) % 2 ^ 32 }
  { s with mdl := { s.mdl with boot := r, bootCopies := s.mdl.bootCopies.set at_ (some r) } }

/-- The record as the boot ROM finds it; with no valid copy it writes an all-zero record first (R686, R777). -/
def readBoot (s : State) : State :=
  match newestCopy s.mdl.bootCopies with
  | some (_, r) => { s with mdl := { s.mdl with boot := r } }
  | none => writeBoot { s with mdl := { s.mdl with bootCopies := [none, none] } } BootRec.reset

/-- Settings records in a format that no CONFIRM has kept are deleted (R687, R703). -/
def dropNewSettings (s : State) : State :=
  let keep (l : List Retired) := l.filter fun t => t.fmt = s.mdl.confirmedFmt
  { s with mdl := { s.mdl with settings := keep s.mdl.settings, oldSettings := keep s.mdl.oldSettings } }

/-- The trial counts at a reset (R687). A trial without a start left falls back. -/
def countTrials (s : State) : State :=
  let r := s.mdl.boot
  let fwEnd := r.fwTrial && r.fwTries = 0
  let stEnd := r.stTrial && r.stTries = 0
  let r := { r with
    fwTrial := r.fwTrial && !fwEnd, fwFallback := r.fwFallback || fwEnd, fwTries := r.fwTries - r.fwTrial.toNat
    stTrial := r.stTrial && !stEnd, stFallback := r.stFallback || stEnd, stTries := r.stTries - r.stTrial.toNat }
  let s := if fwEnd || stEnd then dropNewSettings s else s
  let s := writeBoot s r
  let s := { s with mdl := { s.mdl with bootStart := s.mdl.boot } }
  let s := if fwEnd then fallbackLog s 0 else s
  if stEnd then fallbackLog s 1 else s
where
  /-- A trial that fell back is logged as an update outcome (the example of chapter 19); its STATUS and VERSION are
  not stated. -/
  fallbackLog (s : State) (kind : Nat) : State :=
    let (a, s) := s.takeFree
    let (b, s) := s.takeFree
    logFault s 0x14 kind 0 a b

/-! ## The Aelnar image (R688) -/

/-- The failure code of an Aelnar slot (R688); 0 when it passes. -/
def aelnarCode (s : State) (nor : NorReads) (slot : Nat) : Nat :=
  let base := aelnarSlot slot
  let w (i : Nat) : Word := norWord s base i
  let bytes := (w 4).toNat
  let code := bytes / 6 - 42
  let load := (w 5).toNat
  let entry := (w 6).toNat / 2
  if nor.fails.contains slot then 0x0A
  else if w 0 ≠ 0x52414E4C4541 then 0x01
  else if !partOk (w 1) then 0x02
  else if !(fld (w 3) 31 16 = 1 && fld (w 3) 15 0 = 0 && w 8 = 0 && w 9 = 0 && bytes % 6 = 0 && 252 ≤ bytes &&
      bytes ≤ 0x1000000 && fld (w 2) 23 0 ≤ fld (w 2) 47 24 && load + code ≤ 0x40000 && load ≤ entry && entry < load + code)
  then 0x03
  else if !signatureGood (norWords s base (bytes / 6)) then 0x04
  else if fld (w 2) 47 24 < s.mdl.fwFloor then 0x05 else 0

/-- A boot failure is logged (R707): 0 Aelnar, 1 Structure Image, 2 OS loader; slot; code. -/
def bootFailure (s : State) (kind slot code : Nat) : State := logFault s 0x13 kind 0 (w48 slot) (w48 code)

/-- Aelnar starts from a slot (R688): its code words enter the private SRAM. -/
def startAelnar (s : State) (slot : Nat) : State :=
  let base := aelnarSlot slot
  let load := (norWord s base 5).toNat
  let n := (norWord s base 4).toNat / 6 - 42
  let sram := (upto n).foldl (fun m i => sins m (load + i) (norWord s base (10 + i))) s.mdl.sram
  let s := { s with mdl := { s.mdl with
    sram := sram, fwRunning := slot, version := fld (norWord s base 2) 47 24, sfmt := fld (norWord s base 3) 47 32 } }
  s.modCore .medulla fun k => { k with pc := norWord s base 6 }

/-- One attempt at an Aelnar slot: its code enters MDL_BOOT_STAT, a failure is logged. -/
def tryAelnar (s : State) (nor : NorReads) (slot : Nat) : Nat × State :=
  let c := aelnarCode s nor slot
  let s := if slot = 0 then regFld s aBootStat 47 40 c else regFld s aBootStat 39 32 c
  (c, if c = 0 then s else bootFailure s 0 slot c)

/-- The boot ROM chooses an Aelnar slot, or the recovery mode (R687, R689). -/
def bootAelnar (s : State) (nor : NorReads) : State :=
  let r := s.mdl.boot
  let act := r.fwAct.toNat
  let first := if r.fwTrial then 1 - act else act
  let (c, s) := tryAelnar s nor first
  let (run, s) := if c = 0 then (first, startAelnar s first) else
    let (d, s) := tryAelnar s nor (1 - first)
    if d = 0 then (1 - first, startAelnar s (1 - first))
    else (2, { s with mdl := { s.mdl with fwRunning := 2, version := 0, sfmt := 0 } })
  let trial := r.fwTrial && run = 1 - act
  let st := mk 7 6 run ||| mk 5 5 trial.toNat ||| mk 4 4 r.fwFallback.toNat ||| mk 2 2 r.stFallback.toNat ||| mk 1 0 r.fwTries
  let s := regSet s aBootStat ((regGet s aBootStat &&& mask 47 32) ||| st)
  if run ≠ 2 && !trial then { s with mdl := { s.mdl with confirmedFmt := s.mdl.sfmt } } else s

/-- Aelnar writes every settings record anew in its own format, beside the old record (R703). -/
def reformatSettings (s : State) : State :=
  if s.mdl.fwRunning = 2 then s
  else
    let all := s.mdl.settings ++ s.mdl.oldSettings
    let f := s.mdl.sfmt
    let cur := all.filter fun t => t.fmt = f
    let old := all.filter fun t => t.fmt ≠ f
    let fresh := ((old.map fun t => { t with fmt := f }).filter fun t => !cur.contains t).eraseDups
    { s with mdl := { s.mdl with settings := cur ++ fresh, oldSettings := old } }

/-! ## The start-up stages (R729): each goes on with a state or ends the start-up -/

/-- Stage 0x01: the Medulla core runs its boot ROM at PL3 in guarded execution (R264, R687); domains 24 and 25 run at
600 MHz. The automatic-reset limit stops the start-up here (R740). -/
def stage1 (cause : Nat) (s : State) : Except State State :=
  let s := s.modCore .medulla fun k => { k with run := .running }
  let s := regFld (regFld s (aClkFreq 24) 47 24 600000) (aClkFreq 25) 47 24 600000
  if 4 ≤ cause && cause ≤ 6 && 3 ≤ s.sys.autoTimes.length then .error (moduleFault (regFld s aRstCause 7 0 1) 8) else .ok s

/-- Stage 0x02: the boot ROM (R683, R686 to R689). -/
def stage2 (cause : Nat) (nor : NorReads) (s : State) : Except State State :=
  let s := if cause = 4 then logFault s 0x19 0 0 0 0 else s
  .ok (bootAelnar (countTrials (readBoot s)) nor)

/-- A column as SOR_REPAIR names it: a private bank has one half-array (R527). -/
def columnOf (n c : Nat) : Nat := if n < 32 then c % 128 else c % 64

/-- The repair entries of a bank (R520): fuses first, then soft entries, four at most. -/
def bankRepairs (s : State) (n : Nat) : List (Bool × Nat) :=
  (((Config.fuseColumns n).map fun c => (false, columnOf n c)) ++
    ((s.mdl.settings.filter fun t => t.kind = 4 && t.unit = n).map fun t => (true, columnOf n t.col))).take 4

/-- The repairs of a bank enter SOR_REPAIR and SOR_BANK_STAT (R520, R527). -/
def loadRepairs (s : State) (n : Nat) : State :=
  let l := bankRepairs s n
  let s := l.zipIdx.foldl (fun s e => regSet s (aSorRepair n e.2)
    (mk 47 47 1 ||| mk 46 46 e.1.1.toNat ||| mk 6 0 e.1.2)) s
  regFld (regFld s (aSorBankStat n) 39 37 (l.filter fun e => !e.1).length) (aSorBankStat n) 36 34
    (l.filter fun e => e.1).length

/-- A column that fails the self-test, the repairs loaded, takes a free redundant column; where it fails again or none is
free, the bank is retired (R521). -/
def selfTestColumn (s : State) (e : Nat × Nat × Nat) : State :=
  let n := e.1
  let col := e.2.1 * 64 + e.2.2
  let l := bankRepairs s n
  if l.length < 4 && !(l.any fun r => r.2 = col) then
    loadRepairs (recordRetirement s ⟨4, n, 0, 0, col, s.mdl.sfmt, 0⟩ col 231) n
  else if (retiredBanks s).contains n then s
  else recordRetirement s ⟨5, n, 0, 0, 0, s.mdl.sfmt, 0⟩ 0 232

/-- Stage 0x03: settings, Sorus repairs and self-test (R520, R521). Every word of Sorus memory is filled afresh. -/
def stage3 (inp : StartInput) (s : State) : Except State State :=
  let s := (upto 48).foldl loadRepairs (reformatSettings s)
  let s := (inp.badColumns.filter fun e => e.1 < 48 && e.2.1 < (if e.1 < 32 then 2 else 1) && e.2.2 < 56).foldl selfTestColumn s
  .ok { s with sorus := [] }

/-- One attempt at a Structure Image slot (R72, R73). -/
def tryImage (s : State) (nor : NorReads) (slot : Nat) : Nat × State :=
  let c := slotCode s nor slot
  let s := logTransients s nor slot
  let s := if slot = 0 then regFld s aStructStatus 47 40 c else regFld s aStructStatus 39 32 c
  (c, if c = 0 then s else bootFailure s 1 slot c)

/-- The Structure Image that the start-up applies (R63, R72, R75): a slot, or the recovery structure. Nothing is listed
of DRAM and Sorus memory, which this start-up fills as the image lays them out (R449, R521). -/
def chooseImage (s : State) (nor : NorReads) : State :=
  let recover (s : State) : State := { regFld s aStructStatus 3 2 2 with
    dram := [], sorus := [], struct := { s.struct with image := recoveryImage }, sys := { s.sys with recovery := true } }
  if s.mdl.fwRunning = 2 then recover s
  else
    let r := s.mdl.boot
    let act := r.stAct.toNat
    let first := if r.stTrial then 1 - act else act
    let take (s : State) (k : Nat) : State :=
      let b := imageSlot k
      let s := regFld (regFld s aStructStatus 3 2 k) aBootStat 3 3 (r.stTrial && k = 1 - act).toNat
      let s := regFld (regFld s aStructStatus 15 8 (secCount s b)) aStructStatus 0 0 1
      let s := regSet (regSet s aStructId (lword s b 4)) aStructVer (lword s b 2 &&& (mask 47 24 ||| mask 15 0))
      { s with dram := [], sorus := [], struct := { s.struct with image := imageOf s b }, sys := { s.sys with recovery := false } }
    let (c, s) := tryImage s nor first
    if c = 0 then take s first
    else
      let (d, s) := tryImage s nor (1 - first)
      if d = 0 then take s (1 - first) else recover s

/-- Stage 0x04: validation (R72). Two stored channel retirements leave no interleave (R448). -/
def stage4 (nor : NorReads) (s : State) : Except State State :=
  if 2 ≤ (retiredChannels s).length then .error (moduleFault s 4) else .ok (chooseImage s nor)

/-- Stage 0x05: SECURITY, CLOCK and PAD (R60, R77). A domain that the image does not enable is stopped and held. -/
def stage5 (s : State) : Except State State :=
  .ok ((upto 64).foldl (fun s d =>
    let e := clockWord s d
    let f := fld e 23 0
    let s := regSet s (aClkFreq d) (mk 47 24 (if bit e 47 then f else 0) ||| mk 23 0 f)
    regFld s (aPwrPolicy d) 47 46 (if bit e 47 then 0 else 3)) s)

/-- The shadow entries that the settings restore on a channel, each at its own number (R445, R449, R459): rows without a
spare left. -/
def restoreShadows (s : State) (c : Nat) : State :=
  let rows := s.mdl.settings.filter fun t => t.kind = 1 && t.unit = c && t.col = 1 && t.entry < 8
  shadowCount (rows.foldl (fun s t => regSet s (aMemShadow c t.entry)
    (mk 47 47 1 ||| mk 45 45 1 ||| mk 19 16 t.bank ||| mk 15 0 t.row)) s) c

/-- The pinned lines enter L3 as DRAM holds them: filled with zero, poisoned on an offline row (R446, R449 step 9). -/
def preloadPinned (s : State) : State :=
  let rs := (s.struct.image.regions.map regionSpan).filter fun r => r.2.2 = 3
  let lines := rs.flatMap fun r => (List.range ((r.2.1 - r.1) / 8)).map fun k => r.1 / 8 + k
  { s with coh := { s.coh with
      l3 := lines.map fun l => ⟨l, false, false, true, List.replicate 8 (0, lineDead s l)⟩ } }

/-- Stage 0x06: DRAM training (R449, R731). `train` holds the TRAIN code of each failing channel. -/
def stage6 (train : List Nat) (s : State) : Except State State :=
  let out := retiredChannels s
  let s := regSet s aMemTickRsv (s.struct.image.dramGlobal &&& mask 15 0)
  let s := out.foldl (fun s c => regFld s (aMemChStat c) 1 0 2) s
  let failing := (upto 8).filter fun c => !out.contains c && 1 ≤ train.getD c 0 && train.getD c 0 ≤ 6
  if failing ≠ [] then
    let s := failing.foldl (fun s c => retireChannel (regFld s (aMemChStat c) 11 8 (train.getD c 0)) c) s
    match s.sys.mode with
    | .hold _ => .error s
    | _ => .error (enterReset (copyLogs s) 9 0)
  else
    let live := (upto 8).filter fun c => !out.contains c
    let s := regFld (regFld s aMemCtl 11 8 live.length) aMemCtl 7 0 (live.foldl (fun n c => n + 2 ^ c) 0)
    let s := regFld s aMemTop 35 0 (live.length * 0x10000000)
    let s := live.foldl restoreShadows s
    .ok (preloadPinned { s with dram := [], memctl := { s.memctl with
      unreadable := false, refreshDue := List.replicate 8 s.now } })

/-- The frond cores held for a retirement (R491, R524, R730): a retired pair, and a retired private bank with its
pair. -/
def retiredFronds (s : State) : List Nat :=
  (upto 16).filter fun c =>
    (s.mdl.settings.any fun t => t.kind = 7 && t.unit = c / 2) || (retiredBanks s).contains (32 + c) ||
    (isPair s (c / 2) && (retiredBanks s).contains (32 + (if c % 2 = 0 then c + 1 else c - 1)))

/-- The INT entry of a source, with the level that the Medulla core sets (R292, R293). -/
def routeWord (i : Image) (n : Nat) : Word :=
  let e := i.int.getD n 0
  let m := isMedullaSource n
  let t := if m then 32 else fld e 14 9
  mk 14 9 t ||| mk 8 8 (if m then 1 else fld e 8 8) ||| mk 7 5 (fld e 7 5) ||| mk 2 1 (if t = 32 then 3 else 1) ||| mk 0 0 (fld e 0 0)

/-- The SAFE section defines every output (R479). -/
def outputsOf (i : Image) : List Output :=
  i.safe.map fun e => ⟨fld e.1 47 46, fld e.1 45 44, fld e.1 35 0, e.2, e.2, e.2, e.2⟩

/-- The retired banks take effect (R523, R524, R527, R730). -/
def applyBanks (s : State) : State :=
  let i := s.struct.image
  let sp := spareMap i (retiredBanks s)
  (retiredBanks s).foldl (fun s b =>
    let s := match sp.find? fun e => e.1 = b with
      | some (_, some x) => regFld (regFld s (aSorBankStat b) 47 46 2) (aSorBankStat b) 45 40 x
      | _ => regFld s (aSorBankStat b) 47 46 3
    assertEdge s 232) s

/-- Stage 0x07: SORUS, TICK, RING, INT, PINNA, POWER, COUNTER and SAFE applied over the stored retirements, then
LOCKED (R77, R80, R83, R730). -/
def stage7 (s : State) : Except State State :=
  let i := s.struct.image
  let s := (upto 32).foldl (fun s b => regSet s (aSorBankCfg b) (i.sorus.getD b 0)) s
  let s := (upto 64).foldl (fun s k => regSet s (aFrondWin 0 k) (i.sorus.getD (32 + k) 0)) s
  let s := regFld s aTickPeriod 23 0 (fld (i.tick.getD 1 0) 23 0)
  let s := (upto 4).foldl (fun s g => regSet s (aGrpCfg g) (i.tick.getD (2 + g) 0)) s
  let s := (upto 16).foldl (fun s c => match groupOf s c with
    | some g => s.modCore (frondId c) fun k => { k with fstat := setFld k.fstat 35 34 g }
    | none => s) s
  let lanes := (s.mdl.settings.filter fun t => t.kind = 6).foldl (fun w t => setBit w (30 + t.unit) false) i.ring
  let s := regSet s aRingCfg lanes
  let s := (s.mdl.settings.filter fun t => t.kind = 6).foldl (fun s t =>
    regFld s (aRingPort (t.unit / 2)) (2 + t.unit % 2) (2 + t.unit % 2) 1) s
  let s := (upto 320).foldl (fun s n => regSet s (aRoute n) (routeWord i n)) s
  let s := (upto 64).foldl (fun s k => regSet s (aInstLimit k) (i.pinna.getD k 0 &&& mask 47 24)) s
  let s := (upto 64).foldl (fun s k => modInst s k fun x => { x with limit := i.pinna.getD k 0 &&& mask 47 24 }) s
  let s := (upto 64).foldl (fun s d => regFld s (aPwrPolicy d) 1 0 (fld (i.power.getD d 0) 1 0)) s
  let s := { s with outs := outputsOf i, sys := { s.sys with padSafe := [] } }
  let s := applyBanks s
  let s := (retiredFronds s).foldl (fun s c => setFrondState s c 3) s
  let s := (upto 8).foldl (fun s p =>
    if s.mdl.settings.any fun t => t.kind = 7 && t.unit = p then regFld s (aPairStat p) 2 2 1 else s) s
  .ok (regFld (lockStructure s) aStructStatus 1 1 1)

/-- A word of the loader is stored; a write to an offline row is dropped (R446). -/
def dramPutLive (s : State) (a : Nat) (w : Word) : State :=
  if lineDead s (a / 8) then s else dramPut s a (containerOf w false a)

/-- Stage 0x08: the OS loader (R734). A loader that fails ends the start-up (R732). -/
def stage8 (nor : NorReads) (s : State) : Except State State :=
  let base := 0x4000000
  let load := (norWord s base 1).toNat
  let n := (norWord s base 2).toNat
  let placed := norWord s base 0 = 0x524544414F4C && 36 ≤ n && n * 6 ≤ 0x4000000 &&
    dramSpan s (· = 0) load n
  if nor.fails.contains 4 then .error (moduleFault (bootFailure s 2 0 0x0A) 7)
  else if !placed then
    let (w, s) := s.takeFree
    .error (moduleFault (logFault s 0x13 2 0 0 w) 7)
  else
    let words := norWords s base n
    let s := words.zipIdx.foldl (fun s e => dramPutLive s (load + e.2) e.1) s
    if signatureGood words then .ok { s with sys := { s.sys with loaderEntry := norWord s base 3 } }
    else .error (moduleFault (bootFailure s 2 0 0x04) 7)

/-- One stage by number. -/
def stageRun (cause : Nat) (inp : StartInput) (n : Nat) (s : State) : Except State State :=
  match n with
  | 1 => stage1 cause s
  | 2 => stage2 cause inp.nor s
  | 3 => stage3 inp s
  | 4 => stage4 inp.nor s
  | 5 => stage5 s
  | 6 => stage6 inp.train s
  | 7 => stage7 s
  | _ => if s.sys.recovery then .error { s with sys := { s.sys with mode := .started } } else stage8 inp.nor s

/-- The stages in order (R729): STAGE holds the last that completed; stage `limit` exceeds its bound (R732). -/
def runStages (cause : Nat) (inp : StartInput) (limit : Nat) : List Nat → State → State
  | [], s => { s with sys := { s.sys with mode := .started } }
  | n :: t, s =>
    if n = limit then moduleFault s 7
    else match stageRun cause inp n s with
      | .ok s => runStages cause inp limit t (regFld s aRstCause 7 0 n)
      | .error s => s

/-! ## The reset of every block (R726 to R728) -/

/-- The module right after a reset, with what outlives it: the NOR and all it holds, the time base, the histories of
R727, the cause registers and, for the pads, the previous image. -/
def resetBlocks (s : State) (cause : Nat) : State :=
  let auto := (s.sys.autoTimes.filter fun t => s.now ≤ t + 600000000000) ++
    (if 4 ≤ cause && cause ≤ 6 then [s.now] else [])
  let r := { State.reset with
    pending := s.pending, nor := s.nor, tb := s.tb, ref := s.ref, readOut := s.readOut, free := s.free
    memctl := { MemCtl.reset with rowHistory := s.memctl.rowHistory }
    sorusCtl := { SorusCtl.reset with columns := s.sorusCtl.columns, twins := s.sorusCtl.twins }
    struct := { StructState.reset with repairs := s.struct.repairs }
    mdl := { Medulla.reset with
      vlog := s.mdl.norVlog, flog := s.mdl.norFlog, norVlog := s.mdl.norVlog, norFlog := s.mdl.norFlog
      boot := s.mdl.boot, bootCopies := s.mdl.bootCopies, settings := s.mdl.settings, oldSettings := s.mdl.oldSettings
      confirmedFmt := s.mdl.confirmedFmt, fwFloor := s.mdl.fwFloor, stFloor := s.mdl.stFloor }
    sys := { Sys.reset with mode := .inReset cause, autoTimes := auto, padSafe := padSafes s, thermN := s.sys.thermN } }
  logStat (regSet r aRstCause (mk 47 40 cause ||| mk 39 32 (regF s aRstCause 39 32) ||| mk 31 24 (satN 8 auto.length)))

/-- MODULE_RESET (R726, R729): every block takes its reset state and the start-up stages run. -/
def execModuleReset (cause : Nat) (inp : StartInput) (s : State) : Host.Outcome State Fault Refusal :=
  if s.sys.mode = .inReset cause then
    .next (runStages cause inp 0 [1, 2, 3, 4, 5, 6, 7, 8] (resetBlocks s cause))
  else .next s

/-- STAGE_TIMEOUT (R732): the reset that is due runs up to the stage that exceeds its bound. Stage 0x09 has none. -/
def execStageTimeout (stage : Nat) (s : State) : Host.Outcome State Fault Refusal :=
  match s.sys.mode with
  | .inReset cause =>
    if 1 ≤ stage && stage ≤ 8 then
      .next (runStages cause ⟨[], [], ⟨[], []⟩⟩ stage [1, 2, 3, 4, 5, 6, 7, 8] (resetBlocks s cause))
    else .next s
  | _ => .next s

/-! ## Release (R36, R60, R467, R555, R733, R735) -/

/-- Application core 0 starts at a half-word PC, at PL3 in guarded execution, if its domain runs. -/
def startCore0 (s : State) (pc : Word) : State :=
  if domainEnabled s 0 then s.setCore (.app 0) { Core.reset with pc := pc, run := .running } else s

/-- CLUSTER_RELEASE (R60): after a start-up that completed. -/
def execClusterRelease (s : State) : Host.Outcome State Fault Refusal :=
  if s.sys.mode = .started then
    let s := { s with sys := { s.sys with mode := .running } }
    if s.sys.recovery then .next (startCore0 s (Config.recoveryEntry.zeroExtend 48))
    else
      let s := regFld s aRstCause 7 0 9
      let s := (upto 16).foldl (fun s c =>
        if (groupOf s c).isSome && frondState s c = 0 then s.modCore (frondId c) fun k => { k with run := .parked } else s) s
      let s := (upto 4).foldl (fun s g =>
        if (upto 16).any fun c => (grpMembers s g).testBit c && frondState s c = 3 then safeGroup s g 3 else s) s
      .next (openRing (startTick (startCore0 s s.sys.loaderEntry)))
  else .next s

/-- HEALTHY (R753): high only after release, with no group in the safe state, outside Quiescent, hold and reset. -/
def healthy (s : State) : Bool :=
  (match s.sys.mode with
    | .running => true
    | _ => false) && !s.power.quiescent && (upto 4).all fun g => !regB s (aGrpStat g) 5

/-! ## Reset inputs (R726, R738, R739, R751 to R753) -/

/-- A thermal trip holds the module until power-up (R739, R756). -/
def tripped (s : State) : Bool := s.sys.thermN

/-- POWER_UP (R751): every supply is valid, and a power-up reset begins. It clears the time base and every record that
lives outside the NOR (R315, R727, R742). -/
def execPowerUp (s : State) : Host.Outcome State Fault Refusal :=
  if s.sys.mode = .off then
    let s := resetBlocks { s with
      tb := 0, memctl := MemCtl.reset, sorusCtl := SorusCtl.reset, struct := StructState.reset, outs := []
      sys := { Sys.reset with mode := .off } } 1
    .next (regFld (regFld s aRstCause 39 32 0) aRstCause 31 24 0)
  else .next s

/-- SUPPLY_DIP (R752): a rail out of tolerance for more than 2 µs. -/
def execSupplyDip (ns : Nat) (s : State) : Host.Outcome State Fault Refusal :=
  if 2000 < ns then
    let s := dacsOff (closeRing (holdClusters s))
    .next { s with sys := { s.sys with mode := .off } }
  else .next s

/-- RESET_N (R726, R753): low for at least 1 µs. -/
def execResetN (ns : Nat) (s : State) : Host.Outcome State Fault Refusal :=
  if 1000 ≤ ns && s.sys.mode ≠ .off && s.sys.mode ≠ .refLost && !tripped s then .next (enterReset s 2 0) else .next s

/-- The debug port is served (R739, R754, R769): an image is applied and its SECURITY.DEBUG is 1. -/
def debugServed (s : State) : Bool :=
  bit s.struct.image.sec0 3 && !s.sys.recovery && !s.power.quiescent && !s.sys.held.contains 58 &&
  match s.sys.mode with
  | .started => true
  | .running => true
  | .hold _ => true
  | _ => false

/-- DEBUG_RESET (R726, R739). -/
def execDebugReset (s : State) : Host.Outcome State Fault Refusal :=
  if debugServed s && !tripped s then .next (enterReset s 7 0) else .next s

/-- REFERENCE_CLOCK_RETURN (R738): the reference has run within ±5 % for 10 ms. -/
def execReferenceClockReturn (ms : Nat) (s : State) : Host.Outcome State Fault Refusal :=
  if s.sys.mode = .refLost && 10 ≤ ms then .next (enterReset s 8 6) else .next s

/-- The domain of the block that a level source comes from (R48, R291). -/
def sourceDomain (n : Nat) : Nat :=
  if n < 128 then 59
  else if n < 136 then 40 + 2 * ((n - 128) / 4) + (if n % 4 = 0 then 0 else 1)
  else if n < 148 then 54
  else if n < 152 then 45
  else if n < 154 then 47
  else if n < 162 then 63
  else if n < 190 then 56
  else if n < 192 then 57
  else if n < 288 then 51 + (n - 256) / 16
  else if n < 296 then 51 + (n - 288) / 4
  else if n = 297 then 53
  else if n < 307 then 57
  else 25

/-- The registers of a domain's block take their reset values; structure fields stay (R57, R79). -/
def resetRegs (s : State) (d : Nat) : State :=
  (s.regs.filter fun e => regDomain s e.1 = some d).foldl (fun t e =>
    let m := structMask e.1
    regSet t e.1 ((regReset e.1 &&& ~~~m) ||| (e.2 &&& m))) s

/-- The level sources of a domain's block fall with it (R291). -/
def resetLines (s : State) (d : Nat) : State :=
  ((upto 320).filter fun n => isLevelSource n && n ≠ 63 && sourceDomain n = d).foldl (fun s n => setLine s n false) s

/-- A core in reset, its caches empty (R57, R91). -/
def resetAgent (s : State) (c : CoreId) : State :=
  let s := coreToReset s c .held
  { s with coh := { s.coh with caches := s.coh.caches.filter fun e => e.agent ≠ coreNum c } }

/-- A fabric quadrant in reset: its L3 lines, its directory entries and what its slices served (R48, R57). -/
def resetQuadrant (s : State) (q : Nat) : State :=
  let other (l : Nat) : Bool := homeOf s l / 4 ≠ q
  { s with coh := { s.coh with
      l3 := s.coh.l3.filter fun e => other e.line
      dir := s.coh.dir.filter fun e => other e.line
      txns := s.coh.txns.filter fun t => other t.req.line
      waitq := s.coh.waitq.filter fun m => other m.line } }

/-- The MAC of a port in reset (R57, R637). -/
def ethReset (s : State) (p : Nat) : State :=
  { dropCut s p with io := { (dropCut s p).io with
      swapPending := s.io.swapPending.set p false, mdioBusy := s.io.mdioBusy.set p false
      mdioDue := s.io.mdioDue.set p false, gclStart := s.io.gclStart.set p 0
      ethCredit := (upto 8).map fun k => if k / 4 = p then ⟨0, 0, false⟩ else s.io.ethCredit.getD k ⟨0, 0, false⟩ } }

/-- The block of a domain takes its reset state (R57). -/
def resetUnit (s : State) (d : Nat) : State :=
  let s := (domainCores s d).foldl resetAgent (resetLines (resetRegs s d) d)
  if 16 ≤ d && d < 20 then resetQuadrant s (d - 16)
  else if 26 ≤ d && d < 34 then
    { s with memctl := { s.memctl with writeBacks := s.memctl.writeBacks.filter fun e => (placeOf s (8 * e.1)).1 ≠ d - 26 } }
  else match d with
    | 24 => { s with sorusCtl := { s.sorusCtl with writeBacks := [] } }
    | 25 => { s with mdl := { s.mdl with ports := Medulla.reset.ports, nextPort := Medulla.reset.nextPort, session := none } }
    | 40 => ethReset s 0
    | 42 => ethReset s 1
    | 45 => { s with io := { s.io with pcieRoleFixed := false, pcieEpOk := false, pcieIn := [], cfgRead := false, msix := [] } }
    | 47 => { s with io := { s.io with usbFail := [] } }
    | 50 => { s with disp := Display.reset }
    | 51 => { s with sense := { s.sense with
        chans := List.replicate 16 SenseChan.reset ++ s.sense.chans.drop 16
        dacs := List.replicate 4 DacState.reset ++ s.sense.dacs.drop 4 } }
    | 52 => { s with sense := { s.sense with
        chans := s.sense.chans.take 16 ++ List.replicate 16 SenseChan.reset
        dacs := s.sense.dacs.take 4 ++ List.replicate 4 DacState.reset } }
    | 53 => { s with touch := Touch.reset }
    | 54 => { s with io := { s.io with
        uartTx := Io.reset.uartTx, uartRx := Io.reset.uartRx, uartMatched := Io.reset.uartMatched, canOvf := Io.reset.canOvf } }
    | 59 => { s with pinna := Pinna.reset }
    | 60 => { s with cnt := Counters.reset }
    | 62 => { s with cores := s.cores.map fun k => { k with
        presented := none, active := [], virtCtl := Core.reset.virtCtl, src63Active := false, src63On := false, src63Ts := 0 } }
    | 63 => { s with dma := State.reset.dma }
    | _ => s

/-- A clock fault of a domain (R57 to R59, R738): its block is held in its reset state and its clock stopped, until the next
module reset. -/
def clockFault (s : State) (d : Nat) : State :=
  let live := match s.sys.mode with
    | .started => true
    | .running => true
    | .hold _ => true
    | _ => false
  if !live || s.sys.held.contains d || !domainEnabled s d || (s.power.quiescent && d ≠ 57) then s
  else if d = 57 then moduleFault s 6
  else
    let s := assertEdge (logFault s 0x0B d 239 0 0) 239
    if d = 56 then moduleFault { s with sys := { s.sys with held := d :: s.sys.held } } 1
    else
      let s := regFld s (aPwrPolicy d) 47 46 3
      { resetUnit s d with sys := { s.sys with held := d :: s.sys.held } }

/-- MEDULLA_WATCHDOG_EXPIRY (R683): the always-on block performs the module fault of R272, and the reset has CAUSE 4.
The Medulla core writes no record of it: it no longer runs (R774). -/
def execMedullaWatchdogExpiry (s : State) : Host.Outcome State Fault Refusal :=
  if medullaActs s then
    let s := s.modCore .medulla fun k => { k with run := .held, waiting := none }
    let s := (upto 4).foldl (fun s g => safeGroup s g 6) s
    .next (enterReset s 4 5)
  else .next s

/-- MEDULLA_LOCKSTEP_MISMATCH (R682): a checkstop of the Medulla core, which is module fault 5 (R272). -/
def execMedullaLockstepMismatch (s : State) : Host.Outcome State Fault Refusal :=
  if medullaActs s then
    .next (moduleFault (s.modCore .medulla fun k => { k with run := .checkstopped, waiting := none }) 5)
  else .next s

/-! ## Core resets (R271, R736, R737, R770) -/

/-- The Medulla core enters the oldest checkstop record of a core in the fault log (R271). -/
def checkstopRecord (s : State) (c : CoreId) : State :=
  match s.mdl.checkstops.find? fun r => r.1 = coreNum c with
  | some (n, pc, _, ec, _) =>
    if medullaActs s then
      let s := { s with mdl := { s.mdl with
        checkstops := s.mdl.checkstops.filter fun r => r.1 ≠ n, resettable := n :: s.mdl.resettable } }
      assertEdge (logFault s 0x0D n 241 pc ec) 241
    else s
  | none => s

/-- DBG_HOLD keeps a core (R770). -/
def debugHolds (s : State) (n : Nat) : Bool := n < 32 && regB s aDbgHold n

/-- The reset of one core (R736): an application core is held until START; a Frond core whose PARK has taken effect
is parked, another is held until it does. -/
def resetCore (s : State) (c : CoreId) : State :=
  let run := match c with
    | .frond i => if frondState s i.val = 0 then RunState.parked else .held
    | _ => .held
  coreToReset s c run

/-- CORE_RESET (R736, R770): a checkstopped core whose record is logged and that DBG_HOLD does not keep. -/
def execCoreReset (c : CoreId) (s : State) : Host.Outcome State Fault Refusal :=
  let n := coreNum c
  if s.mdl.resettable.contains n && (s.core c).run = .checkstopped && !debugHolds s n && medullaActs s then
    let s := { s with mdl := { s.mdl with resettable := s.mdl.resettable.filter (· ≠ n) } }
    .next (resetCore s c)
  else .next s

/-- RST_CORE_CTL.STATE of application core c (R737). -/
def coreState (s : State) (c : Nat) : Nat :=
  match coreOfAgent c with
  | some k =>
    if regB s aCohDead c then 3
    else match (s.core k).run with
      | .checkstopped => 2
      | .held => 0
      | _ => 1
  | none => 0

/-- A write of RST_CORE_CTL (R737). -/
def rstCoreWrite (s : State) (rq : Requester) (c : Nat) (v : Word) : State :=
  let s := plainWrite s (aRstCore c) v
  if !bit v 47 || s.sys.held.contains c then s
  else if coreState s c ≠ 0 then refuseWrite s rq 9 (aRstCore c)
  else match coreOfAgent c with
    | some k => (coreToReset s k .running).modCore k fun q => { q with pc := w48 (regF s (aRstCore c) 36 0) }
    | none => s

/-- A write of DBG_HOLD: only the debug port (R770). -/
def dbgHoldWrite (s : State) (rq : Requester) (v : Word) : State :=
  match rq with
  | .debug => plainWrite s aDbgHold v
  | _ => refuseWrite s rq 1 aDbgHold

end Sys2Proof.Machine
end

