-- ==== Sys2Proof/Machine/Mbox.lean ====
section
/-! DEFINITION. The management mailbox (chapter 19): the three ports, posting and release, the operations, the update
session, and the ring port. -/

namespace Sys2Proof.Machine

open Sys2Proof

/-! ## Ports (R690 to R696) -/

def port (s : State) (p : Nat) : MboxPort := s.mdl.ports.getD p MboxPort.reset

def modPort (s : State) (p : Nat) (f : MboxPort → MboxPort) : State :=
  { s with mdl := { s.mdl with ports := modAt s.mdl.ports p f } }

/-- The fault hold (R739). -/
def holding (s : State) : Bool :=
  match s.sys.mode with
  | .hold _ => true
  | _ => false

/-- The Medulla core runs code that serves the mailbox. -/
def mailboxAlive (s : State) : Bool :=
  medullaActs s &&
  match s.sys.mode with
  | .started => true
  | .running => true
  | .hold _ => true
  | _ => false

/-- The port is served (R690, R739). -/
def served (s : State) (p : Nat) : Bool :=
  mailboxAlive s && bit s.struct.image.sec0 p && (!holding s || p = 1)

/-- Sources 307 and 308 (R693, R694). -/
def mboxLines (s : State) : State :=
  setLine (setLine s 308 ((upto 3).any fun p => (port s p).posted)) 307 (port s 0).ready

/-- A flag of MBX_STAT, on the ports that have registers. -/
def mbxFlag (s : State) (p n : Nat) (b : Bool) : State := if p < 2 then regFld s (aMbx p 0x21) n n b.toNat else s

/-- A command is posted as it stands (R693). -/
def postCommand (s : State) (p level : Nat) (cmd : Word) (args buf : List Word) : State :=
  let s := modPort s p fun x => { x with posted := true, level := level, cmd := cmd, args := args, buf := buf }
  mboxLines (mbxFlag s p 47 true)

/-- A write of MBX_CMD (R690, R693). Port 1 posts at PL3. -/
def mbxCmdWrite (s : State) (p level : Nat) (v : Word) : State :=
  if !served s p || (port s p).posted || (port s p).ready then mbxFlag s p 46 true
  else
    let s := plainWrite s (aMbx p 0) v
    postCommand s p (if p = 0 then level else 3) (v &&& mask 47 32) ((upto 8).map fun k => regGet s (aMbx p (1 + k)))
      ((upto 683).map fun k => regGet s (aMbx p (0x400 + k)))

/-- The held result is released: READY and every result word return to zero (R694). -/
def releaseResult (s : State) (p : Nat) : State :=
  let s := if p < 2 then (upto 9).foldl (fun s k => regSet s (aMbx p (0x10 + k)) 0) s else s
  mboxLines (modPort s p fun x => { x with ready := false })

/-- SEQ of the stored result. -/
def resultSeq (x : MboxPort) : Nat := fld (x.stored.headD 0) 39 32

/-- A write of MBX_ACK (R694). -/
def mbxAckWrite (s : State) (p : Nat) (v : Word) : State :=
  if (port s p).ready && resultSeq (port s p) = fld v 47 40 then releaseResult s p else s

/-- A write of MBX_STAT: RES_TO_S keeps its value on a write of 0 (R692). -/
def mbxStatWrite (s : State) (p : Nat) (v : Word) : State :=
  plainWrite s (aMbx p 0x21) (if fld v 7 0 = 0 then setFld v 7 0 (regF s (aMbx p 0x21) 7 0) else v)

/-- RES_TO_S of a port; port 2 has no register and keeps the reset value. -/
def resultTimeoutS (s : State) (p : Nat) : Nat := if p < 2 then regF s (aMbx p 0x21) 7 0 else 30

/-- A result cell of the ring port (R704): MBX_RES in word 1, MBX_RDATA in words 2 to 9. -/
def resultCell (s : State) (node seq op : Nat) (l : List Word) : State :=
  queueCell s node 0 ((mk 47 40 3 ||| mk 39 32 seq ||| mk 31 24 op) :: l)

/-- MSI-X vector 0 is signalled to the host (R694): a memory write of 4 bytes leaves (R713, R719). -/
def signalHost (s : State) : State :=
  bwAdd (count { s with io := { s.io with msixSent := s.io.msixSent ++ [0] } } 60 0x81) 33 4

/-- The stored result of a port is posted (R694, R704). -/
def postStored (s : State) (p : Nat) : State :=
  let x := port s p
  let s := if p < 2 then x.stored.zipIdx.foldl (fun s e => regSet s (aMbx p (0x10 + e.2)) e.1) s
    else resultCell s x.remote (resultSeq x) (fld x.cmd 39 32) x.stored
  let s := modPort s p fun x => { x with posted := false, ready := true, resultTb := s.now }
  let s := if p = 1 then signalHost s else s
  mboxLines (mbxFlag s p 47 false)

/-- What an operation answers: STATUS, DETAIL and MBX_RDATA. -/
structure Answer where
  status : Nat
  detail : Nat
  data : List Word

/-- An answer without data. -/
def plainAnswer (status : Nat) (detail : Nat := 0) : Answer := ⟨status, detail, []⟩

/-- The answer becomes the port's stored result and is posted (R694, R696). -/
def answer (s : State) (p : Nat) (a : Answer) : State :=
  let x := port s p
  let seq := fld x.cmd 47 40
  let res := mk 47 47 1 ||| mk 39 32 seq ||| mk 31 16 a.status ||| mk 15 0 a.detail
  let s := modPort s p fun x => { x with
    lastSeq := some seq, stored := res :: (a.data ++ List.replicate (8 - a.data.length) 0) }
  postStored s p

/-! ## The update session (R698 to R702) -/

/-- The inactive slot of a KIND, and the active one, as byte offsets (R61, R684, R686). -/
def activeOf2 (s : State) (kind : Nat) : Nat := if kind = 0 then s.mdl.boot.fwAct.toNat else s.mdl.boot.stAct.toNat
def fwSlotBase (kind k : Nat) : Nat := if kind = 0 then aelnarSlot k else imageSlot k
def slotBytes (kind : Nat) : Nat := if kind = 0 then 0x1000000 else 0x200000

/-- The staging area (R684). -/
def stagingBase : Nat := 0x2800000

/-- The session ends (R698). -/
def endSession (s : State) : State :=
  let s := match s.mdl.session with
    | some x => mbxFlag s x.port 44 false
    | none => s
  assertEdge { s with mdl := { s.mdl with session := none } } 309

/-- The posting command's argument k. -/
def arg (s : State) (p k : Nat) : Word := (port s p).args.getD k 0

/-- One byte through the reflected CRC-32C register (R535). -/
def crc32cByte (reg : Nat) (b : Byte) : Nat :=
  (upto 8).foldl (fun r i => if (r % 2 = 1) != b.getLsbD i then (r / 2) ^^^ 0x82F63B78 else r / 2) reg

/-- CRC-32C of a block's bytes (R699). -/
def crc32cBytes (l : List Byte) : Nat := l.foldl crc32cByte 0xFFFFFFFF ^^^ 0xFFFFFFFF

/-- The bytes of the posted block (R691). MBX_BUF word 0x2AA holds bytes 4092 to 4095. -/
def blockBytes (s : State) (p n : Nat) : List Byte := unpackBytes (port s p).buf n

/-- Bytes of the NOR after a program or an erase that failed: the manual does not say what they hold. -/
def norSpoil (s : State) (i : Nat) : Nat → State
  | 0 => s
  | n + 1 =>
    let (w, s) := s.takeFree
    norSpoil (norPut s i [w.extractLsb' 0 8]) (i + 1) n

/-- UPD_BEGIN (R698). With an error of its erase no session opens (R696, STATUS 10). -/
def opBegin (s : State) (p : Nat) (err : Bool) : Answer × State :=
  let kind := (arg s p 0).toNat
  let form := (arg s p 1).toNat
  let payload := (arg s p 2).toNat
  let result := (arg s p 3).toNat
  if s.mdl.session.isSome then (plainAnswer 3, s)
  else if !(kind ≤ 1 && form ≤ 1 && 1 ≤ payload && payload ≤ 0x1000000 && 1 ≤ result && result ≤ slotBytes kind &&
      (form = 1 || payload = result)) then (plainAnswer 2, s)
  else
    let base := fwSlotBase kind (1 - activeOf2 s kind)
    let header := if kind = 0 then 60 else 72
    let s := { s with mdl := { s.mdl with verified := s.mdl.verified.filter (· ≠ kind) } }
    if err then (plainAnswer 10, norSpoil s base header)
    else
    let s := norErase (norErase s base header) stagingBase 0x1000000
    let s := { s with mdl := { s.mdl with
      session := some ⟨p, kind, form = 1, payload, result, [], s.now⟩ } }
    (plainAnswer 0, mbxFlag s p 44 true)

/-- A session operation outside a session of its port (R698): another port's session is STATUS 3; with no session open
the manual states no STATUS. -/
def noSession (s : State) (p : Nat) : Option (Answer × State) :=
  match s.mdl.session with
  | some x => if x.port = p then none else some (plainAnswer 3, s)
  | none =>
    let (w, s) := s.takeFree
    some (plainAnswer (fld w 15 0), s)

/-- UPD_BLOCK (R699). A block whose programming fails (R696, STATUS 10) is missing until it is sent again. -/
def opBlock (s : State) (p : Nat) (err : Bool) : Answer × State :=
  match noSession s p with
  | some r => r
  | none =>
    match s.mdl.session with
    | none => (plainAnswer 3, s)
    | some x =>
      let off := (arg s p 0).toNat
      let n := (arg s p 1).toNat
      let bytes := blockBytes s p n
      let s := { s with mdl := { s.mdl with session := some { x with lastTb := s.now } } }
      if !(off % 4096 = 0 && 1 ≤ n && n ≤ 4096 && off + n ≤ x.payload) then (plainAnswer 2, s)
      else if crc32cBytes bytes ≠ (arg s p 2).toNat then (plainAnswer 5, s)
      else if err then
        (plainAnswer 10, { s with mdl := { s.mdl with session := some { x with
          lastTb := s.now, blocks := x.blocks.filter (· ≠ off / 4096) } } })
      else
        let s := norPut s (stagingBase + off) bytes
        let s := { s with mdl := { s.mdl with session := some { x with
          lastTb := s.now, blocks := if x.blocks.contains (off / 4096) then x.blocks else off / 4096 :: x.blocks } } }
        (plainAnswer 0, assertEdge s 309)

/-- A little-endian number of n bytes (R701). -/
def leNum : List Byte → Nat
  | [] => 0
  | b :: t => b.toNat + 256 * leNum t

/-- The delta stream against the active slot (R701): the output, or none where it is malformed. `act` gives the bytes
of the active image and `len` its length; the output is built newest first. -/
def deltaRun (act : Nat → Byte) (len : Nat) : Nat → List Byte → List Byte → Option (List Byte)
  | 0, _, _ => none
  | k + 1, l, out =>
    match l with
    | [] => none
    | op :: t =>
      let a := leNum (t.take 4)
      let b := leNum ((t.drop 4).take 4)
      if op = 0 then (if t.isEmpty then some out.reverse else none)
      else if op = 1 then
        if t.length < 8 || len < a + b then none
        else deltaRun act len k (t.drop 8) (((upto b).map fun i => act (a + i)).reverse ++ out)
      else if op = 2 then
        if t.length < 8 + b || len < a + b then none
        else deltaRun act len k (t.drop (8 + b))
          ((((upto b).map fun i => act (a + i)).zipWith (· + ·) ((t.drop 8).take b)).reverse ++ out)
      else if op = 3 then
        if t.length < 4 + a then none else deltaRun act len k (t.drop (4 + a)) (((t.drop 4).take a).reverse ++ out)
      else none

/-- The length in bytes of the image in a slot. -/
def imageBytes (s : State) (kind base : Nat) : Nat :=
  if kind = 0 then (norWord s base 4).toNat else 6 * imgLength s base

/-- VERSION of the image in a slot. -/
def imageVersion (s : State) (kind base : Nat) : Nat :=
  if kind = 0 then fld (norWord s base 2) 47 24 else fld (lword s base 2) 47 24

/-- An update outcome is logged (R707). -/
def logOutcome (s : State) (kind status version : Nat) : State :=
  logFault s 0x14 kind 0 (w48 status) (w48 version)

/-- The output of the session, if its delta is well formed (R700, R701). -/
def sessionOutput (s : State) (x : Session) : Option (List Byte) :=
  let staged := (upto x.payload).map fun i => norByte s (stagingBase + i)
  if x.delta then
    let base := fwSlotBase x.kind (activeOf2 s x.kind)
    match deltaRun (fun i => norByte s (base + i)) (Nat.min (imageBytes s x.kind base) (slotBytes x.kind)) (x.payload + 1) staged [] with
    | some out => if out.length = x.result then some out else none
    | none => none
  else some staged

/-- UPD_END (R700). `nor` holds what the reads of the verification meet. A copy whose programming fails (R696, STATUS
10) leaves the slot invalid, its header erased (R698). -/
def opEnd (s : State) (p : Nat) (nor : NorReads) (err : Bool) : Answer × State :=
  match noSession s p with
  | some r => r
  | none =>
    match s.mdl.session with
    | none => (plainAnswer 3, s)
    | some x =>
      let base := fwSlotBase x.kind (1 - activeOf2 s x.kind)
      match (upto ((x.payload + 4095) / 4096)).find? fun b => !x.blocks.contains b with
      | some b => (plainAnswer 6 b, logOutcome (endSession s) x.kind 6 (imageVersion s x.kind base))
      | none =>
        match sessionOutput s x with
        | none => (plainAnswer 8, logOutcome (endSession s) x.kind 8 (imageVersion s x.kind base))
        | some out =>
          if err then (plainAnswer 10, logOutcome (endSession s) x.kind 10 (imageVersion s x.kind base))
          else
          let k := 1 - activeOf2 s x.kind
          let s := norPut (norErase s base (slotBytes x.kind)) base out
          let code := if x.kind = 0 then aelnarCode s nor k else slotCode8 s nor k
          let s := if x.kind = 0 then s else logTransients s nor k
          let v := imageVersion s x.kind base
          if code ≠ 0 then (plainAnswer 7 code, logOutcome (endSession s) x.kind 7 v)
          else
            let s := { s with mdl := { s.mdl with verified := x.kind :: s.mdl.verified } }
            (⟨0, 0, [w48 v]⟩, logOutcome (endSession s) x.kind 0 v)

/-- UPD_ABORT (R698). -/
def opAbort (s : State) (p : Nat) : Answer × State :=
  match noSession s p with
  | some r => r
  | none => (plainAnswer 0, endSession s)

/-- ACTIVATE (R702). A write of the record that fails leaves the earlier copy (R686, R696). The trial it starts is the latest one, so FALLBACK reads 0 again. -/
def opActivate (s : State) (p : Nat) (err : Bool) : Answer × State :=
  let kind := (arg s p 0).toNat
  if s.mdl.session.isSome then (plainAnswer 3, s)
  else if 1 < kind then (plainAnswer 2, s)
  else if !s.mdl.verified.contains kind then (plainAnswer 9, s)
  else if err then (plainAnswer 10, s)
  else
    let r := s.mdl.boot
    let v := imageVersion s kind (fwSlotBase kind (1 - activeOf2 s kind))
    let r := if kind = 0 then { r with fwTrial := true, fwTries := 3, fwFallback := false }
      else { r with stTrial := true, stTries := 3, stFallback := false }
    (plainAnswer 0, logOutcome (writeBoot s r) kind 0 v)

/-- CONFIRM (R702, R703). A write of the record that fails leaves the earlier copy (R686, R696). -/
def opConfirm (s : State) (p : Nat) (err : Bool) : Answer × State :=
  let kind := (arg s p 0).toNat
  if s.mdl.session.isSome then (plainAnswer 3, s)
  else if 1 < kind then (plainAnswer 2, s)
  else if !regB s aBootStat (if kind = 0 then 5 else 3) then (plainAnswer 9, s)
  else if err then (plainAnswer 10, s)
  else
    let r := s.mdl.boot
    let base := fwSlotBase kind (1 - activeOf2 s kind)
    let v := imageVersion s kind base
    let s := if kind = 0 then
        let s := writeBoot s { r with fwAct := !r.fwAct, fwTrial := false }
        { regFld s aBootStat 5 5 0 with mdl := { s.mdl with fwFloor := Nat.max s.mdl.fwFloor (fld (norWord s base 2) 23 0) } }
      else
        let s := writeBoot s { r with stAct := !r.stAct, stTrial := false }
        { regFld s aBootStat 3 3 0 with mdl := { s.mdl with
            stFloor := Nat.max s.mdl.stFloor (fld s.struct.image.sec0 47 24) } }
    let s := { s with mdl := { s.mdl with oldSettings := [], confirmedFmt := s.mdl.sfmt } }
    (plainAnswer 0, logOutcome s kind 0 v)

/-! ## The other operations (R697, R771, R773) -/

/-- INFO word 2 (R771). -/
def bootWord (r : BootRec) : Word :=
  mk 47 16 r.seq ||| mk 9 9 r.stFallback.toNat ||| mk 8 8 r.fwFallback.toNat ||| mk 7 6 r.stTries ||| mk 5 4 r.fwTries |||
  mk 3 3 r.stTrial.toNat ||| mk 2 2 r.fwTrial.toNat ||| mk 1 1 r.stAct.toNat ||| mk 0 0 r.fwAct.toNat

/-- INFO (R697, R771). -/
def opInfo (s : State) : Answer :=
  ⟨0, 0, [regGet s aIdent, if s.mdl.fwRunning = 2 then 0 else mk 47 24 s.mdl.version ||| mk 15 0 s.mdl.sfmt,
    bootWord s.mdl.bootStart, regGet s aStructVer]⟩

/-- LOG_READ (R697, R773). -/
def opLogRead (s : State) (p : Nat) : Answer :=
  let which := (arg s p 0).toNat
  let i := (arg s p 1).toNat
  let l := if which = 0 then s.mdl.vlog else if which = 1 then s.mdl.flog else []
  match l[i]? with
  | some r => ⟨0, 0, [r.w0, r.w1, r.w2, r.w3, w48 l.length]⟩
  | none => ⟨2, 0, [0, 0, 0, 0, w48 l.length]⟩

/-- RETIRE_REPORT (R435, R445): the rows of both lines of the twin pair are retired. A retirement is stored before it
takes effect (R743), so that none does where its record cannot be written (R696). -/
def opRetireReport (s : State) (p : Nat) (err : Bool) : Answer × State :=
  let a := (arg s p 0).toNat
  if a < memTop s && isTwin s a && !isCompl s a then
    if err then (plainAnswer 10, s)
    else
    let x := placeOf s a
    let y := placeOf s (complAddr s a)
    (plainAnswer 0, retireRow (retireRow s x.1 x.2.1 x.2.2) y.1 y.2.1 y.2.2)
  else (plainAnswer 2, s)

/-- RETIRE_LIST (R744, R773). -/
def opRetireList (s : State) (p : Nat) : Answer :=
  let n := w48 s.mdl.settings.length
  match s.mdl.settings[(arg s p 0).toNat]? with
  | some t =>
    let row := t.kind = 1 || t.kind = 2
    ⟨0, 0, [mk 47 40 t.kind ||| mk 39 32 t.unit ||| (if row then mk 19 16 t.bank ||| mk 15 0 t.row else 0),
      if row then w48 (rowBase s t.unit t.bank t.row) else if t.kind = 4 then w48 t.col else 0, n]⟩
  | none => ⟨2, 0, [0, 0, n]⟩

/-- RETIRE_CLEAR (R697): only a ring lane entry, which stays where the settings cannot be written (R696). -/
def opRetireClear (s : State) (p : Nat) (err : Bool) : Answer × State :=
  let i := (arg s p 0).toNat
  match s.mdl.settings[i]? with
  | some t => if t.kind = 6 && err then (plainAnswer 10, s)
    else if t.kind = 6 then (plainAnswer 0, { s with mdl := { s.mdl with settings := s.mdl.settings.eraseIdx i } })
    else (plainAnswer 2, s)
  | none => (plainAnswer 2, s)

/-- USER_WRITE (R684, R696, R697). -/
def opUserWrite (s : State) (p : Nat) (err : Bool) : Answer × State :=
  let off := (arg s p 0).toNat
  let n := (arg s p 1).toNat
  let bytes := blockBytes s p n
  if !bit s.struct.image.sec1 1 then (plainAnswer 4, s)
  else if !(off % 4096 = 0 && 1 ≤ n && n ≤ 4096 && off + n ≤ 0x4000000) then (plainAnswer 2, s)
  else if crc32cBytes bytes ≠ (arg s p 2).toNat then (plainAnswer 5, s)
  else if err then (plainAnswer 10, norSpoil s (0x4000000 + off) n)
  else (plainAnswer 0, norPut s (0x4000000 + off) bytes)

/-- The lowest posting level of an OP, if it is one (R697). -/
def opLevel (op : Nat) : Option Nat :=
  if op = 1 || op = 9 || op = 0x0B then some 1
  else if (2 ≤ op && op ≤ 7) || op = 0x0A || op = 0x0D then some 2
  else if op = 8 || op = 0x0C then some 3 else none

/-- The OPs of the reduced mailbox (R689, R739). -/
def reducedOp (op : Nat) : Bool := (1 ≤ op && op ≤ 6) || op = 8

/-- The reduced mailbox is in force: recovery mode or the fault hold. -/
def reducedMailbox (s : State) : Bool := s.mdl.fwRunning = 2 || holding s

/-- What an OP does (R697); `nor` and `err` are what its NOR reads and writes meet. -/
def perform (s : State) (p op : Nat) (nor : NorReads) (err : Bool) : Answer × State :=
  match op with
  | 1 => (opInfo s, s)
  | 2 => opBegin s p err
  | 3 => opBlock s p err
  | 4 => opEnd s p nor err
  | 5 => opAbort s p
  | 6 => opActivate s p err
  | 7 => opConfirm s p err
  | 9 => (opLogRead s p, s)
  | 0x0A => opRetireReport s p err
  | 0x0B => (opRetireList s p, s)
  | 0x0C => opRetireClear s p err
  | _ => opUserWrite s p err

/-- The mailbox RESET (R697, R726, R739): no result; a hold for a thermal trip ignores it. -/
def opReset (s : State) (p : Nat) : State :=
  let s := mboxLines (mbxFlag (modPort s p fun x => { x with posted := false }) p 47 false)
  if tripped s then s else enterReset (copyLogs s) 3 0

/-- The Medulla core serves the command posted on a port (R693, R696, R697). -/
def serve (s : State) (p : Nat) (nor : NorReads) (err : Bool) : State :=
  let x := port s p
  let op := fld x.cmd 39 32
  let s := { s with mdl := { s.mdl with nextPort := (p + 1) % 3 } }
  if x.lastSeq = some (fld x.cmd 47 40) then postStored s p
  else match opLevel op with
    | none => answer s p (plainAnswer 1)
    | some lvl =>
      if reducedMailbox s && !reducedOp op then answer s p (plainAnswer 1)
      else if x.level < lvl then answer s p (plainAnswer 4)
      else if op = 8 then opReset s p
      else
        let (a, s) := perform s p op nor err
        answer s p a

/-- The port whose turn it is (R690, R772): the first posted, served one from the next in turn on. -/
def turnPort (s : State) : Option Nat :=
  [s.mdl.nextPort % 3, (s.mdl.nextPort + 1) % 3, (s.mdl.nextPort + 2) % 3].find? fun p => (port s p).posted && served s p

/-- The Medulla core takes the command of an OP from a port in its turn. A posted OP that R697 does not list is answered
by whichever operation command names its port. -/
def takeOp (s : State) (p op : Nat) (nor : NorReads := ⟨[], []⟩) (err : Bool := false) : State :=
  let posted := fld (port s p).cmd 39 32
  if turnPort s = some p && (posted = op || opLevel posted = none) then serve s p nor err else s

def execInfo (p : Fin 3) (s : State) : Host.Outcome State Fault Refusal := .next (takeOp s p.val 1)
def execUpdBegin (m : NorTurn) (s : State) : Host.Outcome State Fault Refusal :=
  .next (takeOp s m.port.val 2 ⟨[], []⟩ m.err)
def execUpdBlock (m : NorTurn) (s : State) : Host.Outcome State Fault Refusal :=
  .next (takeOp s m.port.val 3 ⟨[], []⟩ m.err)
def execUpdEnd (m : EndTurn) (s : State) : Host.Outcome State Fault Refusal :=
  .next (takeOp s m.port.val 4 m.nor m.err)
def execUpdAbort (p : Fin 3) (s : State) : Host.Outcome State Fault Refusal := .next (takeOp s p.val 5)
def execActivate (m : NorTurn) (s : State) : Host.Outcome State Fault Refusal :=
  .next (takeOp s m.port.val 6 ⟨[], []⟩ m.err)
def execConfirm (m : NorTurn) (s : State) : Host.Outcome State Fault Refusal :=
  .next (takeOp s m.port.val 7 ⟨[], []⟩ m.err)
def execReset (p : Fin 3) (s : State) : Host.Outcome State Fault Refusal := .next (takeOp s p.val 8)
def execLogRead (p : Fin 3) (s : State) : Host.Outcome State Fault Refusal := .next (takeOp s p.val 9)
def execRetireReport (m : NorTurn) (s : State) : Host.Outcome State Fault Refusal :=
  .next (takeOp s m.port.val 0x0A ⟨[], []⟩ m.err)
def execRetireList (p : Fin 3) (s : State) : Host.Outcome State Fault Refusal := .next (takeOp s p.val 0x0B)
def execRetireClear (m : NorTurn) (s : State) : Host.Outcome State Fault Refusal :=
  .next (takeOp s m.port.val 0x0C ⟨[], []⟩ m.err)
def execUserWrite (m : NorTurn) (s : State) : Host.Outcome State Fault Refusal :=
  .next (takeOp s m.port.val 0x0D ⟨[], []⟩ m.err)

/-- RESULT_TIMEOUT (R695): a result not released within RES_TO_S. -/
def execResultTimeout (p : Fin 3) (s : State) : Host.Outcome State Fault Refusal :=
  if (port s p.val).ready && (port s p.val).resultTb + resultTimeoutS s p.val * 1000000000 ≤ s.now then
    .next (mbxFlag (releaseResult s p.val) p.val 45 true)
  else .next s

/-- SESSION_TIMEOUT (R698): 60 s without a command of the session. -/
def execSessionTimeout (s : State) : Host.Outcome State Fault Refusal :=
  match s.mdl.session with
  | some x => if medullaActs s && x.lastTb + 60000000000 ≤ s.now then .next (endSession s) else .next s
  | none => .next s

/-- LOG_COPY (R705): the Medulla core copies both logs to the NOR log area. -/
def execLogCopy (s : State) : Host.Outcome State Fault Refusal :=
  if medullaActs s then .next (copyLogs s) else .next s

/-! ## The ring port (R704) -/

/-- Data cells fill the buffer of port 2 from a word offset on. -/
def fillBuffer (b : List Word) (off : Nat) : List Word → List Word
  | [] => b
  | w :: t => fillBuffer (b.set off (if off = 0x2AA then w &&& mask 31 0 else w)) (off + 1) t

/-- A message cell of channel 0 (R704): its source node and payload words. -/
def mailboxCell (s : State) (node : Nat) (words : List Word) : State :=
  let h := words.headD 0
  let x := port s 2
  let busy := x.posted || x.ready
  let seq := fld h 39 32
  let op := fld h 31 24
  match fld h 47 40 with
  | 1 =>
    if busy && x.remote ≠ node then
      let res := mk 47 47 1 ||| mk 39 32 seq ||| mk 31 16 3
      resultCell s node seq op (res :: List.replicate 8 0)
    else if x.ready && resultSeq x = seq then postStored s 2
    else if busy then s
    else
      let s := modPort s 2 fun x => { x with remote := node }
      postCommand s 2 3 (mk 47 40 seq ||| mk 39 32 op) ((upto 8).map fun k => words.getD (1 + k) 0) x.buf
  | 2 => if busy then s else modPort s 2 fun x => { x with buf := fillBuffer x.buf (fld h 15 0) ((words.drop 1).take 14) }
  | 4 => if x.remote = node then mbxAckWrite s 2 (mk 47 40 seq) else s
  | _ => s

end Sys2Proof.Machine
end

