-- ==== Sys2Proof/Machine/Ring.lean ====
section
/-! DEFINITION. The Bellaos ring (chapter 14): ports and lanes, the frame and its process values, message cells,
forwarding and wrapping, alignment, the node states, the election and the handover. A copy of a frame is one command,
with the whole of its sections; the control blocks between frames are commands of their own. -/

namespace Sys2Proof.Machine

open Sys2Proof

/-! ## State (R554, R555) -/

/-- A state whose entry or exit raises source 237 (R555). -/
def notedState (n : Nat) : Bool := n = 2 || n = 4 || n = 6 || n = 7

/-- A change of state (R554, R555); RING_RTT reads 0 on a member (R568). -/
def setRingState (s : State) (n : Nat) : State :=
  let old := ringState s
  let s := regFld s aRingStat 47 45 n
  let s := if n = 6 || n = 7 then s else regSet s aRingRtt 0
  if old ≠ n && (notedState old || notedState n) then assertEdge s 237 else s

/-- Copies leave by this port: its link is up and the node has stopped wrapping there (R548, R549). -/
def portOpen (s : State) (p : Nat) : Bool := linkUp s p && !regB s (aRingPort p) 6

/-- One of the node's ports has one live lane (R560). -/
def nodeNarrow (s : State) : Bool := liveLanes s 0 = 1 || liveLanes s 1 = 1

/-- The mean of the last results of a port, in ¼ ns; its rounding is not stated (R550). -/
def linkDelay (s : State) (p : Nat) : Nat := regF s (aRingPort p) 47 24

/-- The counter n of RING_CNT adds k (R570). -/
def ringCount (s : State) (n k : Nat) : State := if k = 0 then s else regAddSat s (aRingCnt n) 47 0 k

/-! ## Process values (R536 to R541) -/

/-- The word at a position of a section whose fill bit is set. -/
def filledWord (x : Section) (pos : Nat) : Option Word :=
  if x.fill.getLsbD (pos % 32) then some (x.words.getD (pos % 32) 0) else none

/-- The process section of a number from 0 on, in its place or in a retransmit slot (R546). -/
def carriedSections (fr : RingFrame) (k : Nat) : List Section :=
  (fr.sections[k]?).toList ++ (slotted fr).filterMap fun e => if e.1 = k + 1 then some e.2 else none

/-- A copy as its good header tells of it: the header in its place, or one sent again (R546); none without one. -/
def headerIn (fr : RingFrame) : Option RingFrame :=
  if sectionGood 0 (headerSection fr) then some fr
  else ((slotted fr).findSome? fun e => if e.1 = 0 && sectionGood 0 e.2 then some e.2.words else none).map (withHeader fr)

/-- What a copy delivers for a value (R539): nothing, a good word, a twinned pair that mismatches, or only sections whose
check is wrong. -/
inductive Delivered where
  | nothing
  | good (w : Word)
  | mismatch
  | wrong
deriving DecidableEq, Repr

/-- One section's word for value i of the frame. -/
def sectionValue (fr : RingFrame) (i : Nat) (x : Section) : Delivered :=
  let pos := valuePos fr i
  if !sectionGood (pos / 32 + 1) x then .wrong
  else
  match filledWord x pos with
  | none => .nothing
  | some w =>
    if i < fr.twins then
      match filledWord x (pos + 1) with
      | some c => if c = ~~~w then .good w else .mismatch
      | none => .nothing
    else .good w

/-- What the copy delivers for value i (R539). -/
def valueOf (fr : RingFrame) (i : Nat) : Delivered :=
  let l := (carriedSections fr (valuePos fr i / 32)).map (sectionValue fr i)
  match l.find? fun d => match d with
    | .good _ => true
    | _ => false with
  | some d => d
  | none => if l.contains .mismatch then .mismatch else if l.contains .nothing then .nothing else .wrong

/-- The values the node owns, with the front copies it sends (R480, R537). -/
def ownValues (s : State) : List (Nat × Word) := (s.outs.filter fun o => o.kind = 2).map fun o => (o.target, o.front)

/-- A word is written into a section with its fill bit (R537). -/
def fillWord (x : Section) (pos : Nat) (w : Word) : Section :=
  { x with words := x.words.set (pos % 32) w, fill := x.fill ||| (1#32 <<< (pos % 32)) }

/-- What insertion has done so far (R537, R538): the section, whether it met another owner's fill bit, and the values
written. -/
structure Inserted where
  out : Section
  dup : Bool
  wrote : List Nat

/-- The owned values enter one section, number k of the process sections, and its check is computed anew (R537). `mine`
holds the values that this node wrote into this copy when it passed before, in line mode: any other fill bit that stands
is another owner's (R538). -/
def insertSection (fr : RingFrame) (own : List (Nat × Word)) (mine : List Nat) (k : Nat) (x : Section) : Inserted :=
  if !sectionGood (k + 1) x then ⟨x, false, []⟩
  else
    let r := own.foldl (fun (a : Inserted) e =>
      let pos := valuePos fr e.1
      if fr.values ≤ e.1 || pos / 32 ≠ k then a
      else if a.out.fill.getLsbD (pos % 32) && !mine.contains e.1 then { a with dup := true }
      else
        let y := fillWord a.out pos e.2
        ⟨if e.1 < fr.twins then fillWord y (pos + 1) (~~~e.2) else y, a.dup, e.1 :: a.wrote⟩) ⟨x, false, []⟩
    { r with out := sealSection (k + 1) r.out }

/-- The owned values enter every section of a copy; with them, whether another owner's bit was met, and what was written. -/
def insertValues (fr : RingFrame) (own : List (Nat × Word)) (mine : List Nat) : RingFrame × Bool × List Nat :=
  let a := fr.sections.zipIdx.map fun e => insertSection fr own mine e.2 e.1
  let b := fr.retrans.map fun o => o.map fun x =>
    let n := sectionNumber x
    if 1 ≤ n && n ≤ fr.sections.length then insertSection fr own mine (n - 1) x else ⟨x, false, []⟩
  let c := a ++ b.filterMap id
  ({ fr with sections := a.map (·.out), retrans := b.map fun o => o.map (·.out) }, c.any (·.dup), c.flatMap (·.wrote))

/-! ## Cells (R542, R543) -/

/-- The receive queue of a ring channel with the lowest record number takes the message; SEQ runs per source, destination
and channel (R542, R601, R603). -/
def cellToQueue (s : State) (c : Cell) : State :=
  match rxQueue s 1 c.chan fun _ => true with
  | none => s
  | some q =>
    let same (e : Nat × Nat × Nat × Nat) : Bool := e.1 = c.src && e.2.1 = c.dst && e.2.2.1 = c.chan
    let last := (s.ring.lastSeq.find? same).map (·.2.2.2)
    let gap := match last with
      | some n => (c.seq + 2048 - (n + 1) % 2048) % 2048
      | none => 0
    if 1024 ≤ gap then s
    else
      let s := if gap = 0 then s else dropQ s q gap
      let s := modRing s fun r => { r with
        lastSeq := (c.src, c.dst, c.chan, c.seq) :: r.lastSeq.filter fun e => !same e }
      rxOffer s q (unpackBytes c.words (6 * c.words.length)) (mk 47 36 c.src)

/-- The destination takes a message by its channel. -/
def deliverCell (s : State) (c : Cell) : State :=
  if c.chan = 0 then mailboxCell s c.src c.words
  else if c.chan = 1 then migrationCell s c.src c.words
  else cellToQueue s c

/-- This node takes a good cell (R543, R690): a full one for it, on a channel it serves. -/
def takesCell (s : State) (c : Cell) : Bool :=
  c.full && (c.dst = nodeNum s || c.dst = 0xFFF) && c.src ≠ nodeNum s &&
  (c.chan ≠ 0 || served s 2)

/-- The next message that this copy has not carried yet, within the quota of the frame (R543, R565). -/
def nextCell (s : State) (west : Bool) : Option Cell :=
  let mine := s.ring.placed.filter fun e => e.1 = !west
  if regF s aRingCtl 24 21 ≤ mine.length then none
  else s.ring.txq.find? fun c => !mine.contains (!west, c.dst, c.chan, c.seq)

/-- One cell, section number n, as it passes (R543). `ends`: the copy ends here, so that nothing fills it. -/
def passCell (s : State) (west ends : Bool) (n : Nat) (c : Cell) : State × Cell :=
  if !sectionGood n (cellSection c) then (s, stompCell n c)
  else if takesCell s c then
    let s := if s.ring.seen.contains (c.src, c.chan, c.seq) then s
      else modRing (deliverCell s c) fun r => { r with seen := (c.src, c.chan, c.seq) :: r.seen }
    (s, if c.dst = nodeNum s then sealCell n { c with full := false } else c)
  else if c.full || ends then (s, c)
  else match nextCell s west with
    | some m =>
      let s := modRing s fun r => { r with placed := (!west, m.dst, m.chan, m.seq) :: r.placed }
      (count s (if west then 57 else 56) 0x62, sealCell n m)
    | none => (s, c)

/-- Cells of a copy in order, the first with section number n. -/
def passCells (s : State) (west ends : Bool) (n : Nat) : List Cell → State × List Cell
  | [] => (s, [])
  | c :: t =>
    let (s, c) := passCell s west ends n c
    let (s, l) := passCells s west ends (n + 1) t
    (s, c :: l)

/-- The cells that stand in the retransmit slots, numbered after header and process sections, pass as in their place
(R546). -/
def passSlots (s : State) (west ends : Bool) (secs : Nat) : List (Option Section) → State × List (Option Section)
  | [] => (s, [])
  | some x :: t =>
    let n := sectionNumber x
    let (s, y) := if secs < n then
        let (s, c) := passCell s west ends n (sectionCell x)
        (s, cellSection c)
      else (s, x)
    let (s, l) := passSlots s west ends secs t
    (s, some y :: l)
  | none :: t =>
    let (s, l) := passSlots s west ends secs t
    (s, none :: l)

/-! ## Sending (R544, R546, R548) -/

/-- A header in a retransmit slot leaves as the header in its place would (R546, R551). -/
def refreshHeader (fr : RingFrame) : RingFrame :=
  { fr with retrans := fr.retrans.map fun o => o.map fun x =>
      if sectionNumber x = 0 && sectionGood 0 x then ⟨headerWords fr, 0, checkOf 0 (headerWords fr)⟩ else x }

/-- How many further DLY_REQ follow the one after an EOF before the next frame, so that one leaves every 10 µs (R550). -/
def furtherReqs (s : State) (eof : Nat) : Nat := if s.tick.running then (s.tick.next - eof) / 10000 else 0

/-- A copy leaves by a port from a time on: on its live lanes (R531), the requests that wait in its first LINK blocks
(R546), a DLY_REQ after its EOF and every 10 µs from there (R550). How many IDLE blocks left before it is not stated, so
what the scramblers and the parities hold at its SOF is a free value. DESIGN CHOICE, log entry 181. -/
def sendFrame (s : State) (p : Nat) (fr : RingFrame) (start : Nat) : State :=
  if !portSends s p then s
  else
    let w := frameBlocks fr
    let fr := refreshHeader fr
    let x := ringPort s p
    let (a, s) := s.takeFree
    let (b, s) := s.takeFree
    let (c, s) := s.takeFree
    let n := (linkPlaces fr).length
    let copy : SentCopy := {
      port := p
      frame := fr
      start := start
      live := BitVec.ofNat 2 (regF s (aRingPort p) 5 4)
      scr0 := a.setWidth 58 ||| (c.setWidth 58 <<< 48)
      scr1 := b.setWidth 58 ||| ((c >>> 10).setWidth 58 <<< 48)
      bip0 := c.extractLsb' 20 8
      bip1 := c.extractLsb' 28 8
      links := (upto n).map fun k => ⟨x.nak[k]?, x.lretOut⟩ }
    let eof := start + blockNs fr * w
    let s := modRing s fun r => { r with outFrames := r.outFrames ++ [copy] }
    let s := modRingPort s p fun x => { x with
      sent := numbered fr ++ slotted fr ++ x.sent, nak := x.nak.drop n, busyTo := Nat.max x.busyTo eof }
    let s := (upto (1 + furtherReqs s eof)).foldl (fun s k => sendDly s p (eof + 10000 * k)) s
    bwAdd (count s (56 + p) 0x60 w) (24 + 2 * p) w

/-- What a forwarding node adds to the header (R551, R560): HOPS, the delay of its input link and of its own 40 ns. -/
def addHop (s : State) (inPort : Nat) (fr : RingFrame) : RingFrame :=
  editHeader fr fun fr => { fr with
    hops := (fr.hops + 1) % 4096
    accDelay := (fr.accDelay + linkDelay s inPort + 160) % 2 ^ 24
    narrow := fr.narrow || nodeNarrow s }

/-- A copy goes on after 40 ns (R544): out of the other port, or back with WRAPPED = 1 where the node wraps (R548). -/
def forward (s : State) (inPort : Nat) (fr : RingFrame) : State :=
  let out := 1 - inPort
  let fr := addHop s inPort fr
  if portOpen s out then sendFrame s out fr (s.now + 40)
  else sendFrame s inPort (editHeader fr fun fr => { fr with wrapped := true }) (s.now + 40)

/-! ## Receiving a copy (R537 to R543, R546 to R548, R551, R552, R556, R557) -/

/-- The ring configuration fault (R538, R556, R557). -/
def configFault (s : State) (node : Word) : State := logFault s 0x16 0 0 node 0

/-- Sections that arrive bad: CRC, the request for a retransmission, and LOST where no slot brought it good (R546). -/
def noteBad (s : State) (inPort : Nat) (fr : RingFrame) : State :=
  let bad := ((numbered fr ++ slotted fr).filter fun e => sectionBad e.1 e.2).map (·.1)
  let lost := bad.eraseDups.filter fun k => !(slotted fr).any fun e => e.1 = k && sectionGood k e.2
  bad.foldl (fun s k => askSection s inPort k) (ringCount (ringCount s 0 bad.length) 2 lost.length)

/-- The good values of a copy enter the current area (R539, R540). -/
def takeValues (s : State) (fr : RingFrame) : State :=
  let area := s.ring.rxBase + 0x2000 * (regF s aTickCount 0 0)
  (upto fr.values).foldl (fun s i =>
    match valueOf fr i with
    | .nothing => s
    | .wrong =>
      if fr.twins ≤ i || s.ring.wrongTwins.contains i then s
      else modRing s fun r => { r with wrongTwins := i :: r.wrongTwins }
    | .mismatch =>
      if fr.west then (if s.ring.badWest.contains i then s else modRing s fun r => { r with badWest := i :: r.badWest })
      else if s.ring.badEast.contains i then s else modRing s fun r => { r with badEast := i :: r.badEast }
    | .good w =>
      if s.ring.good.contains i then s
      else
        let s := modRing s fun r => { r with good := i :: r.good }
        if s.ring.rxBase = 0 then s else sorusEngineWrite s .ring (area + i) w) s

/-- The member's own error against the master's tick, in ¼ ns (R551): its latest tick came one period before its next. -/
def tickError (s : State) (inPort : Nat) (fr : RingFrame) : Int :=
  let since : Int := (s.now : Int) - ((s.tick.next : Int) - s.tick.curNs)
  let age : Int := 32 + fr.accDelay + linkDelay s inPort
  age - 4 * since

/-- The tick of a member starts at the master's (R35, R551, R552, R677): where it stood since an exit from Quiescent, its
next tick is PERIOD_NS after the master's latest, to the nanosecond below. -/
def recoverTick (s : State) (inPort : Nat) (fr : RingFrame) : State :=
  let age := (32 + fr.accDelay + linkDelay s inPort) / 4
  { regFld (regFld s aTickStat 1 0 1) aTickStat 47 24 fr.periodNs with
    tick := { s.tick with running := true, curNs := fr.periodNs, next := s.now + fr.periodNs - age, pendingPeriod := [] }
    ring := { s.ring with tickErr := 0, hdrEast := !fr.west || s.ring.hdrEast } }

/-- Alignment from a good header (R551, R552): the eastbound copy, else the westbound one. -/
def alignFrom (s : State) (inPort : Nat) (fr : RingFrame) : State :=
  if s.ring.hdrEast && fr.west then s
  else if !s.tick.running then recoverTick s inPort fr
  else
    let err := tickError s inPort fr
    let s := regSet s aRingAlign (mk 39 16 fr.accDelay ||| mk 15 0 (uns 16 (clampS 16 err)))
    let s := modRing s fun r => { r with tickErr := err, hdrEast := !fr.west || r.hdrEast }
    let old := s.tick.curNs
    let s := { s with tick := { s.tick with curNs := fr.periodNs, next := s.tick.next - old + fr.periodNs } }
    let s := regFld s aTickStat 47 24 fr.periodNs
    if old ≠ fr.periodNs then assertEdge s 35 else s

/-- What every good header shows in RING_STAT (R568); a change of a received HOPS raises source 237 (R555). -/
def statHeader (s : State) (fr : RingFrame) : State :=
  let s := regFld (regFld s aRingStat 44 33 fr.master) aRingStat 32 32 fr.acting.toNat
  let s := regFld s aRingStat 30 30 fr.pace.toNat
  let line := s.ring.line || fr.wrapped || fr.mpassed
  let s := modRing (regFld s aRingStat 31 31 line.toNat) fun r => { r with line := line }
  if fr.west then
    let s' := modRing s fun r => { r with hopsWest := fr.hops }
    if s.ring.hopsWest ≠ fr.hops then assertEdge s' 237 else s'
  else
    let s' := modRing (regFld s aRingStat 27 16 fr.hops) fun r => { r with hopsEast := fr.hops }
    if s.ring.hopsEast ≠ fr.hops then assertEdge s' 237 else s'

/-- What a good header of the frame that this node is part of leaves beside (R552, R553). -/
def noteHeader (s : State) (fr : RingFrame) : State :=
  modRing (statHeader s fr) fun r => { r with header := true, h0 := fr.tickCount, values := fr.values, paceNow := fr.pace }

/-- A copy fits its frame (R547): its EOF is received by 40 ns before the node's next tick. -/
def fitsFrame (s : State) (fr : RingFrame) : Bool :=
  !s.tick.running || s.now + blockNs fr * frameBlocks fr + 40 ≤ s.tick.next

/-- A pass of a copy that fits its frame is noted. -/
def notePass (s : State) (west fits : Bool) : State :=
  if !fits then s
  else if west then modRing s fun r => { r with westSeen := r.westSeen + 1 }
  else modRing s fun r => { r with eastSeen := r.eastSeen + 1 }

/-- A duplicate owner (R538); the other party's address is not in the frame. -/
def noteDup (s : State) (dup : Bool) : State :=
  if !dup then s
  else
    let (w, s) := s.takeFree
    configFault (assertEdge (modRing (regFld s aRingStat 29 29 1) fun r => { r with dupNow := true }) 237) w

/-- The node inserts values and cells, takes values, and answers the copy as it goes on or, where it `ends`, as it stands
at its end (states 4 to 7). -/
def takePart (s : State) (fr : RingFrame) (ends : Bool) : State × RingFrame :=
  let s := takeValues s fr
  let mine := (s.ring.wrote.filter fun e => e.1 = fr.west).map (·.2)
  let (out, dup, wrote) := insertValues (stompAll fr) (ownValues s) mine
  let s := noteDup (modRing s fun r => { r with wrote := wrote.map (fun i => (fr.west, i)) ++ r.wrote }) dup
  let n := out.sections.length
  let (s, cells) := passCells s fr.west ends (n + 1) out.cells
  let (s, slots) := passSlots s fr.west ends n out.retrans
  (s, { out with cells := cells, retrans := slots })

/-- The end of a copy at its master (R543, R568): RTT, cells still full, NARROW. -/
def endCopy (s : State) (fr : RingFrame) : State :=
  let rtt := satN 24 ((s.tbl - (regGet s aTickLast + 8)).toNat + blockNs fr * frameBlocks fr)
  let s := if fr.west then regFld s aRingRtt 47 24 rtt else regFld s aRingRtt 23 0 rtt
  let first := fr.sections.length + 1
  let cells := fr.cells.zipIdx.map fun e => (e.2 + first, e.1)
  let slots := ((slotted fr).filter fun e => first ≤ e.1).map fun e => (e.1, sectionCell e.2)
  let full := (cells ++ slots).filter fun e => e.2.full && sectionGood e.1 (cellSection e.2) && e.2.dst ≠ 0xFFF
  modRing (ringCount s 6 full.length) fun r => { r with clearSeen := r.clearSeen + (!fr.narrow).toNat }

/-- The master's own copy comes back (R548). It ends on the port opposite to the one it left by, or with MPASSED = 1;
else it goes on out of the other port. NARROW counts at either pass (R560); the copy fits by its end (R547). -/
def ownCopy (s : State) (inPort : Nat) (fr : RingFrame) (fits : Bool) : State :=
  let ends := inPort ≠ (if fr.west then 1 else 0) || fr.mpassed
  let s := modRing (noteHeader s fr) fun r => { r with narrowSeen := r.narrowSeen || fr.narrow }
  let (s, out) := takePart s fr ends
  if ends then endCopy (notePass s fr.west fits) out
  else forward s inPort (editHeader out fun x => { x with mpassed := true })

/-- A frame of another master at a node that emits (R556, R557). -/
def rivalCopy (s : State) (inPort : Nat) (fr : RingFrame) : State :=
  let s := statHeader s fr
  let st := ringState s
  let lower := decide (nodeNum s < fr.master)
  if st = 6 then
    if fr.acting then s
    else
      let s := configFault s (w48 fr.master)
      if lower then s
      else forward (setRingState (modRing s fun r => { r with stuck := true }) 2) inPort (stompAll fr)
  else if fr.acting && lower then s
  else
    let s := if s.ring.stop then s else configFault (modRing s fun r => { r with stop := true }) (w48 fr.master)
    forward (noteHeader s fr) inPort (stompAll fr)

/-- A copy at a node that does not emit (R551 to R558). -/
def memberCopy (s : State) (inPort : Nat) (fr : RingFrame) (fits : Bool) : State :=
  let s := notePass s fr.west fits
  if s.ring.stuck then forward (statHeader s fr) inPort (stompAll fr)
  else if fr.master = nodeNum s && !regB s aRingCfg 35 then
    let s := configFault (statHeader s fr) (w48 fr.master)
    forward (setRingState (modRing s fun r => { r with stuck := true }) 2) inPort (stompAll fr)
  else
    let s := alignFrom (noteHeader s fr) inPort fr
    let s := if fr.hov && fr.hnode = nodeNum s then modRing s fun r => { r with handed := true } else s
    if ringState s < 4 then forward (setRingState s 3) inPort (stompAll fr)
    else
      let (s, out) := takePart s fr false
      forward s inPort out

/-- The blocks of a copy that are received in time, where blocks come too late for this node's frame (R547): a node that
has its tick, aligned or on its way from an alignment, discards those that end less than 40 ns before the next one. DEDUCED,
log entry 181. -/
def inTime (s : State) (fr : RingFrame) : Option Nat :=
  if s.tick.running && (4 ≤ ringState s || ringState s = 3 && s.ring.aligned) && !fitsFrame s fr then
    some ((s.tick.next - (s.now + 40)) / blockNs fr)
  else none

/-- A copy of which n blocks are received: each section that does not end among them leaves stomped. -/
def cutCopy (fr : RingFrame) (n : Nat) : RingFrame :=
  let a := fr.sections.length
  let b := 7 + 35 * a
  let c := b + 18 * fr.cells.length
  { fr with
    sections := fr.sections.zipIdx.map fun e => if 41 + 35 * e.2 ≤ n then e.1 else stompSection (e.2 + 1) e.1
    cells := fr.cells.zipIdx.map fun e => if b + 17 + 18 * e.2 ≤ n then e.1
      else { e.1 with check := stompOf (e.2 + 1 + a) (covered (cellSection e.1)) }
    retrans := fr.retrans.zipIdx.map fun e => if c + 34 + 35 * e.2 ≤ n then e.1
      else e.1.map fun x => stompSection (sectionNumber x) x }

/-- The two lanes of a port that has both live lie further apart than the receiver deskews (R531); the manual does not say
what such a copy comes to. DESIGN CHOICE, log entry 182. -/
def apart (s : State) (p : Nat) (fr : RingFrame) : Bool := liveLanes s p = 2 && 16 < fr.skew

/-- The part of a copy that this node receives (R531, R547): none where not even its header comes in time, or where its
lanes do not come together. -/
def received (s : State) (p : Nat) (fr : RingFrame) : Option RingFrame :=
  if apart s p fr then none
  else match inTime s fr with
    | none => some fr
    | some n => if n < 6 then none else some (cutCopy fr n)

/-- RING_FRAME (R537 to R557): a copy that travels in a direction arrives at the opposite port; the time is that of its
SOF. -/
def execRingFrame (dir : Dir) (fr : RingFrame) (s : State) : Host.Outcome State Fault Refusal :=
  let inPort := match dir with
    | .east => 1
    | .west => 0
  if s.sys.bypass || ringState s < 2 || !linkUp s inPort || !portHears s inPort then .next s
  else
    match received s inPort fr with
    | none => .next s
    | some got =>
      let fits := fitsFrame s fr
      let s := bwAdd (noteBad s inPort got) (25 + 2 * inPort) (frameBlocks got)
      match headerIn got with
      | none => .next (forward (notePass s (dir = .west) fits) inPort (stompAll got))
      | some h =>
        if ringState s = 6 || ringState s = 7 then
          if h.master = nodeNum s then .next (ownCopy s inPort h fits) else .next (rivalCopy s inPort h)
        else .next (memberCopy s inPort h fits)

/-! ## Emission (R537, R544, R558) -/

/-- An empty cell. -/
def emptyCell : Cell := ⟨false, 0, 0, 0, 0, [], 0⟩

/-- The frame of the current tick before its checks are computed (R533, R534, R537): fill words and cells are empty. -/
def bareFrame (s : State) (west : Bool) : RingFrame where
  tickCount := regGet s aTickCount
  master := nodeNum s
  hops := 0
  accDelay := 0
  acting := ringState s = 7
  wrapped := false
  mpassed := false
  narrow := nodeNarrow s
  pace := s.ring.paceNow
  west := west
  hov := s.ring.handover.isSome
  hnode := s.ring.handover.getD 0
  periodNs := s.tick.curNs
  values := fld s.ring.layout 47 36
  twins := fld s.ring.layout 35 24
  rtx := fld s.ring.layout 15 12
  headerCheck := 0
  sections := List.replicate (secsOf (fld s.ring.layout 47 36) (fld s.ring.layout 35 24)) ⟨List.replicate 32 0, 0, 0⟩
  cells := List.replicate (fld s.ring.layout 23 16) emptyCell
  retrans := List.replicate (fld s.ring.layout 15 12) none
  skew := 0

/-- The frame of the current tick before the master's own values enter it. -/
def freshFrame (s : State) (west : Bool) : RingFrame :=
  let fr := bareFrame s west
  { fr with
    headerCheck := checkOf 0 (headerWords fr)
    sections := fr.sections.zipIdx.map fun e => sealSection (e.2 + 1) e.1
    cells := fr.cells.zipIdx.map fun e => sealCell (e.2 + 1 + fr.sections.length) e.1 }

/-- The master sends one copy, on the port it leaves by, unless it wraps there. -/
def emitCopy (s : State) (west : Bool) : State :=
  let p := if west then 1 else 0
  if portOpen s p then
    let (fr, _, wrote) := insertValues (freshFrame s west) (ownValues s) []
    let s := modRing s fun r => { r with wrote := wrote.map (fun i => (west, i)) ++ r.wrote }
    let (s, cells) := passCells s west false (fr.sections.length + 1) fr.cells
    sendFrame s p { fr with cells := cells } s.now
  else modRing s fun r => { r with line := true }

/-- RING_FRAME_EMIT (R544): 8 ns after its tick. -/
def execRingFrameEmit (s : State) : Host.Outcome State Fault Refusal :=
  if (ringState s = 6 || ringState s = 7) && !s.sys.bypass && s.tick.running && !s.ring.emitted &&
      8 ≤ (s.tbl - regGet s aTickLast).toNat then
    let s := emitCopy (emitCopy s false) true
    .next (modRing s fun r => { r with emitted := true, announced := r.handover.isSome })
  else .next s

/-! ## Link control (R545, R546, R550, R559) -/

/-- Lane errors (R559): counted, kept for 1 s, and raised and logged once per frame and port. -/
def laneErrors (s : State) (p k n : Nat) : State :=
  if n = 0 then s
  else
    let s := regAddSat s (aRingLaneErr p k) 47 0 n
    let h := (s.ring.laneHistory.filter fun e => s.now ≤ e.2 + 1000000000) ++ List.replicate n (2 * p + k, s.now)
    let s := modRing s fun r => { r with laneHistory := h }
    if s.ring.laneRaised.contains p then s
    else
      let s := modRing s fun r => { r with laneRaised := p :: r.laneRaised }
      assertEdge (logFault s 0x09 (2 * p + k) (234 + p) 0 (regGet s (aRingLaneErr p k))) (234 + p)

/-- A port's link goes down: the node wraps there (R548). -/
def dropLink (s : State) (p : Nat) : State :=
  modRingPort (regFld (regFld (regFld s (aRingPort p) 7 7 0) (aRingPort p) 6 6 1) (aRingPort p) 1 0 0) p fun x =>
    { x with stopWrap := false }

/-- The LINK blocks that a port sends from now on hold the LRET in force (R545, R559). -/
def announceLret (s : State) (p : Nat) : State :=
  let l := (ringPort s p).lretOut
  match editNewest (fun c => some (c.editLinks s.now fun k => { k with lret := l })) p s.ring.outFrames with
  | some x => modRing s fun r => { r with outFrames := x }
  | none => s

/-- A lane is retired on this node (R559, R560): stored, then announced. -/
def retireLane (s : State) (p k : Nat) : State :=
  if regB s (aRingPort p) (2 + k) then s
  else
    let s := recordRetirement s ⟨6, 2 * p + k, 0, 0, 0, s.mdl.sfmt, 0⟩ 0 236
    let s := regFld (regFld s (aRingPort p) (2 + k) (2 + k) 1) (aRingPort p) (4 + k) (4 + k) 0
    let s := announceLret (modRingPort s p fun x => { x with lretOut := x.lretOut ||| (1#2 <<< k) }) p
    if liveLanes s p = 0 then dropLink s p else s

/-- The first empty retransmit slot of a sent copy that has still to leave takes a section (R546). -/
def fillSlot (now : Nat) (x : Section) (c : SentCopy) : Option SentCopy :=
  (c.frame.retrans.zipIdx.findIdx? fun e => e.1.isNone && now ≤ c.slotLeaves e.2).map fun j =>
    { c with frame := { c.frame with retrans := c.frame.retrans.set j (some x) } }

/-- A request for a retransmission (R546): of the section as the port sent it, with its check good where one such was
sent. -/
def retransmit (s : State) (p sec : Nat) : State :=
  let l := (ringPort s p).sent.filter fun e => e.1 = sec
  match (l.find? fun e => sectionGood sec e.2).or l.head? with
  | none => s
  | some e =>
    match editNewest (fillSlot s.now e.2) p s.ring.outFrames with
    | some l => count (ringCount (modRing s fun r => { r with outFrames := l }) 1 1) (56 + p) 0x61
    | none => ringCount s 2 1

/-- LINK (R545, R546, R559): what each live lane received since the last one is checked against its parity and for sync
errors; a lane that is not live is not. -/
def execLink (p : Fin 2) (l0 l1 : LaneIn) (nakv : Bool) (nakSec : Nat) (lret : BitVec 2) (s : State) :
    Host.Outcome State Fault Refusal :=
  let p := p.val
  if s.sys.bypass || !linkUp s p || !portHears s p then .next s
  else
    let s := if regB s (aRingPort p) 4 then laneErrors s p 0 (laneFaults l0) else s
    let s := if regB s (aRingPort p) 5 then laneErrors s p 1 (laneFaults l1) else s
    let s := if lret.getLsbD 0 then retireLane s p 0 else s
    let s := if lret.getLsbD 1 then retireLane s p 1 else s
    .next (if nakv then retransmit s p nakSec else s)

/-- DLY_REQ (R550): answered by DLY_RSP with TURN. -/
def execDlyReq (p : Fin 2) (sq : BitVec 16) (turn : Nat) (s : State) : Host.Outcome State Fault Refusal :=
  if s.sys.bypass || !portHears s p.val then .next s
  else .next (sendBlock (hearBlock s p.val) p.val 0x12 (turn % 2 ^ 24) sq.toNat)

/-- DLY_RSP (R550), to a request that has none yet: `elapsed` is t4 − t1 in ¼ ns. The register takes the mean of the last 16 results; where the sum
does not divide evenly the manual states no rounding, and the last place is open. -/
def execDlyRsp (p : Fin 2) (sq : BitVec 16) (turn elapsed : Nat) (s : State) : Host.Outcome State Fault Refusal :=
  if s.sys.bypass || !portHears s p.val || !(ringPort s p.val).dlyOpen.contains sq then .next s
  else
    let s := modRingPort (hearBlock s p.val) p.val fun x => { x with
      dlyOpen := x.dlyOpen.filter (· ≠ sq), delays := ((elapsed - turn) / 2 :: x.delays).take 16 }
    let l := (ringPort s p.val).delays
    let (w, s) := s.takeFree
    let up := if l.sum % l.length = 0 then 0 else (bit w 0).toNat
    .next (regFld s (aRingPort p.val) 47 24 (l.sum / l.length + up))

/-- LINK_DOWN (R548): every live lane has lost block lock for 200 ns. -/
def execLinkDown (p : Fin 2) (s : State) : Host.Outcome State Fault Refusal :=
  if linkUp s p.val then .next (dropLink s p.val) else .next s

/-- LINK_TRAINING (R549, R554, R555): a port's training has ended with `lanes` trained, none where it failed. The link
comes up with them, its delay is measured, and wrapping ends at the next tick; the node leaves state 1 when no port
trains any more. -/
def execLinkTraining (p : Fin 2) (lanes : BitVec 2) (s : State) : Host.Outcome State Fault Refusal :=
  let p := p.val
  if s.sys.bypass || ringState s = 0 || !portHears s p || !portSends s p then .next s
  else
    let ok := ((trainLanes s p).filter fun k => lanes.getLsbD k).foldl (fun n k => n + 2 ^ k) 0
    let s := regFld (regFld s (aRingPort p) 5 4 ok) (aRingPort p) 1 0 ok
    let s := regFld s (aRingPort p) 7 7 (decide (ok ≠ 0)).toNat
    let s := regFld s (aRingPort p) 6 6 1
    let s := modRingPort s p fun x => { x with stopWrap := decide (ok ≠ 0), training := false }
    let s := if ok ≠ 0 then sendDly s p (idleAt s p) else s
    .next (if ringState s = 1 && trained s then setRingState s 2 else s)

/-- LANE_RETIREMENT (R559): LANE_THR errors within 1 s. -/
def execLaneRetirement (p : Fin 2) (lane : Fin 2) (s : State) : Host.Outcome State Fault Refusal :=
  let n := (s.ring.laneHistory.filter fun e => e.1 = 2 * p.val + lane.val && s.now ≤ e.2 + 1000000000).length
  if regF s aRingCtl 15 0 ≤ n && regB s (aRingPort p.val) (4 + lane.val) then .next (retireLane s p.val lane.val) else .next s

/-- LANE_BLOCK_LOCK_LOSS (R559). -/
def execLaneBlockLockLoss (p : Fin 2) (lane : Fin 2) (s : State) : Host.Outcome State Fault Refusal :=
  if regB s (aRingPort p.val) lane.val then
    .next (laneErrors (regFld s (aRingPort p.val) lane.val lane.val 0) p.val lane.val 1)
  else .next s

/-! ## Election and handover (R557, R558) -/

/-- A claim leaves by both ports. -/
def sendClaims (s : State) (node : Nat) (img : Bool) : State :=
  sendBlock (sendBlock s 0 0x21 node img.toNat) 1 0x21 node img.toNat

/-- ELECTION_CLAIM (R557): once per frame after ELECT_FRAMES of holdover, until a lower claim comes. -/
def execElectionClaim (s : State) : Host.Outcome State Fault Refusal :=
  if ringState s = 5 && regB s aRingCtl 33 && regF s aRingCtl 32 25 ≤ s.ring.holdoverFrames && !s.ring.claimed &&
      !s.ring.lowerClaim then
    .next (modRing (sendClaims s (nodeNum s) false) fun r => { r with claimed := true, claims := r.claims + 1 })
  else .next s

/-- The node takes part in an election (R557). -/
def electing (s : State) : Bool :=
  ringState s = 5 && regB s aRingCtl 33 && regF s aRingCtl 32 25 ≤ s.ring.holdoverFrames

/-- CLAIM (R557, R558). -/
def execClaim (p : Fin 2) (node : Nat) (img : Bool) (s : State) : Host.Outcome State Fault Refusal :=
  if s.sys.bypass || ringState s < 2 || !portHears s p.val then .next s
  else
    let s := hearBlock s p.val
    let on (s : State) : State := if linkUp s (1 - p.val) then sendBlock s (1 - p.val) 0x21 node img.toNat else s
    if img then
      if ringState s = 7 then .next (modRing s fun r => { r with handover := some node }) else .next (on s)
    else if !electing s then .next (on s)
    else if node < nodeNum s then .next (on (modRing s fun r => { r with lowerClaim := true, claims := 0 }))
    else .next s

/-- MASTER_HANDOVER (R558): a node with MASTER = 1 claims with IMG after 16 frames in state 4 under an acting master. -/
def execMasterHandover (s : State) : Host.Outcome State Fault Refusal :=
  if regB s aRingCfg 35 && ringState s = 4 && 16 ≤ s.ring.joinedFrames && regB s aRingStat 32 then
    .next (sendClaims s (nodeNum s) true)
  else .next s

/-! ## The end of the frame (R541, R547, R553) -/

/-- The copy of a direction has a frame to fit at this node (R547): a master sent it, any other node may receive it. -/
def copyDue (s : State) (west : Bool) : Bool :=
  !(ringState s = 6 || ringState s = 7) || s.ring.outFrames.any fun c => c.frame.west = west

/-- RING_COPY_LATE (R547): the copy of a direction has not ended by 40 ns before the tick. -/
def execRingCopyLate (dir : Dir) (s : State) : Host.Outcome State Fault Refusal :=
  if 2 ≤ ringState s && s.tick.running && s.tick.next ≤ s.now + 40 && copyDue s (dir = .west) then
    match dir with
    | .east =>
      if s.ring.eastSeen = 0 && !s.ring.lateEast then .next (ringCount (modRing s fun r => { r with lateEast := true }) 3 1)
      else .next s
    | .west =>
      if s.ring.westSeen = 0 && !s.ring.lateWest then .next (ringCount (modRing s fun r => { r with lateWest := true }) 3 1)
      else .next s
  else .next s

/-- TICK_HOLDOVER (R553): no good header by 40 ns before the next tick. -/
def execTickHoldover (s : State) : Host.Outcome State Fault Refusal :=
  if ringState s = 4 && s.tick.running && !s.ring.header && s.tick.next ≤ s.now + 40 then
    let s := modRing s fun r => { r with holdoverFrames := 0 }
    .next (assertEdge (regFld (setRingState s 5) aTickStat 1 0 3) 33)
  else .next s

/-- The fresh map words and the status word of a completed area (R540). -/
def areaTail (d : RxDone) : List Word :=
  ((upto ((d.values + 47) / 48)).map fun k =>
    (upto 48).foldl (fun w m => if d.good.contains (48 * k + m) then setBit w m true else w) (0 : Word)) ++
  [mk 47 36 d.hops ||| mk 35 35 d.lateEast.toNat ||| mk 34 34 d.lateWest.toNat ||| mk 33 33 d.line.toNat |||
    mk 32 32 d.pace.toNat ||| mk 31 0 (fld d.tick 31 0)]

/-- The map and the status word of the completed area are written (R541). -/
def areaWrite (s : State) : State :=
  match s.ring.done with
  | some d =>
    let a := d.base + 0x2000 * fld d.tick 0 0 + d.values
    modRing (sorusEngineWrites s .ring a (areaTail d)) fun r => { r with done := none }
  | none => s

/-- A map or status word that the engine has not written in the current frame (R541). -/
def areaUnwritten (s : State) (key : Nat) : Bool :=
  match s.ring.done with
  | some d =>
    let a := d.base + 0x2000 * fld d.tick 0 0 + d.values
    a ≤ key && key ≤ a + (d.values + 47) / 48
  | none => false

/-! ## The tick (R539, R546, R549, R552 to R560, R566, R567) -/

/-- TICK_COUNT after this tick (R463, R555): a node that aligns adopts the master's count. -/
def nextTickCount (s : State) : Word :=
  if ringState s = 3 && s.ring.header then s.ring.h0 + 1 else regGet s aTickCount + 1

/-- The frame that ends leaves its map, its counts of twins and its streaks (R539, R541). A twinned value that one copy
brought mismatched or under a wrong check and another brought good counts in TWIN_TRANS. DESIGN CHOICE, log entry
174: where no good eastbound copy came in the frame, HOPS of the status word is that of the latest one before. -/
def endFrameValues (s : State) (old : Word) : State :=
  let r := s.ring
  let pers := r.badEast.filter fun i => r.badWest.contains i && !r.good.contains i
  let trans := (r.badEast ++ r.badWest ++ r.wrongTwins).eraseDups.filter fun i => r.good.contains i
  let s := ringCount (ringCount s 4 trans.length) 5 pers.length
  let streaks := pers.map fun i => (i, aget r.streaks i 0 + 1)
  let s := modRing s fun r => { r with
    streaks := streaks
    done := if 4 ≤ ringState s && r.rxBase ≠ 0 then
        some ⟨r.rxBase, if ringState s = 6 || ringState s = 7 then fld r.layout 47 36 else r.values,
          r.good, r.hopsEast, r.lateEast, r.lateWest, r.line, r.paceNow, old⟩
      else none }
  (streaks.filter fun e => e.2 = 3).foldl (fun s e =>
    let (w, s) := s.takeFree
    assertEdge (logFault s 0x0A 0 243 (w48 e.1) w) 243) s

/-- The first alignment steps the time base by the tick error (R317), whose quarters of a nanosecond are rounded either
way. -/
def stepTime (s : State) : State :=
  let (w, s) := if s.ring.tickErr % 4 = 0 then (0, s) else s.takeFree
  let d : Int := s.ring.tickErr / 4 + (bit w 0).toNat
  let s := { s with tb := BitVec.ofInt 96 (s.tb.toInt + d) }
  let s := modRing s fun r => { r with aligned := true }
  assertEdge (regSet s aTbStep (BitVec.ofInt 48 d)) 34

/-- The period that TICK_PERIOD names at a tick: a write in the tick's own nanosecond counts from the next one on (R462). -/
def writtenPeriod (s : State) : Nat :=
  match s.tick.pendingPeriod.find? fun e => s.now ≤ e.2.1 with
  | some e => e.2.2
  | none => regF s aTickPeriod 23 0

/-- The periods written since, which apply at the next tick (R462). -/
def laterPeriods (s : State) : List (Nat × Nat × Nat) := s.tick.pendingPeriod.filter fun e => s.now ≤ e.2.1

/-- The node runs from its own generator from this tick on (R461). -/
def ownGenerator (s : State) : State :=
  let p := writtenPeriod s
  let changed := decide (s.tick.curNs ≠ p)
  let s := { s with tick := { s.tick with curNs := p, next := s.now + p, pendingPeriod := laterPeriods s } }
  let s := regFld (regFld s aTickStat 1 0 1) aTickStat 47 24 p
  if changed then assertEdge s 35 else s

/-- The duplicates of the frame that ends join the streak of R556. -/
def dupTick (s : State) : State := modRing s fun r => { r with dupStreak := if r.dupNow then r.dupStreak + 1 else 0 }

/-- A member that saw duplicates in 3 consecutive frames stays in state 2 (R556). -/
def dupStuck (s : State) : State :=
  regFld (setRingState (modRing s fun r => { r with stuck := true }) 2) aTickStat 1 0 3

/-- The transitions of R554 and R555 at a tick. An acting master that stops keeps its tick phase, so its alignment steps
nothing (R557). A member whose tick is the master's from here on raises source 34 (R291). DESIGN CHOICE, log
entry 172: TICK_STAT.SRC of an acting master that stops stays 1 until it joins. -/
def ringTransition (s : State) : State :=
  let s := dupTick s
  let r := s.ring
  match ringState s with
  | 1 | 2 => if regB s aRingCfg 35 && !r.stuck then setRingState s 6 else s
  | 3 =>
    if !r.header then s
    else if -20 ≤ r.tickErr && r.tickErr ≤ 20 then
      let s := setRingState (modRing s fun r => { r with joinedFrames := 0, aligned := true }) 4
      assertEdge (regFld s aTickStat 1 0 2) 34
    else if !r.aligned then stepTime s else s
  | 4 =>
    let s := modRing s fun r => { r with joinedFrames := r.joinedFrames + 1 }
    if 3 ≤ r.dupStreak then dupStuck s
    else if r.handed then
      regFld (setRingState (modRing s fun r => { r with handed := false }) 6) aTickStat 1 0 1
    else s
  | 5 =>
    if 3 ≤ r.dupStreak then dupStuck s
    else if r.header then
      let s := setRingState (modRing s fun r => { r with holdoverFrames := 0, claims := 0, lowerClaim := false }) 4
      assertEdge (regFld s aTickStat 1 0 2) 34
    else
      let s := modRing s fun r => { r with holdoverFrames := r.holdoverFrames + 1, claims := if r.claimed then r.claims else 0 }
      if 3 ≤ r.claims && r.claimed && !r.lowerClaim then
        ownGenerator (setRingState (modRing s fun r => { r with holdoverFrames := 0 }) 7)
      else s
  | 7 =>
    if r.stop then setRingState (modRing s fun r => { r with stop := false, holdoverFrames := 0 }) 3
    else if r.announced then
      regFld (setRingState (modRing s fun r => { r with handover := none, joinedFrames := 0, holdoverFrames := 0 }) 4)
        aTickStat 1 0 2
    else s
  | _ => s

/-- Wrapping ends on a link that came up (R549). -/
def endWraps (s : State) : State :=
  (upto 2).foldl (fun s p =>
    if (ringPort s p).stopWrap then modRingPort (regFld s (aRingPort p) 6 6 0) p fun x => { x with stopWrap := false } else s) s

/-- A port whose link is up and by which no copy left in the frame that ends asks for its delay all the same, every 10 µs
(R550). -/
def idleReqs (s : State) (p : Nat) : State :=
  if s.sys.bypass || !linkUp s p || s.ring.outFrames.any (·.port = p) then s
  else (upto (1 + s.tick.curNs / 10000)).foldl (fun s k => sendDly s p (idleAt s p + 10000 * k)) s

/-- The ring engine at a tick; `old` is TICK_COUNT of the frame that ends. -/
def ringTick (s : State) (old : Word) : State :=
  let s := ringTransition (endFrameValues (idleReqs (idleReqs s 0) 1) old)
  let s := endWraps s
  let master := ringState s = 6 || ringState s = 7
  let s := modRing s fun r => { r with
    layout := if master then regGet s aRingLayout else r.layout
    rxBase := regF s aRingRxBase 35 0
    paceNow := if master then (if r.narrowSeen then true else if 2 ≤ r.clearSeen then false else r.paceNow) else r.paceNow
    good := [], badEast := [], badWest := [], wrongTwins := [], wrote := [], header := false, hdrEast := false, eastSeen := 0, westSeen := 0
    claimed := false, announced := false, lateEast := false, lateWest := false, line := false
    narrowSeen := false, clearSeen := 0, dupNow := false
    txq := r.txq.filter fun c => !(r.placed.any fun e => e.2 = (c.dst, c.chan, c.seq))
    placed := [], seen := [], outFrames := [], emitted := false, laneRaised := [] }
  modRingPort (modRingPort s 0 fun x => { x with sent := [], nak := [] }) 1 fun x => { x with sent := [], nak := [] }

/-! ## Registers (R561, R562, R565 to R567) -/

/-- The wake pattern leaves by a port (R562): 4096 WAKE blocks on lane 0, between frames. -/
def sendWake (s : State) (p node : Nat) : State := sendBlockAt s p 0x20 node 4096 (some 0) (idleAt s p)

/-- A write of RING_CTL (R561, R562, R565). -/
def ringCtlWrite (s : State) (rq : Requester) (v : Word) : State :=
  let old := regGet s aRingCtl
  let v := keepUnless (decide (8 ≤ fld v 32 25)) v old 32 25
  let v := keepUnless (decide (1 ≤ fld v 24 21)) v old 24 21
  let v := keepUnless (decide (1 ≤ fld v 15 0)) v old 15 0
  let byp := bit v 47 && rqLevel s rq = 3
  let s := plainWrite s aRingCtl (setBit v 47 byp)
  let s := if bit v 46 && !s.sys.bypass then
      sendWake (sendWake s 0 (fld v 45 34)) 1 (fld v 45 34) else s
  if byp then
    closeRing (if regF s aTickStat 1 0 = 2 then regFld s aTickStat 1 0 3 else s)
  else s

/-- A write of RING_LAYOUT (R566). -/
def ringLayoutWrite (s : State) (rq : Requester) (v : Word) : State :=
  if fld v 47 36 < fld v 35 24 || 4000 < fld v 47 36 + fld v 35 24 || fld v 15 12 = 0 then refuseWrite s rq 9 aRingLayout
  else plainWrite s aRingLayout v

/-- A write of RING_RX_BASE (R567). -/
def ringRxBaseWrite (s : State) (rq : Requester) (v : Word) : State :=
  let b := fld v 35 0
  if b = 0 || (0x820000000 ≤ b && b < 0x820100000 && b % 0x4000 = 0 && bankGrants s ((b - 0x820000000) / 0x8000) .ring) then
    plainWrite s aRingRxBase v
  else refuseWrite s rq 9 aRingRxBase

end Sys2Proof.Machine
end

