-- ==== Sys2Proof/Machine/Tick.lean ====
section
/-! DEFINITION. The frame tick (chapters 1 and 12) and the performance counters (chapter 20): what each block does at
0 ns, the counter snapshot and its record, and the bandwidth windows. -/

namespace Sys2Proof.Machine

open Sys2Proof

/-! ## Counter blocks (R709, R710, R713) -/

/-- The clock domain of a counter block (R48, R709); a Frond core of no group has none. -/
def blockDomain (s : State) (b : Nat) : Option Nat :=
  if b < 16 then some b
  else if b < 32 then (groupOf s (b - 16)).map (20 + ·)
  else if b < 48 then some (16 + (b - 32) / 4)
  else if b < 56 then some (26 + (b - 48))
  else if b < 58 then some (34 + (b - 56))
  else if b < 60 then some (40 + 2 * (b - 58))
  else if b = 60 then some 45
  else if b = 61 then some 59
  else if b = 62 then some 24
  else some 63

/-- A block counts only while its domain is clocked (R710). -/
def blockRuns (s : State) (b : Nat) : Bool :=
  match blockDomain s b with
  | some d => decide (domState s d < 2) && !s.sys.held.contains d
  | none => false

/-- The event codes of a block's kind, and the common ones (R713). -/
def blockCode (b code : Nat) : Bool :=
  code ≤ 2 ||
  if b < 16 then 0x10 ≤ code && code ≤ 0x20
  else if b < 32 then 0x30 ≤ code && code ≤ 0x35
  else if b < 48 then 0x40 ≤ code && code ≤ 0x48
  else if b < 56 then 0x50 ≤ code && code ≤ 0x55
  else if b < 58 then 0x60 ≤ code && code ≤ 0x62
  else if b < 60 then 0x70 ≤ code && code ≤ 0x73
  else if b = 60 then 0x80 ≤ code && code ≤ 0x82
  else if b = 61 then 0x90 ≤ code && code ≤ 0x92
  else if b = 62 then 0xA0 ≤ code && code ≤ 0xA1
  else 0xB0 ≤ code && code ≤ 0xB2

/-- What a read of PMC_SEL returns: the written selection, and the saturation bits as they stand (R711, R725). -/
def pmcSelRead (s : State) (b : Nat) : Word :=
  let cur := regGet s (aPmcSel b)
  match sget s.cnt.pendSel b with
  | some v => setFld v 43 40 (fld cur 43 40)
  | none => cur

/-- A write of PMC_SEL (R711, R713): SAT clears at once, EN and EV apply at the next tick, a code the block does not
count leaves its field unchanged. -/
def pmcSelWrite (s : State) (rq : Requester) (b : Nat) (v : Word) : State :=
  let old := pmcSelRead s b
  let bad := (upto 4).filter fun k => !blockCode b (fld v (10 * k + 9) (10 * k))
  let v' := bad.foldl (fun w k => setFld w (10 * k + 9) (10 * k) (fld old (10 * k + 9) (10 * k))) v
  let cur := regGet s (aPmcSel b)
  let s := regSet s (aPmcSel b) (setFld cur 43 40 (fld (cur &&& ~~~v) 43 40))
  let s := { s with cnt := { s.cnt with pendSel := sins s.cnt.pendSel b (setFld v' 43 40 0) } }
  if bad.isEmpty then s else refuseWrite s rq 9 (aPmcSel b)

/-- The selections written since the last tick apply (R711). -/
def applySel (s : State) : State :=
  let s := s.cnt.pendSel.foldl (fun s e => regSet s (aPmcSel e.1) (setFld e.2 43 40 (regF s (aPmcSel e.1) 43 40))) s
  { s with cnt := { s.cnt with pendSel := [] } }

/-! ## The snapshot, its record and the windows (R714 to R720) -/

/-- DUMP_K and WINDOW_N of the applied image (R714). -/
def dumpK (s : State) : Nat := match s.struct.image.counter with
  | some (_, _, w) => fld w 47 24
  | none => 0

def windowN (s : State) : Nat := match s.struct.image.counter with
  | some (_, _, w) => fld w 23 0
  | none => 1000

/-- The latch of every counter at 0 ns (R715). -/
def latchCounters (s : State) : State :=
  let cnts := (upto 64).flatMap fun b => (upto 4).map fun k => regGet s (aPmcCnt b k)
  let bws := (upto 34).map fun p => regGet s (aPmcBw p)
  let sat := (upto 64).any fun b => regF s (aPmcSel b) 43 40 ≠ 0
  { s with cnt := { s.cnt with snapshot := cnts ++ bws, snapSat := sat } }

/-- Words 0 to 510 of the record of a tick (R718). -/
def recordWords (s : State) : List Word :=
  [mk 47 32 0x4816 ||| mk 31 16 1 ||| mk 15 0 512, w48 (regF s aCntDump 31 0), regGet s aTickCount, regGet s aTickLast,
   mk 47 36 (regF s aRingCfg 47 36), mk 47 24 (dumpK s) ||| mk 23 0 (windowN s),
   mk 47 32 (regF s aCntDump 47 32) ||| mk 0 0 s.cnt.snapSat.toNat, 0] ++ s.cnt.snapshot ++ List.replicate 213 0

/-- A dump tick (R716, R717): the record of the latched values is due, or its SEQ is skipped and counted in LOST. -/
def dumpTick (s : State) : State :=
  match s.struct.image.counter with
  | none => s
  | some (w0, w1, _) =>
    if !regB s aCntCtl 46 || dumpK s = 0 || (regGet s aTickCount).toNat % dumpK s ≠ 0 then s
    else
      let seq := regF s aCntDump 31 0
      let rec' := recordWords s
      let s := regAdd s aCntDump 31 0 1
      if !s.cnt.record.isEmpty then regAddSat s aCntDump 47 32 1
      else { s with cnt := { s.cnt with
               record := rec', recordAt := fld w0 47 12 * 4096 + 512 * (seq % (8 * fld w1 23 0)) } }

/-- A tick whose TICK_COUNT is a multiple of WINDOW_N ends a window and starts one (R719, R720). -/
def windowTick (s : State) (aligned : Bool) : State :=
  let s := if aligned then { s with cnt := { s.cnt with windowValid := false } } else s
  let n := windowN s
  if n = 0 || (regGet s aTickCount).toNat % n ≠ 0 then s
  else { s with cnt := { s.cnt with
           windowEnd := if s.cnt.windowValid then some s.cnt.ports else s.cnt.windowEnd
           ports := List.replicate 34 0, windowValid := true } }

/-- BANDWIDTH_WINDOW_END (R719): the totals of the window that the tick ended move into PMC_BW. -/
def execBandwidthWindowEnd (s : State) : Host.Outcome State Fault Refusal :=
  match s.cnt.windowEnd with
  | none => .next s
  | some l =>
    if !unitRuns s 60 then .next s
    else
    let s := (upto 34).foldl (fun s p => regSet s (aPmcBw p) (w48 (l.getD p 0))) s
    .next { s with cnt := { s.cnt with windowEnd := none } }

/-- COUNTER_RECORD_WRITE (R716, R718): words 8 to 511, then 1 to 7, then 0. The record stays due until every line of it
is written: one that another transaction holds makes the collector wait, and it goes on at the next such command. -/
def execCounterRecordWrite (s : State) : Host.Outcome State Fault Refusal :=
  let r := s.cnt.record
  if r.isEmpty || !unitRuns s 60 then .next s
  else
    let a := s.cnt.recordAt
    let full := r ++ [w48 (crc32c r)]
    let w := bridgeJob s jobRecord fun s => (bridgePuts s (a + 8) (full.drop 8)).andThen fun _ s =>
      (bridgePuts s (a + 1) ((full.drop 1).take 7)).andThen fun _ s => bridgePut s a (full.getD 0 0) false none
    match w with
    | .held s => .next s
    | .done _ s => .next { s with cnt := { s.cnt with record := [] } }

/-! ## The tick (R38, R460 to R463) -/

/-- A written period applies at the first tick after its write, on a node that runs from its own generator (R461,
R462). -/
def periodTick (s : State) : State :=
  if (s.tick.pendingPeriod.all fun e => s.now ≤ e.2.1) || regF s aTickStat 1 0 ≠ 1 then s
  else
    let p := writtenPeriod s
    let s := regFld { s with tick := { s.tick with curNs := p, pendingPeriod := laterPeriods s } } aTickStat 47 24 p
    assertEdge s 35

/-- TICK_COUNT and TICK_LAST move right after the latch (R463), and the generator raises source 32. -/
def tickUpdate (s : State) : State :=
  assertEdge (regSet (regSet s aTickCount (nextTickCount s)) aTickLast s.tbl) 32

/-- The actions at 0 ns, in the order of R38. `raw` holds one raw result for each sense channel. -/
def tickActions (s : State) (raw : List RawSample) : State :=
  let old := regGet s aTickCount
  let aligned := decide (nextTickCount s ≠ old + 1)
  let s := latchCounters s
  let s := { s with cnt := { s.cnt with frozen := regB s aCntCtl 47 } }
  let s := applySel (tickUpdate s)
  let s := (upto 64).foldl (fun s b => if blockRuns s b then count s b 2 else s) s
  let s := dumpTick (windowTick s aligned)
  let s := periodTick (structTick s)
  let s := latchSense s raw
  let s := (upto 4).foldl deadline s
  let s := bridgeGoesOn (pinnaTick s)
  let s := freqTick (powerTick s)
  let s := { s with memctl := { s.memctl with slotGrid := List.replicate 8 0 } }
  toneTick (ringTick s old)

/-- The frame tick (R36, R38, R460): one period after the tick before. -/
def frameTick (s : State) (raw : List RawSample) : State :=
  if s.tick.running && decide (s.tick.next ≤ s.now) && s.timeCounts then
    let due := s.tick.next
    let s := { s with tick := { s.tick with started := [] } }
    let s := tickActions s raw
    let s := { s with tick := { s.tick with mismatch := [] } }
    if s.tick.next = due then { s with tick := { s.tick with next := due + s.tick.curNs } } else s
  else s

end Sys2Proof.Machine
end

