-- ==== Sys2Proof/Machine/Regs.lean ====
section
/-! DEFINITION. Register accesses (R13, R761 to R764, R769, R778): who may read and write a register, what a read
returns, what a write does, and the commands that are writes of one register. -/

namespace Sys2Proof.Machine

open Sys2Proof

/-! ## Frond windows (R306, R492, R493) -/

/-- The addresses a Frond core reaches without a window (R306). -/
def frondOwn (i a : Nat) : Bool := (aIntEoi ≤ a && a ≤ aIntSwi) || a = aWdogKick (16 + i)

/-- A window of Frond core i admits an access at a (R492). -/
def inWindow (s : State) (i a : Nat) (rd wr : Bool) : Bool :=
  (upto 4).any fun k =>
    let w := regGet s (aFrondWin i k)
    let b := fld w 47 24 * 4096
    b ≤ a && a < b + fld w 23 8 * 4096 && (!rd || bit w 6) && (!wr || bit w 7)

/-- The private Sorus memory of Frond core i. -/
def ownPrivate (i a : Nat) : Bool := match sorusPlace a with
  | some (.priv c _) => c = i
  | _ => false

/-- R492 and R493: the access of Frond core i is permitted. -/
def frondPermits (s : State) (i a : Nat) (rd wr : Bool) : Bool :=
  let sorusOut := match sorusPlace a with
    | some p => wr && (outputAt s (placeKey p)).isSome
    | none => false
  frondOwn i a ||
  ((ownPrivate i a || inWindow s i a rd wr) && !(a < 0x800000000 && (memTop s ≤ a || isCompl s a)) && !sorusOut)

/-! ## Who reaches what -/

/-- An access to the domain reads zero and ignores writes (R56). -/
def domainStopped (s : State) (d : Nat) : Bool := 2 ≤ domState s d || s.sys.held.contains d

/-- The page of instance i admits the requester (R619). -/
def pageAdmits (s : State) (rq : Requester) (i : Nat) : Bool :=
  match rq with
  | .core (.app c) =>
    let k := s.core (.app c)
    2 ≤ k.pl || (k.vm && fld k.vmid 11 0 = regF s (aInstCfg i) 47 36)
  | .debug => true
  | _ => false

/-- The instance whose page holds an address. -/
def pageOf (a : Nat) : Option Nat :=
  if 0x801000000 ≤ a && a < 0x801040000 then some ((a - 0x801000000) / 0x1000) else none

/-- Mailbox port 1, from the module side (R691). -/
def hostMailbox (a : Nat) : Bool := 0x800111000 ≤ a && a < 0x800112000

/-- The PCIe host reaches BAR0 (R645). -/
def hostReaches (s : State) : Bool := regB s (aPcie 0) 41 && !regB s (aPcie 0) 46 && bit s.struct.image.sec0 1

/-- What becomes of a register access. -/
inductive Verdict where
  | ok
  | bad (cause : Nat) (word : Nat)
  | zero
deriving DecidableEq, Repr

/-- The level check of R13 and R764. -/
def levelOk (s : State) (rq : Requester) (i : RegInfo) (a : Nat) (write : Bool) : Bool :=
  let l := rqLevel s rq
  match rq with
  | .pcieHost => hostMailbox a
  | _ =>
    if write then
      if i.wr = 4 then i.rd ≤ l
      else if i.wr = 5 then (if a = aDbgHold then rq = .debug else false)
      else i.wr ≤ l
    else i.rd ≤ l

/-- A read at PL0 that R722 does not permit returns zero and is no violation (R723). -/
def userCounter (s : State) (rq : Requester) (a : Nat) : Option Bool :=
  if 0x800130000 ≤ a && a < 0x800130422 && rqLevel s rq = 0 && rq ≠ .pcieHost then
    match rq with
    | .core (.app c) =>
      let u := (s.core (.app c)).ucnt
      if 0x800130400 ≤ a || a = aCntDump then some (bit u 1)
      else if isPmc a then some (bit u 0) else some false
    | _ => some false
  else none

/-- The checks of an access to register space, in the order of R778. -/
def verdict (s : State) (rq : Requester) (a : Nat) (write : Bool) : Verdict :=
  let window := match rq with
    | .core (.frond i) => frondPermits s i.val a (!write) write
    | _ => true
  if !window then .bad 3 a
  else match regInfo a with
    | none => .bad 2 a
    | some i =>
      let user := if write then none else userCounter s rq a
      if user = some false then .zero
      else if user = none && !levelOk s rq i a write then .bad 1 a
      else
        let page := match pageOf a with
          | some p => pageAdmits s rq p
          | none => true
        if !page then .bad 4 a
        else match regDomain s a with
          | some d => if domainStopped s d then .bad 5 d else .ok
          | none => .ok

/-! ## Reads -/

/-- INT_SRC_STATE of source 63 as its core sees it: banked (R298, R309). -/
def src63View (s : State) (c : CoreId) : Word :=
  let on := (src63Line s (coreNum c)).toNat
  let act := (s.core c).src63Active
  mk 33 28 (if act then coreNum c else 0) ||| mk 8 8 1 ||| mk 2 2 on ||| mk 1 1 act.toNat ||| mk 0 0 on

/-- What a permitted read returns, and what it changes. -/
def regValue (s : State) (rq : Requester) (a : Nat) : Word × State :=
  let d := a - regBase
  let o := d % 0x10000
  match d / 0x10000 with
  | 2 =>
    match rq with
    | .core c =>
      if a = aIntCur then (intCur s c, s)
      else if a = aIntPoll then (intPoll s (coreNum c), s)
      else if a = aIntVpend then (intVpend s (coreNum c), s)
      else if a = aIntVirtCtl then ((s.core c).virtCtl, s)
      else if a = aSrcState 63 then (src63View s c, s)
      else if a = aSrcTs 63 then ((s.core c).src63Ts, s)
      else (regGet s a, s)
    | _ => (regGet s a, s)
  | 3 =>
    if a = aTbLo then readTbLo s rq
    else if a = aTbHi then (readTbHi s rq, s)
    else if 0x20 ≤ o && o < 0x24 then (tsHead s (o - 0x20), s)
    else if 0x24 ≤ o && o < 0x28 then (tsStat s (o - 0x24), s)
    else (regGet s a, s)
  | 0xD =>
    if 0x100 ≤ o && o % 16 = 1 then
      let (w, s) := uartTake s ((o - 0x100) / 16)
      (w, uartDma s ((o - 0x100) / 16))
    else if 0x100 ≤ o && o % 16 = 2 then (uartStat s ((o - 0x100) / 16), s)
    else (regGet s a, s)
  | 0xF => if a = aDispOut 0 4 || a = aDispOut 1 4 then (setFld (regGet s a) 11 0 (outLine s ((o - 0x40) / 16)), s) else (regGet s a, s)
  | 0x13 => if isPmc a && (o - 0x100) % 8 = 0 then (pmcSelRead s ((o - 0x100) / 8), s) else (regGet s a, s)
  | 0x14 =>
    if a = aRstCause then (rstCauseView s, s)
    else if 0x10 ≤ o && o < 0x20 then (setFld (regGet s a) 46 45 (coreState s (o - 0x10)), s)
    else (regGet s a, s)
  | _ =>
    match pageOf a with
    | some i => (pageRead s i (d % 0x1000), s)
    | none => (regGet s a, s)

/-- A read of register space (R13, R761, R764): its value, zero where it is refused. -/
def regRead (s : State) (rq : Requester) (a : Nat) : Word × State :=
  let s := count s 63 0x0B0
  match verdict s rq a false with
  | .ok => regValue s rq a
  | .bad c w => (0, rqViolation s c rq false w)
  | .zero => (0, s)

/-! ## Writes -/

def intWrite (s : State) (rq : Requester) (o a : Nat) (v : Word) : State :=
  if o < 0x140 then routeWrite s rq o v
  else if 0x200 ≤ o && o < 0x340 then srcStateWrite s (o - 0x200) v
  else if a = aIntEoi then eoiWrite s rq v
  else if a = aIntSwi then swiWrite s v
  else if a = aIntVirtCtl then virtCtlWrite s rq v
  else s

def timeWrite (s : State) (rq : Requester) (o a : Nat) (v : Word) : State :=
  if 0x28 ≤ o && o < 0x2C then popWrite s (o - 0x28) v
  else if 0x100 ≤ o then
    if o % 2 = 0 then wdogCtlWrite s ((o - 0x100) / 2) v else kickWrite s rq ((o - 0x100) / 2) v
  else plainWrite s a v

def tickWrite (s : State) (rq : Requester) (o a : Nat) (v : Word) : State :=
  if o = 0 then tickPeriodWrite s rq v
  else if 0x18 ≤ o && o < 0x1C then grpCtlWrite s rq (o - 0x18) v
  else if 0x20 ≤ o && o < 0x30 then frondCtlWrite s rq (o - 0x20) v
  else plainWrite s a v

def ringWrite (s : State) (rq : Requester) (o a : Nat) (v : Word) : State :=
  if o = 1 then ringCtlWrite s rq v
  else if o = 2 then ringLayoutWrite s rq v
  else if o = 3 then ringRxBaseWrite s rq v
  else plainWrite s a v

def senseWriteReg (s : State) (rq : Requester) (o a : Nat) (v : Word) : State :=
  if o = 0 then senseCtlWrite s rq v
  else if 0x10 ≤ o && o < 0x30 then senseCfgWrite s (o - 0x10) v
  else if 0x50 ≤ o && o < 0x58 then excCfgWrite s rq (o - 0x50) v
  else if o = 0x100 then touchCtlWrite s rq v
  else if o = 0x101 then touchCfgWrite s v
  else if o = 0x103 then touchStatWrite s rq v
  else plainWrite s a v

def pinnaWrite (s : State) (rq : Requester) (o a : Nat) (v : Word) : State :=
  if o < 0x200 then
    if o % 8 = 1 then instLimitWrite s rq (o / 8) v
    else if o % 8 = 2 then pinFlush (plainWrite s a v) (o / 8)
    else if o % 8 = 5 then instMigWrite s (o / 8) v
    else if o % 8 = 6 then instCtlWrite s rq (o / 8) v
    else plainWrite s a v
  else if o % 4 = 0 then qCfgWrite s rq ((o - 0x200) / 4) v
  else plainWrite s a v

def pageWriteAt (s : State) (rq : Requester) (i o : Nat) (v : Word) : State :=
  if 0x100 ≤ o then
    if o % 4 = 0 then pqTailWrite s rq i ((o - 0x100) / 4) v
    else if o % 4 = 2 then pqCtlWrite s i ((o - 0x100) / 4) v
    else s
  else pageWrite s i o v

def ethWrite (s : State) (o a : Nat) (v : Word) : State :=
  let p := o / 0x200
  if o % 0x200 = 0 then ethCtlWrite s p v
  else if o % 0x200 = 2 then gclBaseWrite s p v
  else if o % 0x200 = 3 then ethCycleWrite s p v
  else if o % 0x200 = 9 then mdioWrite s p v
  else plainWrite s a v

def canUartWrite (s : State) (o a : Nat) (v : Word) : State :=
  if o < 0x80 then
    if o % 16 = 0 then canCtlWrite s (o / 16) v else canTimingWrite s (o / 16) (o % 16) v
  else
    let u := (o - 0x100) / 16
    if o % 16 = 0 then uartCfgWrite s u v
    else if o % 16 = 1 then uartLine (uartQueue s u (v.extractLsb' 0 9)) u
    else uartDma (plainWrite s a v) u

def pcieUsbWrite (s : State) (rq : Requester) (o a : Nat) (v : Word) : State :=
  if o = 0 then pcieCtlWrite s rq v
  else if o = 1 then pcieLines (plainWrite s a v)
  else if o = 2 then epWinWrite s rq v
  else if 0x10 ≤ o && o < 0x20 then rpOutWrite s rq ((o - 0x10) / 2) (o % 2) v
  else if 0x30 ≤ o && o < 0x40 then rpInWrite s rq ((o - 0x30) / 2) (o % 2) v
  else if o = 0x42 then pcieCfgCtlWrite s v
  else if o = 0x1000 then usbCtlWrite s v
  else if o = 0x1001 || o = 0x1002 then usbLines (plainWrite s a v)
  else if 0x1010 ≤ o then
    let j := (o - 0x1010) / 4
    if o % 4 = 0 then usbEpCfgWrite s j v
    else if o % 4 = 1 then usbEpRingWrite s j v
    else if o % 4 = 2 then usbEpTailWrite s rq j v
    else s
  else plainWrite s a v

def dispWrite (s : State) (rq : Requester) (o a : Nat) (v : Word) : State :=
  if o = 1 then dispCtlWrite s v
  else if 0x10 ≤ o && o < 0x40 && o % 8 = 0 then planeCtlWrite s ((o - 0x10) / 8) v
  else if 0x40 ≤ o && o < 0x60 then
    let p := (o - 0x40) / 16
    if o % 16 = 0 then dispOutCtlWrite s rq p v
    else if o % 16 = 1 || o % 16 = 2 then dispTimingWrite s rq p (o % 16) v
    else if o % 16 = 5 then dispXferWrite s p v
    else plainWrite s a v
  else plainWrite s a v

def powerWrite (s : State) (rq : Requester) (o a : Nat) (v : Word) : State :=
  if o = 0 then pwrCtlWrite s v
  else if o = 1 then voteWrite s rq v
  else if o = 2 then wakeCfgWrite s v
  else if 0x40 ≤ o && o < 0x80 then freqWrite s rq (o - 0x40) v
  else if 0x80 ≤ o then policyWrite s rq (o - 0x80) v
  else plainWrite s a v

def mboxWrite (s : State) (rq : Requester) (o a : Nat) (v : Word) : State :=
  let p := o / 0x1000
  if o % 0x1000 = 0 then mbxCmdWrite s p (rqLevel s rq) v
  else if o % 0x1000 = 0x20 then mbxAckWrite s p v
  else if o % 0x1000 = 0x21 then mbxStatWrite s p v
  else plainWrite s a v

def dmaWriteReg (s : State) (rq : Requester) (o a : Nat) (v : Word) : State :=
  if o % 4 = 2 then dmaCtlWrite s rq (o / 4) v
  else if o % 4 = 3 then dmaLine (plainWrite s a v) (o / 4)
  else plainWrite s a v

/-- SCRUB_H and TIMEOUT_US keep their values on a write of 0 (R414, R452). -/
def nonZeroWrite (s : State) (a hi lo : Nat) (v : Word) : State :=
  plainWrite s a (keepUnless (fld v hi lo ≠ 0) v (regGet s a) hi lo)

/-- A permitted write of a register. -/
def regStore (s : State) (rq : Requester) (a : Nat) (v : Word) : State :=
  let d := a - regBase
  let o := d % 0x10000
  match d / 0x10000 with
  | 2 => intWrite s rq o a v
  | 3 => timeWrite s rq o a v
  | 4 => if o = 0 then nonZeroWrite s a 7 0 v else plainWrite s a v
  | 5 => if o = 0 then nonZeroWrite s a 23 16 v else if 0x100 ≤ o then shadowCount (plainWrite s a v) ((o - 0x100) / 16) else plainWrite s a v
  | 6 => tickWrite s rq o a v
  | 8 => ringWrite s rq o a v
  | 9 => senseWriteReg s rq o a v
  | 0xA => pinnaWrite s rq o a v
  | 0xC => ethWrite s o a v
  | 0xD => canUartWrite s o a v
  | 0xE => pcieUsbWrite s rq o a v
  | 0xF => dispWrite s rq o a v
  | 0x10 => powerWrite s rq o a v
  | 0x11 => mboxWrite s rq o a v
  | 0x13 => if isPmc a && (o - 0x100) % 8 = 0 then pmcSelWrite s rq ((o - 0x100) / 8) v else plainWrite s a v
  | 0x14 =>
    if 0x10 ≤ o && o < 0x20 then rstCoreWrite s rq (o - 0x10) v
    else if a = aDbgHold then dbgHoldWrite s rq v
    else plainWrite s a v
  | 0x15 => if o = 1 then thermCfgWrite s v else plainWrite s a v
  | 0x16 => dmaWriteReg s rq o a v
  | _ =>
    match pageOf a with
    | some i => pageWriteAt s rq i (d % 0x1000) v
    | none => plainWrite s a v

/-- A write of register space (R13, R761, R764): refused writes change nothing and are logged. -/
def regWrite (s : State) (rq : Requester) (a : Nat) (v : Word) : State :=
  let s := count s 63 0x0B0
  match verdict s rq a true with
  | .ok => regStore s rq a v
  | .bad c w => rqViolation s c rq true w
  | .zero => s

/-! ## The PCIe aperture (R649) -/

/-- The checks of an aperture access (R649, R764, R778): the PCIe byte address, or the cause. -/
def apertureVerdict (s : State) (rq : Requester) (a : Nat) (write : Bool) : Except (Nat × Nat) Nat :=
  let window := match rq with
    | .core (.frond i) => frondPermits s i.val a (!write) write
    | _ => true
  if !window then .error (3, a)
  else match apertureByte s a with
    | none => .error (2, a)
    | some b =>
      if rqLevel s rq < 1 then .error (1, a)
      else if domainStopped s 45 then .error (5, 45)
      else .ok b

/-- A word write through the aperture. -/
def apertureStore (s : State) (rq : Requester) (a : Nat) (v : Word) : State :=
  match apertureVerdict s rq a true with
  | .ok b => apertureWrite s b [v]
  | .error (c, w) => rqViolation s c rq true w

/-! ## Commands that write or read one register -/

/-- The requester can make a register access now: a running, clocked core, the debug port while it is served, or the
PCIe host while its link is up. Nothing moves in Quiescent. -/
def canAccess (s : State) (rq : Requester) : Bool :=
  !s.power.quiescent &&
  match rq with
  | .core c => (s.core c).run = .running && coreClocked s c
  | .debug => debugServed s
  | .pcieHost => hostReaches s

/-- A register write as a command. -/
def writeCmd (s : State) (rq : Requester) (a : Nat) (v : Word) : State :=
  if !canAccess s rq then s
  else if inAperture a then (if rq = .pcieHost then s else apertureStore s rq a v)
  else regWrite s rq a v

/-- A register read as a command: the value is left in readOut. -/
def readCmd (s : State) (rq : Requester) (a : Nat) : State :=
  if !canAccess s rq then s
  else
    let (v, s) := regRead s rq a
    { s with readOut := v }

/-- A word that the debug port writes outside register space, with the rights of a core at PL3 and physical addresses
(R509, R769): a word of DRAM goes through the I/O bridge as an invalidating write, a word of Sorus memory to its bank; a write
to the boot ROM or the NOR window is refused (R685, R765). The manual names no agent for its memory accesses. DESIGN CHOICE,
log entry 179. -/
def debugStore (s : State) (a : Nat) (v : Word) : State :=
  let bad (cause : Nat) : State := rqViolation s cause .debug true a
  match regionOf s a with
  | .dram => if memTop s ≤ a then bad 7 else (bridgePut s a v false none).state
  | .dramCompl => bad 9
  | .sorus =>
    match sorusPlace a with
    | none => bad 2
    | some p =>
      if !sorusPermits s .debug p true then bad 8
      else if clockStopped s 24 then s
      else match sorusStore s p v 0xFFFFFFFFFFFF with
        | .done t => reportStore t (placeKey p)
        | .poisoned t => t
        | .mismatched t => t
  | .bootRom => bad 1
  | .nor => bad 1
  | .registers => s
  | .reserved => bad 2

/-- REGISTER_WRITE (R13): an address outside register space is no register, but the debug port writes memory too (R769). -/
def execRegisterWrite (rq : Requester) (addr : Nat) (v : Word) (s : State) : Host.Outcome State Fault Refusal :=
  if regBase ≤ addr && addr < 0x810000000 then .next (writeCmd s rq addr v)
  else if rq = .debug && addr < 2 ^ 36 && canAccess s rq then .next (debugStore s addr v)
  else .next s

def execTbLoRead (rq : Requester) (s : State) : Host.Outcome State Fault Refusal := .next (readCmd s rq aTbLo)

def execIntEoi (rq : Requester) (v : Word) (s : State) : Host.Outcome State Fault Refusal :=
  .next (writeCmd s rq aIntEoi v)

def execIntSwi (rq : Requester) (v : Word) (s : State) : Host.Outcome State Fault Refusal :=
  .next (writeCmd s rq aIntSwi v)

def execIntSrcStateWrite (rq : Requester) (n : Fin 320) (v : Word) (s : State) : Host.Outcome State Fault Refusal :=
  .next (writeCmd s rq (aSrcState n.val) v)

def execIntSrcRouteWrite (rq : Requester) (n : Fin 320) (v : Word) (s : State) : Host.Outcome State Fault Refusal :=
  .next (writeCmd s rq (aRoute n.val) v)

/-- TS_CAP_POP (R319). -/
def execTsCapPop (rq : Requester) (u : Fin 4) (v : Word) (s : State) : Host.Outcome State Fault Refusal :=
  .next (writeCmd s rq (aTsPop u.val) v)

def execWdogCtlWrite (rq : Requester) (w : Fin 36) (v : Word) (s : State) : Host.Outcome State Fault Refusal :=
  .next (writeCmd s rq (aWdogCtl w.val) v)

def execWdogKick (rq : Requester) (w : Fin 36) (v : Word) (s : State) : Host.Outcome State Fault Refusal :=
  .next (writeCmd s rq (aWdogKick w.val) v)

/-- FROND_CORE_CTL START (R467): a write with START = 1. -/
def execFrondCoreCtlStart (rq : Requester) (c : Fin 16) (v : Word) (s : State) : Host.Outcome State Fault Refusal :=
  .next (writeCmd s rq (aFrondCtl c.val) (setBit v 47 true))

/-- PARK (R468): a write with PARK = 1. -/
def execPark (rq : Requester) (c : Fin 16) (v : Word) (s : State) : Host.Outcome State Fault Refusal :=
  .next (writeCmd s rq (aFrondCtl c.val) (setBit v 46 true))

/-- RELEASE (R486): a write with RELEASE = 1. -/
def execRelease (rq : Requester) (g : Fin 4) (v : Word) (s : State) : Host.Outcome State Fault Refusal :=
  .next (writeCmd s rq (aGrpCtl g.val) (setBit v 0 true))

def execTickPeriodWrite (rq : Requester) (v : Word) (s : State) : Host.Outcome State Fault Refusal :=
  .next (writeCmd s rq aTickPeriod v)

/-- CAL (R577): a write of SENSE_CH_CFG with CAL = 1. -/
def execCal (rq : Requester) (ch : Fin 32) (v : Word) (s : State) : Host.Outcome State Fault Refusal :=
  .next (writeCmd s rq (aSenseCfg ch.val) (setBit v 46 true))

def execSenseExcCfgWrite (rq : Requester) (d : Fin 8) (v : Word) (s : State) : Host.Outcome State Fault Refusal :=
  .next (writeCmd s rq (aExcCfg d.val) v)

def execSenseCtlWrite (rq : Requester) (v : Word) (s : State) : Host.Outcome State Fault Refusal :=
  .next (writeCmd s rq aSenseCtl v)

def execTouchCtlWrite (rq : Requester) (v : Word) (s : State) : Host.Outcome State Fault Refusal :=
  .next (writeCmd s rq aTouchCtl v)

/-- BYPASS (R561): a write of RING_CTL with BYPASS = 1. -/
def execBypass (rq : Requester) (v : Word) (s : State) : Host.Outcome State Fault Refusal :=
  .next (writeCmd s rq aRingCtl (setBit v 47 true))

/-- WAKE pattern (R562): a write of RING_CTL with WAKE = 1. -/
def execWakePattern (rq : Requester) (v : Word) (s : State) : Host.Outcome State Fault Refusal :=
  .next (writeCmd s rq aRingCtl (setBit v 46 true))

def execRingLayoutWrite (rq : Requester) (v : Word) (s : State) : Host.Outcome State Fault Refusal :=
  .next (writeCmd s rq aRingLayout v)

def execRingRxBaseWrite (rq : Requester) (v : Word) (s : State) : Host.Outcome State Fault Refusal :=
  .next (writeCmd s rq aRingRxBase v)

/-! The commands of PINNA_INST_CTL (R611, R626). -/

def execRun (rq : Requester) (i : Fin 64) (s : State) : Host.Outcome State Fault Refusal :=
  .next (writeCmd s rq (aInstCtl i.val) 0x01)
def execStop (rq : Requester) (i : Fin 64) (s : State) : Host.Outcome State Fault Refusal :=
  .next (writeCmd s rq (aInstCtl i.val) 0x02)
def execFreeze (rq : Requester) (i : Fin 64) (s : State) : Host.Outcome State Fault Refusal :=
  .next (writeCmd s rq (aInstCtl i.val) 0x04)
def execThaw (rq : Requester) (i : Fin 64) (s : State) : Host.Outcome State Fault Refusal :=
  .next (writeCmd s rq (aInstCtl i.val) 0x08)
def execSave (rq : Requester) (i : Fin 64) (s : State) : Host.Outcome State Fault Refusal :=
  .next (writeCmd s rq (aInstCtl i.val) 0x10)
def execSend (rq : Requester) (i : Fin 64) (s : State) : Host.Outcome State Fault Refusal :=
  .next (writeCmd s rq (aInstCtl i.val) 0x20)
def execRestore (rq : Requester) (i : Fin 64) (s : State) : Host.Outcome State Fault Refusal :=
  .next (writeCmd s rq (aInstCtl i.val) 0x40)
def execMbox (rq : Requester) (i : Fin 64) (s : State) : Host.Outcome State Fault Refusal :=
  .next (writeCmd s rq (aInstCtl i.val) 0x80)

/-- PQ_TAIL of local queue j (R607, R625): 256 local queues. -/
def execPqTailWrite (rq : Requester) (i : Fin 64) (j : Nat) (v : Word) (s : State) : Host.Outcome State Fault Refusal :=
  .next (writeCmd s rq (aPage i.val + 0x100 + 4 * (j % 256)) v)

/-- RESTART (R605): a write of PQ_CTL with RESTART = 1. -/
def execPqRestart (rq : Requester) (i : Fin 64) (j : Nat) (v : Word) (s : State) : Host.Outcome State Fault Refusal :=
  .next (writeCmd s rq (aPage i.val + 0x102 + 4 * (j % 256)) (setBit v 0 true))

def execPinnaQCfgWrite (rq : Requester) (q : Fin 256) (v : Word) (s : State) : Host.Outcome State Fault Refusal :=
  .next (writeCmd s rq (aQCfg q.val) v)

/-- SWAP (R635): ETH_CTL is written back with SWAP = 1. -/
def execSwap (rq : Requester) (port : Fin 2) (s : State) : Host.Outcome State Fault Refusal :=
  .next (writeCmd s rq (aEth port.val 0) (setBit (regGet s (aEth port.val 0)) 43 true))

def execEthMdio (rq : Requester) (port : Fin 2) (v : Word) (s : State) : Host.Outcome State Fault Refusal :=
  .next (writeCmd s rq (aEth port.val 9) v)

/-- RECOVER (R640): CAN_CTL is written back with RECOVER = 1. -/
def execRecover (rq : Requester) (n : Fin 8) (s : State) : Host.Outcome State Fault Refusal :=
  .next (writeCmd s rq (aCan n.val 0) (setBit (regGet s (aCan n.val 0)) 45 true))

def execUartDataWrite (rq : Requester) (u : Fin 4) (v : Word) (s : State) : Host.Outcome State Fault Refusal :=
  .next (writeCmd s rq (aUart u.val 1) v)

def execUartDataRead (rq : Requester) (u : Fin 4) (s : State) : Host.Outcome State Fault Refusal :=
  .next (readCmd s rq (aUart u.val 1))

/-- A write of PCIE_CFG_CTL with RD = 1 (R648). -/
def execConfigRead (rq : Requester) (s : State) : Host.Outcome State Fault Refusal :=
  .next (writeCmd s rq (aPcie 0x42) 2)

/-- A write of PCIE_CFG_CTL with WR = 1 (R648). -/
def execConfigWrite (rq : Requester) (s : State) : Host.Outcome State Fault Refusal :=
  .next (writeCmd s rq (aPcie 0x42) 1)

/-- RESTART of an endpoint ring (R651): USB_EP_CFG is written back with RESTART = 1. -/
def execUsbEpRestart (rq : Requester) (e : Fin 18) (s : State) : Host.Outcome State Fault Refusal :=
  .next (writeCmd s rq (aUsbEp e.val 0) (setBit (regGet s (aUsbEp e.val 0)) 43 true))

def execUsbEpTailWrite (rq : Requester) (e : Fin 18) (v : Word) (s : State) : Host.Outcome State Fault Refusal :=
  .next (writeCmd s rq (aUsbEp e.val 2) v)

/-- COMMIT (R656): a write of DISP_COMMIT. -/
def execCommit (rq : Requester) (v : Word) (s : State) : Host.Outcome State Fault Refusal :=
  .next (writeCmd s rq (aDisp 1) (setBit v 47 true))

def execDispOutCtlWrite (rq : Requester) (o : Fin 2) (v : Word) (s : State) : Host.Outcome State Fault Refusal :=
  .next (writeCmd s rq (aDispOut o.val 0) v)

/-- GO of DISP_OUT_XFER (R661). -/
def execGo (rq : Requester) (o : Fin 2) (v : Word) (s : State) : Host.Outcome State Fault Refusal :=
  .next (writeCmd s rq (aDispOut o.val 5) (setBit v 47 true))

/-- GO of DMA_CTL (R767). -/
def execDmaGo (rq : Requester) (n : Fin 8) (v : Word) (s : State) : Host.Outcome State Fault Refusal :=
  .next (writeCmd s rq (aDma n.val 2) (setBit v 47 true))

/-- GO of PWR_VOTE (R665). -/
def execPwrVoteGo (rq : Requester) (v : Word) (s : State) : Host.Outcome State Fault Refusal :=
  .next (writeCmd s rq aPwrVote (setBit v 47 true))

/-- GO with FORCE (R669). -/
def execForcedEntry (rq : Requester) (v : Word) (s : State) : Host.Outcome State Fault Refusal :=
  .next (writeCmd s rq aPwrVote (setBit (setBit v 47 true) 46 true))

/-- GO with QUIESCENT (R675). -/
def execQuiescentEntry (rq : Requester) (v : Word) (s : State) : Host.Outcome State Fault Refusal :=
  .next (writeCmd s rq aPwrVote (setBit (setBit v 47 true) 45 true))

def execClkDomFreqWrite (rq : Requester) (d : Fin 64) (v : Word) (s : State) : Host.Outcome State Fault Refusal :=
  .next (writeCmd s rq (aClkFreq d.val) v)

def execPwrDomPolicyWrite (rq : Requester) (d : Fin 64) (v : Word) (s : State) : Host.Outcome State Fault Refusal :=
  .next (writeCmd s rq (aPwrPolicy d.val) v)

def execMbxCmd (rq : Requester) (port : Fin 2) (v : Word) (s : State) : Host.Outcome State Fault Refusal :=
  .next (writeCmd s rq (aMbx port.val 0) v)

def execMbxAck (rq : Requester) (port : Fin 2) (v : Word) (s : State) : Host.Outcome State Fault Refusal :=
  .next (writeCmd s rq (aMbx port.val 0x20) v)

/-- START of RST_CORE_CTL (R737). -/
def execRstCoreCtlStart (rq : Requester) (c : Fin 16) (v : Word) (s : State) : Host.Outcome State Fault Refusal :=
  .next (writeCmd s rq (aRstCore c.val) (setBit v 47 true))

def execDbgHoldWrite (rq : Requester) (v : Word) (s : State) : Host.Outcome State Fault Refusal :=
  .next (writeCmd s rq aDbgHold v)

/-! ## Inbound PCIe requests (R645 to R647, R691) -/

/-- The MSI-X table in BAR0 (R645): 64 entries of 16 bytes. Where it begins the manual does not say. DESIGN CHOICE, log entry
86. -/
def inMsix (b : Nat) : Bool := 0x8000 ≤ b && b < 0x8400

/-- A byte of the MSI-X table. -/
def msixByte (s : State) (b : Nat) : Byte := (sget s.io.msix b).getD 0

/-- Slot n of 8 bytes of BAR0 as the host reads it: register n of the mailbox where MBOX_PCIE lets the host see it, with every
check of a register access (R56, R691), or the MSI-X table. -/
def bar0Slot (s : State) (n : Nat) : List Byte × State :=
  let a := aMbx 1 n
  if inMsix (8 * n) then ((upto 8).map fun k => msixByte s (8 * n + k), s)
  else if bit s.struct.image.sec0 1 && (regInfo a).isSome && n < 0x1000 then
    let (v, s) := regRead s .pcieHost a
    (unpackBytes [v] 6 ++ [0, 0], s)
  else (List.replicate 8 0, s)

/-- Consecutive slots of BAR0. -/
def bar0Slots (s : State) (n : Nat) : Nat → List Byte × State
  | 0 => ([], s)
  | k + 1 =>
    let (l, s) := bar0Slot s n
    let (m, s) := bar0Slots s (n + 1) k
    (l ++ m, s)

/-- A byte of the MSI-X table is written. -/
def msixPut (s : State) (b : Nat) (x : Byte) : State :=
  let l := sdel s.io.msix b
  { s with io := { s.io with msix := if x = 0 then l else sins l b x } }

/-- A host write of one slot of BAR0: the bytes of its range replace those of what the register or the table holds. -/
def bar0Write (s : State) (n : Nat) (f : Nat → Option Byte) : State :=
  let a := aMbx 1 n
  if inMsix (8 * n) then
    (upto 8).foldl (fun s k => match f k with
      | some x => msixPut s (8 * n + k) x
      | none => s) s
  else if !bit s.struct.image.sec0 1 || (regInfo a).isNone || 0x1000 ≤ n || (upto 6).all (fun k => (f k).isNone) then s
  else
    let v := (upto 6).foldl (fun w k => match f k with
      | some x => setFld w (8 * k + 7) (8 * k) x.toNat
      | none => w) (regGet s a)
    regWrite s .pcieHost a v

/-- A request to BAR0. -/
def bar0Request (s : State) (addr : Nat) (write : Bool) (len : Nat) (bytes : List Byte) : State :=
  if write then
    let last := addr + bytes.length
    (upto (last / 8 + 1 - addr / 8)).foldl (fun s k =>
      let n := addr / 8 + k
      bar0Write s n fun j => if addr ≤ 8 * n + j then bytes[8 * n + j - addr]? else none) s
  else
    let (l, s) := bar0Slots s (addr / 8) ((addr + len + 7) / 8 - addr / 8)
    pcieAnswer s ((l.drop (addr % 8)).take len) 0

/-- PCIE_INBOUND_REQUEST (R644 to R647). As an endpoint, `bar` chooses BAR2 against BAR0 and the address is an offset
in it; as a root port, the address is a PCIe byte address. A write carries at most 512 bytes. The line of source 148 or 149
rises with it (R291, log entry 74). -/
def execPcieInboundRequest (bar : Bool) (addr : Nat) (write : Bool) (len : Nat) (bytes : List Byte) (s : State) :
    Host.Outcome State Fault Refusal :=
  let n := if write then bytes.length else len
  if !regB s (aPcie 0) 41 || !pcieRuns s || n = 0 || (if write then 512 else 4096) < n then .next s
  else
    let s := bwAdd (count s 60 0x80) 32 (if write then n else 0)
    let s := setLine s (if regB s (aPcie 0) 46 then 149 else 148) true
    if regB s (aPcie 0) 46 then
      match rpInFind s addr n with
      | some (base, b) => .next (winRequest s base b write n bytes)
      | none => .next (pcieUr s addr write true)
    else if bar then
      if s.io.pcieEpOk && addr + n ≤ 2 ^ regF s (aPcie 2) 47 44 * 1048576 then
        .next (winRequest s (regF s (aPcie 2) 35 0) addr write n bytes)
      else .next (pcieUr s addr write false)
    else if addr + n ≤ 65536 then .next (bar0Request s addr write n bytes)
    else .next (pcieUr s addr write false)

end Sys2Proof.Machine
end

