-- ==== Sys2Proof/Machine/Flow.lean ====
section
/-! DEFINITION. How a core runs one instruction (chapters 3, 4, 6, 7): when it can issue, its fetch, the delay of status
writes, delay slots and their undoing, the checks that come before its effect, its completion with the loop end test and
the predictors, and its faults. A command names the instruction that stands at the core's PC. -/

namespace Sys2Proof.Machine

open Sys2Proof

/-- What an instruction needs beside its effect: its length, whether a delay slot forbids it (R228), the illegal
encoding of its operands (R94, R278), the profiles that hold it (R136) and its lowest level. -/
structure Shape where
  form : Form
  noSlot : Bool
  bad : Option Nat
  held : Profile → Bool
  level : Nat

/-- An instruction of every profile at PL0. -/
def plain (f : Form) : Shape := ⟨f, false, none, fun _ => true, 0⟩

/-- The length in half-words (R96). -/
def formLen : Form → Nat
  | .short => 1
  | .long => 2

/-- What the effect of an instruction comes to: it completes, it faults, or the core goes its own way (it waits, or has
taken an exception after completing). -/
inductive Body where
  | done (s : State)
  | fault (s : State) (e : Exc)
  | stay (s : State)

/-! ## Issue -/

/-- The core can start an instruction: it runs and is clocked, nothing of it waits, its frame goes on, and it is no
checker of a lockstep pair, which follows its leader (R470, R494, R662). -/
def canIssue (s : State) (c : CoreId) : Bool :=
  let k := s.core c
  k.run = .running && k.waiting.isNone && !k.frame.stopped && coreClocked s c &&
  match c with
  | .frond i => !isChecker s i.val
  | _ => true

/-- Status writes inside their delay come one instruction nearer; one that has reached its instruction takes effect
(R218, R219, R222). -/
def Core.tickStatus (k : Core) : Core :=
  { k with
    status := k.nextStatus
    statusQueue := (k.statusQueue.filter fun w => w.left ≠ 0).map fun w => { w with left := w.left - 1 } }

/-- Counts an event in the blocks of a core; both cores of a lockstep pair count (R709). -/
def tally (s : State) (c : CoreId) (codeA codeF n : Nat) : State :=
  match c with
  | .app i => if codeA = 0 then s else count s i.val codeA n
  | .frond i => if codeF = 0 then s else (unitOf s i.val).foldl (fun s j => count s (16 + j) codeF n) s
  | .medulla => s

/-! ## Fetch (R97, R340, R409, R494) -/

/-- What a fetch comes to: the instruction; a violation, which reads the all-zero word; a fault; a Frond core that
executes nothing further in its frame; or a wait for a line that is busy, of the code or of a table. -/
inductive Fetched where
  | ok (s : State)
  | zero (s : State)
  | fault (s : State) (e : Exc)
  | stop (s : State)
  | wait (s : State)

/-- A core executes nothing further in its frame (R494). -/
def stopFrame (s : State) (c : CoreId) : State := s.modCore c fun k => { k with frame := { k.frame with stopped := true } }

/-- Who a core is at a Sorus bank. -/
def sorusUser (s : State) (c : CoreId) : SorusUser :=
  match c with
  | .app _ => .app (s.core c).pl
  | .frond i => .frond i.val
  | .medulla => .medulla

/-- The boot ROM is open to a core (R765). -/
def romOpen (s : State) (c : CoreId) : Bool :=
  match c with
  | .medulla => true
  | .app _ => (s.core c).pl = 3 && regF s aStructStatus 3 2 = 2
  | .frond _ => false

/-- A byte of the NOR is readable through the window at a level (R685). -/
def norByteOpen (s : State) (pl b : Nat) : Bool :=
  let act :=
    inSlot (aelnarSlot s.mdl.boot.fwAct.toNat) 0x1000000 b || inSlot (imageSlot s.mdl.boot.stAct.toNat) 0x200000 b
  if 0x4000000 ≤ b then (if bit s.struct.image.sec1 0 then 1 ≤ pl else 2 ≤ pl)
  else act && bit s.struct.image.sec1 2 && 2 ≤ pl
where
  inSlot (base n b : Nat) : Bool := base ≤ b && b < base + n

/-- A word of the NOR window is readable: every byte of it that the NOR holds. -/
def norOpen (s : State) (pl a : Nat) : Bool :=
  (upto 6).all fun k => let b := 6 * (a - 0x840000000) + k; 0x8000000 ≤ b || norByteOpen s pl b

/-- A line of code as its core reads it: through its caches (R367), or, from uncached memory, through RdNC past them
(R345, R383). A miss of a new frame waits for what the abandoned frame left in flight (R475). -/
def fetchLine (s : State) (c : CoreId) (l : Nat) (t : MemType) : Whole LineData :=
  if t = .uncached then
    match requestWhole s { mkMsg .RdNC (coreNum c) l with twin := isTwin s (8 * l) } .Data with
    | .done m s => .done m.data s
    | .held s => .held s
  else if !(s.core c).abandoned.isEmpty && !(cacheLine s (coreNum c) l).any (·.st.readable) then .held s
  else coreRead s (coreNum c) l true

/-- A fetch of a physical word of a type; a Frond core whose bank refuses it executes nothing further in its frame (R409, R427,
R434, R494, R508, R685, R761, R765). -/
def fetchAt (s : State) (c : CoreId) (a : Nat) (t : MemType) : Fetched :=
  let bad (cause : Nat) : Fetched := .zero (violation s cause (coreNum c) (s.core c).pl false a)
  match regionOf s a with
  | .dram =>
    if memTop s ≤ a then bad 7
    else
      match fetchLine s c (dataLine s (a / 8)) t with
      | .held s => .wait s
      | .done d s =>
        if pairMismatch d (a % 8) then .fault s (exc 0x18 0 (w48 a))
        else if (d.getD (a % 8) (0, false)).2 then .fault s (exc 0x19 0 (w48 a))
        else .ok s
  | .dramCompl => bad 9
  | .registers => .ok s
  | .sorus =>
    match sorusPlace a with
    | none => bad 2
    | some p =>
      if !sorusPermits s (sorusUser s c) p false then (match c, bad 8 with
        | .frond _, .zero s => .stop (stopFrame s c)
        | _, r => r)
      else if clockStopped s 24 then .wait s
      else
        let (r, s) := sorusLoad s p
        if r.mismatch then .fault s (exc 0x18 0 (w48 a))
        else if r.poison then .fault s (exc 0x19 0 (w48 a))
        else .ok s
  | .bootRom => if romOpen s c then .ok s else bad 1
  | .nor => if norOpen s (s.core c).pl a then .ok s else bad 1
  | .reserved => bad 2

/-- The type of code on a core that issues physical addresses (R262, R431). -/
def codeType (s : State) (a : Nat) : MemType := if isTwin s a then .twinned else .writeBack

/-- The fetch of the instruction at the core's PC. -/
def fetchPc (s : State) (c : CoreId) : Fetched :=
  let a := (s.core c).pc >>> 1
  match c with
  | .frond i =>
    if frondPermits s i.val a.toNat true false then fetchAt s c a.toNat (codeType s a.toNat)
    else .stop (stopFrame (violation s 3 (coreNum c) (s.core c).pl false a.toNat) c)
  | .medulla => fetchAt s c a.toNat (codeType s a.toNat)
  | .app _ =>
    match translate s c a 0 with
    | .ok s x => fetchAt s c x.pa x.type
    | .fault s e _ => .fault s e
    | .wait s => .wait s
    | .again s => .wait s

/-- An instruction is fetched, which an application core counts (R257, R713). -/
def fetch (s : State) (c : CoreId) : Fetched :=
  match fetchPc s c with
  | .ok s => .ok (tally s c 0x11 0 1)
  | .zero s => .zero (tally s c 0x11 0 1)
  | r => r

/-! ## The loop end test (R152, R156) -/

/-- DEPTH of lctl. -/
def Core.depth (k : Core) : Nat := fld k.lctl 1 0

/-- OWN of a level. -/
def Core.own (k : Core) (l : Nat) : Nat := fld k.lctl (9 + 2 * l) (8 + 2 * l)

/-- A loop level by number. -/
def lvl (n : Nat) : Fin 3 := ⟨n % 3, Nat.mod_lt _ (by decide)⟩

/-- The end test on a sequential next PC, from the innermost open level outward (R156). -/
def endTest (k : Core) (n : Word) : Nat → Core × Word
  | 0 => (k, n)
  | d + 1 =>
    if n = k.le[lvl d] && k.own d = k.pl then
      if 1 < (k.lc[lvl d]).toNat then ({ k with lc := k.lc.set (lvl d) (k.lc[lvl d] - 1) }, k.ls[lvl d])
      else endTest { k with lc := k.lc.set (lvl d) 0, lctl := setFld k.lctl 1 0 d } n d
    else (k, n)

/-! ## Predictors at commit (R239 to R246) -/

/-- The target buffer's answer for a branch (R239). -/
def tbFind (p : Predictors) (pc : Word) : Option TbEntry :=
  p.targets.find? fun e => e.set = fld pc 8 0 && e.tag = fld pc 20 9

/-- A branch allocates or updates its entry; the least recently used of four ways leaves its set (R239, R241). -/
def tbPut (p : Predictors) (pc target : Word) (kind : Nat) : Predictors :=
  let same := p.targets.filter fun e => e.set = fld pc 8 0 && e.tag ≠ fld pc 20 9
  let other := p.targets.filter fun e => e.set ≠ fld pc 8 0
  { p with targets := (⟨fld pc 8 0, fld pc 20 9, target, kind⟩ :: same.take 3) ++ other }

/-- The index of the indirect predictor (R246). -/
def ipIndex (p : Predictors) (pc : Word) : Nat := fld pc 9 1 ^^^ (p.gh.toNat % 512)

/-- The indirect predictor's answer (R246). -/
def ipFind (p : Predictors) (pc : Word) : Option Word :=
  (p.indirect.find? fun e => e.1 = ipIndex p pc && e.2.1 = fld pc 17 10).map (·.2.2)

/-- JR and CALLR write the predictor when its entry is another target or none (R246). -/
def ipPut (p : Predictors) (pc target : Word) : Predictors :=
  { p with indirect := (ipIndex p pc, fld pc 17 10, target) :: p.indirect.filter fun e => e.1 ≠ ipIndex p pc }

/-- The kind a target-buffer entry records (R239): direct, call, return, indirect. -/
def tbKind (kind : Nat) : Nat := if kind = 4 then 3 else kind

/-- A branch pair commits in the predictors of an application core that is not guarded (R241 to R246, R258). The pointer
of the return predictor is bits 4:0 of rsp as it stood before the pair (R243). -/
def Predictors.train (p : Predictors) (b : Slot) : Predictors :=
  let q := if b.cond then { p with gh := (p.gh <<< 1) ||| (BitVec.ofNat 16 b.taken.toNat) } else p
  let q := if b.cond && !b.hint then q else tbPut q b.branchPc b.target (tbKind b.kind)
  let q := if (b.kind = 3 || b.kind = 4) && ipFind p b.branchPc ≠ some b.target then
      { q with indirect := (ipPut p b.branchPc b.target).indirect }
    else q
  if b.kind = 1 || b.kind = 4 then { q with rp := q.rp.set (fld b.undoRsp 4 0) b.retAddr } else q

/-- The branch resolved wrong (R187, R238, R240, R246): its hint was wrong, or a predicted return or indirect target
was another one. The target-buffer entry decides which predictor gives the target, and an entry of another kind is a
false hit, which costs what a miss costs (R242). No entry of its own kind is taken as no prediction, whatever the
indirect predictor holds, and a direct transfer whose aliased entry holds another target as no wrong one. DEDUCED, log
entry 123. -/
def Predictors.wrong (p : Predictors) (b : Slot) : Bool :=
  if b.cond then b.hint ≠ b.taken
  else match tbFind p b.branchPc with
  | none => false
  | some e =>
    if b.kind = 2 then e.kind = 2 && p.rp.getD (fld (b.undoRsp - 1) 4 0) 0 ≠ b.target
    else if b.kind = 3 || b.kind = 4 then e.kind = 3 && (ipFind p b.branchPc).getD e.target ≠ b.target
    else false

/-- A branch that resolved wrong is counted, with the wrong-path instructions fetched meanwhile, which the manual gives no
number of (R257, R713). -/
def noteWrong (s : State) (c : CoreId) : State :=
  let (w, s) := s.takeFree
  tally (tally s c 0x14 0 1) c 0x11 0 w.toNat

/-- The pair of a branch and its slot commits. -/
def commitBranch (s : State) (c : CoreId) (b : Slot) : State :=
  match c with
  | .app _ =>
    let s := tally s c 0x13 0 1
    if (s.core c).gx then s
    else
      let s := if (s.core c).predict.wrong b then noteWrong s c else s
      s.modCore c fun k => { k with predict := k.predict.train b }
  | _ => s

/-! ## Completion -/

/-- An instruction of `len` half-words completes (R96, R156, R157, R226, R232): a taken branch goes to its target after
its slot; every other completion is sequential and meets the end test, whose loop start is an instruction address (R97). -/
def completeInstr (s : State) (c : CoreId) (len : Nat) : State :=
  let s := retireEvents s c
  let s := match (s.core c).slot with
    | some b => commitBranch (tally s c 0x10 0x30 (if b.annulled then 1 else 2)) c b
    | none => tally s c 0x10 0x30 1
  s.modCore c fun k =>
    let k := { k with waiting := none, frame := { k.frame with firstDone := true } }
    let seqPc := pcOf c (k.pc + w48 len)
    match k.slot with
    | some b =>
      if b.taken then { k with slot := none, pc := b.target }
      else
        let (k, n) := endTest k seqPc k.depth
        { k with slot := none, pc := pcOf c n }
    | none =>
      let (k, n) := endTest k seqPc k.depth
      { k with pc := pcOf c n }

/-- A transfer of control other than a branch: no end test (R157). -/
def completeAt (s : State) (c : CoreId) (pc : Word) : State :=
  (tally (retireEvents s c) c 0x10 0x30 1).modCore c fun k =>
    { k with waiting := none, pc := pcOf c pc, frame := { k.frame with firstDone := true } }

/-- What a branch did is undone when its slot faults (R230). -/
def Core.undoBranch (k : Core) : Core :=
  match k.slot with
  | none => k
  | some b =>
    let k := match b.undoReg with
      | some (r, v) => k.setReg r v
      | none => k
    { k with slot := none, pc := b.branchPc, rsp := b.undoRsp, rss := b.undoRss }

/-- The instruction at the PC raises an exception; in a delay slot the branch executes again after it (R230, R277). -/
def faultAt (s : State) (c : CoreId) (e : Exc) : State :=
  let s := s.modCore c fun k => { k.undoBranch with waiting := none }
  raiseAt s c e (s.core c).pc

/-- What becomes of an instruction after its effect. -/
def settle (c : CoreId) (len : Nat) (b : Body) : State :=
  match b with
  | .done t => completeInstr t c len
  | .fault t e => faultAt t c e
  | .stay t => t

/-- The first check of R276 that an instruction at a core fails, short of its operands in memory: illegal instruction
(R94, R99, R136, R228), then privilege. -/
def refusedBy (k : Core) (c : CoreId) (d : Shape) : Option Exc :=
  if d.form = .long && bit k.pc 0 then some (exc 0x01 5)
  else match d.bad with
    | some n => some (exc 0x01 n)
    | none =>
      if !d.held c.profile then some (exc 0x01 2)
      else if d.noSlot && k.slot.isSome then some (exc 0x01 3)
      else if k.pl < d.level then some (exc 0x02 d.level)
      else none

/-- The slot of an annulled branch stands at the PC (R227). -/
def Core.inAnnulled (k : Core) : Bool := match k.slot with
  | some b => b.annulled
  | none => false

/-- An instruction issues: the status writes inside their delay come nearer (R218). A change of VM changes which virtual
sources the controller presents (R308). -/
def issueStatus (s : State) (c : CoreId) : State :=
  let t := s.modCore c Core.tickStatus
  if (t.core c).vm = (s.core c).vm then t else represent t (coreNum c)

/-- The instruction has not issued after all: it waits for a line, and its count of status writes stands where it stood. -/
def unissue (s t : State) (c : CoreId) : State :=
  let k := s.core c
  represent (t.modCore c fun x => { x with status := k.status, statusQueue := k.statusQueue }) (coreNum c)

/-- The length of an annulled slot (R232): in half 1 one half-word, whatever its L bit, as CALL counts it for its
return address. DEDUCED, log entry 124. -/
def Core.annulledLen (k : Core) (f : Form) : Nat := if bit k.pc 0 then 1 else formLen f

/-- Runs one instruction on a core (R227, R228, R276). A core that cannot issue ignores the command. -/
def runInstr (s : State) (c : CoreId) (d : Shape) (body : State → Body) : State :=
  if !canIssue s c then s
  else
    let s0 := issueStatus s c
    if (s0.core c).inAnnulled then
      if d.noSlot then faultAt s0 c (exc 0x01 3)
      else completeInstr (tally (tally s0 c 0x11 0 1) c 0x12 0 1) c ((s0.core c).annulledLen d.form)
    else
      match fetch s0 c with
      | .wait t => unissue s t c
      | .stop t => t
      | .zero t => completeInstr t c 1
      | .fault t e => faultAt t c e
      | .ok t =>
        match refusedBy (t.core c) c d with
        | some e => faultAt t c e
        | none => settle c (formLen d.form) (body t)

/-- An instruction that only writes one general register with a value computed from the core's registers. -/
def regInstr (s : State) (c : CoreId) (d : Shape) (gd : Reg) (f : Core → Word) : State :=
  runInstr s c d fun t => .done (t.modCore c fun k => k.setReg gd (f k))

end Sys2Proof.Machine
end

