-- ==== Sys2Proof/Machine/Mem.lean ====
section
/-! DEFINITION. The memory accesses of a core's instruction (R115 to R124, R160 to R174, R202 to R212, R340 to R352,
R394 to R403, R492 to R494): windows, translation, the order of their faults, what they wait for, and what they do to
caches, store buffer, Sorus memory, registers and the PCIe aperture. -/

namespace Sys2Proof.Machine

open Sys2Proof

/-! ## Lines and the store buffer -/

/-- One word of a line replaced, with its complement in a pair (R369). -/
def setWord (d : LineData) (i : Nat) (w : Word) (p : Bool) : LineData :=
  let d := d.set i (w, p)
  if d.length = 16 then d.set (i + 8) (~~~w, p) else d

/-- The bits m of word i stored; a whole word clears its poison (R120, R409). -/
def storeWord (d : LineData) (i : Nat) (v m : Word) : LineData :=
  let o := d.getD i (0, false)
  setWord d i (maskedWrite o.1 v m) (o.2 && m ≠ 0xFFFFFFFFFFFF)

/-- The agent's line can be read. -/
def lineReadable (s : State) (ag l : Nat) : Bool := match cacheLine s ag l with
  | some e => e.st.readable
  | none => false

/-- The agent's Put of a line waits for its PutAck: it sends no request for the line until then (R379). -/
def lineEvicting (s : State) (ag l : Nat) : Bool := match cacheLine s ag l with
  | some e => e.st.evicting
  | none => false

/-- The agent's line can be written. -/
def lineOwned (s : State) (ag l : Nat) : Bool := match cacheLine s ag l with
  | some e => e.st.owned
  | none => false

/-- A word of an agent's line: value, poison, and a mismatched complement (R208, R434). -/
def cachedWord (s : State) (ag a : Nat) : Word × Bool × Bool :=
  match cacheLine s ag (dataLine s (a / 8)) with
  | some e =>
    let w := e.data.getD (a % 8) (0, false)
    (w.1, w.2, pairMismatch e.data (a % 8))
  | none => (0, false, false)

/-- A part of the word cannot be stored: its complement mismatches, and no older store of the whole word is on its way
(R434). -/
def pairBad (s : State) (c : CoreId) (a : Nat) : Bool :=
  (cachedWord s (coreNum c) a).2.2 &&
  !((s.core c).storeBuffer.any fun e => e.pa = a && e.mask = 0xFFFFFFFFFFFF)

/-- A store into an owned line, which is then in M (R378). -/
def cacheStore (s : State) (ag a : Nat) (v m : Word) : State :=
  let l := dataLine s (a / 8)
  modLine (touchL1 s ag l .l1d) ag l fun e => { e with st := .M, data := storeWord e.data (a % 8) v m }

/-- The youngest store-buffer entry of a word (R204). -/
def youngest (sb : List SbEntry) (a : Nat) : Option SbEntry := (sb.filter fun e => e.pa = a).getLast?

/-- The bits of a word that an access reads (R203, R204). -/
def readMask (a : Access) (r : Ref) : Word :=
  match a.fin with
  | .load _ _ sel _ => storeMask r.elem sel
  | _ => 0xFFFFFFFFFFFF

/-- The entry forwards to the load (R204, R205, R207). -/
def forwards (a : Access) (r : Ref) (e : SbEntry) : Bool :=
  e.type ≠ .uncached && readMask a r &&& ~~~e.mask = 0

/-! ## Where an access goes -/

def RefOp.writes : RefOp → Bool
  | .read => false
  | _ => true

def RefOp.reads : RefOp → Bool
  | .write _ _ => false
  | _ => true

def RefOp.isAtomic : RefOp → Bool
  | .atomic _ _ _ _ => true
  | _ => false

/-- Where a physical word access leads: a violation with its cause and the word it logs (R778), or a target. -/
inductive Way where
  | refused (cause word : Nat)
  | register
  | aperture (b : Nat)
  | sorus (p : SorusPlace)
  | rom
  | nor
  | memory
deriving DecidableEq, Repr

def wayOf (s : State) (c : CoreId) (op : RefOp) (a : Nat) : Way :=
  match regionOf s a with
  | .dram => if memTop s ≤ a then .refused 7 a else .memory
  | .dramCompl => .refused 9 a
  | .registers =>
    if inAperture a then
      match apertureVerdict s (.core c) a op.writes with
      | .ok b => .aperture b
      | .error e => .refused e.1 e.2
    else .register
  | .sorus =>
    match sorusPlace a with
    | none => .refused 2 a
    | some p => if sorusPermits s (sorusUser s c) p op.writes then .sorus p else .refused 8 a
  | .bootRom => if !op.writes && romOpen s c then .rom else .refused 1 a
  | .nor => if !op.writes && norOpen s (s.core c).pl a then .nor else .refused 1 a
  | .reserved => .refused 2 a

/-- A word of the NOR window; bytes past the NOR read zero (R685, R761). -/
def norWindow (s : State) (a : Nat) : Word :=
  ofBytes ((upto 6).map fun k =>
    let b := 6 * (a - 0x840000000) + k
    if b < 0x8000000 then norByte s b else 0)

/-! ## Frond windows (R492 to R494, R173) -/

/-- The references of an access that a Frond core's windows refuse: all of a load, store or atomic together, each
return-stack access of CALL and RET on its own. -/
def windowRefused (s : State) (c : CoreId) (a : Access) : List Bool :=
  match c with
  | .frond i =>
    let l := a.refs.map fun r => !frondPermits s i.val r.va.toNat r.op.reads r.op.writes
    match a.fin with
    | .call _ _ _ => l
    | .ret => l
    | _ => if l.any id then l.map fun _ => true else l
  | _ => a.refs.map fun _ => false

/-- The references of an access act together but for the return-stack accesses of CALL and RET (R494). -/
def Finish.together : Finish → Bool
  | .call _ _ _ => false
  | .ret => false
  | _ => true

/-- The first word of an access of a Frond core that its Sorus bank refuses: the access then reaches nothing at all, as one
that a window refuses (R494, R508). -/
def bankRefused (s : State) (c : CoreId) (a : Access) (ps : List (Ref × Xlate)) : Option Nat :=
  match c with
  | .frond _ =>
    if a.fin.together then ps.findSome? fun e => match wayOf s c e.1.op e.2.pa with
      | .refused 8 w => some w
      | _ => none
    else none
  | _ => none

/-! ## Translation and the order of faults (R211, R276) -/

/-- The translation of each reference that is not refused, or its fault with whether the access is known to be to
device memory; the last flag: a walk waits for a busy line. -/
def xlateRefs (s : State) (c : CoreId) : List (Ref × Bool) → List (Option (Except (Exc × Bool) Xlate)) × State × Bool
  | [] => ([], s, false)
  | (r, drop) :: t =>
    if drop then
      let (l, s, w) := xlateRefs s c t
      (none :: l, s, w)
    else
      match translate s c r.va r.kind with
      | .ok s x =>
        let (l, s, w) := xlateRefs s c t
        (some (.ok x) :: l, s, w)
      | .fault s e d =>
        let (l, s, w) := xlateRefs s c t
        (some (.error (e, d)) :: l, s, w)
      | .wait s => ([], s, true)
      | .again s => ([], s, true)

/-- The reference is known to be of a device type, be its translation refused for another reason (R276). -/
def deviceRef : Option (Except (Exc × Bool) Xlate) → Bool
  | some (.ok x) => isDevice x.type
  | some (.error e) => e.2
  | none => false

/-- The alignment fault of an access (R123, R171, R212, R278). -/
def alignFault (refs : List Ref) (xs : List (Option (Except (Exc × Bool) Xlate))) : Option Exc :=
  let dev := xs.map deviceRef
  match refs with
  | [] => none
  | r :: _ =>
    if !dev.any id then none
    else
      let bad (n : Nat) : Option Exc := some (exc 0x03 n r.va (kindWrites r.kind))
      if r.op.isAtomic then bad 4
      else match r.elem with
        | .word => none
        | .half => bad 1
        | .byte => bad 1
        | .dword => if !dev.all id then bad 3 else if bit r.va 0 then bad 2 else none

/-- The order of the fault classes of an access (R276). -/
def faultRank (e : Exc) : Nat :=
  if e.cls = 0x10 || e.cls = 0x11 then 0
  else if e.cls = 0x12 then 1
  else if e.cls = 0x13 then 2
  else if e.cls = 0x14 then 3
  else if e.cls = 0x18 then 4 else 5

/-- The fault that is taken among those of the references: the first in the order of R276, then the first half. -/
def firstFault (l : List Exc) : Option Exc :=
  l.foldl (fun b e => match b with
    | none => some e
    | some x => if faultRank e < faultRank x then some e else some x) none

def xlateFaults (xs : List (Option (Except (Exc × Bool) Xlate))) : List Exc :=
  xs.filterMap fun x => match x with
    | some (.error e) => some e.1
    | _ => none

/-- A reference with its translation; none where the windows refuse it. -/
def xlateOk (xs : List (Option (Except (Exc × Bool) Xlate))) : List (Option Xlate) :=
  xs.map fun x => match x with
    | some (.ok x) => some x
    | _ => none

/-! ## Contention predictor (R403) -/

def ctrIndex (l : Nat) : Nat := (l % 1024) ^^^ (l / 1024 % 1024) ^^^ (l / 1048576 % 1024)

/-- The atomic runs far (R403). -/
def runsFar (s : State) (c : CoreId) (plc l : Nat) (t : MemType) : Bool :=
  if t = .writeThrough || t = .uncached then true
  else if plc = 1 then false
  else if plc = 2 then true
  else regB s aCohDirCtl 19 && 2 ≤ aget (s.core c).contention (ctrIndex l) 0

/-- The predictor is trained at the completion of an atomic (R403). -/
def trainAtomic (s : State) (c : CoreId) (l : Nat) (contended : Bool) : State :=
  s.modCore c fun k =>
    let n := aget k.contention (ctrIndex l) 0
    { k with contention := swrite (fun _ => 0) k.contention (ctrIndex l) (if contended then Nat.min (n + 1) 3 else n - 1) }

/-! ## What an access waits for -/

inductive Need where
  | ready
  | line (l : Nat) (excl : Bool)
  | uncached (l : Nat)
  | drain (overlap : Bool)
  | sample
  | aperture
  | turn                     -- an access that an abandoned frame left in flight (R475), or a clock (R57)
deriving DecidableEq, Repr

/-- A store needs room for this many entries of the store buffer (R202, R203). -/
def storeCount (a : Access) : Nat := (a.refs.filter fun r => r.op.writes).length

/-- The store buffer has no room for the stores of an access (R202). -/
def bufferFull (k : Core) (a : Access) : Bool := decide (8 < k.storeBuffer.length + storeCount a)

/-- A word of Sorus memory, through whichever alias (R505). -/
def inSorus (a : Nat) : Bool := 0x810000000 ≤ a && a < 0x830000000

/-- A store of an application core to device or Sorus memory, which enters the store buffer and reaches its block when it
drains (R202, R207, R396). -/
def posted (c : CoreId) (a : Access) (r : Ref) (x : Xlate) : Bool :=
  match c with
  | .app _ => r.op.writes && !r.op.isAtomic && (isDevice x.type || inSorus x.pa) && !a.silent
  | _ => false

/-- What an access left in flight still does to memory is a write (R475). -/
def Waiting.writes : Waiting → Bool
  | .access a => a.refs.any fun r => r.op.writes
  | .atomicDone _ _ => true
  | _ => false

/-- It writes a physical word; a Frond core's addresses are physical. -/
def Waiting.writesAt (w : Waiting) (pa : Nat) : Bool :=
  match w with
  | .access a => a.refs.any fun r => r.op.writes && decide (r.va.toNat = pa)
  | .atomicDone _ x => decide (x = pa)
  | _ => false

/-- An access follows what an abandoned frame left in flight: a store or an atomic follows every store and atomic, and a
load those of its word (R200, R395, R397, R475). -/
def followsOlder (k : Core) (r : Ref) (pa : Nat) : Bool :=
  if r.op.writes then k.abandoned.any Waiting.writes else k.abandoned.any fun w => w.writesAt pa

/-- What a DRAM reference of an application core waits for (R202 to R207, R396, R397). -/
def needApp (s : State) (c : CoreId) (a : Access) (r : Ref) (x : Xlate) : Need :=
  let k := s.core c
  let ag := coreNum c
  let l := dataLine s (x.pa / 8)
  match r.op with
  | .read =>
    if x.type = .uncached then
      if k.storeBuffer.any fun e => e.pa = x.pa then .drain true
      else if (sget a.got x.pa).isSome then .ready else .uncached l
    else
      match youngest k.storeBuffer x.pa with
      | some e => if forwards a r e then .ready else .drain true
      | none => if lineReadable s ag l then .ready else .line l false
  | .write _ m =>
    if bufferFull k a then .drain false
    else if x.type = .twinned && m ≠ 0xFFFFFFFFFFFF && !lineOwned s ag l then .line l true
    else .ready
  | .atomic _ _ _ plc =>
    if !k.storeBuffer.isEmpty then .drain false
    else if lineEvicting s ag l then .line l true
    else if runsFar s c plc l x.type || lineOwned s ag l then .ready else .line l true

/-- What a DRAM reference of a Frond or Medulla core waits for (R200, R395, R400). -/
def needOther (s : State) (c : CoreId) (r : Ref) (x : Xlate) : Need :=
  let ag := coreNum c
  let l := dataLine s (x.pa / 8)
  match r.op with
  | .read => if lineReadable s ag l then .ready else .line l false
  | .write _ _ => if lineOwned s ag l then .ready else .line l true
  | .atomic _ _ _ plc => if lineEvicting s ag l then .line l true
    else if lineOwned s ag l && !runsFar s c plc l x.type then .ready
    else if !(s.core c).abandoned.isEmpty then .turn
    else if runsFar s c plc l x.type then .ready else .line l true

/-- What a reference waits for. An atomic or an unanswered store of an application core follows its older stores (R397), a
load of a device or Sorus word its older store to that word, and a device-strict load every older device-strict store
(R207); a Frond load waits for the sense writer and the ring engine (R39, R541). Sorus memory whose clock a fault has
stopped answers nothing: the access waits for it (R57). DESIGN CHOICE, log entry 177. -/
def needOf (s : State) (c : CoreId) (a : Access) (r : Ref) (x : Xlate) : Need :=
  let k := s.core c
  let older := r.op.writes && !k.storeBuffer.isEmpty
  let strict := x.type = .deviceStrict && k.storeBuffer.any fun e => e.type = .deviceStrict
  let waits := older || (!r.op.writes && (strict || (youngest k.storeBuffer x.pa).isSome))
  if posted c a r x then (if bufferFull k a then .drain false else .ready)
  else if followsOlder k r x.pa then .turn
  else match wayOf s c r.op x.pa with
  | .memory =>
    match c with
    | .app _ => needApp s c a r x
    | _ => needOther s c r x
  | .sorus p =>
    if clockStopped s 24 then .turn
    else match c with
    | .frond _ =>
      if r.op.reads && (sampleUnwritten s (placeKey p) || areaUnwritten s (placeKey p)) then .sample else .ready
    | _ => if waits then .drain (!older) else .ready
  | .register => if waits then .drain false else .ready
  | .aperture _ =>
    if waits then .drain false
    else if r.op.reads && (sget a.got x.pa).isNone then .aperture else .ready
  | _ => .ready

/-- The references with their translations, without the refused ones. -/
def livePairs (refs : List Ref) (xs : List (Option Xlate)) : List (Ref × Xlate) :=
  (refs.zip xs).filterMap fun e => e.2.map fun x => (e.1, x)

/-- A double-word load of cached memory has one word in the store buffer but not both wholly inside entries: it waits
for the drain (R204, R206). -/
def halfForwarded (s : State) (c : CoreId) (a : Access) (ps : List (Ref × Xlate)) : Bool :=
  match c, a.fin with
  | .app _, .load _ .dword _ _ =>
    let hit (e : Ref × Xlate) : Option SbEntry := youngest (s.core c).storeBuffer e.2.pa
    ps.any (fun e => (hit e).isSome) && !ps.all fun e => (hit e).any (forwards a e.1)
  | _, _ => false

/-- The first thing an access waits for. -/
def firstNeed (s : State) (c : CoreId) (a : Access) (ps : List (Ref × Xlate)) : Need :=
  if halfForwarded s c a ps then .drain true
  else (((ps.map fun e => needOf s c a e.1 e.2).find? fun n => n ≠ .ready)).getD .ready

/-- An uncached read of this agent is open for a line. -/
def ncOpen (s : State) (ag l : Nat) : Bool :=
  (s.coh.net.any fun m => m.agent = ag && m.line = l && (m.type = .RdNC || (m.type = .Data && m.req = .RdNC))) ||
  (s.coh.waitq.any fun m => m.agent = ag && m.line = l && m.type = .RdNC) ||
  ((s.coh.refused ++ s.coh.retries).any fun m => m.agent = ag && m.line = l && m.type = .RdNC) ||
  (s.coh.txns.any fun t => t.req.agent = ag && t.req.line = l && t.req.type = .RdNC)

/-- The core waits with its access. -/
def waitAccess (s : State) (c : CoreId) (a : Access) (blocked : Bool) : State :=
  s.modCore c fun k => { k with waiting := some (.access { a with blocked := blocked }) }

/-- Asks for what an access needs, and waits. -/
def askFor (s : State) (c : CoreId) (a : Access) (ps : List (Ref × Xlate)) (first : Bool) (n : Need) : State :=
  let ag := coreNum c
  match n with
  | .line l x =>
    let near := a.refs.any (·.op.isAtomic)
    waitAccess (requestLine s ag l x) c { a with asked := if near then some l else none } false
  | .uncached l =>
    waitAccess (if ncOpen s ag l || lineEvicting s ag l then s else send s { mkMsg .RdNC ag l with twin := isTwin s (8 * l) }) c a false
  | .drain o => waitAccess (if first && o then noteEvent s c 0x1A else s) c a false
  | .aperture =>
    let words := (ps.filter fun e => needOf s c a e.1 e.2 = .aperture).map fun e => e.2.pa
    let sent := (words[0]?.bind (apertureByte s)).map fun b => (b, 6 * words.length)
    let s := { s with io := { s.io with pcieReads := s.io.pcieReads ++ sent.toList } }
    (count s 60 0x81).modCore c fun k => { k with waiting := some (.aperture a words) }
  | _ => waitAccess s c a false

/-! ## Performing an access -/

/-- What a reference read: the word, its poison, a twin mismatch, and where. -/
structure Got where
  val : Word
  poison : Bool
  mismatch : Bool
  pa : Nat
deriving DecidableEq, Repr

def gotWord (v : Word) : Got := ⟨v, false, false, 0⟩

/-- The outcome of one reference. -/
inductive Did where
  | ok (s : State) (g : Got)
  | fault (s : State) (e : Exc)
  | far (s : State)

/-- The bad word that an access may not consume: its fault (R276, R277). -/
def wordFault (g : Got) (write : Bool) : Option Exc :=
  if g.mismatch then some (exc 0x18 0 (w48 g.pa) write)
  else if g.poison then some (exc 0x19 0 (w48 g.pa) write) else none

/-- A store enters the store buffer of an application core (R202, R203). -/
def enterBuffer (s : State) (c : CoreId) (a : Access) (r : Ref) (x : Xlate) (v m : Word) : State :=
  s.modCore c fun k =>
    let low := (a.refs.head?.any fun q => decide (q = r)) && decide (a.refs.length = 2) && decide (r.elem = .dword)
    { k with storeBuffer := k.storeBuffer ++ [⟨x.pa, v, m, x.type, false, low, k.status, k.vmid⟩] }

/-- A DRAM reference (R168, R170 to R172, R200, R202, R205, R400, R401, R434). -/
def doMemory (s : State) (c : CoreId) (a : Access) (r : Ref) (x : Xlate) : Did :=
  let ag := coreNum c
  let l := dataLine s (x.pa / 8)
  match r.op with
  | .read =>
    match youngest (s.core c).storeBuffer x.pa, sget a.got x.pa with
    | some e, _ => .ok s (gotWord e.data)
    | none, some (v, p) => .ok s ⟨v, p, false, x.pa⟩
    | none, none =>
      let (v, p, m) := cachedWord s ag x.pa
      .ok (touchL1 s ag l .l1d) ⟨v, p, m, x.pa⟩
  | .write v m =>
    if m ≠ 0xFFFFFFFFFFFF && pairBad s c x.pa then .fault s (exc 0x18 0 (w48 x.pa) true)
    else
      match c with
      | .app _ => .ok (enterBuffer s c a r x v m) (gotWord 0)
      | _ => .ok (cacheStore s ag x.pa v m) (gotWord 0)
  | .atomic op gb gc plc =>
    if runsFar s c plc l x.type then
      let opn := match op with
        | .add => 0
        | .swap => 1
        | .cas => 2
        | .or => 3
        | .and => 4
      let s := send (noteEvent s c 0x1D)
        { mkMsg .AtomF ag l with twin := isTwin s (8 * l), op := opn, widx := x.pa % 8, word := gb, word2 := gc }
      .far (s.modCore c fun k => { k with waiting := some (.atomicDone a x.pa) })
    else
      let (v, p, m) := cachedWord s ag x.pa
      match wordFault ⟨v, p, m, x.pa⟩ true with
      | some e => .fault s e
      | none =>
        let s := trainAtomic (noteEvent (cacheStore s ag x.pa (atomicNew op v gb gc) 0xFFFFFFFFFFFF) c 0x1C) c l a.contended
        .ok s (gotWord v)

/-- A Sorus reference (R171, R172, R514 to R518, R594). -/
def doSorus (s : State) (p : SorusPlace) (r : Ref) (pa : Nat) : Did :=
  match r.op with
  | .read =>
    let (w, s) := sorusLoad s p
    .ok s ⟨w.data, w.poison, w.mismatch, pa⟩
  | .write v m =>
    match sorusStore s p v m with
    | .done s => .ok (reportStore s (placeKey p)) (gotWord 0)
    | .poisoned s => .fault s (exc 0x19 0 (w48 pa) true)
    | .mismatched s => .fault s (exc 0x18 0 (w48 pa) true)
  | .atomic op gb gc _ =>
    let (w, s) := sorusLoad s p
    match wordFault ⟨w.data, w.poison, w.mismatch, pa⟩ true with
    | some e => .fault s e
    | none => .ok (reportStore (sorusWriteWord s (placeKey p) (atomicNew op w.data gb gc) false) (placeKey p)) (gotWord w.data)

/-- The bridge ends an access that its block does not answer: the event is logged and counted, a read gets zero and a
write is dropped (R314, R713). -/
def timeoutAccess (s : State) (rq : Requester) (a : Nat) : State :=
  count (logFault s 0x17 (rqNum rq) 0 (w48 a) 0) 63 0x0B1

/-- A store to Sorus memory that reads the old word, through an alias or of a part of it, and finds it bad (R514, R518). -/
def sorusBad (s : State) (p : SorusPlace) (m : Word) : Bool :=
  let r := (sorusReadKey s (placeKey p)).1
  match p with
  | .priv _ _ => m ≠ 0xFFFFFFFFFFFF && r.mismatch
  | .shared al _ => (al ≠ 0 || m ≠ 0xFFFFFFFFFFFF) && (r.mismatch || (al ≠ 0 && r.poison))

/-- A store of the buffer faults before it enters: a Sorus word that it cannot build on (R211, R276). One that goes bad while
the store waits stops the store when it drains, and no instruction. DESIGN CHOICE, log entry 178. -/
def postedBad (s : State) (c : CoreId) (op : RefOp) (pa : Nat) : Option SorusPlace :=
  match wayOf s c op pa, op with
  | .sorus p, .write _ m => if !clockStopped s 24 && sorusBad s p m then some p else none
  | _, _ => none

/-- Performs one reference. -/
def doRef (s : State) (c : CoreId) (a : Access) (r : Ref) (x : Xlate) : Did :=
  match posted c a r x, r.op, postedBad s c r.op x.pa with
  | true, .write v m, none => .ok (enterBuffer s c a r x v m) (gotWord 0)
  | _, _, _ =>
  match wayOf s c r.op x.pa with
  | .refused cause w => .ok (violation s cause (coreNum c) (s.core c).pl r.op.writes w) (gotWord 0)
  | .register =>
    if a.silent then .ok (timeoutAccess s (.core c) x.pa) (gotWord 0)
    else match r.op with
    | .write v _ => .ok (regWrite s (.core c) x.pa v) (gotWord 0)
    | _ =>
      let (v, s) := regRead s (.core c) x.pa
      .ok s (gotWord v)
  | .aperture b =>
    match r.op with
    | .write v _ => .ok (apertureWrite s b [v]) (gotWord 0)
    | _ => .ok s (gotWord ((sget a.got x.pa).map (·.1) |>.getD 0))
  | .sorus p => doSorus s p r x.pa
  | .rom => .ok s (gotWord (Config.bootRom (x.pa - 0x830000000)))
  | .nor => .ok s (gotWord (norWindow s x.pa))
  | .memory => doMemory s c a r x

/-- Performs the references in order; a refused one reads zero and is logged with cause 3 (R494). -/
def doRefs (s : State) (c : CoreId) (a : Access) : List (Ref × Option Xlate) → List Got → Did ⊕ (State × List Got)
  | [], gs => .inr (s, gs)
  | (r, none) :: t, gs =>
    doRefs (violation s 3 (coreNum c) (s.core c).pl r.op.writes r.va.toNat) c a t (gs ++ [gotWord 0])
  | (r, some x) :: t, gs =>
    match doRef s c a r x with
    | .ok s g => doRefs s c a t (gs ++ [g])
    | d => .inl d

/-- A double-word write through the aperture is one memory write of 12 bytes (R649). -/
def aperturePair (s : State) (c : CoreId) (a : Access) (xs : List (Option Xlate)) : Option State :=
  match a.refs, xs with
  | [r1, r2], [some x1, some x2] =>
    if posted c a r1 x1 then none
    else match r1.op, r2.op, wayOf s c r1.op x1.pa, wayOf s c r2.op x2.pa with
    | .write v1 _, .write v2 _, .aperture b, .aperture _ => some (apertureWrite s b [v1, v2])
    | _, _, _, _ => none
  | _, _ => none

/-! ## The end of an access -/

/-- The delay slot of a branch that has executed (R225, R230). -/
def Core.slotFor (k : Core) (c : CoreId) (len : Nat) (taken annul : Bool) (target : Word) (kind : Nat) : Slot where
  branchPc := k.pc
  slotPc := pcOf c (k.pc + w48 len)
  taken := taken
  target := pcOf c target
  annulled := annul && !taken
  undoReg := none
  undoRsp := k.rsp
  undoRss := k.rss
  cond := false
  hint := false
  kind := kind
  retAddr := 0

/-- The core goes on to the delay slot. -/
def Core.toSlot (k : Core) (b : Slot) : Core := { k with slot := some b, pc := b.slotPc, waiting := none }

/-- What the words read by an access do (R92, R94, R116, R119, R160, R167). -/
def finishAccess (s : State) (c : CoreId) (a : Access) (gs : List Got) : Body :=
  let v (i : Nat) : Word := (gs.getD i (gotWord 0)).val
  match a.fin with
  | .load gd .dword _ _ => .done (s.modCore c fun k => (k.setReg gd (v 0)).setReg (pairHi gd) (v 1))
  | .load gd sz sel sx => .done (s.modCore c fun k => k.setReg gd (loadElem (v 0) sz sel sx))
  | .store => .done s
  | .push => .done (s.modCore c fun k => k.setReg 31 (k.reg 31 - 1))
  | .pop gd => .done (s.modCore c fun k => (k.setReg 31 (k.reg 31 + 1)).setReg gd (v 0))
  | .atomic gd => .done (s.modCore c fun k => k.setReg gd (v 0))
  | .drop => .stay s
  | .call target kind ret =>
    .stay (s.modCore c fun k =>
      let b := { k.slotFor c a.len true false target kind with retAddr := ret }
      { k.toSlot b with rsp := k.rsp + 1, rss := if k.gx then k.rss + 1 else k.rss })
  | .ret =>
    .stay (s.modCore c fun k =>
      let b := k.slotFor c a.len true false (v 0) 2
      { k.toSlot b with rsp := k.rsp - 1, rss := if k.gx then k.rss - 1 else k.rss })

/-- The fault of the words an access read: the shadow mismatch, then twin mismatch, then poison (R167, R276). -/
def readFault (s : State) (c : CoreId) (a : Access) (gs : List Got) : Option Exc :=
  let v (i : Nat) : Word := (gs.getD i (gotWord 0)).val
  let shadow := match a.fin with
    | .ret => (s.core c).gx && v 0 ≠ v 1
    | _ => false
  if shadow then some (exc 0x05 2 ((s.core c).rsp - 1))
  else
    match gs.find? (·.mismatch) with
    | some g => some (exc 0x18 0 (w48 g.pa))
    | none =>
      match gs.find? (·.poison) with
      | some g => some (exc 0x19 0 (w48 g.pa))
      | none => none

/-- What an access finds where a part of a word is stored or an atomic acts: a DRAM word as its core or its home slice
holds it, or a Sorus word; nothing is moved. -/
def foundWord (s : State) (c : CoreId) (e : Ref × Xlate) : Option Got :=
  let pa := e.2.pa
  match wayOf s c e.1.op pa, e.1.op with
  | .memory, .atomic _ _ _ plc =>
    let l := dataLine s (pa / 8)
    if runsFar s c plc l e.2.type then
      let d := lineValue s l
      some ⟨(d.getD (pa % 8) (0, false)).1, (d.getD (pa % 8) (0, false)).2, pairMismatch d (pa % 8), pa⟩
    else
      let (v, p, m) := cachedWord s (coreNum c) pa
      some ⟨v, p, m, pa⟩
  | .memory, .write _ m => if m ≠ 0xFFFFFFFFFFFF && pairBad s c pa then some ⟨0, false, true, pa⟩ else none
  | .sorus p, .atomic _ _ _ _ =>
    let r := (sorusReadKey s (placeKey p)).1
    some ⟨r.data, r.poison, r.mismatch, pa⟩
  | .sorus p, .write _ m =>
    let r := (sorusReadKey s (placeKey p)).1
    let plain := match p with
      | .priv _ _ => true
      | .shared al _ => al = 0
    if plain && m = 0xFFFFFFFFFFFF then none
    else some ⟨r.data, r.poison && !plain, r.mismatch, pa⟩
  | _, _ => none

/-- The access meets a bad word and so writes nothing (R172, R434, R514, R518). -/
def meetsBad (s : State) (c : CoreId) (ps : List (Ref × Xlate)) : Bool :=
  ps.any fun e => ((foundWord s c e).bind fun g => wordFault g true).isSome

/-- The D updates of the writes (R343, R344): `prev` is the translation before, since two words of one page take one. -/
def dirtyAll (s : State) (c : CoreId) (prev : Option Xlate) : List (Ref × Xlate) → Walked
  | [] => .ok s ⟨0, .writeBack, none, none, []⟩
  | (r, x) :: t =>
    if prev.any fun y => y.s1 = x.s1 && y.s2 = x.s2 then dirtyAll s c prev t
    else match setDirty s c r.va r.kind x with
    | .ok s _ => dirtyAll s c (some x) t
    | o => o

/-- The D updates of an access before its effect. The one that a stage-2 leaf forbids is a stage-2 permission fault, ahead
of a fault of the words (R276, R343); an instruction that a bad word will stop updates nothing; and nothing is written
unless every leaf stands as it was read (R344). -/
def dirtyStep (s : State) (c : CoreId) (ps : List (Ref × Xlate)) : Walked :=
  match c with
  | .app _ =>
    match ps.findSome? fun e => dirtyFault s c e.1.kind e.2 with
    | some e => .fault s e false
    | none =>
      if meetsBad s c ps then .ok s ⟨0, .writeBack, none, none, []⟩
      else match ps.find? fun e => !leavesStand s e.1.kind e.2 with
        | some e => .again (dropPage s c e.1.va)
        | none => dirtyAll s c none ps
  | _ => .ok s ⟨0, .writeBack, none, none, []⟩

/-- Performs an access whose needs are met. -/
def commitAccess (s : State) (c : CoreId) (a : Access) (xs : List (Option Xlate)) : Body :=
  match aperturePair s c a xs with
  | some s => finishAccess s c a []
  | none =>
    match doRefs s c a (a.refs.zip xs) [] with
    | .inl (.fault s e) => .fault s e
    | .inl (.far s) => .stay s
    | .inl (.ok s _) => .stay s
    | .inr (s, gs) =>
      match readFault s c a gs with
      | some e => .fault s e
      | none => finishAccess s c a gs

/-- A Frond or Medulla core performs the first word of a split store while the second waits for its line (R210, R395). -/
def splitStore (s : State) (c : CoreId) (a : Access) (ps : List (Ref × Xlate)) : Option (State × Access × List (Ref × Xlate)) :=
  match c, a.refs, ps with
  | .app _, _, _ => none
  | _, [r1, r2], [e1, e2] =>
    if (a.fin = .store || (a.fin = .drop && r1.op.writes)) && r1.elem = .dword && needOf s c a e1.1 e1.2 = .ready then
      match doRef s c a e1.1 e1.2 with
      | .ok s _ => some (s, { a with refs := [r2] }, [e2])
      | _ => none
    else none
  | _, _, _ => none

/-- What an access does when something of it has to wait. A miss of a new frame waits until what the abandoned frame left
in flight has completed (R475). -/
def waitFor (s : State) (c : CoreId) (a : Access) (ps : List (Ref × Xlate)) (first : Bool) (need : Need) : State :=
  if !(s.core c).abandoned.isEmpty then waitAccess s c a false
  else match splitStore s c a ps with
  | some (s, a, ps) => askFor s c a ps first (firstNeed s c a ps)
  | none => askFor s c a ps first need

/-- An access of a core's instruction: windows, translation, alignment, translation faults, then what it waits for, D
updates and the faults of its words, and its effect (R211, R276, R494). -/
def performAccess (s : State) (c : CoreId) (a : Access) (first : Bool) : Nat → Body
  | 0 => .stay (waitAccess s c a true)
  | n + 1 =>
    let drops := windowRefused s c a
    if a.fin.together && drops.any id then
      let va := ((a.refs.find? fun r => match c with
        | .frond i => !frondPermits s i.val r.va.toNat r.op.reads r.op.writes
        | _ => false).map fun r => r.va.toNat).getD 0
      finishAccess (violation s 3 (coreNum c) (s.core c).pl (a.refs.any fun r => r.op.writes) va) c a []
    else
      let (xr, s, busy) := xlateRefs s c (a.refs.zip drops)
      if busy then .stay (waitAccess s c a true)
      else match alignFault a.refs xr with
        | some e => .fault s e
        | none =>
          match firstFault (xlateFaults xr) with
          | some e => .fault s e
          | none =>
            let xs := xlateOk xr
            let ps := livePairs a.refs xs
            match bankRefused s c a ps with
            | some w => finishAccess (violation s 8 (coreNum c) (s.core c).pl (a.refs.any fun r => r.op.writes) w) c a []
            | none =>
            match firstNeed s c a ps with
            | .ready =>
              match dirtyStep s c ps with
              | .fault s e _ => .fault s e
              | .wait s => .stay (waitAccess s c a true)
              | .again s => performAccess s c a first n
              | .ok s _ => commitAccess s c a xs
            | need => .stay (waitFor s c a ps first need)

/-- The access of an instruction as it issues. -/
def startAccess (s : State) (c : CoreId) (a : Access) : Body := performAccess s c a true 3

/-- The state an access of an abandoned frame leaves: a fault of it reaches no instruction (R475). -/
def Body.dropped (c : CoreId) : Body → State
  | .done t => t
  | .stay t => t
  | .fault t _ => t.modCore c fun k => { k with waiting := none }

/-- Access n of those that abandoned frames left in flight is tried again, after the older ones alone: it uses the core's way
of waiting and gives it back (R475). -/
def retryAbandoned (s : State) (c : CoreId) (n : Nat) (run : State → Body) : State :=
  let k := s.core c
  let t := (run (s.modCore c fun x => { x with waiting := none, abandoned := k.abandoned.take n })).dropped c
  t.modCore c fun x => { x with
    abandoned := k.abandoned.take n ++ x.waiting.toList ++ k.abandoned.drop (n + 1), waiting := k.waiting }

/-- A waiting access of the core's instruction is tried again. -/
def retryWaiting (s : State) (c : CoreId) : State :=
  match (s.core c).waiting with
  | some (.access a) =>
    settle c a.len (performAccess (s.modCore c fun k => { k with waiting := none }) c a false 3)
  | _ => s

/-- What abandoned frames left in flight is tried again, from access n on, the oldest first. -/
def retryOlder (s : State) (c : CoreId) (n : Nat) : Nat → State
  | 0 => s
  | f + 1 =>
    match (s.core c).abandoned[n]? with
    | none => s
    | some (.access a) =>
      let t := retryAbandoned s c n fun s => performAccess s c a false 3
      retryOlder t c (if (t.core c).abandoned.length < (s.core c).abandoned.length then n else n + 1) f
    | some _ => retryOlder s c (n + 1) f

/-- Waiting accesses of a core are tried again: first what abandoned frames left. -/
def retryCore (s : State) (c : CoreId) : State := retryWaiting (retryOlder s c 0 (s.core c).abandoned.length) c

/-- Accesses whose walk waits for a busy line are tried again. -/
def retryBlocked (s : State) : State :=
  (upto 33).foldl (fun s n => match coreOfAgent n with
    | some c =>
      let blocked (w : Waiting) : Bool := match w with
        | .access a => a.blocked
        | _ => false
      if (s.core c).waiting.any blocked || (s.core c).abandoned.any blocked then retryCore s c else s
    | none => s) s

/-- What a far atomic comes to when its old value has come back (R172, R401, R403). -/
def atomicBody (s : State) (c : CoreId) (a : Access) (pa : Nat) (m : Msg) : Body :=
  if m.fail = 1 then .fault s (exc 0x19 0 (w48 pa) true)
  else if m.fail = 2 then .fault s (exc 0x18 0 (w48 pa) true)
  else finishAccess (trainAtomic s c m.line m.c) c a [gotWord m.word]

/-- The oldest access that an abandoned frame left in flight of a kind, and its place. -/
def findOlder {α : Type} (k : Core) (f : Waiting → Option α) : Option (Nat × α) :=
  k.abandoned.zipIdx.findSome? fun e => (f e.1).map fun a => (e.2, a)

/-- A far atomic in flight. -/
def Waiting.farAtomic : Waiting → Option (Access × Nat)
  | .atomicDone a pa => some (a, pa)
  | _ => none

/-- A far atomic has completed with its old value. -/
def atomicDone (s : State) (c : CoreId) (m : Msg) : State :=
  match findOlder (s.core c) Waiting.farAtomic, (s.core c).waiting with
  | some (n, a, pa), _ => retryCore (retryAbandoned s c n fun s => atomicBody s c a pa m) c
  | none, some (.atomicDone a pa) =>
    settle c a.len (atomicBody (s.modCore c fun k => { k with waiting := none }) c a pa m)
  | none, _ => s

/-! ## The accesses of the instructions -/

/-- A load of words from an address (R115). -/
def loadAccess (len : Nat) (a : Word) (sz : Size) (fin : Finish) : Access :=
  let one (v : Word) : Ref := ⟨v, 1, .read, sz⟩
  ⟨if sz = .dword then [one a, one (a + 1)] else [one a], len, fin, [], false, none, false, false⟩

/-- A store (R115, R120): the low word, and for a double-word the high word. -/
def storeAccess (len : Nat) (a lo hi : Word) (sz : Size) (sel : Nat) (fin : Finish) : Access :=
  let m := storeMask sz sel
  if sz = .dword then ⟨[⟨a, 2, .write lo m, sz⟩, ⟨a + 1, 2, .write hi m, sz⟩], len, fin, [], false, none, false, false⟩
  else ⟨[⟨a, 2, .write (storeData lo sz sel) m, sz⟩], len, fin, [], false, none, false, false⟩

/-- A word access of the return stack (R164, R165, R348). -/
def stackRef (a : Word) (kind : Nat) (op : RefOp) : Ref := ⟨a, kind, op, .word⟩

end Sys2Proof.Machine
end

