-- ==== Sys2Proof/Machine/Control.lean ====
section
/-! DEFINITION. Branches, jumps, calls, returns, loops, the return-stack store and the atomic instructions (R152 to
R174, R225 to R237). A branch leaves its delay slot pending in the core; the pair completes with the slot. -/

namespace Sys2Proof.Machine

open Sys2Proof

/-- An instruction that R228 forbids in a delay slot. -/
def transfer (f : Form) : Shape := { plain f with noSlot := true }

/-! ## Branches (R225 to R237) -/

/-- A conditional branch on the core's registers (R226, R227, R234, R238). -/
def condBranch (s : State) (c : CoreId) (f : Form) (take : Core → Bool) (off : Word) (a h : Bool) : State :=
  runInstr s c (transfer f) fun t => .stay (t.modCore c fun k =>
    k.toSlot { k.slotFor c (formLen f) (take k) a (k.pc + off) 0 with cond := true, hint := h })

/-- A branch on a register against zero (R235). -/
def branchZ (s : State) (c : CoreId) (f : Form) (ga : Reg) (off : BitVec 31) (a h : Bool) (n : Nat) : State :=
  condBranch s c f (fun k => condZ n (k.reg ga)) (off.signExtend 48) a h

/-- A branch on two registers (R235). -/
def branchR (s : State) (c : CoreId) (ga gb : Reg) (off : BitVec 25) (a h : Bool) (n : Nat) : State :=
  condBranch s c .long (fun k => condR n (k.reg ga) (k.reg gb)) (off.signExtend 48) a h

/-- DBNZ and DBGZ: ga counts down whether or not the branch is taken; g0 is illegal (R230, R236). -/
def countBranch (s : State) (c : CoreId) (ga : Reg) (off : BitVec 7) (a h : Bool) (take : Word → Bool) : State :=
  runInstr s c { transfer .short with bad := if ga = 0 then some 1 else none } fun t =>
    .stay (t.modCore c fun k =>
      let v := k.reg ga - 1
      let b := k.slotFor c 1 (take v) a (k.pc + off.signExtend 48) 0
      (k.setReg ga v).toSlot { b with cond := true, hint := h, undoReg := some (ga, k.reg ga) })

/-- An unconditional jump to a computed PC: kind 0 direct, 3 indirect (R225, R237, R239). -/
def jumpTo (s : State) (c : CoreId) (target : Core → Word) (kind : Nat) : State :=
  runInstr s c (transfer .long) fun t => .stay (t.modCore c fun k =>
    k.toSlot (k.slotFor c 2 true false (target k) kind))

/-- The PC after the delay slot of a CALL: a slot in half 1 is one half-word long (R96, R160). -/
def Core.returnPc (k : Core) (c : CoreId) (f slot : Form) : Word :=
  let p := pcOf c (k.pc + w48 (formLen f))
  pcOf c (p + w48 (if bit p 0 then 1 else formLen slot))

/-- CALL and CALLR (R160 to R167): the bound check, the stores to the return stack and, guarded, to the shadow stack,
then the branch. -/
def callTo (s : State) (c : CoreId) (f : Form) (target : Core → Word) (kind : Nat) (slot : Form) : State :=
  runInstr s c (transfer f) fun t =>
    let k := t.core c
    if k.rshi.toNat ≤ k.rsp.toNat then .fault t (exc 0x05 1 k.rsp)
    else
      let r := k.returnPc c f slot
      let push (a : Word) : Ref := stackRef a 4 (.write r 0xFFFFFFFFFFFF)
      startAccess t c ⟨if k.gx then [push k.rsp, push k.rss] else [push k.rsp], formLen f,
        .call (target k) kind r, [], false, none, false, false⟩

/-- RET (R160 to R167). -/
def execRet (c : CoreId) (f : Form) (s : State) : Host.Outcome State Fault Refusal :=
  .next (runInstr s c (transfer f) fun t =>
    let k := t.core c
    if k.rsp.toNat ≤ k.rslo.toNat then .fault t (exc 0x05 1 (k.rsp - 1))
    else
      let pop (a : Word) : Ref := stackRef (a - 1) 5 .read
      startAccess t c ⟨if k.gx then [pop k.rsp, pop k.rss] else [pop k.rsp], formLen f, .ret, [], false, none, false, false⟩)

/-- EQZ (R234, R235). -/
def execEqz (c : CoreId) (f : Form) (ga : Reg) (off : BitVec 31) (a h : Bool) (s : State) : Host.Outcome State Fault Refusal :=
  .next (branchZ s c f ga off a h 0)

/-- NEZ (R234, R235). -/
def execNez (c : CoreId) (f : Form) (ga : Reg) (off : BitVec 31) (a h : Bool) (s : State) : Host.Outcome State Fault Refusal :=
  .next (branchZ s c f ga off a h 1)

/-- LTZ (R234, R235). -/
def execLtz (c : CoreId) (f : Form) (ga : Reg) (off : BitVec 31) (a h : Bool) (s : State) : Host.Outcome State Fault Refusal :=
  .next (branchZ s c f ga off a h 2)

/-- GEZ (R234, R235). -/
def execGez (c : CoreId) (f : Form) (ga : Reg) (off : BitVec 31) (a h : Bool) (s : State) : Host.Outcome State Fault Refusal :=
  .next (branchZ s c f ga off a h 3)

/-- LEZ (R234, R235). -/
def execLez (c : CoreId) (f : Form) (ga : Reg) (off : BitVec 31) (a h : Bool) (s : State) : Host.Outcome State Fault Refusal :=
  .next (branchZ s c f ga off a h 4)

/-- GTZ (R234, R235). -/
def execGtz (c : CoreId) (f : Form) (ga : Reg) (off : BitVec 31) (a h : Bool) (s : State) : Host.Outcome State Fault Refusal :=
  .next (branchZ s c f ga off a h 5)

/-- BODD (R234, R235). -/
def execBodd (c : CoreId) (f : Form) (ga : Reg) (off : BitVec 31) (a h : Bool) (s : State) : Host.Outcome State Fault Refusal :=
  .next (branchZ s c f ga off a h 6)

/-- BEVN (R234, R235). -/
def execBevn (c : CoreId) (f : Form) (ga : Reg) (off : BitVec 31) (a h : Bool) (s : State) : Host.Outcome State Fault Refusal :=
  .next (branchZ s c f ga off a h 7)

/-- BEQ (R234, R235). -/
def execBeq (c : CoreId) (ga gb : Reg) (off : BitVec 25) (a h : Bool) (s : State) : Host.Outcome State Fault Refusal :=
  .next (branchR s c ga gb off a h 0)

/-- BNE (R234, R235). -/
def execBne (c : CoreId) (ga gb : Reg) (off : BitVec 25) (a h : Bool) (s : State) : Host.Outcome State Fault Refusal :=
  .next (branchR s c ga gb off a h 1)

/-- BLT (R234, R235). -/
def execBlt (c : CoreId) (ga gb : Reg) (off : BitVec 25) (a h : Bool) (s : State) : Host.Outcome State Fault Refusal :=
  .next (branchR s c ga gb off a h 2)

/-- BGE (R234, R235). -/
def execBge (c : CoreId) (ga gb : Reg) (off : BitVec 25) (a h : Bool) (s : State) : Host.Outcome State Fault Refusal :=
  .next (branchR s c ga gb off a h 3)

/-- BLTU (R234, R235). -/
def execBltu (c : CoreId) (ga gb : Reg) (off : BitVec 25) (a h : Bool) (s : State) : Host.Outcome State Fault Refusal :=
  .next (branchR s c ga gb off a h 4)

/-- BGEU (R234, R235). -/
def execBgeu (c : CoreId) (ga gb : Reg) (off : BitVec 25) (a h : Bool) (s : State) : Host.Outcome State Fault Refusal :=
  .next (branchR s c ga gb off a h 5)

/-- BANY (R234, R235). -/
def execBany (c : CoreId) (ga gb : Reg) (off : BitVec 25) (a h : Bool) (s : State) : Host.Outcome State Fault Refusal :=
  .next (branchR s c ga gb off a h 6)

/-- BNONE (R234, R235). -/
def execBnone (c : CoreId) (ga gb : Reg) (off : BitVec 25) (a h : Bool) (s : State) : Host.Outcome State Fault Refusal :=
  .next (branchR s c ga gb off a h 7)

/-- DBNZ (R236). -/
def execDbnz (c : CoreId) (ga : Reg) (off : BitVec 7) (a h : Bool) (s : State) : Host.Outcome State Fault Refusal :=
  .next (countBranch s c ga off a h fun v => v ≠ 0)

/-- DBGZ (R236). -/
def execDbgz (c : CoreId) (ga : Reg) (off : BitVec 7) (a h : Bool) (s : State) : Host.Outcome State Fault Refusal :=
  .next (countBranch s c ga off a h fun v => decide (0 < v.toInt))

/-- J (R234). -/
def execJ (c : CoreId) (off : BitVec 36) (s : State) : Host.Outcome State Fault Refusal :=
  .next (jumpTo s c (fun k => k.pc + off.signExtend 48) 0)

/-- JR (R237). -/
def execJr (c : CoreId) (ga : Reg) (s : State) : Host.Outcome State Fault Refusal :=
  .next (jumpTo s c (fun k => k.reg ga) 3)

/-- CALL (R160, R163, R234). -/
def execCall (c : CoreId) (f : Form) (off : BitVec 36) (slot : Form) (s : State) : Host.Outcome State Fault Refusal :=
  .next (callTo s c f (fun k => k.pc + off.signExtend 48) 1 slot)

/-- CALLR (R160, R163, R237). -/
def execCallr (c : CoreId) (f : Form) (ga : Reg) (slot : Form) (s : State) : Host.Outcome State Fault Refusal :=
  .next (callTo s c f (fun k => k.reg ga) 4 slot)

/-! ## Loops (R154, R155) -/

/-- LOOP (R154, R155, R276). -/
def execLoop (c : CoreId) (ga : Reg) (off : BitVec 31) (s : State) : Host.Outcome State Fault Refusal :=
  .next (runInstr s c { transfer .long with bad := if off.toInt < 3 then some 1 else none } fun t =>
    let k := t.core c
    let e := k.pc + off.signExtend 48
    if k.depth = 3 then .fault t (exc 0x04 0)
    else if k.reg ga = 0 then .stay (completeAt t c e)
    else
      let n := k.depth
      .done (t.setCore c { k with
        ls := k.ls.set (lvl n) (k.pc + 2)
        le := k.le.set (lvl n) e
        lc := k.lc.set (lvl n) (k.reg ga)
        lctl := setFld (setFld k.lctl (9 + 2 * n) (8 + 2 * n) k.pl) 1 0 (n + 1) }))

/-- LPOP (R154, R155). -/
def execLpop (c : CoreId) (s : State) : Host.Outcome State Fault Refusal :=
  .next (runInstr s c (transfer .long) fun t => .done (t.modCore c fun k =>
    if k.depth = 0 then k
    else
      let n := k.depth - 1
      if k.own n ≤ k.pl then { k with lc := k.lc.set (lvl n) 0, lctl := setFld k.lctl 1 0 n } else k))

/-! ## The return-stack store and the atomic instructions (R165, R168 to R174) -/

/-- RSW (R165). -/
def execRsw (c : CoreId) (ga gb : Reg) (s : State) : Host.Outcome State Fault Refusal :=
  .next (runInstr s c { plain .long with level := 1 } fun t =>
    let k := t.core c
    startAccess t c ⟨[stackRef (k.reg ga) 6 (.write (k.reg gb) 0xFFFFFFFFFFFF)], 2, .store, [], false, none, false, false⟩)

/-- An atomic instruction (R168, R170); placement 3 is illegal. -/
def atomicInstr (s : State) (c : CoreId) (op : AtomicOp) (plc : BitVec 2) (gd ga gb gc : Reg) : State :=
  runInstr s c { plain .long with bad := if plc = 3 then some 1 else none } fun t =>
    let k := t.core c
    startAccess t c ⟨[⟨k.reg ga, 3, .atomic op (k.reg gb) (k.reg gc) plc.toNat, .word⟩], 2, .atomic gd, [], false, none, false, false⟩

/-- AADD (R168). -/
def execAadd (c : CoreId) (plc : BitVec 2) (gd ga gb : Reg) (s : State) : Host.Outcome State Fault Refusal :=
  .next (atomicInstr s c .add plc gd ga gb 0)

/-- ASWP (R168). -/
def execAswp (c : CoreId) (plc : BitVec 2) (gd ga gb : Reg) (s : State) : Host.Outcome State Fault Refusal :=
  .next (atomicInstr s c .swap plc gd ga gb 0)

/-- AOR (R168). -/
def execAor (c : CoreId) (plc : BitVec 2) (gd ga gb : Reg) (s : State) : Host.Outcome State Fault Refusal :=
  .next (atomicInstr s c .or plc gd ga gb 0)

/-- AAND (R168). -/
def execAand (c : CoreId) (plc : BitVec 2) (gd ga gb : Reg) (s : State) : Host.Outcome State Fault Refusal :=
  .next (atomicInstr s c .and plc gd ga gb 0)

/-- ACAS (R168). -/
def execAcas (c : CoreId) (plc : BitVec 2) (gd ga gb gc : Reg) (s : State) : Host.Outcome State Fault Refusal :=
  .next (atomicInstr s c .cas plc gd ga gb gc)

end Sys2Proof.Machine
end

