-- ==== Sys2Proof/Machine/Events.lean ====
section
/-! DEFINITION. Events that let a waiting access of a core go on: the sense writer, the ring engine's status words, and
the completions of the PCIe aperture (R39, R541, R583, R649). -/

namespace Sys2Proof.Machine

open Sys2Proof

/-- Frond cores whose load waited for a word that may now be written try it again (R39, R541). -/
def retryFrond (s : State) : State :=
  (upto 16).foldl (fun s i => retryCore s (frondId i)) s

/-- SENSE_WRITE (R39, R583). -/
def execSenseWrite (s : State) : Host.Outcome State Fault Refusal := .next (retryFrond (senseWrite s))

/-- RING_RX_AREA_STATUS (R541). -/
def execRingRxAreaStatus (s : State) : Host.Outcome State Fault Refusal := .next (retryFrond (areaWrite s))

/-- A read through the PCIe aperture in flight. -/
def Waiting.apertureRead : Waiting → Option (Access × List Nat)
  | .aperture a words => some (a, words)
  | _ => none

/-- An access with the words of its aperture read. -/
def Access.take (a : Access) (words : List Nat) (d : List Word) : Access :=
  { a with got := a.got ++ (words.zip d).map fun e => (e.1, e.2, false) }

/-- The words of an aperture read arrive, and its instruction, or what an abandoned frame left of it, goes on (R475,
R649). -/
def apertureDone (s : State) (c : CoreId) (d : List Word) : State :=
  match findOlder (s.core c) Waiting.apertureRead, (s.core c).waiting with
  | some (n, a, words), _ => retryCore (retryAbandoned s c n fun s => performAccess s c (a.take words d) false 3) c
  | none, some (.aperture a words) =>
    settle c a.len (performAccess (s.modCore c fun k => { k with waiting := none }) c (a.take words d) false 3)
  | none, _ => s

/-- The aperture read that a core waits for, or that an abandoned frame of it left in flight. -/
def apertureOpen (s : State) (c : CoreId) : Option (Access × List Nat) :=
  match findOlder (s.core c) Waiting.apertureRead with
  | some (_, x) => some x
  | none => (s.core c).waiting.bind Waiting.apertureRead

/-- The core waits for an aperture read. -/
def apertureWaits (s : State) (c : CoreId) : Bool := (apertureOpen s c).isSome

/-- The words that the aperture read of a core asked for. -/
def apertureWords (s : State) (c : CoreId) : Nat := ((apertureOpen s c).map fun x => x.2.length).getD 0

/-- PCIE_APERTURE_COMPLETION (R649): the payload counts as inbound (R719); an error delivers zero and sets UE. -/
def execPcieApertureCompletion (c : CoreId) (d0 d1 : Word) (err : Bool) (s : State) :
    Host.Outcome State Fault Refusal :=
  if !apertureWaits s c then .next s
  else
    let s := count s 60 0x80
    .next (if err then apertureDone (apertureError s) c [0, 0]
      else apertureDone (bwAdd s 32 (6 * apertureWords s c)) c [d0, d1])

/-- PCIE_APERTURE_TIMEOUT (R649): no completion within 50 ms. -/
def execPcieApertureTimeout (c : CoreId) (s : State) : Host.Outcome State Fault Refusal :=
  if !apertureWaits s c then .next s else .next (apertureDone (apertureError s) c [0, 0])

end Sys2Proof.Machine
end

