-- ==== Sys2Proof/Machine/Float.lean ====
section
/-! DEFINITION. The floating-point instructions (R86 to R90, R125 to R136). None raises an exception of its own; each
sets sticky flags of fcs. -/

namespace Sys2Proof.Machine

open Sys2Proof

/-- The floating-point group is in the profiles A and F (R136). -/
def fpShape (f : Form) : Shape := { plain f with held := fun p => p ≠ .M }

/-- An instruction that computes an encoding and flags from the core's registers (R87, R125, R127). -/
def fpOp (s : State) (c : CoreId) (d : Shape) (gd : Reg) (op : Core → Nat × Nat) : State :=
  runInstr s c d fun t => .done (t.modCore c fun k =>
    let r := op k
    { k.setReg gd (w48 r.1) with fcs := fcsOr k.fcs r.2 })

/-- An arithmetic operation of two values. -/
def fp2 (s : State) (c : CoreId) (d : Shape) (p : Prec) (gd ga gb : Reg) (op : Fmt → Nat → FVal → FVal → Nat × Nat) :
    State :=
  fpOp s c d gd fun k =>
    op (fmtOf p) (rmOf k.fcs) (unpack (fmtOf p) (fin p (k.reg ga))) (unpack (fmtOf p) (fin p (k.reg gb)))

/-- A fused operation (R129, R130). -/
def fp3 (s : State) (c : CoreId) (p : Prec) (gd ga gb gc : Reg) (negProduct negAddend : Bool) : State :=
  fpOp s c (fpShape .long) gd fun k =>
    let v (r : Reg) : FVal := unpack (fmtOf p) (fin p (k.reg r))
    fmaV (fmtOf p) (rmOf k.fcs) (if negProduct then (v ga).neg else v ga) (v gb) (if negAddend then (v gc).neg else v gc)

/-- An operation of two encodings (R131). -/
def fpEnc (s : State) (c : CoreId) (d : Shape) (p : Prec) (gd ga gb : Reg) (op : Fmt → Nat → Nat → Nat × Nat) : State :=
  fpOp s c d gd fun k => op (fmtOf p) (fin p (k.reg ga)) (fin p (k.reg gb))

/-- The sign bit of a format. -/
def signOf (p : Prec) : Nat := 2 ^ ((fmtOf p).width - 1)

/-- A conversion of one word to one word, by the rounding mode of fcs (R133, R134). -/
def fpConv (s : State) (c : CoreId) (gd ga : Reg) (op : Nat → Word → Nat × Nat) : State :=
  fpOp s c (fpShape .long) gd fun k => op (rmOf k.fcs) (k.reg ga)

/-- The result of a conversion to an integer, as an encoding. -/
def intResult (r : Word × Nat) : Nat × Nat := (r.1.toNat, r.2)

/-! ## Arithmetic (R130, R132) -/

/-- The short form of an arithmetic operation is F48 alone; of binary32 there is none (R102, R132). -/
def shortShape (f : Form) (p : Prec) : Shape :=
  { fpShape f with bad := if f = .short && p = .s32 then some 1 else none }

/-- FADD (R130, R132). -/
def execFadd (c : CoreId) (f : Form) (p : Prec) (gd ga gb : Reg) (s : State) : Host.Outcome State Fault Refusal :=
  .next (fp2 s c (shortShape f p) p gd ga gb addV)

/-- FSUB (R130, R132). -/
def execFsub (c : CoreId) (f : Form) (p : Prec) (gd ga gb : Reg) (s : State) : Host.Outcome State Fault Refusal :=
  .next (fp2 s c (shortShape f p) p gd ga gb fun m r a b => addV m r a b.neg)

/-- FMUL (R130, R132). -/
def execFmul (c : CoreId) (f : Form) (p : Prec) (gd ga gb : Reg) (s : State) : Host.Outcome State Fault Refusal :=
  .next (fp2 s c (shortShape f p) p gd ga gb mulV)

/-- FDIV (R130). -/
def execFdiv (c : CoreId) (p : Prec) (gd ga gb : Reg) (s : State) : Host.Outcome State Fault Refusal :=
  .next (fp2 s c (fpShape .long) p gd ga gb divV)

/-- FSQRT (R130). -/
def execFsqrt (c : CoreId) (p : Prec) (gd ga : Reg) (s : State) : Host.Outcome State Fault Refusal :=
  .next (fp2 s c (fpShape .long) p gd ga ga fun m r a _ => sqrtV m r a)

/-- FMA (R130): ga × gb + gc. -/
def execFma (c : CoreId) (p : Prec) (gd ga gb gc : Reg) (s : State) : Host.Outcome State Fault Refusal :=
  .next (fp3 s c p gd ga gb gc false false)

/-- FMS (R130): ga × gb − gc. -/
def execFms (c : CoreId) (p : Prec) (gd ga gb gc : Reg) (s : State) : Host.Outcome State Fault Refusal :=
  .next (fp3 s c p gd ga gb gc false true)

/-- FNMA (R130): −(ga × gb) + gc. -/
def execFnma (c : CoreId) (p : Prec) (gd ga gb gc : Reg) (s : State) : Host.Outcome State Fault Refusal :=
  .next (fp3 s c p gd ga gb gc true false)

/-- FMIN (R131, R132). -/
def execFmin (c : CoreId) (f : Form) (p : Prec) (gd ga gb : Reg) (s : State) : Host.Outcome State Fault Refusal :=
  .next (fpEnc s c (shortShape f p) p gd ga gb fun m x y => minMax m false x y)

/-- FMAX (R131). -/
def execFmax (c : CoreId) (p : Prec) (gd ga gb : Reg) (s : State) : Host.Outcome State Fault Refusal :=
  .next (fpEnc s c (fpShape .long) p gd ga gb fun m x y => minMax m true x y)

/-- FEQ (R131). -/
def execFeq (c : CoreId) (p : Prec) (gd ga gb : Reg) (s : State) : Host.Outcome State Fault Refusal :=
  .next (fpEnc s c (fpShape .long) p gd ga gb fun m x y => fcmp m 0 x y)

/-- FLT (R131). -/
def execFlt (c : CoreId) (p : Prec) (gd ga gb : Reg) (s : State) : Host.Outcome State Fault Refusal :=
  .next (fpEnc s c (fpShape .long) p gd ga gb fun m x y => fcmp m 1 x y)

/-- FLE (R131). -/
def execFle (c : CoreId) (p : Prec) (gd ga gb : Reg) (s : State) : Host.Outcome State Fault Refusal :=
  .next (fpEnc s c (fpShape .long) p gd ga gb fun m x y => fcmp m 2 x y)

/-- FCLASS (R130). -/
def execFclass (c : CoreId) (p : Prec) (gd ga : Reg) (s : State) : Host.Outcome State Fault Refusal :=
  .next (fpEnc s c (fpShape .long) p gd ga ga fun m x _ => (fclass m x, nvOf [unpack m x]))

/-- FNEG (R130): the sign bit inverted, no flag. -/
def execFneg (c : CoreId) (p : Prec) (gd ga : Reg) (s : State) : Host.Outcome State Fault Refusal :=
  .next (fpEnc s c (fpShape .long) p gd ga ga fun _ x _ => (x ^^^ signOf p, 0))

/-- FABS (R130): the sign bit cleared, no flag. -/
def execFabs (c : CoreId) (p : Prec) (gd ga : Reg) (s : State) : Host.Outcome State Fault Refusal :=
  .next (fpEnc s c (fpShape .long) p gd ga ga fun _ x _ => (x % signOf p, 0))

/-! ## Conversions (R133 to R135) -/

/-- FCVT.F48.I (R133, R134). -/
def execFcvtF48I (c : CoreId) (gd ga : Reg) (s : State) : Host.Outcome State Fault Refusal :=
  .next (fpConv s c gd ga fun r a => ofIntV fmtF48 r a.toInt)

/-- FCVT.F48.U (R133, R134). -/
def execFcvtF48U (c : CoreId) (gd ga : Reg) (s : State) : Host.Outcome State Fault Refusal :=
  .next (fpConv s c gd ga fun r a => ofIntV fmtF48 r a.toNat)

/-- FCVT.I.F48 (R133, R134). -/
def execFcvtIF48 (c : CoreId) (gd ga : Reg) (s : State) : Host.Outcome State Fault Refusal :=
  .next (fpConv s c gd ga fun r a => intResult (toIntV r true (unpack fmtF48 a.toNat)))

/-- FCVT.U.F48 (R133, R134). -/
def execFcvtUF48 (c : CoreId) (gd ga : Reg) (s : State) : Host.Outcome State Fault Refusal :=
  .next (fpConv s c gd ga fun r a => intResult (toIntV r false (unpack fmtF48 a.toNat)))

/-- FCVT.F48.S (R133, R134). -/
def execFcvtF48S (c : CoreId) (gd ga : Reg) (s : State) : Host.Outcome State Fault Refusal :=
  .next (fpConv s c gd ga fun r a => convV fmtF48 r (unpack fmtS32 (fin .s32 a)))

/-- FCVT.S.F48 (R133, R134). -/
def execFcvtSF48 (c : CoreId) (gd ga : Reg) (s : State) : Host.Outcome State Fault Refusal :=
  .next (fpConv s c gd ga fun r a => convV fmtS32 r (unpack fmtF48 a.toNat))

/-- FCVT.F48.D64 (R94, R133, R135): the image stands in the pair ga. -/
def execFcvtF48D64 (c : CoreId) (gd ga : Reg) (s : State) : Host.Outcome State Fault Refusal :=
  .next (runInstr s c { fpShape .long with bad := if pairOk ga false then none else some 4 } fun t =>
    .done (t.modCore c fun k =>
      let image := (k.reg ga).toNat + fld (k.reg (pairHi ga)) 15 0 * 2 ^ 48
      let r := convV fmtF48 (rmOf k.fcs) (unpack fmtD64 image)
      { k.setReg gd (w48 r.1) with fcs := fcsOr k.fcs r.2 }))

/-- FCVT.D64.F48 (R88, R94, R133, R135): the image goes to the pair gd. -/
def execFcvtD64F48 (c : CoreId) (gd ga : Reg) (s : State) : Host.Outcome State Fault Refusal :=
  .next (runInstr s c { fpShape .long with bad := if pairOk gd true then none else some 4 } fun t =>
    .done (t.modCore c fun k =>
      let r := convV fmtD64 (rmOf k.fcs) (unpack fmtF48 (k.reg ga).toNat)
      { (k.setReg gd (w48 r.1)).setReg (pairHi gd) (w48 (r.1 / 2 ^ 48)) with fcs := fcsOr k.fcs r.2 }))

/-- FCVT.I.F48.Z: toward zero (R133, R134). -/
def execFcvtIF48Z (c : CoreId) (gd ga : Reg) (s : State) : Host.Outcome State Fault Refusal :=
  .next (fpConv s c gd ga fun _ a => intResult (toIntV 1 true (unpack fmtF48 a.toNat)))

/-- FCVT.F48.H0 (R133, R134). -/
def execFcvtF48H0 (c : CoreId) (gd ga : Reg) (s : State) : Host.Outcome State Fault Refusal :=
  .next (fpConv s c gd ga fun r a => ofIntV fmtF48 r (half a 0).toInt)

/-- FCVT.F48.H1 (R133, R134). -/
def execFcvtF48H1 (c : CoreId) (gd ga : Reg) (s : State) : Host.Outcome State Fault Refusal :=
  .next (fpConv s c gd ga fun r a => ofIntV fmtF48 r (half a 1).toInt)

/-- FCVT.I.S (R133, R134). -/
def execFcvtIS (c : CoreId) (gd ga : Reg) (s : State) : Host.Outcome State Fault Refusal :=
  .next (fpConv s c gd ga fun r a => intResult (toIntV r true (unpack fmtS32 (fin .s32 a))))

/-- FCVT.S.I (R133, R134). -/
def execFcvtSI (c : CoreId) (gd ga : Reg) (s : State) : Host.Outcome State Fault Refusal :=
  .next (fpConv s c gd ga fun r a => ofIntV fmtS32 r a.toInt)

end Sys2Proof.Machine
end

