-- ==== Sys2Proof/Machine/Frame.lean ====
section
/-! DEFINITION. The frame instructions (R473, R477, R478, R481). -/

namespace Sys2Proof.Machine

open Sys2Proof

/-- The frame instructions are in profile F, at PL0 (R136, R477). -/
def frameShape (f : Form) : Shape := { plain f with held := fun p => p = .F }

/-- The tick group of a core. -/
def groupOfCore (s : State) (c : CoreId) : Option Nat := match c with
  | .frond i => groupOf s i.val
  | _ => none

/-- The output that bits 8:0 of a register name, where SAFE.ENTRIES covers it (R477). -/
def outputOf (s : State) (a : Word) : Option Output := s.outs[fld a 8 0]?

/-- The output is the group's own (R477). -/
def ownedOutput (s : State) (c : CoreId) (a : Word) : Option Output :=
  match outputOf s a with
  | some o => if groupOfCore s c = some o.group then some o else none
  | none => none

/-- A refused OUT, INB or INF: a violation of cause 3 (R477, R778). It reaches no physical word: word 2 of its record is
a free value. -/
def outputViolation (s : State) (c : CoreId) (write : Bool) : State :=
  let (w, s) := s.takeFree
  violation s 3 (coreNum c) (s.core c).pl write w.toNat

/-- A barrier of the group may open for the members that wait at it (R478). -/
def openBarriers (s : State) : State :=
  (upto 16).foldl (fun s i =>
    let c := frondId i
    if (s.core c).waiting = some .barrier && barrierOpen s i then completeInstr s c 2 else s) s

/-- OUT (R477, R481). -/
def execOut (c : CoreId) (ga gb : Reg) (s : State) : Host.Outcome State Fault Refusal :=
  .next (runInstr s c (frameShape .long) fun t =>
    let k := t.core c
    let a := k.reg ga
    match ownedOutput t c a with
    | none => .done (outputViolation t c true)
    | some o =>
      let n := fld a 8 0
      let t := { t with outs := t.outs.set n { o with back := k.reg gb } }
      .done (t.modCore c fun k => { k with frame := { k.frame with written := n :: k.frame.written.filter (· ≠ n) } }))

/-- INB (R477). -/
def execInb (c : CoreId) (gd ga : Reg) (s : State) : Host.Outcome State Fault Refusal :=
  .next (runInstr s c (frameShape .long) fun t =>
    match ownedOutput t c ((t.core c).reg ga) with
    | none => .done ((outputViolation t c false).modCore c fun k => k.setReg gd 0)
    | some o => .done (t.modCore c fun k => k.setReg gd o.back))

/-- INF (R477). -/
def execInf (c : CoreId) (gd ga : Reg) (s : State) : Host.Outcome State Fault Refusal :=
  .next (runInstr s c (frameShape .long) fun t =>
    match outputOf t ((t.core c).reg ga) with
    | none => .done ((outputViolation t c false).modCore c fun k => k.setReg gd 0)
    | some o => .done (t.modCore c fun k => k.setReg gd o.front))

/-- FTIME (R477); for a core of no group, which has no frame start, a free value. -/
def execFtime (c : CoreId) (gd : Reg) (s : State) : Host.Outcome State Fault Refusal :=
  .next (runInstr s c (frameShape .long) fun t =>
    match groupOfCore t c with
    | some g => .done (t.modCore c fun k => k.setReg gd (t.tbl - frameStartTbl t g))
    | none =>
      let (w, t) := t.takeFree
      .done (t.modCore c fun k => k.setReg gd w))

/-- FNUM (R477): TICK_COUNT, which moves only where a frame ends (R463). -/
def execFnum (c : CoreId) (gd : Reg) (s : State) : Host.Outcome State Fault Refusal :=
  .next (runInstr s c (frameShape .long) fun t => .done (t.modCore c fun k => k.setReg gd (regGet t aTickCount)))

/-- FBAR (R477, R478). -/
def execFbar (c : CoreId) (s : State) : Host.Outcome State Fault Refusal :=
  .next (runInstr s c (frameShape .long) fun t =>
    .stay (openBarriers (t.modCore c fun k =>
      { k with waiting := some .barrier, frame := { k.frame with barriers := k.frame.barriers + 1 } })))

/-- FEND (R228, R279, R473): a Frond core performs every access before it completes (R395). One whose abandoned access is
still in flight waits for it. -/
def execFend (c : CoreId) (s : State) : Host.Outcome State Fault Refusal :=
  if !(s.core c).abandoned.isEmpty then .next s
  else .next (runInstr s c { frameShape .short with noSlot := true } fun t =>
    let t := completeInstr t c 1
    .stay (match c with
      | .frond i => openBarriers (fendDone t i.val)
      | _ => t))

/-- LOCKSTEP_PAIR_RETIREMENT (R491): CONSEC has reached 3. A member that waits at a barrier for the
pair alone goes on (R478). -/
def execLockstepPairRetirement (p : Fin 8) (s : State) : Host.Outcome State Fault Refusal :=
  let i := 2 * p.val
  if isPair s p.val && regF s (aPairStat p.val) 1 0 = 3 && !regB s (aPairStat p.val) 2 then
    let s := regFld (setUnitState s i 3) (aPairStat p.val) 2 2 1
    let hold (s : State) (j : Nat) : State :=
      s.modCore (frondId j) fun k => { k with run := .held, waiting := none, slot := none }
    let s := hold (hold s i) (i + 1)
    let s := recordRetirement s ⟨7, p.val, 0, 0, 0, s.mdl.sfmt, 0⟩ 0 (20 + p.val)
    match groupOf s i with
    | some g => .next (safeGroup (openBarriers s) g 3)
    | none => .next s
  else .next s

end Sys2Proof.Machine
end

