-- ==== Sys2Proof/Machine/Integer.lean ====
section
/-! DEFINITION. The integer, immediate, bit-field and unary instructions (R108 to R114). None of them raises an
exception of its own. -/

namespace Sys2Proof.Machine

open Sys2Proof

/-- An operation of two registers (R108). -/
def aluOp (s : State) (c : CoreId) (f : Form) (gd ga gb : Reg) (op : Word → Word → Word) : State :=
  regInstr s c (plain f) gd fun k => op (k.reg ga) (k.reg gb)

/-- A unary operation or one with an immediate (R109, R112, R113). -/
def unOp (s : State) (c : CoreId) (f : Form) (gd ga : Reg) (op : Word → Word) : State :=
  regInstr s c (plain f) gd fun k => op (k.reg ga)

/-- A bit-field instruction; R114 bounds its field. -/
def bfOp (s : State) (c : CoreId) (gd : Reg) (pos len : BitVec 6) (op : Core → Word) : State :=
  regInstr s c { plain .long with bad := if bfOk pos.toNat len.toNat then none else some 1 } gd op

/-! ## Operations of two registers (R108 to R111) -/

/-- ADD (R108). -/
def execAdd (c : CoreId) (f : Form) (gd ga gb : Reg) (s : State) : Host.Outcome State Fault Refusal :=
  .next (aluOp s c f gd ga gb (fun a b => a + b))

/-- SUB (R108). -/
def execSub (c : CoreId) (f : Form) (gd ga gb : Reg) (s : State) : Host.Outcome State Fault Refusal :=
  .next (aluOp s c f gd ga gb (fun a b => a - b))

/-- AND (R108). -/
def execAnd (c : CoreId) (f : Form) (gd ga gb : Reg) (s : State) : Host.Outcome State Fault Refusal :=
  .next (aluOp s c f gd ga gb (fun a b => a &&& b))

/-- OR (R108). -/
def execOr (c : CoreId) (f : Form) (gd ga gb : Reg) (s : State) : Host.Outcome State Fault Refusal :=
  .next (aluOp s c f gd ga gb (fun a b => a ||| b))

/-- XOR (R108). -/
def execXor (c : CoreId) (f : Form) (gd ga gb : Reg) (s : State) : Host.Outcome State Fault Refusal :=
  .next (aluOp s c f gd ga gb (fun a b => a ^^^ b))

/-- ANDN (R108). -/
def execAndn (c : CoreId) (f : Form) (gd ga gb : Reg) (s : State) : Host.Outcome State Fault Refusal :=
  .next (aluOp s c f gd ga gb (fun a b => a &&& ~~~b))

/-- SLL (R108). -/
def execSll (c : CoreId) (f : Form) (gd ga gb : Reg) (s : State) : Host.Outcome State Fault Refusal :=
  .next (aluOp s c f gd ga gb (fun a b => sllW a (shAmt b)))

/-- SRL (R108). -/
def execSrl (c : CoreId) (f : Form) (gd ga gb : Reg) (s : State) : Host.Outcome State Fault Refusal :=
  .next (aluOp s c f gd ga gb (fun a b => srlW a (shAmt b)))

/-- SRA (R108). -/
def execSra (c : CoreId) (f : Form) (gd ga gb : Reg) (s : State) : Host.Outcome State Fault Refusal :=
  .next (aluOp s c f gd ga gb (fun a b => sraW a (shAmt b)))

/-- ROL (R108). -/
def execRol (c : CoreId) (f : Form) (gd ga gb : Reg) (s : State) : Host.Outcome State Fault Refusal :=
  .next (aluOp s c f gd ga gb (fun a b => rolW a (shAmt b)))

/-- SLT (R108). -/
def execSlt (c : CoreId) (f : Form) (gd ga gb : Reg) (s : State) : Host.Outcome State Fault Refusal :=
  .next (aluOp s c f gd ga gb (fun a b => w01 (decide (a.toInt < b.toInt))))

/-- SLTU (R108). -/
def execSltu (c : CoreId) (f : Form) (gd ga gb : Reg) (s : State) : Host.Outcome State Fault Refusal :=
  .next (aluOp s c f gd ga gb (fun a b => w01 (decide (a.toNat < b.toNat))))

/-- SEQ (R108). -/
def execSeq (c : CoreId) (f : Form) (gd ga gb : Reg) (s : State) : Host.Outcome State Fault Refusal :=
  .next (aluOp s c f gd ga gb (fun a b => w01 (decide (a = b))))

/-- SNE (R108). -/
def execSne (c : CoreId) (f : Form) (gd ga gb : Reg) (s : State) : Host.Outcome State Fault Refusal :=
  .next (aluOp s c f gd ga gb (fun a b => w01 (decide (a ≠ b))))

/-- MIN (R108). -/
def execMin (c : CoreId) (f : Form) (gd ga gb : Reg) (s : State) : Host.Outcome State Fault Refusal :=
  .next (aluOp s c f gd ga gb minS)

/-- MAX (R108). -/
def execMax (c : CoreId) (f : Form) (gd ga gb : Reg) (s : State) : Host.Outcome State Fault Refusal :=
  .next (aluOp s c f gd ga gb maxS)

/-- SLE (R108). -/
def execSle (c : CoreId) (f : Form) (gd ga gb : Reg) (s : State) : Host.Outcome State Fault Refusal :=
  .next (aluOp s c f gd ga gb (fun a b => w01 (decide (a.toInt ≤ b.toInt))))

/-- SLEU (R108). -/
def execSleu (c : CoreId) (f : Form) (gd ga gb : Reg) (s : State) : Host.Outcome State Fault Refusal :=
  .next (aluOp s c f gd ga gb (fun a b => w01 (decide (a.toNat ≤ b.toNat))))

/-- MINU (R108). -/
def execMinu (c : CoreId) (f : Form) (gd ga gb : Reg) (s : State) : Host.Outcome State Fault Refusal :=
  .next (aluOp s c f gd ga gb minU)

/-- MAXU (R108). -/
def execMaxu (c : CoreId) (f : Form) (gd ga gb : Reg) (s : State) : Host.Outcome State Fault Refusal :=
  .next (aluOp s c f gd ga gb maxU)

/-- CARRY (R108). -/
def execCarry (c : CoreId) (gd ga gb : Reg) (s : State) : Host.Outcome State Fault Refusal :=
  .next (aluOp s c .long gd ga gb carryW)

/-- ABSD (R108). -/
def execAbsd (c : CoreId) (gd ga gb : Reg) (s : State) : Host.Outcome State Fault Refusal :=
  .next (aluOp s c .long gd ga gb absdW)

/-- ADDS (R108). -/
def execAdds (c : CoreId) (gd ga gb : Reg) (s : State) : Host.Outcome State Fault Refusal :=
  .next (aluOp s c .long gd ga gb adds)

/-- SUBS (R108). -/
def execSubs (c : CoreId) (gd ga gb : Reg) (s : State) : Host.Outcome State Fault Refusal :=
  .next (aluOp s c .long gd ga gb subs)

/-- DIV (R108, R110). -/
def execDiv (c : CoreId) (gd ga gb : Reg) (s : State) : Host.Outcome State Fault Refusal :=
  .next (aluOp s c .long gd ga gb divW)

/-- DIVU (R108, R110). -/
def execDivu (c : CoreId) (gd ga gb : Reg) (s : State) : Host.Outcome State Fault Refusal :=
  .next (aluOp s c .long gd ga gb divuW)

/-- REM (R108, R110). -/
def execRem (c : CoreId) (gd ga gb : Reg) (s : State) : Host.Outcome State Fault Refusal :=
  .next (aluOp s c .long gd ga gb remW)

/-- REMU (R108, R110). -/
def execRemu (c : CoreId) (gd ga gb : Reg) (s : State) : Host.Outcome State Fault Refusal :=
  .next (aluOp s c .long gd ga gb remuW)

/-- HADD (R108, R111). -/
def execHadd (c : CoreId) (gd ga gb : Reg) (s : State) : Host.Outcome State Fault Refusal :=
  .next (aluOp s c .long gd ga gb (halves fun x y => x + y))

/-- HSUB (R108, R111). -/
def execHsub (c : CoreId) (gd ga gb : Reg) (s : State) : Host.Outcome State Fault Refusal :=
  .next (aluOp s c .long gd ga gb (halves fun x y => x - y))

/-- HADDS (R108, R111). -/
def execHadds (c : CoreId) (gd ga gb : Reg) (s : State) : Host.Outcome State Fault Refusal :=
  .next (aluOp s c .long gd ga gb (halves hadds))

/-- HSUBS (R108, R111). -/
def execHsubs (c : CoreId) (gd ga gb : Reg) (s : State) : Host.Outcome State Fault Refusal :=
  .next (aluOp s c .long gd ga gb (halves hsubs))

/-! ## Immediates and bit fields (R109, R113, R114) -/

/-- ADDI (R113). -/
def execAddi (c : CoreId) (f : Form) (gd ga : Reg) (imm : BitVec 31) (s : State) : Host.Outcome State Fault Refusal :=
  .next (unOp s c f gd ga fun a => a + imm.signExtend 48)

/-- SLLI (R109, R113). -/
def execSlli (c : CoreId) (gd ga : Reg) (amt : BitVec 6) (s : State) : Host.Outcome State Fault Refusal :=
  .next (unOp s c .short gd ga fun a => sllW a amt.toNat)

/-- SRLI (R109, R113). -/
def execSrli (c : CoreId) (gd ga : Reg) (amt : BitVec 6) (s : State) : Host.Outcome State Fault Refusal :=
  .next (unOp s c .short gd ga fun a => srlW a amt.toNat)

/-- SRAI (R109, R113). -/
def execSrai (c : CoreId) (gd ga : Reg) (amt : BitVec 6) (s : State) : Host.Outcome State Fault Refusal :=
  .next (unOp s c .short gd ga fun a => sraW a amt.toNat)

/-- ROLI (R109, R113). -/
def execRoli (c : CoreId) (gd ga : Reg) (amt : BitVec 6) (s : State) : Host.Outcome State Fault Refusal :=
  .next (unOp s c .short gd ga fun a => rolW a amt.toNat)

/-- ANDI (R113). -/
def execAndi (c : CoreId) (gd ga : Reg) (imm : BitVec 31) (s : State) : Host.Outcome State Fault Refusal :=
  .next (unOp s c .long gd ga fun a => a &&& imm.signExtend 48)

/-- ORI (R113). -/
def execOri (c : CoreId) (gd ga : Reg) (imm : BitVec 31) (s : State) : Host.Outcome State Fault Refusal :=
  .next (unOp s c .long gd ga fun a => a ||| imm.signExtend 48)

/-- XORI (R113). -/
def execXori (c : CoreId) (gd ga : Reg) (imm : BitVec 31) (s : State) : Host.Outcome State Fault Refusal :=
  .next (unOp s c .long gd ga fun a => a ^^^ imm.signExtend 48)

/-- MOVI (R113). -/
def execMovi (c : CoreId) (f : Form) (gd : Reg) (imm : BitVec 36) (s : State) : Host.Outcome State Fault Refusal :=
  .next (regInstr s c (plain f) gd fun _ => imm.signExtend 48)

/-- LDIH (R113). -/
def execLdih (c : CoreId) (gd : Reg) (imm : BitVec 24) (s : State) : Host.Outcome State Fault Refusal :=
  .next (regInstr s c (plain .long) gd fun k => ldih (k.reg gd) imm)

/-- ADDPC (R113): the word address of the word that holds the instruction, plus the immediate. -/
def execAddpc (c : CoreId) (gd : Reg) (imm : BitVec 36) (s : State) : Host.Outcome State Fault Refusal :=
  .next (regInstr s c (plain .long) gd fun k => (k.pc >>> 1) + imm.signExtend 48)

/-- EXTU (R113, R114). -/
def execExtu (c : CoreId) (gd ga : Reg) (pos len : BitVec 6) (s : State) : Host.Outcome State Fault Refusal :=
  .next (bfOp s c gd pos len fun k => extu (k.reg ga) pos.toNat len.toNat)

/-- EXTS (R113, R114). -/
def execExts (c : CoreId) (gd ga : Reg) (pos len : BitVec 6) (s : State) : Host.Outcome State Fault Refusal :=
  .next (bfOp s c gd pos len fun k => exts (k.reg ga) pos.toNat len.toNat)

/-- DEP (R113, R114). -/
def execDep (c : CoreId) (gd ga : Reg) (pos len : BitVec 6) (s : State) : Host.Outcome State Fault Refusal :=
  .next (bfOp s c gd pos len fun k => depW (k.reg gd) (k.reg ga) pos.toNat len.toNat)

/-- DEPZ (R113, R114). -/
def execDepz (c : CoreId) (gd ga : Reg) (pos len : BitVec 6) (s : State) : Host.Outcome State Fault Refusal :=
  .next (bfOp s c gd pos len fun k => depz (k.reg ga) pos.toNat len.toNat)

/-! ## Unary operations (R112) -/

/-- MOV (R112). -/
def execMov (c : CoreId) (f : Form) (gd ga : Reg) (s : State) : Host.Outcome State Fault Refusal :=
  .next (unOp s c f gd ga (fun a => a))

/-- NEG (R112). -/
def execNeg (c : CoreId) (f : Form) (gd ga : Reg) (s : State) : Host.Outcome State Fault Refusal :=
  .next (unOp s c f gd ga (fun a => 0 - a))

/-- NOT (R112). -/
def execNot (c : CoreId) (f : Form) (gd ga : Reg) (s : State) : Host.Outcome State Fault Refusal :=
  .next (unOp s c f gd ga (fun a => ~~~a))

/-- ABS (R112). -/
def execAbs (c : CoreId) (f : Form) (gd ga : Reg) (s : State) : Host.Outcome State Fault Refusal :=
  .next (unOp s c f gd ga absW)

/-- CLZ (R112). -/
def execClz (c : CoreId) (f : Form) (gd ga : Reg) (s : State) : Host.Outcome State Fault Refusal :=
  .next (unOp s c f gd ga clzW)

/-- CTZ (R112). -/
def execCtz (c : CoreId) (f : Form) (gd ga : Reg) (s : State) : Host.Outcome State Fault Refusal :=
  .next (unOp s c f gd ga ctzW)

/-- POPC (R112). -/
def execPopc (c : CoreId) (f : Form) (gd ga : Reg) (s : State) : Host.Outcome State Fault Refusal :=
  .next (unOp s c f gd ga popcW)

/-- SXH (R112). -/
def execSxh (c : CoreId) (f : Form) (gd ga : Reg) (s : State) : Host.Outcome State Fault Refusal :=
  .next (unOp s c f gd ga sxh)

/-- SXB (R112). -/
def execSxb (c : CoreId) (f : Form) (gd ga : Reg) (s : State) : Host.Outcome State Fault Refusal :=
  .next (unOp s c f gd ga sxb)

/-- ZXH (R112). -/
def execZxh (c : CoreId) (f : Form) (gd ga : Reg) (s : State) : Host.Outcome State Fault Refusal :=
  .next (unOp s c f gd ga zxh)

/-- ZXB (R112). -/
def execZxb (c : CoreId) (f : Form) (gd ga : Reg) (s : State) : Host.Outcome State Fault Refusal :=
  .next (unOp s c f gd ga zxb)

/-- SWPH (R112). -/
def execSwph (c : CoreId) (f : Form) (gd ga : Reg) (s : State) : Host.Outcome State Fault Refusal :=
  .next (unOp s c f gd ga swph)

end Sys2Proof.Machine
end

