-- ==== Sys2Proof/Machine/Maint.lean ====
section
/-! DEFINITION. What waits for the store buffer: barriers, cache maintenance and TLB maintenance (R358 to R363, R398,
R399), and the drain itself (R202, R203, R208, R396). -/

namespace Sys2Proof.Machine

open Sys2Proof

/-! ## TLB maintenance (R358 to R363) -/

/-- The context of a TLB maintenance instruction (R359). -/
def tlbiCtx (k : Core) (gb : Word) : Option Nat :=
  if k.pl ≤ 1 then (if k.vm then some (fld k.vmid 11 0) else none)
  else if bit gb 28 then none else some (fld gb 27 16)

/-- The operation covers a TLB entry (R358 to R360): codes 0 VA, 1 VAA, 2 ASID, 3 CTX, 4 ALL. -/
def TlbOp.covers (o : TlbOp) (e : TlbEntry) : Bool :=
  let page := if e.big then o.va / 2 ^ 24 = e.vpage else o.va / 4096 = e.vpage
  let mine := e.ctx = o.ctx
  if o.code = 0 then mine && page && (e.global || e.asid = o.asid)
  else if o.code = 1 then mine && page
  else if o.code = 2 then mine && !e.global && e.asid = o.asid
  else if o.code = 3 then mine
  else true

/-- The receivers of a broadcast that have still to acknowledge: the other application cores but those that are held,
dead, checkstopped or Dormant, and the pinna engine as number 16 (R362, R363). -/
def tlbReceivers (s : State) (issuer : Nat) : List Nat :=
  ((upto 16).filter fun n => n ≠ issuer && !deadAgent s n && domState s n < 2 &&
    match coreOfAgent n with
    | some c => (s.core c).run = .running
    | none => false) ++ [16]

/-- A Dormant core acknowledges at once and invalidates when it wakes (R357, R362). -/
def noteDormant (s : State) (issuer : Nat) : State :=
  (upto 16).foldl (fun s n =>
    if n ≠ issuer && 2 ≤ domState s n then
      match coreOfAgent n with
      | some c => s.modCore c fun k => { k with tlb := { k.tlb with invalWhileDormant := true } }
      | none => s
    else s) s

/-- The operation acts on its own core and is sent to the others (R361, R362). -/
def actTlbi (s : State) (c : CoreId) (o : TlbOp) : State :=
  let s := s.modCore c fun k => k.tlbDrop o.covers
  if o.bcast then
    let s := noteDormant s (coreNum c)
    { s with sys := { s.sys with tlbOps := s.sys.tlbOps ++ [(coreNum c, o, tlbReceivers s (coreNum c))] } }
  else s

/-- Receivers that have died, stopped or gone Dormant count as having acknowledged (R362, R363). -/
def tlbStillWaits (s : State) (n : Nat) : Bool :=
  n = 16 || (tlbReceivers s 33).contains n

/-- Every broadcast of a core has been acknowledged (R363). -/
def tlbSynced (s : State) (issuer : Nat) : Bool :=
  !(s.sys.tlbOps.any fun e => e.1 = issuer && e.2.2.any (tlbStillWaits s))

/-- A TLBSYNC may complete: its store buffer has drained (R361) and its broadcasts are acknowledged (R363). -/
def syncReady (s : State) (c : CoreId) : Bool := (s.core c).storeBuffer.isEmpty && tlbSynced s (coreNum c)

/-- A TLBSYNC that waits completes when it may. -/
def retrySync (s : State) (issuer : Nat) : State :=
  match coreOfAgent issuer with
  | some c => if (s.core c).waiting = some .tlbsync && syncReady s c then completeInstr s c 2 else s
  | none => s

/-- Receivers that are gone are struck from the broadcasts, and every TLBSYNC that waits is looked at again: after an agent
has died, a core has checkstopped or been reset, or a domain has gone Dormant (R362, R363). -/
def settleSyncs (s : State) : State :=
  let ops := (s.sys.tlbOps.map fun e => (e.1, e.2.1, e.2.2.filter (tlbStillWaits s))).filter fun e => !e.2.2.isEmpty
  (upto 16).foldl retrySync { s with sys := { s.sys with tlbOps := ops } }

/-- The receiver takes the first operation of an issuer that it has not acknowledged (R362). -/
def receiveTlbi (s : State) (issuer receiver : Nat) : State :=
  match s.sys.tlbOps.findIdx? fun e => e.1 = issuer && e.2.2.contains receiver with
  | none => s
  | some i =>
    match s.sys.tlbOps[i]? with
    | none => s
    | some (n, o, l) =>
      let s := { s with sys := { s.sys with tlbOps :=
        (s.sys.tlbOps.set i (n, o, l.filter (· ≠ receiver))).filter fun e => !e.2.2.isEmpty } }
      let s := if receiver = 16 then pinnaTlbi s o.covers
        else match coreOfAgent receiver with
          | some c => s.modCore c fun k => k.tlbDrop o.covers
          | none => s
      retrySync s issuer

/-- A core has accesses on their way that may have used a TLB entry: stores in its buffer, a far atomic, a cache
maintenance request, or a read through the aperture. One that waits to be tried again translates again. -/
def accessesIssued (k : Core) : Bool :=
  !k.storeBuffer.isEmpty || match k.waiting with
    | some (.atomicDone _ _) => true
    | some (.aperture _ _) => true
    | some (.maintenance _ _ _) => true
    | _ => false

/-- TLB_BROADCAST_RECEIVE (R362): a core first finishes the accesses it has issued, its store buffer included. -/
def execTlbBroadcastReceive (issuer : Fin 16) (receiver : Fin 17) (s : State) : Host.Outcome State Fault Refusal :=
  let ready := match coreOfAgent receiver.val with
    | some (.app i) => !accessesIssued (s.core (.app i))
    | _ => true
  if ready then .next (receiveTlbi s issuer.val receiver.val) else .next s

/-! ## Cache maintenance (R398, R399) -/

/-- Sends the message of DC.CLEAN, DC.FLUSH or DC.ZERO and waits for its answer. It waits for an eviction or a request of
its core on the line, and DC.ZERO for a place for its line. -/
def sendMaintenance (s : State) (c : CoreId) (req : MsgType) (l : Nat) : State :=
  let ag := coreNum c
  let twin := isTwin s (8 * l)
  let a := outerArray ag false
  let need := if twin then 2 else 1
  let wait (s : State) (sent : Bool) : State := s.modCore c fun k => { k with waiting := some (.maintenance req l sent) }
  match cacheLine s ag l with
  | some e =>
    if !e.st.stable then wait s false
    else if req = .RdUZ && 16 ≤ ag && !e.stands a then
      let s := makeRoom s ag l a need false 3
      if hasRoom s ag l a need then
        wait (send (modLine s ag l fun x => { x with inL1 := true }) { mkMsg req ag l with twin := twin }) true
      else wait s false
    else wait (send s { mkMsg req ag l with twin := twin }) true
  | none =>
    if req = .RdUZ then
      let s := makeRoom s ag l a need false 3
      if hasRoom s ag l a need then
        wait (send (putLine s (awaited ag l .IM twin false)) { mkMsg req ag l with twin := twin }) true
      else wait s false
    else wait (send s { mkMsg req ag l with twin := twin }) true

/-- Cache maintenance starts when every older store has drained (R193, R398). -/
def startMaintenance (s : State) (c : CoreId) (req : MsgType) (l : Nat) : State :=
  if (s.core c).storeBuffer.isEmpty then sendMaintenance s c req l
  else s.modCore c fun k => { k with waiting := some (.maintenance req l false) }

/-- A maintenance request has completed. -/
def maintenanceDone (s : State) (c : CoreId) (l : Nat) : State :=
  match (s.core c).waiting with
  | some (.maintenance _ x true) => if x = l then completeInstr s c 2 else s
  | _ => s

/-! ## What goes on when something is freed -/

/-- What waits for an empty store buffer goes on. -/
def afterDrain (s : State) (c : CoreId) : State :=
  let s := retryCore s c
  let k := s.core c
  if !k.storeBuffer.isEmpty then s
  else match c, k.waiting with
    | .app _, some .barrier => completeInstr s c 2
    | _, some (.maintenance req l false) => sendMaintenance s c req l
    | _, some (.tlbi o) => completeInstr (actTlbi s c o) c 2
    | _, some .tlbsync => retrySync s (coreNum c)
    | _, _ => s

/-- The oldest store-buffer entry has been performed. -/
def popStore (s : State) (c : CoreId) : State :=
  afterDrain (s.modCore c fun k => { k with storeBuffer := k.storeBuffer.tail }) c

/-- The message that writes one store-buffer entry through to the home slice (R345, R383). -/
def throughMsg (s : State) (ag : Nat) (e : SbEntry) : Msg :=
  let l := dataLine s (e.pa / 8)
  let twin := isTwin s (8 * l)
  { mkMsg (if e.type = .uncached then .WrNC else .WrThru) ag l with
    twin := twin, wmask := 2 ^ (e.pa % 8), word := e.mask, data := oneWord twin (e.pa % 8) (e.data, false) }

/-- Runs f with core c under the status and vmid that a store ran under. -/
def underStore (s : State) (c : CoreId) (e : SbEntry) (f : State → State) : State :=
  let k := s.core c
  let t := f (s.modCore c fun x => { x with status := e.status, vmid := e.vmid })
  represent (t.modCore c fun x =>
    if x.status = e.status && x.vmid = e.vmid then { x with status := k.status, vmid := k.vmid } else x) (coreNum c)

/-- A store of the buffer reaches its device or Sorus memory (R123, R207, R514, R649, R778); `next` is the high word of a
double-word. -/
def deviceStore (s : State) (c : CoreId) (e : SbEntry) (next : Option SbEntry) : State :=
  underStore s c e fun s =>
    match wayOf s c (.write e.data e.mask) e.pa with
    | .refused cause w => violation s cause (coreNum c) (s.core c).pl true w
    | .register => regWrite s (.core c) e.pa e.data
    | .aperture b => apertureWrite s b (e.data :: (next.map (·.data)).toList)
    | .sorus p =>
      match sorusStore s p e.data e.mask with
      | .done s => reportStore s (placeKey p)
      | .poisoned s => s
      | .mismatched s => s
    | _ => s

/-- The oldest entry, a store to device or Sorus memory, drains; the two words of a double-word write through the aperture go
together (R649). -/
def drainDevice (s : State) (c : CoreId) (e : SbEntry) (rest : List SbEntry) : State :=
  let next := if e.low && inAperture e.pa then rest.head? else none
  let s := deviceStore s c e next
  popStore (if next.isSome then s.modCore c fun k => { k with storeBuffer := k.storeBuffer.tail } else s) c

/-- The oldest entry asks for its line: the miss of a committed store counts at once (R712). -/
def drainMiss (s : State) (c : CoreId) (l : Nat) : State :=
  let k := s.core c
  let t := retireEvents (requestLine (s.modCore c fun x => { x with events := [] }) (coreNum c) l true) c
  t.modCore c fun x => { x with events := k.events }

/-- STORE_BUFFER_DRAIN (R202, R207, R208, R396): the oldest entry drains once its line is held in M or E; a written-through
or uncached one goes to the home slice and leaves the buffer at its Cmp; one to device or Sorus memory goes to its block, for
which it waits while the block's clock stands still. -/
def execStoreBufferDrain (i : Fin 16) (s : State) : Host.Outcome State Fault Refusal :=
  let c : CoreId := .app i
  match (s.core c).storeBuffer with
  | [] => .next s
  | e :: rest =>
    let l := dataLine s (e.pa / 8)
    let sendIt (s : State) : State :=
      (send s (throughMsg s i.val e)).modCore c fun k => { k with storeBuffer := { e with sent := true } :: rest }
    if e.sent || clockStopped s (coreDomain s c) || (s.core c).run = .held then .next s
    else if inSorus e.pa then .next (if clockStopped s 24 then s else drainDevice s c e rest)
    else if isDevice e.type then .next (drainDevice s c e rest)
    else if e.type = .uncached then .next (if lineEvicting s i.val l then s else sendIt s)
    else if !lineOwned s i.val l then .next (drainMiss s c l)
    else if e.type = .writeThrough then .next (sendIt s)
    else .next (popStore (cacheStore s i.val e.pa e.data e.mask) c)

end Sys2Proof.Machine
end

