-- ==== Sys2Proof/Machine/MemInstr.lean ====
section
/-! DEFINITION. The load, store, bank and data-stack instructions (R94, R115 to R121). -/

namespace Sys2Proof.Machine

open Sys2Proof

/-- The illegal encodings of a load or store (R94, R119, R121, R278). -/
def badElem (load : Bool) (gd : Reg) (sz : Size) (sel : Nat) (sx : Bool) : Option Nat :=
  if !selOk sz sel then some 1
  else if !(if load then sxOk sz sx else !sx) then some 1
  else if sz = .dword && !pairOk gd load then some 4
  else none

/-- A load from an address computed from the core's registers (R115, R119). -/
def loadInstr (s : State) (c : CoreId) (f : Form) (gd : Reg) (sz : Size) (sel : Core → Nat) (sx : Bool)
    (bad : Option Nat) (addr : Core → Word) : State :=
  runInstr s c { plain f with bad := bad } fun t =>
    startAccess t c (loadAccess (formLen f) (addr (t.core c)) sz (.load gd sz (sel (t.core c)) sx))

/-- A store of a register, or of a pair, to an address computed from the core's registers (R115, R120). -/
def storeInstr (s : State) (c : CoreId) (f : Form) (gd : Reg) (sz : Size) (sel : Core → Nat) (bad : Option Nat)
    (addr : Core → Word) : State :=
  runInstr s c { plain f with bad := bad } fun t =>
    let k := t.core c
    startAccess t c (storeAccess (formLen f) (addr k) (k.reg gd) (k.reg (pairHi gd)) sz (sel k) .store)

/-- The register of a bank form: g8 to g15 (R117). -/
def bankReg (j : Fin 8) : Reg := ⟨8 + j.val, by omega⟩

/-- PUSH (R116): the pushed value is read before dsp steps down. -/
def execPush (c : CoreId) (ga : Reg) (s : State) : Host.Outcome State Fault Refusal :=
  .next (runInstr s c (plain .short) fun t =>
    let k := t.core c
    startAccess t c (storeAccess 1 (k.reg 31 - 1) (k.reg ga) 0 .word 0 .push))

/-- POP (R116). -/
def execPop (c : CoreId) (gd : Reg) (s : State) : Host.Outcome State Fault Refusal :=
  .next (runInstr s c (plain .short) fun t =>
    startAccess t c (loadAccess 1 ((t.core c).reg 31) .word (.pop gd)))

/-- LW, short (R105, R115). -/
def execLw (c : CoreId) (gd ga : Reg) (imm : BitVec 7) (s : State) : Host.Outcome State Fault Refusal :=
  .next (loadInstr s c .short gd .word (fun _ => 0) false none fun k => eaImm7 (k.reg ga) imm)

/-- SW, short (R105, R115). -/
def execSw (c : CoreId) (gd ga : Reg) (imm : BitVec 7) (s : State) : Host.Outcome State Fault Refusal :=
  .next (storeInstr s c .short gd .word (fun _ => 0) none fun k => eaImm7 (k.reg ga) imm)

/-- Load of long major 9 (R94, R115, R119, R121). -/
def execLoad (c : CoreId) (gd ga : Reg) (disp : BitVec 25) (sz : Size) (sel : BitVec 3) (sx : Bool) (s : State) :
    Host.Outcome State Fault Refusal :=
  .next (loadInstr s c .long gd sz (fun _ => sel.toNat) sx (badElem true gd sz sel.toNat sx) fun k =>
    eaDisp (k.reg ga) disp)

/-- Store of long major 10 (R94, R115, R119 to R121). -/
def execStore (c : CoreId) (gd ga : Reg) (disp : BitVec 25) (sz : Size) (sel : BitVec 3) (sx : Bool) (s : State) :
    Host.Outcome State Fault Refusal :=
  .next (storeInstr s c .long gd sz (fun _ => sel.toNat) (badElem false gd sz sel.toNat sx) fun k =>
    eaDisp (k.reg ga) disp)

/-- Indexed load (R115, R119). -/
def execIndexedLoad (c : CoreId) (gd ga gb : Reg) (sz : Size) (sx : Bool) (s : State) :
    Host.Outcome State Fault Refusal :=
  .next (loadInstr s c .long gd sz (fun k => selIndex (k.reg gb) sz) sx (badElem true gd sz 0 sx) fun k =>
    eaIndex (k.reg ga) (k.reg gb) sz)

/-- Indexed store (R115, R119, R120). -/
def execIndexedStore (c : CoreId) (gd ga gb : Reg) (sz : Size) (sx : Bool) (s : State) :
    Host.Outcome State Fault Refusal :=
  .next (storeInstr s c .long gd sz (fun k => selIndex (k.reg gb) sz) (badElem false gd sz 0 sx) fun k =>
    eaIndex (k.reg ga) (k.reg gb) sz)

/-- Bank load (R115, R117). -/
def execBankLoad (c : CoreId) (n : Fin 4) (j : Fin 8) (off : BitVec 16) (s : State) :
    Host.Outcome State Fault Refusal :=
  .next (loadInstr s c .short (bankReg j) .word (fun _ => 0) false none fun k => eaBank k.b[n] off)

/-- Bank store (R115, R117). -/
def execBankStore (c : CoreId) (n : Fin 4) (j : Fin 8) (off : BitVec 16) (s : State) :
    Host.Outcome State Fault Refusal :=
  .next (storeInstr s c .short (bankReg j) .word (fun _ => 0) none fun k => eaBank k.b[n] off)

/-- SETB (R118). -/
def execSetb (c : CoreId) (n : Fin 4) (imm : BitVec 32) (s : State) : Host.Outcome State Fault Refusal :=
  .next (runInstr s c (plain .long) fun t => .done (t.modCore c fun k => { k with b := k.b.set n imm }))

/-- A load or store of a core whose block does not answer, by its form (R94, R115, R116, R314). -/
def unansweredInstr (s : State) (c : CoreId) (acc : Unanswered) : State :=
  let a := w48 acc.addr
  let run (d : Shape) (g : Core → Access) : State :=
    runInstr s c d fun t => startAccess t c { g (t.core c) with silent := true }
  match acc.form, acc.write with
  | .word f, false => run (plain f) fun _ => loadAccess (formLen f) a .word (.load acc.reg .word 0 false)
  | .word f, true => run (plain f) fun k => storeAccess (formLen f) a (k.reg acc.reg) 0 .word 0 .store
  | .dword, false => run { plain .long with bad := badElem true acc.reg .dword 0 false } fun _ =>
      loadAccess 2 a .dword (.load acc.reg .dword 0 false)
  | .dword, true => run { plain .long with bad := badElem false acc.reg .dword 0 false } fun k =>
      storeAccess 2 a (k.reg acc.reg) (k.reg (pairHi acc.reg)) .dword 0 .store
  | .stack, false => if (s.core c).reg 31 = a then run (plain .short) fun _ => loadAccess 1 a .word (.pop acc.reg) else s
  | .stack, true =>
    if (s.core c).reg 31 - 1 = a then run (plain .short) fun k => storeAccess 1 a (k.reg acc.reg) 0 .word 0 .push else s

/-- DEVICE_ACCESS_TIMEOUT (R314): the block that holds a register does not answer. A core meets it in the load or store that
stands at its PC, a double-word one for each of its words; a POP or PUSH reaches the address that dsp gives. A read of the
debug port or the PCIe host returns zero, and a write of either is dropped. -/
def execDeviceAccessTimeout (rq : Requester) (acc : Unanswered) (s : State) : Host.Outcome State Fault Refusal :=
  let addr := acc.addr
  match rq with
  | .core c => .next (unansweredInstr s c acc)
  | _ =>
    if !canAccess s rq || addr < regBase || 0x810000000 ≤ addr then .next s
    else
      let t := timeoutAccess s rq addr
      .next (if acc.write then t else { t with readOut := 0 })

end Sys2Proof.Machine
end

