-- ==== Sys2Proof/Machine/Mul.lean ====
section
/-! DEFINITION. The multiply unit and the CRC, parity and bit-order instructions (R138 to R151). Each write of the unit
stands in its queue in program order until a MULTIPLY_UNIT_DUE command makes it fall due, so a read may come before or
after any due cycle, as R141 and R142 allow. -/

namespace Sys2Proof.Machine

open Sys2Proof

/-- A write of the unit issues behind the writes before it (R141, R143). -/
def MulUnit.issue (m : MulUnit) (e : MulEffect) : MulUnit := { m with queue := m.queue ++ [e] }

/-- The accumulator as the previous write in program order leaves it (R144). -/
def MulUnit.latestAcc (m : MulUnit) : BitVec 120 := m.drain.acc

/-- pst as the previous write in program order leaves it (R148). -/
def MulUnit.latestPst (m : MulUnit) : Word := m.drain.pst

/-- pst as a read sees it: GUARD follows the standing accumulator (R147, R148). -/
def MulUnit.readPst (m : MulUnit) : Word := setBit m.pst 0 (guardBit m.acc)

/-- plo as it stands (R138). -/
def MulUnit.plo (m : MulUnit) : Word := m.acc.extractLsb' 0 48

/-- phi as it stands (R138). -/
def MulUnit.phi (m : MulUnit) : Word := m.acc.extractLsb' 48 48

/-- pgd as it stands (R138). -/
def MulUnit.pgd (m : MulUnit) : BitVec 24 := m.acc.extractLsb' 96 24

/-- A write of pst (R147): SAT, SV, AOV, and RND unless it is 3. -/
def pstWritten (old v : Word) : Word :=
  let v := v &&& 0x3E
  if fld v 5 4 = 3 then setFld v 5 4 (fld old 5 4) else v

/-- An instruction that issues a write of the accumulator. -/
def mulInstr (s : State) (c : CoreId) (f : Form) (op : Core → BitVec 120 × Bool) : State :=
  runInstr s c (plain f) fun t => .done (t.modCore c fun k =>
    let r := op k
    { k with mul := k.mul.issue (.setAcc r.1 r.2) })

/-- acc ← an exact product (R139). -/
def mulSet (s : State) (c : CoreId) (f : Form) (ga gb : Reg) (p : Word → Word → Int) : State :=
  mulInstr s c f fun k => (BitVec.ofInt 120 (p (k.reg ga) (k.reg gb)), false)

/-- acc ← acc plus an exact term (R139, R144, R147). -/
def mulAdd (s : State) (c : CoreId) (f : Form) (ga gb : Reg) (p : Word → Word → Int) : State :=
  mulInstr s c f fun k => accOf (k.mul.latestAcc.toInt + p (k.reg ga) (k.reg gb))

/-- acc ← acc with one of its registers replaced (R139). -/
def mulMove (s : State) (c : CoreId) (ga : Reg) (put : BitVec 120 → Word → BitVec 120) : State :=
  mulInstr s c .long fun k => (put k.mul.latestAcc (k.reg ga), false)

/-- The signed product. -/
def prodS (a b : Word) : Int := a.toInt * b.toInt

/-- The unsigned product. -/
def prodU (a b : Word) : Int := (a.toNat * b.toNat : Nat)

/-- EXTA on the standing unit: the value, and whether it saturated (R146). -/
def extaW (m : MulUnit) (gb : Word) : Word × Bool :=
  let v := extaShift m.acc (fld gb 6 0) (fld m.pst 5 4)
  if bit m.pst 3 && extaOut v then (satW v, true) else (BitVec.ofInt 48 v, false)

/-- A saturation of EXTA sets SV behind the writes before it (R143, R148). -/
def MulUnit.noteSV (m : MulUnit) : MulUnit := if m.queue.isEmpty then m.apply .setSV else m.issue .setSV

/-! ## The multiply unit (R139, R140) -/

/-- MUL (R139, R140). -/
def execMul (c : CoreId) (f : Form) (ga gb : Reg) (s : State) : Host.Outcome State Fault Refusal :=
  .next (mulSet s c f ga gb prodS)

/-- MULU (R139). -/
def execMulu (c : CoreId) (ga gb : Reg) (s : State) : Host.Outcome State Fault Refusal :=
  .next (mulSet s c .long ga gb prodU)

/-- MAC (R139, R140). -/
def execMac (c : CoreId) (f : Form) (ga gb : Reg) (s : State) : Host.Outcome State Fault Refusal :=
  .next (mulAdd s c f ga gb prodS)

/-- MACU (R139). -/
def execMacu (c : CoreId) (ga gb : Reg) (s : State) : Host.Outcome State Fault Refusal :=
  .next (mulAdd s c .long ga gb prodU)

/-- MSU (R139). -/
def execMsu (c : CoreId) (ga gb : Reg) (s : State) : Host.Outcome State Fault Refusal :=
  .next (mulAdd s c .long ga gb fun a b => -prodS a b)

/-- MULH (R139). -/
def execMulh (c : CoreId) (ga gb : Reg) (s : State) : Host.Outcome State Fault Refusal :=
  .next (mulSet s c .long ga gb mulhSum)

/-- MACH (R139). -/
def execMach (c : CoreId) (ga gb : Reg) (s : State) : Host.Outcome State Fault Refusal :=
  .next (mulAdd s c .long ga gb mulhSum)

/-- MFPLO (R139 to R142). -/
def execMfplo (c : CoreId) (f : Form) (gd : Reg) (s : State) : Host.Outcome State Fault Refusal :=
  .next (regInstr s c (plain f) gd fun k => k.mul.plo)

/-- MFPHI (R139 to R142). -/
def execMfphi (c : CoreId) (f : Form) (gd : Reg) (s : State) : Host.Outcome State Fault Refusal :=
  .next (regInstr s c (plain f) gd fun k => k.mul.phi)

/-- MFPGD: sign-extended (R139, R141, R142). -/
def execMfpgd (c : CoreId) (gd : Reg) (s : State) : Host.Outcome State Fault Refusal :=
  .next (regInstr s c (plain .long) gd fun k => k.mul.pgd.signExtend 48)

/-- EXTA (R139, R141, R142, R146, R148). -/
def execExta (c : CoreId) (gd gb : Reg) (s : State) : Host.Outcome State Fault Refusal :=
  .next (runInstr s c (plain .long) fun t => .done (t.modCore c fun k =>
    let r := extaW k.mul (k.reg gb)
    { k.setReg gd r.1 with mul := if r.2 then k.mul.noteSV else k.mul }))

/-- MTPLO (R139). -/
def execMtplo (c : CoreId) (ga : Reg) (s : State) : Host.Outcome State Fault Refusal :=
  .next (mulMove s c ga accSetLo)

/-- MTPHI (R139). -/
def execMtphi (c : CoreId) (ga : Reg) (s : State) : Host.Outcome State Fault Refusal :=
  .next (mulMove s c ga accSetHi)

/-- MTPGD (R139). -/
def execMtpgd (c : CoreId) (ga : Reg) (s : State) : Host.Outcome State Fault Refusal :=
  .next (mulMove s c ga accSetGd)

/-- CLRA (R139). -/
def execClra (c : CoreId) (s : State) : Host.Outcome State Fault Refusal :=
  .next (mulInstr s c .long fun _ => (0, false))

/-- MULTIPLY_UNIT_DUE: the oldest issued write of the core's unit falls due (R141, R143, R148). A core that checkstops
holds its registers (R271). -/
def execMultiplyUnitDue (c : CoreId) (s : State) : Host.Outcome State Fault Refusal :=
  .next (s.modCore c fun k =>
    match k.mul.queue with
    | [] => k
    | e :: t => if k.run = .checkstopped then k else { k with mul := { k.mul.apply e with queue := t } })

/-! ## CRC step, parity and bit order (R149 to R151) -/

/-- CRCB (R149, R151). -/
def execCrcb (c : CoreId) (p : Fin 2) (gd ga gb : Reg) (s : State) : Host.Outcome State Fault Refusal :=
  .next (regInstr s c (plain .long) gd fun k => crcStep k.cpoly[p] 8 (k.reg ga) (k.reg gb))

/-- CRCH (R149, R151). -/
def execCrch (c : CoreId) (p : Fin 2) (gd ga gb : Reg) (s : State) : Host.Outcome State Fault Refusal :=
  .next (regInstr s c (plain .long) gd fun k => crcStep k.cpoly[p] 24 (k.reg ga) (k.reg gb))

/-- CRCW (R149, R151). -/
def execCrcw (c : CoreId) (p : Fin 2) (gd ga gb : Reg) (s : State) : Host.Outcome State Fault Refusal :=
  .next (regInstr s c (plain .long) gd fun k => crcStep k.cpoly[p] 48 (k.reg ga) (k.reg gb))

/-- PAR (R149). -/
def execPar (c : CoreId) (gd ga : Reg) (s : State) : Host.Outcome State Fault Refusal :=
  .next (regInstr s c (plain .long) gd fun k => parW (k.reg ga))

/-- PARH (R149). -/
def execParh (c : CoreId) (gd ga : Reg) (s : State) : Host.Outcome State Fault Refusal :=
  .next (regInstr s c (plain .long) gd fun k => parhW (k.reg ga))

/-- PARB (R149). -/
def execParb (c : CoreId) (gd ga : Reg) (s : State) : Host.Outcome State Fault Refusal :=
  .next (regInstr s c (plain .long) gd fun k => parbW (k.reg ga))

/-- BREV8 (R149). -/
def execBrev8 (c : CoreId) (gd ga : Reg) (s : State) : Host.Outcome State Fault Refusal :=
  .next (regInstr s c (plain .long) gd fun k => brevG 8 (k.reg ga))

/-- BREV24 (R149). -/
def execBrev24 (c : CoreId) (gd ga : Reg) (s : State) : Host.Outcome State Fault Refusal :=
  .next (regInstr s c (plain .long) gd fun k => brevG 24 (k.reg ga))

/-- BREV48 (R149). -/
def execBrev48 (c : CoreId) (gd ga : Reg) (s : State) : Host.Outcome State Fault Refusal :=
  .next (regInstr s c (plain .long) gd fun k => brevG 48 (k.reg ga))

end Sys2Proof.Machine
end

