-- ==== Sys2Proof/Machine/Net.lean ====
section
/-! DEFINITION. The coherence messages of R382 as commands: the arrival of a request at its home slice, of a snoop at an
agent, of an answer at the slice, and of a grant at its requester; and the returns of the DRAM controllers. -/

namespace Sys2Proof.Machine

open Sys2Proof

/-! ## Requests (R374 to R377, R383) -/

/-- The physical word that a word of an application core stands for as a read ahead sees it: its TLB, or the physical
regime, maps it with the permission, to normal write-back or write-through memory (R254, R255). No walk runs. -/
def aheadWord (s : State) (c : CoreId) (why : ReadFor) (va : Nat) : Option Nat :=
  let k := s.core c
  let r := regimeOf k
  let kind := if why = .fetch then 0 else 1
  let plainType (t : MemType) : Bool := t = .writeBack || t = .writeThrough
  if r.phys then (if (physType s k va).any plainType then some va else none)
  else (if why = .fetch then k.tlb.itlb else k.tlb.dtlb).findSome? fun e =>
    if tlbMatch r (fld k.asid 15 0) va e && !e.bad then
      match fromEntry s k r (w48 va) kind e with
      | .ok x => if plainType x.type then some x.pa else none
      | .error _ => none
    else none

/-- A line that an application core's TLB, or the physical regime, maps so. -/
def mapsAhead (s : State) (c : CoreId) (l : Nat) (why : ReadFor) : Bool :=
  let k := s.core c
  if (regimeOf k).phys then decide (aheadWord s c why (8 * l) = some (8 * l))
  else (if why = .fetch then k.tlb.itlb else k.tlb.dtlb).any fun e =>
    let size := if e.big then 2 ^ 24 else 4096
    decide ((aheadWord s c why (e.vpage * size + 8 * l % size)).map (· / 8) = some l)

/-- A word of code as it stands in DRAM now; none where it stands elsewhere or is not mapped. -/
def codeWord (s : State) (c : CoreId) (w : Nat) : Option Word :=
  let pa := match c with
    | .app _ => aheadWord s c .fetch w
    | _ => some w
  (pa.filter fun a => a < memTop s && !isCompl s a).map fun a => (peekWord s a).1

/-- Half 0 of a word is a short branch, CALL or RET (R98, R103, R106): its delay slot is half 1 (R225). -/
def shortTransfer (w : Word) : Bool := !bit w 0 && !bit w 1 && 12 ≤ fld w 6 2 && fld w 6 2 ≤ 14

/-- The words that a core may fetch which fetches nothing past a delay slot (R225, R258, R259): that of its PC; and the next,
where the PC's instruction or the slot of its branch may end, unless its slot stands at the PC or half 0 holds a short
branch there. -/
def nearWords (s : State) (c : CoreId) : List Nat :=
  let k := s.core c
  let w := (k.pc >>> 1).toNat
  let past := k.slot.isSome || (!bit k.pc 0 && match codeWord s c w with
    | some v => shortTransfer v
    | none => true)
  if past then [w] else [w, w + 1]

/-- The line holds code at the PC of a core. -/
def nearLine (s : State) (c : CoreId) (l : Nat) : Bool :=
  (nearWords s c).any fun w =>
    match c with
    | .app _ => decide ((aheadWord s c .fetch w).map (· / 8) = some l)
    | .frond i => frondPermits s i.val w true false && decide (w / 8 = l)
    | .medulla => decide (w / 8 = l)

/-- A core may send an RdS that no instruction of it waits for (R254 to R259, R286, R289): a fetch, or a speculative load or
prefetch. A guarded application core, a Frond core and the Medulla core fetch nothing past a delay slot and read nothing
speculatively. -/
def readsAhead (s : State) (ag l : Nat) (why : ReadFor) : Bool :=
  match coreOfAgent ag with
  | none => false
  | some c =>
    let k := s.core c
    why ≠ .demand && k.run = .running && coreClocked s c && !deadAgent s ag && (cacheLine s ag l).isNone &&
    8 * l + 7 < memTop s && !isCompl s (8 * l) &&
    match c with
    | .app _ => if k.gx then why = .fetch && nearLine s c l else mapsAhead s c l why
    | _ => why = .fetch && nearLine s c l

/-- Sends it: the line waits in IS (R378, R381). One away from the PC is a wrong-path line of an application core (R254,
R713). -/
def sendAhead (s : State) (ag l : Nat) (why : ReadFor) : State :=
  let twin := isTwin s (8 * l)
  let fetching := decide (why = .fetch)
  let a := outerArray ag fetching
  let need := if twin then 2 else 1
  let astray := match coreOfAgent ag with
    | some (.app i) => !(fetching && nearLine s (.app i) l)
    | _ => false
  let s := makeRoom s ag l a need false 3
  if hasRoom s ag l a need then
    let s := putLine (if astray then count s ag 0x1F else s) (awaited ag l .IS twin fetching)
    send s { mkMsg .RdS ag l with twin := twin, spec := why = .speculative, isFetch := fetching }
  else s

/-- RDS (R383, R384): the agent's RdS in flight arrives, or one that it sends ahead. -/
def execRdS (src : Fin 33) (why : ReadFor) (line : Nat) (s : State) : Host.Outcome State Fault Refusal :=
  .next (requestArrives (if (takeMsg s .RdS src.val line).isNone && readsAhead s src.val line why
    then sendAhead s src.val line why else s) .RdS src.val line)

def execRdU (src : Fin 33) (line : Nat) (s : State) : Host.Outcome State Fault Refusal :=
  .next (requestArrives s .RdU src.val line)
def execUpg (src : Fin 33) (line : Nat) (s : State) : Host.Outcome State Fault Refusal :=
  .next (requestArrives s .Upg src.val line)
def execRdUZ (src : Fin 33) (line : Nat) (s : State) : Host.Outcome State Fault Refusal :=
  .next (requestArrives s .RdUZ src.val line)
def execRdNC (src : Fin 33) (line : Nat) (s : State) : Host.Outcome State Fault Refusal :=
  .next (requestArrives s .RdNC src.val line)
def execWrNC (src : Fin 33) (line : Nat) (s : State) : Host.Outcome State Fault Refusal :=
  .next (requestArrives s .WrNC src.val line)
def execWrThru (src : Fin 33) (line : Nat) (s : State) : Host.Outcome State Fault Refusal :=
  .next (requestArrives s .WrThru src.val line)
def execAtomF (src : Fin 33) (line : Nat) (s : State) : Host.Outcome State Fault Refusal :=
  .next (requestArrives s .AtomF src.val line)
def execClean (src : Fin 33) (line : Nat) (s : State) : Host.Outcome State Fault Refusal :=
  .next (requestArrives s .Clean src.val line)
def execFlush (src : Fin 33) (line : Nat) (s : State) : Host.Outcome State Fault Refusal :=
  .next (requestArrives s .Flush src.val line)

/-- A line of DRAM that can be asked for. -/
def dramLine (s : State) (l : Nat) : Bool := 8 * l + 7 < memTop s

/-- A request of the I/O bridge, agent 33, reaches its home slice; it names the data line of a pair (R369, R381). One that a
slice refused, and that is sent again, comes first (R377); what its channel does not deliver yet waits with the bridge. -/
def bridgeRequest (s : State) (m : Msg) : State :=
  if clockStopped s 63 then s
  else match takeMsg s m.type 33 m.line with
  | some (x, s) => accept s x
  | none =>
    if laneOpen s m && dramLine s m.line && dataLine s m.line = m.line then
      let twin := isTwin s (8 * m.line)
      issue s { m with twin := twin, data := pairData twin m.data }
    else s

/-- Whole words of a bridge's write. -/
def wholeWords (d : List Word) : LineData := (upto 8).map fun i => (d.getD i 0, false)

/-- RDIO (R383). -/
def execRdIO (line : Nat) (s : State) : Host.Outcome State Fault Refusal := .next (bridgeRequest s (mkMsg .RdIO 33 line))

/-- WRSTASH (R391): a target that is no application core makes it an invalidating write. -/
def execWrStash (line : Nat) (wmask : BitVec 8) (d : List Word) (tgt : Nat) (s : State) : Host.Outcome State Fault Refusal :=
  .next (bridgeRequest s { stashMsg line tgt with wmask := wmask.toNat, data := wholeWords d })

/-- WRINV (R391). -/
def execWrInv (line : Nat) (wmask : BitVec 8) (d : List Word) (s : State) : Host.Outcome State Fault Refusal :=
  .next (bridgeRequest s { mkMsg .WrInv 33 line with wmask := wmask.toNat, data := wholeWords d })

def execPutM (src : Fin 33) (line : Nat) (s : State) : Host.Outcome State Fault Refusal :=
  .next (putArrives s .PutM src.val line)
def execPutE (src : Fin 33) (line : Nat) (s : State) : Host.Outcome State Fault Refusal :=
  .next (putArrives s .PutE src.val line)
def execPutS (src : Fin 33) (line : Nat) (s : State) : Host.Outcome State Fault Refusal :=
  .next (putArrives s .PutS src.val line)

/-! ## Snoops at their agents (R59, R378, R385, R392) -/

def execSnpS (agent : Fin 33) (line : Nat) (s : State) : Host.Outcome State Fault Refusal :=
  .next (snoopCmd s .SnpS agent.val line)
def execSnpInv (agent : Fin 33) (line : Nat) (s : State) : Host.Outcome State Fault Refusal :=
  .next (snoopCmd s .SnpInv agent.val line)
def execSnpData (agent : Fin 33) (line : Nat) (s : State) : Host.Outcome State Fault Refusal :=
  .next (snoopCmd s .SnpData agent.val line)
def execSnpClean (agent : Fin 33) (line : Nat) (s : State) : Host.Outcome State Fault Refusal :=
  .next (snoopCmd s .SnpClean agent.val line)

/-- SNPSTASH (R392). -/
def execSnpStash (agent : Fin 33) (line : Nat) (s : State) : Host.Outcome State Fault Refusal :=
  .next (snoopCmd s .SnpStash agent.val line)

/-! ## Answers at the home slice (R383, R388, R392, R408) -/

/-- RSPACK (R383, R392). -/
def execRspAck (agent : Fin 33) (line : Nat) (s : State) : Host.Outcome State Fault Refusal :=
  .next (rspAckArrives s agent.val line)

/-- RSPDATA (R383). -/
def execRspData (agent : Fin 33) (line : Nat) (s : State) : Host.Outcome State Fault Refusal :=
  .next (rspDataArrives s agent.val line)

/-- RSPEIF (R388, R408). -/
def execRspEIF (agent : Fin 33) (line : Nat) (s : State) : Host.Outcome State Fault Refusal :=
  .next (rspEIFArrives s agent.val line)

/-- RSPDECLINE (R392). -/
def execRspDecline (agent : Fin 33) (line : Nat) (s : State) : Host.Outcome State Fault Refusal :=
  .next (rspDeclineArrives s agent.val line)

/-- CMPACK (R374): BUSY ends, requests that wait start, and walks that wait for the line go on. -/
def execCmpAck (agent : Fin 34) (line : Nat) (s : State) : Host.Outcome State Fault Refusal :=
  .next (retryBlocked (ackArrives s agent.val line))

/-! ## Grants at the requester (R378, R382) -/

/-- The requester acknowledges (R374). -/
def sendAck (s : State) (m : Msg) : State := send s { mkMsg .CmpAck m.agent m.line with twin := m.twin, txn := m.txn }

/-- The near atomic that waits asked for the line of a grant, and the grant needed a snoop to another agent: it is contended
(R403). -/
def markContended (s : State) (c : CoreId) (m : Msg) : State :=
  let mark (w : Option Waiting) : Option Waiting := match w with
    | some (.access a) =>
      if m.snooped && (m.req = .RdU || m.req = .Upg) && a.asked = some m.line then some (.access { a with contended := true })
      else w
    | w => w
  s.modCore c fun k => { k with waiting := mark k.waiting, abandoned := k.abandoned.filterMap fun w => mark (some w) }

/-- The words of an uncached read reach the access that waits for them. -/
def giveWords (s : State) (c : CoreId) (m : Msg) : State :=
  let words := (upto 8).map fun i => (8 * m.line + i, m.data.getD i (0, false))
  s.modCore c fun k => match k.waiting with
    | some (.access a) => { k with waiting := some (.access { a with got := a.got ++ words }) }
    | _ => k

/-- A line zeroed by DC.ZERO stands in L1D (R398). -/
def zeroedInL1 (s : State) (ag l : Nat) : State :=
  if ag < 16 then enterL1 s ag l .l1d else modLine s ag l fun e => { e with inL1 := true }

/-- A line arrives at its requester (R378): installed, or its words handed to the waiting uncached load. -/
def dataAt (s : State) (c : CoreId) (m : Msg) : State :=
  let ag := coreNum c
  match m.req with
  | .RdNC => afterDrain (giveWords s c m) c
  | .RdUZ => maintenanceDone (zeroedInL1 (installLine s ag m) ag m.line) c m.line
  | _ => afterDrain (markContended (installLine s ag m) c m) c

/-- DATA (R382): the requester takes the line and acknowledges; the bridge's engines go on with what waited. -/
def execData (agent : Fin 34) (line : Nat) (s : State) : Host.Outcome State Fault Refusal :=
  match takeMsg s .Data agent.val line with
  | none => .next s
  | some (m, s) =>
    let s := sendAck s m
    match coreOfAgent agent.val with
    | some c => .next (dataAt s c m)
    | none => .next (bridgeGoesOn (answerStep s m))

/-- GRANTU (R382, R383): the copy in SM becomes E. -/
def execGrantU (agent : Fin 33) (line : Nat) (s : State) : Host.Outcome State Fault Refusal :=
  match takeMsg s .GrantU agent.val line with
  | none => .next s
  | some (m, s) =>
    let s := modLine (sendAck s m) agent.val line fun e => if e.st = .SM then { e with st := .E } else e
    match coreOfAgent agent.val with
    | some c => .next (afterDrain (markContended s c m) c)
    | none => .next s

/-- PUTACK (R378, R379): the line ends in I; what waited for the eviction goes on. -/
def execPutAck (agent : Fin 33) (line : Nat) (s : State) : Host.Outcome State Fault Refusal :=
  let t := putAckArrives s agent.val line
  match coreOfAgent agent.val with
  | some c => .next (afterDrain t c)
  | none => .next t

/-- The write of the oldest store-buffer entry has completed at the home slice: a written-through line takes it too,
and the entry leaves (R383, R396). -/
def throughDone (s : State) (c : CoreId) (line : Nat) : State :=
  match (s.core c).storeBuffer with
  | e :: _ =>
    if e.sent then
      let s := if e.type = .writeThrough then
          modLine s (coreNum c) line fun x => { x with data := storeWord x.data (e.pa % 8) e.data e.mask }
        else s
      popStore s c
    else s
  | [] => s

/-- The core waits for a far atomic of one of its instructions. -/
def atomicWaits (k : Core) : Bool :=
  (findOlder k Waiting.farAtomic).isSome || (k.waiting.bind Waiting.farAtomic).isSome

/-- CMP (R382, R393, R403): a write, an atomic or a maintenance request completes at its requester. A far atomic of a table
walk (R402) leaves its access to be tried again. -/
def execCmp (agent : Fin 34) (line : Nat) (s : State) : Host.Outcome State Fault Refusal :=
  match takeMsg s .Cmp agent.val line with
  | none => .next s
  | some (m, s) =>
    let s := sendAck s m
    match coreOfAgent agent.val with
    | some c =>
      match m.req with
      | .AtomF => .next (if atomicWaits (s.core c) then atomicDone s c m else afterDrain s c)
      | .WrNC => .next (throughDone s c line)
      | .WrThru => .next (throughDone s c line)
      | _ => .next (maintenanceDone s c line)
    | none => .next (bridgeGoesOn (answerStep s m))

/-- RETRY (R377): the requester holds its request for the back-off. -/
def execRetry (agent : Fin 34) (line : Nat) (s : State) : Host.Outcome State Fault Refusal :=
  match takeMsg s .Retry agent.val line with
  | none => .next s
  | some (m, s) =>
    match s.coh.refused.find? fun x => x.agent = m.agent && x.line = m.line && x.txn = m.txn with
    | none => .next s
    | some x => .next { s with coh := { s.coh with
        refused := s.coh.refused.erase x, retries := s.coh.retries ++ [{ x with n := x.n + 1 }] } }

/-- RETRY_BACKOFF_EXPIRY (R377): the request is sent again. -/
def execRetryBackoffExpiry (agent : Fin 34) (line : Nat) (s : State) : Host.Outcome State Fault Refusal :=
  match s.coh.retries.find? fun m => m.agent = agent.val && m.line = line with
  | none => .next s
  | some m => .next (send { s with coh := { s.coh with retries := s.coh.retries.erase m } } m)

/-- SNOOP_TIMEOUT (R406, R407); an agent that it makes dead acknowledges no broadcast (R363). -/
def execSnoopTimeout (agent : Fin 33) (line : Nat) (s : State) : Host.Outcome State Fault Refusal :=
  .next (settleSyncs (timeoutAt s agent.val line))

/-! ## DRAM controllers (R422 to R424, R443 to R447) -/

/-- DRAM_READ_COMPLETE (R422): the read that a transaction waits for returns, with the bits it found flipped. -/
def execDramReadComplete (line : Nat) (flips again : List (BitVec 64)) (s : State) : Host.Outcome State Fault Refusal :=
  .next (dramReturns s line flips again)

/-- A controller's own access to a line, in an unreserved slot, has to wait: its domain stands still, a row copy runs
(R445), or a refresh is owed ahead of it (R443). -/
def slotWaits (s : State) (l : Nat) : Bool :=
  clockStopped s (26 + (placeOf s (8 * l)).1) || rowCopying s l || refreshFirst s l

/-- CORRECTED_WRITE_BACK (R424): the oldest queued write-back of a channel that can be written is. -/
def execCorrectedWriteBack (ch : Fin 8) (s : State) : Host.Outcome State Fault Refusal :=
  match s.memctl.writeBacks.find? fun e => (placeOf s (8 * e.1)).1 = ch.val && !slotWaits s e.1 with
  | some e =>
    let s := { s with memctl := { s.memctl with writeBacks := s.memctl.writeBacks.filter fun x => x.1 ≠ e.1 } }
    .next (dramWriteLine s e.1 e.2)
  | none => .next s

/-- REFRESH (R443): the next bank pair of a channel, once its interval has passed; a postponed one issues later. -/
def execRefresh (ch : Fin 8) (s : State) : Host.Outcome State Fault Refusal :=
  let c := ch.val
  if s.memctl.unreadable || clockStopped s (26 + c) || !(channelsIn s).contains c || refreshDebt s c = 0 then .next s
  else
    .next (count { s with memctl := { s.memctl with
      refreshPair := modAt s.memctl.refreshPair c fun p => (p + 1) % 8
      refreshDue := modAt s.memctl.refreshDue c fun d => d + refreshInterval s } } (48 + c) 0x54)

/-- The scrub skips complement lines (R444), a region at a time. -/
def scrubSkip (s : State) (l : Nat) : Nat → Nat
  | 0 => l
  | n + 1 =>
    match regionAt s (8 * l) with
    | some (b, p, 1) => if b + p / 2 * 4096 ≤ 8 * l then scrubSkip s ((b + p * 4096) / 8) n else l
    | _ => l

/-- PATROL_SCRUB (R444, R452, R455): the next line, or pair, is read and decoded; past MEM_TOP a pass ends. A
persistent mismatch is reported and left. -/
def execPatrolScrub (flips again : List (BitVec 64)) (s : State) : Host.Outcome State Fault Refusal :=
  let l := regF s aMemScrub 32 0
  if !regB s aMemCtl 15 || s.memctl.unreadable || slotWaits s l || (isTwin s (8 * l) && slotWaits s (complLine s l)) then
    .next s
  else
    let (_, s) := dramRead s l flips again
    let n := scrubSkip s (l + 1) 65
    if memTop s ≤ 8 * n then .next (assertEdge (regAddSat (regFld s aMemScrub 32 0 0) aMemScrub 47 40 1) 209)
    else .next (regFld s aMemScrub 32 0 n)

/-- ROW_COPY_COMPLETE (R445, R457, R459): the entry serves the row. -/
def execRowCopyComplete (ch k : Fin 8) (s : State) : Host.Outcome State Fault Refusal :=
  if s.memctl.copies.contains (ch.val, k.val) && !clockStopped s (26 + ch.val) then
    let s := { s with memctl := { s.memctl with copies := s.memctl.copies.erase (ch.val, k.val) } }
    .next (shadowCount (regFld s (aMemShadow ch.val k.val) 47 47 1) ch.val)
  else .next s

/-- PERIODIC_ZQ_RECALIBRATION (R447): a result outside its range retires the channel. -/
def execPeriodicZqRecalibration (ch : Fin 8) (outOfRange : Bool) (s : State) : Host.Outcome State Fault Refusal :=
  if outOfRange && !s.memctl.unreadable && !clockStopped s (26 + ch.val) && (channelsIn s).contains ch.val then
    .next (retireChannel s ch.val)
  else .next s

end Sys2Proof.Machine
end

