-- ==== Sys2Proof/Machine/Special.lean ====
section
/-! DEFINITION. The special registers and their access (R125, R126, R147, R150, R153, R175 to R182, R263, R275, R332,
R333, R503, R722). -/

namespace Sys2Proof.Machine

open Sys2Proof

/-- A row of R180: the profiles that have the register, its read level, and its write level, none where it is
read-only. -/
structure SpecReg where
  held : Profile → Bool
  rd : Nat
  wr : Option Nat

/-- The table of R180. -/
def specReg (n : Nat) : Option SpecReg :=
  let all (rd wr : Nat) : Option SpecReg := some ⟨fun _ => true, rd, some wr⟩
  let onA (rd wr : Nat) : Option SpecReg := some ⟨fun p => p = .A, rd, some wr⟩
  if n = 0x00 then all 0 1
  else if n = 0x01 then some ⟨fun p => p ≠ .M, 0, some 0⟩
  else if n = 0x02 then all 0 1
  else if n = 0x03 || n = 0x04 || n = 0x05 then all 1 1
  else if n = 0x06 then all 0 0
  else if 0x08 ≤ n && n ≤ 0x16 then all 0 0
  else if 0x18 ≤ n && n ≤ 0x1B then all 0 0
  else if 0x20 ≤ n && n ≤ 0x25 then all 1 1
  else if 0x28 ≤ n && n ≤ 0x2D then all 2 2
  else if 0x30 ≤ n && n ≤ 0x35 then all 3 3
  else if n = 0x40 || n = 0x41 then onA 1 1
  else if n = 0x42 || n = 0x43 then onA 2 2
  else if n = 0x48 then onA 0 1
  else if n = 0x50 || n = 0x51 || n = 0x70 then some ⟨fun _ => true, 0, none⟩
  else if n = 0x60 then some ⟨fun p => p = .F, 1, some 1⟩
  else if n = 0x61 then some ⟨fun p => p = .F, 0, some 1⟩
  else none

/-! ## Reading (R176 to R181, R220) -/

/-- status as a read sees it: the latest value written (R220). -/
def Core.latestStatus (k : Core) : Word := match k.statusQueue.getLast? with
  | some w => w.value
  | none => k.status

/-- A save register by its offset in its set (R180, R275). -/
def SaveSet.get (v : SaveSet) (o : Nat) : Word :=
  match o with
  | 0 => v.epc
  | 1 => v.est
  | 2 => v.ecause
  | 3 => v.eaddr
  | 4 => v.evec
  | _ => v.escr

/-- coreid (R181). -/
def coreidOf (c : CoreId) : Word :=
  match c with
  | .app i => w48 i.val
  | .frond i => mk 7 6 1 ||| w48 i.val
  | .medulla => mk 7 6 2

/-- fstat with the group's fields as they stand (R503). -/
def fstatOf (s : State) (c : CoreId) : Word :=
  let v := (s.core c).fstat
  match c with
  | .frond i =>
    match groupOf s i.val with
    | some g =>
      let v := if frondState s i.val = 1 then setFld v 47 36 (regF s aTickCount 11 0) else v
      setFld (setFld v 31 30 (regF s (aGrpStat g) 1 0)) 29 29 (regF s (aGrpStat g) 5 5)
    | none => v
  | _ => v

/-- The save set whose registers begin at a number. -/
def setIx (n : Nat) : Fin 3 := ⟨(n - 0x20) / 8 % 3, Nat.mod_lt _ (by decide)⟩

/-- What a read of a special register delivers; it has no effect of its own. -/
def specValue (s : State) (c : CoreId) (n : Nat) : Word :=
  let k := s.core c
  if n = 0x00 then k.latestStatus
  else if n = 0x01 then k.fcs
  else if n = 0x02 then k.rsp
  else if n = 0x03 then k.rss
  else if n = 0x04 then k.rslo
  else if n = 0x05 then k.rshi
  else if n = 0x06 then k.lctl
  else if n ≤ 0x10 then
    let i := lvl ((n - 8) / 3)
    match (n - 8) % 3 with
    | 0 => k.ls[i]
    | 1 => k.le[i]
    | _ => k.lc[i]
  else if n = 0x11 then k.mul.plo
  else if n = 0x12 then k.mul.phi
  else if n = 0x13 then k.mul.pgd.zeroExtend 48
  else if n = 0x14 then k.mul.readPst
  else if n = 0x15 then k.cpoly[0]
  else if n = 0x16 then k.cpoly[1]
  else if n ≤ 0x1B then (k.b[n % 4]'(Nat.mod_lt _ (by decide))).zeroExtend 48
  else if n ≤ 0x35 then k.save[setIx n].get ((n - 0x20) % 8)
  else if n = 0x40 then k.asid
  else if n = 0x41 then k.ptb1
  else if n = 0x42 then k.vmid
  else if n = 0x43 then k.ptb2
  else if n = 0x48 then k.ucnt
  else if n = 0x50 then s.tbl
  else if n = 0x51 then k.tbhLatch
  else if n = 0x60 then k.fentry
  else if n = 0x61 then fstatOf s c
  else coreidOf c

/-- A read of tbl latches the matching high word (R179). -/
def noteRead (s : State) (c : CoreId) (n : Nat) : State :=
  if n = 0x50 then s.modCore c fun k => { k with tbhLatch := s.tbh } else s

/-! ## Writing (R126, R150, R153, R176 to R178, R263, R503) -/

/-- The field limits of status for a writer at level `pl` (R263). -/
def statusLimited (pl : Nat) (old v : Word) : Word :=
  let v := v &&& 0x1F73
  let v := if pl < 2 then setFld v 12 12 (fld old 12 12) else v
  let v := if pl < 3 then setFld v 11 11 (fld old 11 11) else v
  let v := if topLevel pl < fld v 10 8 then setFld v 10 8 (fld old 10 8) else v
  if pl < fld v 1 0 then setFld v 1 0 (fld old 1 0) else v

/-- The instructions that still run under the old mode (R218); the Medulla core as a Frond core. -/
def statusDelay (c : CoreId) : Nat := match c with
  | .app _ => 3
  | _ => 2

/-- A field that keeps its old value where the new one breaks a rule. -/
def keepIf (bad : Bool) (v old : Word) (hi lo : Nat) : Word := if bad then setFld v hi lo (fld old hi lo) else v

/-- lctl as written at level `pl` (R152, R153). -/
def lctlWritten (pl : Nat) (old v : Word) : Word :=
  let own (v : Word) (l : Nat) : Word := keepIf (pl < fld v (9 + 2 * l) (8 + 2 * l)) v old (9 + 2 * l) (8 + 2 * l)
  own (own (own (v &&& (mask 13 8 ||| mask 1 0)) 0) 1) 2

/-- A polynomial register as written (R150). -/
def cpolyWritten (old v : Word) : Word :=
  let v := v &&& (mask 40 40 ||| mask 37 0)
  keepIf (fld v 37 32 = 0 || 32 < fld v 37 32) v old 37 32

/-- fcs as written (R125, R126). -/
def fcsWritten (old v : Word) : Word :=
  let v := v &&& mask 7 0
  keepIf (4 < fld v 2 0) v old 2 0

/-- fstat as written at level `pl`: SST alone, without VM (R503). -/
def fstatWritten (pl : Nat) (old v : Word) : Word :=
  setFld old 12 0 (fld (statusLimited pl old v) 11 0)

/-- A save register written (R275). -/
def SaveSet.put (x : SaveSet) (o : Nat) (v : Word) : SaveSet :=
  match o with
  | 0 => { x with epc := v }
  | 1 => { x with est := v }
  | 2 => { x with ecause := v &&& (mask 39 12 ||| mask 9 8 ||| mask 5 0) }
  | 3 => { x with eaddr := v }
  | 4 => { x with evec := v &&& mask 47 9 }
  | _ => { x with escr := v }

/-- The core after a write of a special register by a core at its own level. -/
def Core.putSpec (k : Core) (c : CoreId) (n : Nat) (v : Word) : Core :=
  let acc (a : BitVec 120) : Core := { k with mul := k.mul.issue (.setAcc a false) }
  if n = 0x00 then
    { k with statusQueue := k.statusQueue ++ [⟨statusLimited k.pl k.latestStatus v, statusDelay c⟩] }
  else if n = 0x01 then { k with fcs := fcsWritten k.fcs v }
  else if n = 0x02 then { k with rsp := v }
  else if n = 0x03 then { k with rss := v }
  else if n = 0x04 then { k with rslo := v }
  else if n = 0x05 then { k with rshi := v }
  else if n = 0x06 then { k with lctl := lctlWritten k.pl k.lctl v }
  else if n ≤ 0x10 then
    let i := lvl ((n - 8) / 3)
    match (n - 8) % 3 with
    | 0 => { k with ls := k.ls.set i v }
    | 1 => { k with le := k.le.set i v }
    | _ => { k with lc := k.lc.set i v }
  else if n = 0x11 then acc (accSetLo k.mul.latestAcc v)
  else if n = 0x12 then acc (accSetHi k.mul.latestAcc v)
  else if n = 0x13 then acc (accSetGd k.mul.latestAcc v)
  else if n = 0x14 then { k with mul := k.mul.issue (.writePst (pstWritten k.mul.latestPst v)) }
  else if n = 0x15 then { k with cpoly := k.cpoly.set 0 (cpolyWritten k.cpoly[0] v) }
  else if n = 0x16 then { k with cpoly := k.cpoly.set 1 (cpolyWritten k.cpoly[1] v) }
  else if n ≤ 0x1B then { k with b := k.b.set (n % 4) (v.extractLsb' 0 32) (Nat.mod_lt _ (by decide)) }
  else if n ≤ 0x35 then { k with save := k.save.set (setIx n) (k.save[setIx n].put ((n - 0x20) % 8) v) }
  else if n = 0x40 then { k with asid := v &&& 0xFFFF }.flushPredictors
  else if n = 0x41 then { k with ptb1 := v &&& (mask 47 24 ||| 1) }
  else if n = 0x42 then { k with vmid := v &&& 0xFFF }.flushPredictors
  else if n = 0x43 then { k with ptb2 := v &&& (mask 47 24 ||| 1) }
  else if n = 0x48 then { k with ucnt := v &&& 3 }
  else if n = 0x60 then { k with fentry := v &&& mask 36 0 }
  else { k with fstat := fstatWritten k.pl k.fstat v }

/-- A write of a special register: a read-only one ignores it (R13, R180). A write of vmid may change what the
controller presents (R308). -/
def putSpec (s : State) (c : CoreId) (n : Nat) (v : Word) : State :=
  match specReg n with
  | some ⟨_, _, some _⟩ =>
    let t := s.modCore c fun k => k.putSpec c n v
    if n = 0x42 then represent t (coreNum c) else t
  | _ => s

/-! ## The instructions (R175, R176) -/

/-- The value that MSSET and MSCLR combine with ga: for a register of the multiply unit the one that the previous write
in program order leaves (R144, R148), else the one read. -/
def baseValue (s : State) (c : CoreId) (n : Nat) : Word :=
  let m := (s.core c).mul.drain
  if n = 0x11 then m.plo
  else if n = 0x12 then m.phi
  else if n = 0x13 then m.pgd.zeroExtend 48
  else if n = 0x14 then m.pst
  else specValue s c n

/-- The checks of a special-register access (R176, R278). -/
def specShape (n : Nat) (rd wr : Bool) : Shape :=
  match specReg n with
  | none => { plain .long with bad := some 1 }
  | some r =>
    let w := match r.wr with
      | some l => l
      | none => r.rd
    { plain .long with held := r.held, level := Nat.max (if rd then r.rd else 0) (if wr then w else 0) }

/-- A special-register access completes and then writes: its own end test and the pair that it ends see the registers as
they stood, and the next instruction sees the write (R158, R159, R252). Where both change a loop register the write
stands. -/
def writeSpec (s : State) (c : CoreId) (n : Nat) (v : Word) : Body := .stay (putSpec (completeInstr s c 2) c n v)

/-- MSSET and MSCLR: one action (R175). -/
def specModify (s : State) (c : CoreId) (gd : Reg) (n : Nat) (ga : Reg) (op : Word → Word → Word) : State :=
  runInstr s c (specShape n true true) fun t =>
    let v := specValue t c n
    let a := (t.core c).reg ga
    writeSpec ((noteRead t c n).modCore c fun k => k.setReg gd v) c n (op (baseValue t c n) a)

/-- MFSR (R175). -/
def execMfsr (c : CoreId) (gd : Reg) (sr : BitVec 8) (s : State) : Host.Outcome State Fault Refusal :=
  .next (runInstr s c (specShape sr.toNat true false) fun t =>
    let v := specValue t c sr.toNat
    .done ((noteRead t c sr.toNat).modCore c fun k => k.setReg gd v))

/-- MTSR (R175). -/
def execMtsr (c : CoreId) (sr : BitVec 8) (ga : Reg) (s : State) : Host.Outcome State Fault Refusal :=
  .next (runInstr s c (specShape sr.toNat false true) fun t =>
    writeSpec t c sr.toNat ((t.core c).reg ga))

/-- MSSET (R175). -/
def execMsset (c : CoreId) (gd : Reg) (sr : BitVec 8) (ga : Reg) (s : State) : Host.Outcome State Fault Refusal :=
  .next (specModify s c gd sr.toNat ga fun v a => v ||| a)

/-- MSCLR (R175). -/
def execMsclr (c : CoreId) (gd : Reg) (sr : BitVec 8) (ga : Reg) (s : State) : Host.Outcome State Fault Refusal :=
  .next (specModify s c gd sr.toNat ga fun v a => v &&& ~~~a)

end Sys2Proof.Machine
end

