-- ==== Sys2Proof/Machine/Sys.lean ====
section
/-! DEFINITION. The system instructions, the barriers, cache and TLB maintenance, undefined encodings and machine checks
(R102, R276 to R285, R358 to R363, R398, R399). -/

namespace Sys2Proof.Machine

open Sys2Proof

/-! ## Calls, breakpoint, return, raise (R279 to R284) -/

/-- An instruction that completes and then raises its class (R280). -/
def callOut (s : State) (c : CoreId) (d : Shape) (cls : Nat) (code : BitVec 12) : State :=
  runInstr s c d fun t =>
    let t := completeInstr t c 1
    .stay (raiseAt t c (exc cls code.toNat) (t.core c).pc)

/-- A system call of the application profile (R279). -/
def appCall (level : Nat) : Shape := { plain .short with held := fun p => p = .A, level := level }

/-- SYSC (R157, R228, R279, R280): no end test. -/
def execSysc (c : CoreId) (code : BitVec 12) (s : State) : Host.Outcome State Fault Refusal :=
  .next (runInstr s c { appCall 0 with noSlot := true } fun t =>
    let t := completeAt t c ((t.core c).pc + 1)
    .stay (raiseAt t c (exc 0x08 code.toNat) (t.core c).pc))

/-- HCALL (R279, R280). -/
def execHcall (c : CoreId) (code : BitVec 12) (s : State) : Host.Outcome State Fault Refusal :=
  .next (callOut s c (appCall 1) 0x09 code)

/-- MCALL (R279, R280). -/
def execMcall (c : CoreId) (code : BitVec 12) (s : State) : Host.Outcome State Fault Refusal :=
  .next (callOut s c (appCall 1) 0x0A code)

/-- BRK (R279, R280). -/
def execBrk (c : CoreId) (code : BitVec 12) (s : State) : Host.Outcome State Fault Refusal :=
  .next (callOut s c (plain .short) 0x06 code)

/-- The status that RETX restores from a save set at level k (R283). -/
def returnStatus (k : Nat) (cur est : Word) : Word :=
  let n := est &&& 0x1F73
  let n := if k < 3 then setFld n 11 11 (fld cur 11 11) else n
  if k < 2 then setFld n 12 12 (fld cur 12 12) else n

/-- RETX (R282 to R285). -/
def execRetx (c : CoreId) (s : State) : Host.Outcome State Fault Refusal :=
  .next (runInstr s c { plain .short with noSlot := true } fun t =>
    let k := (t.core c).flushStatus
    if k.pl = 0 then .fault t (exc 0x02 1)
    else
      let sv := k.save[setIxOf k.pl]
      if k.pl < fld sv.est 1 0 then .fault t (exc 0x1A 1)
      else if topLevel k.pl < fld sv.est 10 8 then .fault t (exc 0x1A 2)
      else
        let k := { k with status := returnStatus k.pl k.status sv.est }.flushPredictors
        .stay (represent (completeAt (t.setCore c k) c sv.epc) (coreNum c)))
where
  setIxOf (pl : Nat) : Fin 3 := ⟨(pl - 1) % 3, Nat.mod_lt _ (by decide)⟩

/-- RAISE (R281): a class that R277 does not list, and classes 0x20 and 0x3F, are illegal. -/
def execRaise (c : CoreId) (ga gb : Reg) (s : State) : Host.Outcome State Fault Refusal :=
  let a := (s.core c).reg ga
  let bad := if (classLevel (fld a 5 0)).isSome then none else some 1
  .next (runInstr s c { plain .long with bad := bad, level := 3 } fun t =>
    .fault t (exc (fld a 5 0) (fld a 21 6) ((t.core c).reg gb)))

/-- UNDEFINED_ENCODING (R99, R102, R278): an encoding that the manual does not define; a half 1 with L = 1 is the long form
in half 1. The bits `w` of the encoding have no effect of their own. -/
def execUndefinedEncoding (c : CoreId) (f : Form) (_w : BitVec 48) (s : State) : Host.Outcome State Fault Refusal :=
  .next (runInstr s c { plain f with bad := some 1 } fun t => .done t)

/-! ## Errors in private and shared arrays (R276, R277, R356, R370) -/

/-- What a read of a cached word finds with bits of its code flipped (R366, R370). A word of the second half of a pair
stands at its complement address. -/
def readCached (s : State) (l w : Nat) (flips : BitVec 64) (d : LineData) : Option Decoded :=
  (d[w]?).map fun e =>
    let a := if w < 8 then 8 * l + w else 8 * complLine s l + (w - 8)
    decodeContainer (containerOf e.1 e.2 a ^^^ flips) a

/-- The word is corrected, or poisoned where it cannot be, and written back so (R370). -/
def damageWord (s : State) (l w : Nat) (flips : BitVec 64) (d : LineData) : LineData :=
  match readCached s l w flips d with
  | some r => d.set w (delivered r)
  | none => d

/-- A corrected word of a cache is counted (R370); no register shows the count. DESIGN CHOICE, log entry 156. -/
def noteCached (s : State) (l w : Nat) (flips : BitVec 64) (d : Option LineData) : State :=
  match d.bind (readCached s l w flips) with
  | some r => if r.out = .corrected then { s with coh := { s.coh with corrected := s.coh.corrected + 1 } } else s
  | none => s

/-- An entry of one of a core's TLBs has a parity error from now on (R356). -/
def spoilTlb (k : Core) (which : Fin 3) (n : Nat) : Core :=
  let spoil (l : List TlbEntry) : List TlbEntry := l.modify n fun e => { e with bad := true }
  match which with
  | 0 => { k with tlb := { k.tlb with itlb := spoil k.tlb.itlb } }
  | 1 => { k with tlb := { k.tlb with dtlb := spoil k.tlb.dtlb } }
  | 2 => { k with tlb := { k.tlb with l2 := spoil k.tlb.l2 } }

/-- MACHINE_CHECK: an error in a private or shared array of the clusters. An uncorrectable error in a core's private state is
a machine check: the first instruction not completed is the branch of a pair whose slot is not (R276, R277). A TLB entry
is spoilt (R356), a cached word is corrected or poisoned, and an L3 tag or a directory entry is module fault 3 (R370). -/
def execMachineCheck (at_ : ErrorSite) (s : State) : Host.Outcome State Fault Refusal :=
  match at_ with
  | .core c => if (s.core c).run = .running && coreClocked s c then .next (faultAt s c (exc 0x3E 0)) else .next s
  | .tlb i which n => .next (s.modCore (.app i) fun k => spoilTlb k which n)
  | .cached ag l w flips =>
    .next (modLine (noteCached s l w flips ((cacheLine s ag.val l).map (·.data))) ag.val l fun e =>
      { e with data := damageWord s l w flips e.data })
  | .l3 l w flips =>
    let t := noteCached s l w flips ((l3Find s l).map (·.data))
    .next { t with coh := { t.coh with
      l3 := s.coh.l3.map fun e => if e.line = l then { e with data := damageWord s l w flips e.data } else e } }
  | .slice h _ => if homeRuns s h.val then .next (moduleFault s 3) else .next s
where
  /-- A home slice acts: its quadrant is clocked. -/
  homeRuns (s : State) (h : Nat) : Bool := !clockStopped s (16 + h / 4)

/-! ## Events after which a TLBSYNC may complete (R362, R363) -/

/-- FRAME_TICK (R36, R38): power states commit at a tick. -/
def execFrameTick (raw : List RawSample) (s : State) : Host.Outcome State Fault Refusal :=
  .next (settleSyncs (frameTick s raw))

/-- CLOCK_FAULT (R57 to R59). -/
def execClockFault (d : Fin 64) (s : State) : Host.Outcome State Fault Refusal := .next (settleSyncs (clockFault s d.val))

/-- CHECKSTOP_RECORD (R271). -/
def execCheckstopRecord (c : CoreId) (s : State) : Host.Outcome State Fault Refusal :=
  .next (settleSyncs (checkstopRecord s c))

/-! ## Barriers (R395, R398) -/

/-- A barrier waits until the store buffer has drained; only application cores have one (R202, R395). On a Frond core it is
held at issue until what an abandoned frame left in flight has completed (R398, R475). -/
def barrierInstr (s : State) (c : CoreId) : State :=
  if !(s.core c).abandoned.isEmpty then s
  else runInstr s c (plain .long) fun t =>
    if (t.core c).storeBuffer.isEmpty then .done t
    else .stay (t.modCore c fun k => { k with waiting := some .barrier })

/-- FENCE (R398). -/
def execFence (c : CoreId) (s : State) : Host.Outcome State Fault Refusal := .next (barrierInstr s c)

/-- FENCE.IO (R398): every older device access of the model has completed at its device. -/
def execFenceIo (c : CoreId) (s : State) : Host.Outcome State Fault Refusal := .next (barrierInstr s c)

/-- FENCE.I (R398): the model holds no fetch queue. -/
def execFenceI (c : CoreId) (s : State) : Host.Outcome State Fault Refusal := .next (barrierInstr s c)

/-! ## Cache maintenance (R398, R399) -/

/-- A cache-maintenance instruction has no effect on a line of uncached, device or Sorus type (R399). -/
def dcIdle (t : MemType) : Bool := t = .uncached || isDevice t

/-- A cache-maintenance instruction on a physical word of a cached type. -/
def maintainAt (s : State) (c : CoreId) (req : MsgType) (op : RefOp) (pa : Nat) : Body :=
  match wayOf s c op pa with
  | .refused cause w => .done (violation s cause (coreNum c) (s.core c).pl op.writes w)
  | .memory => .stay (startMaintenance s c req (dataLine s (pa / 8)))
  | _ => .done s

/-- The D update of a cache-maintenance instruction that counts as a store (R343, R399). -/
def dcDirty (s : State) (c : CoreId) (va : Word) (kind : Nat) (x : Xlate) : Walked :=
  match c with
  | .app _ => setDirty s c va kind x
  | _ => .ok s x

/-- Translates, checks and acts; a table entry that changed is walked again. `s0` is the state before the instruction:
one whose table walk meets a busy line has not issued. -/
def dcBody (s0 : State) (c : CoreId) (va : Word) (req : MsgType) (kind : Nat) (op : RefOp) (s : State) : Nat → Body
  | 0 => .stay (unissue s0 s c)
  | n + 1 =>
    match translate s c va kind with
    | .fault s e _ => .fault s e
    | .ok s x =>
      if dcIdle x.type then .done s
      else match dcDirty s c va kind x with
        | .fault s e _ => .fault s e
        | .ok s _ => maintainAt s c req op x.pa
        | .again s => dcBody s0 c va req kind op s n
        | .wait s => .stay (unissue s0 s c)
    | .wait s => .stay (unissue s0 s c)
    | .again s => .stay (unissue s0 s c)

/-- DC.CLEAN, DC.FLUSH and DC.ZERO: translated and checked as an access of a kind on an application core (R399). -/
def dcInstr (s : State) (c : CoreId) (ga : Reg) (req : MsgType) (kind : Nat) (op : RefOp) : State :=
  runInstr s c { plain .long with held := fun p => p ≠ .F, level := 1 } fun t =>
    dcBody s c ((t.core c).reg ga) req kind op t 3

/-- DC.CLEAN (R398, R399). -/
def execDcClean (c : CoreId) (ga : Reg) (s : State) : Host.Outcome State Fault Refusal :=
  .next (dcInstr s c ga .Clean 1 .read)

/-- DC.FLUSH (R398, R399). -/
def execDcFlush (c : CoreId) (ga : Reg) (s : State) : Host.Outcome State Fault Refusal :=
  .next (dcInstr s c ga .Flush 1 .read)

/-- DC.ZERO (R398, R399). -/
def execDcZero (c : CoreId) (ga : Reg) (s : State) : Host.Outcome State Fault Refusal :=
  .next (dcInstr s c ga .RdUZ 2 (.write 0 0xFFFFFFFFFFFF))

/-! ## TLB maintenance (R358 to R363) -/

/-- A TLB maintenance instruction acts when the store buffer has drained (R361). -/
def tlbiInstr (s : State) (c : CoreId) (level code : Nat) (bcast : Bool) (va gb : Core → Word) : State :=
  runInstr s c { plain .long with held := fun p => p = .A, level := level } fun t =>
    let k := t.core c
    let o : TlbOp := ⟨bcast, code, tlbiCtx k (gb k), fld (gb k) 15 0, (va k).toNat⟩
    if k.storeBuffer.isEmpty then .done (actTlbi t c o)
    else .stay (t.modCore c fun k => { k with waiting := some (.tlbi o) })

/-- TLBI.VA (R358 to R362). -/
def execTlbiVa (c : CoreId) (bcast : Bool) (ga gb : Reg) (s : State) : Host.Outcome State Fault Refusal :=
  .next (tlbiInstr s c 1 0 bcast (fun k => k.reg ga) fun k => k.reg gb)

/-- TLBI.VAA (R358 to R362). -/
def execTlbiVaa (c : CoreId) (bcast : Bool) (ga gb : Reg) (s : State) : Host.Outcome State Fault Refusal :=
  .next (tlbiInstr s c 1 1 bcast (fun k => k.reg ga) fun k => k.reg gb)

/-- TLBI.ASID (R358 to R362). -/
def execTlbiAsid (c : CoreId) (bcast : Bool) (gb : Reg) (s : State) : Host.Outcome State Fault Refusal :=
  .next (tlbiInstr s c 1 2 bcast (fun _ => 0) fun k => k.reg gb)

/-- TLBI.CTX (R358 to R362). -/
def execTlbiCtx (c : CoreId) (bcast : Bool) (gb : Reg) (s : State) : Host.Outcome State Fault Refusal :=
  .next (tlbiInstr s c 1 3 bcast (fun _ => 0) fun k => k.reg gb)

/-- TLBI.ALL (R358, R361, R362). -/
def execTlbiAll (c : CoreId) (bcast : Bool) (s : State) : Host.Outcome State Fault Refusal :=
  .next (tlbiInstr s c 2 4 bcast (fun _ => 0) fun _ => 0)

/-- TLBSYNC (R358, R361, R363). -/
def execTlbsync (c : CoreId) (s : State) : Host.Outcome State Fault Refusal :=
  .next (runInstr s c { plain .long with held := fun p => p = .A, level := 1 } fun t =>
    if syncReady t c then .done t
    else .stay (t.modCore c fun k => { k with waiting := some .tlbsync }))

end Sys2Proof.Machine
end

