-- ==== Sys2Proof/Machine/Dispatch.lean ====
section
/-! DEFINITION. The command dispatch: one arm per constructor of Instr. -/

namespace Sys2Proof.Machine

open Sys2Proof

def exec (i : Instr) (s : State) : Host.Outcome State Fault Refusal :=
  match i with
  | .registerWrite rq addr v => Sys2Proof.Machine.execRegisterWrite rq addr v s
  | .tbLoRead rq => Sys2Proof.Machine.execTbLoRead rq s
  | .frameTick raw => Sys2Proof.Machine.execFrameTick raw s
  | .structureRepair addr => Sys2Proof.Machine.execStructureRepair addr s
  | .bandwidthWindowEnd => Sys2Proof.Machine.execBandwidthWindowEnd s
  | .counterRecordWrite => Sys2Proof.Machine.execCounterRecordWrite s
  | .frameStart g => Sys2Proof.Machine.execFrameStart g s
  | .safeStateEntry g cause => Sys2Proof.Machine.execSafeStateEntry g cause s
  | .tickHoldover => Sys2Proof.Machine.execTickHoldover s
  | .clockFault d => Sys2Proof.Machine.execClockFault d s
  | .powerUp => Sys2Proof.Machine.execPowerUp s
  | .supplyDip ns => Sys2Proof.Machine.execSupplyDip ns s
  | .resetN ns => Sys2Proof.Machine.execResetN ns s
  | .debugReset => Sys2Proof.Machine.execDebugReset s
  | .referenceClockReturn ms => Sys2Proof.Machine.execReferenceClockReturn ms s
  | .moduleReset cause inp => Sys2Proof.Machine.execModuleReset cause inp s
  | .clusterRelease => Sys2Proof.Machine.execClusterRelease s
  | .stageTimeout stage => Sys2Proof.Machine.execStageTimeout stage s
  | .add c f gd ga gb => Sys2Proof.Machine.execAdd c f gd ga gb s
  | .sub c f gd ga gb => Sys2Proof.Machine.execSub c f gd ga gb s
  | .and c f gd ga gb => Sys2Proof.Machine.execAnd c f gd ga gb s
  | .or c f gd ga gb => Sys2Proof.Machine.execOr c f gd ga gb s
  | .xor c f gd ga gb => Sys2Proof.Machine.execXor c f gd ga gb s
  | .andn c f gd ga gb => Sys2Proof.Machine.execAndn c f gd ga gb s
  | .sll c f gd ga gb => Sys2Proof.Machine.execSll c f gd ga gb s
  | .srl c f gd ga gb => Sys2Proof.Machine.execSrl c f gd ga gb s
  | .sra c f gd ga gb => Sys2Proof.Machine.execSra c f gd ga gb s
  | .rol c f gd ga gb => Sys2Proof.Machine.execRol c f gd ga gb s
  | .slt c f gd ga gb => Sys2Proof.Machine.execSlt c f gd ga gb s
  | .sltu c f gd ga gb => Sys2Proof.Machine.execSltu c f gd ga gb s
  | .seq c f gd ga gb => Sys2Proof.Machine.execSeq c f gd ga gb s
  | .sne c f gd ga gb => Sys2Proof.Machine.execSne c f gd ga gb s
  | .min c f gd ga gb => Sys2Proof.Machine.execMin c f gd ga gb s
  | .max c f gd ga gb => Sys2Proof.Machine.execMax c f gd ga gb s
  | .sle c f gd ga gb => Sys2Proof.Machine.execSle c f gd ga gb s
  | .sleu c f gd ga gb => Sys2Proof.Machine.execSleu c f gd ga gb s
  | .minu c f gd ga gb => Sys2Proof.Machine.execMinu c f gd ga gb s
  | .maxu c f gd ga gb => Sys2Proof.Machine.execMaxu c f gd ga gb s
  | .carry c gd ga gb => Sys2Proof.Machine.execCarry c gd ga gb s
  | .absd c gd ga gb => Sys2Proof.Machine.execAbsd c gd ga gb s
  | .adds c gd ga gb => Sys2Proof.Machine.execAdds c gd ga gb s
  | .subs c gd ga gb => Sys2Proof.Machine.execSubs c gd ga gb s
  | .div c gd ga gb => Sys2Proof.Machine.execDiv c gd ga gb s
  | .divu c gd ga gb => Sys2Proof.Machine.execDivu c gd ga gb s
  | .rem c gd ga gb => Sys2Proof.Machine.execRem c gd ga gb s
  | .remu c gd ga gb => Sys2Proof.Machine.execRemu c gd ga gb s
  | .hadd c gd ga gb => Sys2Proof.Machine.execHadd c gd ga gb s
  | .hsub c gd ga gb => Sys2Proof.Machine.execHsub c gd ga gb s
  | .hadds c gd ga gb => Sys2Proof.Machine.execHadds c gd ga gb s
  | .hsubs c gd ga gb => Sys2Proof.Machine.execHsubs c gd ga gb s
  | .addi c f gd ga imm => Sys2Proof.Machine.execAddi c f gd ga imm s
  | .slli c gd ga amt => Sys2Proof.Machine.execSlli c gd ga amt s
  | .srli c gd ga amt => Sys2Proof.Machine.execSrli c gd ga amt s
  | .srai c gd ga amt => Sys2Proof.Machine.execSrai c gd ga amt s
  | .roli c gd ga amt => Sys2Proof.Machine.execRoli c gd ga amt s
  | .andi c gd ga imm => Sys2Proof.Machine.execAndi c gd ga imm s
  | .ori c gd ga imm => Sys2Proof.Machine.execOri c gd ga imm s
  | .xori c gd ga imm => Sys2Proof.Machine.execXori c gd ga imm s
  | .movi c f gd imm => Sys2Proof.Machine.execMovi c f gd imm s
  | .ldih c gd imm => Sys2Proof.Machine.execLdih c gd imm s
  | .addpc c gd imm => Sys2Proof.Machine.execAddpc c gd imm s
  | .extu c gd ga pos len => Sys2Proof.Machine.execExtu c gd ga pos len s
  | .exts c gd ga pos len => Sys2Proof.Machine.execExts c gd ga pos len s
  | .dep c gd ga pos len => Sys2Proof.Machine.execDep c gd ga pos len s
  | .depz c gd ga pos len => Sys2Proof.Machine.execDepz c gd ga pos len s
  | .mov c f gd ga => Sys2Proof.Machine.execMov c f gd ga s
  | .neg c f gd ga => Sys2Proof.Machine.execNeg c f gd ga s
  | .not c f gd ga => Sys2Proof.Machine.execNot c f gd ga s
  | .abs c f gd ga => Sys2Proof.Machine.execAbs c f gd ga s
  | .clz c f gd ga => Sys2Proof.Machine.execClz c f gd ga s
  | .ctz c f gd ga => Sys2Proof.Machine.execCtz c f gd ga s
  | .popc c f gd ga => Sys2Proof.Machine.execPopc c f gd ga s
  | .sxh c f gd ga => Sys2Proof.Machine.execSxh c f gd ga s
  | .sxb c f gd ga => Sys2Proof.Machine.execSxb c f gd ga s
  | .zxh c f gd ga => Sys2Proof.Machine.execZxh c f gd ga s
  | .zxb c f gd ga => Sys2Proof.Machine.execZxb c f gd ga s
  | .swph c f gd ga => Sys2Proof.Machine.execSwph c f gd ga s
  | .push c ga => Sys2Proof.Machine.execPush c ga s
  | .pop c gd => Sys2Proof.Machine.execPop c gd s
  | .lw c gd ga imm => Sys2Proof.Machine.execLw c gd ga imm s
  | .sw c gd ga imm => Sys2Proof.Machine.execSw c gd ga imm s
  | .load c gd ga disp sz sel sx => Sys2Proof.Machine.execLoad c gd ga disp sz sel sx s
  | .store c gd ga disp sz sel sx => Sys2Proof.Machine.execStore c gd ga disp sz sel sx s
  | .indexedLoad c gd ga gb sz sx => Sys2Proof.Machine.execIndexedLoad c gd ga gb sz sx s
  | .indexedStore c gd ga gb sz sx => Sys2Proof.Machine.execIndexedStore c gd ga gb sz sx s
  | .bankLoad c n j off => Sys2Proof.Machine.execBankLoad c n j off s
  | .bankStore c n j off => Sys2Proof.Machine.execBankStore c n j off s
  | .setb c n imm => Sys2Proof.Machine.execSetb c n imm s
  | .storeBufferDrain n => Sys2Proof.Machine.execStoreBufferDrain n s
  | .sorusWriteBack bank => Sys2Proof.Machine.execSorusWriteBack bank s
  | .fadd c f p gd ga gb => Sys2Proof.Machine.execFadd c f p gd ga gb s
  | .fsub c f p gd ga gb => Sys2Proof.Machine.execFsub c f p gd ga gb s
  | .fmul c f p gd ga gb => Sys2Proof.Machine.execFmul c f p gd ga gb s
  | .fdiv c p gd ga gb => Sys2Proof.Machine.execFdiv c p gd ga gb s
  | .fsqrt c p gd ga => Sys2Proof.Machine.execFsqrt c p gd ga s
  | .fma c p gd ga gb gc => Sys2Proof.Machine.execFma c p gd ga gb gc s
  | .fms c p gd ga gb gc => Sys2Proof.Machine.execFms c p gd ga gb gc s
  | .fnma c p gd ga gb gc => Sys2Proof.Machine.execFnma c p gd ga gb gc s
  | .fmin c f p gd ga gb => Sys2Proof.Machine.execFmin c f p gd ga gb s
  | .fmax c p gd ga gb => Sys2Proof.Machine.execFmax c p gd ga gb s
  | .feq c p gd ga gb => Sys2Proof.Machine.execFeq c p gd ga gb s
  | .flt c p gd ga gb => Sys2Proof.Machine.execFlt c p gd ga gb s
  | .fle c p gd ga gb => Sys2Proof.Machine.execFle c p gd ga gb s
  | .fclass c p gd ga => Sys2Proof.Machine.execFclass c p gd ga s
  | .fneg c p gd ga => Sys2Proof.Machine.execFneg c p gd ga s
  | .fabs c p gd ga => Sys2Proof.Machine.execFabs c p gd ga s
  | .fcvtF48I c gd ga => Sys2Proof.Machine.execFcvtF48I c gd ga s
  | .fcvtF48U c gd ga => Sys2Proof.Machine.execFcvtF48U c gd ga s
  | .fcvtIF48 c gd ga => Sys2Proof.Machine.execFcvtIF48 c gd ga s
  | .fcvtUF48 c gd ga => Sys2Proof.Machine.execFcvtUF48 c gd ga s
  | .fcvtF48S c gd ga => Sys2Proof.Machine.execFcvtF48S c gd ga s
  | .fcvtSF48 c gd ga => Sys2Proof.Machine.execFcvtSF48 c gd ga s
  | .fcvtF48D64 c gd ga => Sys2Proof.Machine.execFcvtF48D64 c gd ga s
  | .fcvtD64F48 c gd ga => Sys2Proof.Machine.execFcvtD64F48 c gd ga s
  | .fcvtIF48Z c gd ga => Sys2Proof.Machine.execFcvtIF48Z c gd ga s
  | .fcvtF48H0 c gd ga => Sys2Proof.Machine.execFcvtF48H0 c gd ga s
  | .fcvtF48H1 c gd ga => Sys2Proof.Machine.execFcvtF48H1 c gd ga s
  | .fcvtIS c gd ga => Sys2Proof.Machine.execFcvtIS c gd ga s
  | .fcvtSI c gd ga => Sys2Proof.Machine.execFcvtSI c gd ga s
  | .mul c f ga gb => Sys2Proof.Machine.execMul c f ga gb s
  | .mulu c ga gb => Sys2Proof.Machine.execMulu c ga gb s
  | .mac c f ga gb => Sys2Proof.Machine.execMac c f ga gb s
  | .macu c ga gb => Sys2Proof.Machine.execMacu c ga gb s
  | .msu c ga gb => Sys2Proof.Machine.execMsu c ga gb s
  | .mulh c ga gb => Sys2Proof.Machine.execMulh c ga gb s
  | .mach c ga gb => Sys2Proof.Machine.execMach c ga gb s
  | .mfplo c f gd => Sys2Proof.Machine.execMfplo c f gd s
  | .mfphi c f gd => Sys2Proof.Machine.execMfphi c f gd s
  | .mfpgd c gd => Sys2Proof.Machine.execMfpgd c gd s
  | .exta c gd gb => Sys2Proof.Machine.execExta c gd gb s
  | .mtplo c ga => Sys2Proof.Machine.execMtplo c ga s
  | .mtphi c ga => Sys2Proof.Machine.execMtphi c ga s
  | .mtpgd c ga => Sys2Proof.Machine.execMtpgd c ga s
  | .clra c => Sys2Proof.Machine.execClra c s
  | .multiplyUnitDue c => Sys2Proof.Machine.execMultiplyUnitDue c s
  | .crcb c p gd ga gb => Sys2Proof.Machine.execCrcb c p gd ga gb s
  | .crch c p gd ga gb => Sys2Proof.Machine.execCrch c p gd ga gb s
  | .crcw c p gd ga gb => Sys2Proof.Machine.execCrcw c p gd ga gb s
  | .par c gd ga => Sys2Proof.Machine.execPar c gd ga s
  | .parh c gd ga => Sys2Proof.Machine.execParh c gd ga s
  | .parb c gd ga => Sys2Proof.Machine.execParb c gd ga s
  | .brev8 c gd ga => Sys2Proof.Machine.execBrev8 c gd ga s
  | .brev24 c gd ga => Sys2Proof.Machine.execBrev24 c gd ga s
  | .brev48 c gd ga => Sys2Proof.Machine.execBrev48 c gd ga s
  | .loop c ga off => Sys2Proof.Machine.execLoop c ga off s
  | .lpop c => Sys2Proof.Machine.execLpop c s
  | .call c f off slot => Sys2Proof.Machine.execCall c f off slot s
  | .callr c f ga slot => Sys2Proof.Machine.execCallr c f ga slot s
  | .ret c f => Sys2Proof.Machine.execRet c f s
  | .rsw c ga gb => Sys2Proof.Machine.execRsw c ga gb s
  | .aadd c plc gd ga gb => Sys2Proof.Machine.execAadd c plc gd ga gb s
  | .aswp c plc gd ga gb => Sys2Proof.Machine.execAswp c plc gd ga gb s
  | .acas c plc gd ga gb gc => Sys2Proof.Machine.execAcas c plc gd ga gb gc s
  | .aor c plc gd ga gb => Sys2Proof.Machine.execAor c plc gd ga gb s
  | .aand c plc gd ga gb => Sys2Proof.Machine.execAand c plc gd ga gb s
  | .mfsr c gd sr => Sys2Proof.Machine.execMfsr c gd sr s
  | .mtsr c sr ga => Sys2Proof.Machine.execMtsr c sr ga s
  | .msset c gd sr ga => Sys2Proof.Machine.execMsset c gd sr ga s
  | .msclr c gd sr ga => Sys2Proof.Machine.execMsclr c gd sr ga s
  | .eqz c f ga off a h => Sys2Proof.Machine.execEqz c f ga off a h s
  | .nez c f ga off a h => Sys2Proof.Machine.execNez c f ga off a h s
  | .ltz c f ga off a h => Sys2Proof.Machine.execLtz c f ga off a h s
  | .gez c f ga off a h => Sys2Proof.Machine.execGez c f ga off a h s
  | .lez c f ga off a h => Sys2Proof.Machine.execLez c f ga off a h s
  | .gtz c f ga off a h => Sys2Proof.Machine.execGtz c f ga off a h s
  | .bodd c f ga off a h => Sys2Proof.Machine.execBodd c f ga off a h s
  | .bevn c f ga off a h => Sys2Proof.Machine.execBevn c f ga off a h s
  | .beq c ga gb off a h => Sys2Proof.Machine.execBeq c ga gb off a h s
  | .bne c ga gb off a h => Sys2Proof.Machine.execBne c ga gb off a h s
  | .blt c ga gb off a h => Sys2Proof.Machine.execBlt c ga gb off a h s
  | .bge c ga gb off a h => Sys2Proof.Machine.execBge c ga gb off a h s
  | .bltu c ga gb off a h => Sys2Proof.Machine.execBltu c ga gb off a h s
  | .bgeu c ga gb off a h => Sys2Proof.Machine.execBgeu c ga gb off a h s
  | .bany c ga gb off a h => Sys2Proof.Machine.execBany c ga gb off a h s
  | .bnone c ga gb off a h => Sys2Proof.Machine.execBnone c ga gb off a h s
  | .dbnz c ga off a h => Sys2Proof.Machine.execDbnz c ga off a h s
  | .dbgz c ga off a h => Sys2Proof.Machine.execDbgz c ga off a h s
  | .j c off => Sys2Proof.Machine.execJ c off s
  | .jr c ga => Sys2Proof.Machine.execJr c ga s
  | .sysc c code => Sys2Proof.Machine.execSysc c code s
  | .hcall c code => Sys2Proof.Machine.execHcall c code s
  | .mcall c code => Sys2Proof.Machine.execMcall c code s
  | .brk c code => Sys2Proof.Machine.execBrk c code s
  | .retx c => Sys2Proof.Machine.execRetx c s
  | .raise c ga gb => Sys2Proof.Machine.execRaise c ga gb s
  | .fend c => Sys2Proof.Machine.execFend c s
  | .fence c => Sys2Proof.Machine.execFence c s
  | .fenceIo c => Sys2Proof.Machine.execFenceIo c s
  | .fenceI c => Sys2Proof.Machine.execFenceI c s
  | .dcClean c ga => Sys2Proof.Machine.execDcClean c ga s
  | .dcFlush c ga => Sys2Proof.Machine.execDcFlush c ga s
  | .dcZero c ga => Sys2Proof.Machine.execDcZero c ga s
  | .tlbiVa c bcast ga gb => Sys2Proof.Machine.execTlbiVa c bcast ga gb s
  | .tlbiVaa c bcast ga gb => Sys2Proof.Machine.execTlbiVaa c bcast ga gb s
  | .tlbiAsid c bcast gb => Sys2Proof.Machine.execTlbiAsid c bcast gb s
  | .tlbiCtx c bcast gb => Sys2Proof.Machine.execTlbiCtx c bcast gb s
  | .tlbiAll c bcast => Sys2Proof.Machine.execTlbiAll c bcast s
  | .tlbsync c => Sys2Proof.Machine.execTlbsync c s
  | .tlbBroadcastReceive issuer receiver => Sys2Proof.Machine.execTlbBroadcastReceive issuer receiver s
  | .out c ga gb => Sys2Proof.Machine.execOut c ga gb s
  | .inb c gd ga => Sys2Proof.Machine.execInb c gd ga s
  | .inf c gd ga => Sys2Proof.Machine.execInf c gd ga s
  | .ftime c gd => Sys2Proof.Machine.execFtime c gd s
  | .fnum c gd => Sys2Proof.Machine.execFnum c gd s
  | .fbar c => Sys2Proof.Machine.execFbar c s
  | .machineCheck at_ => Sys2Proof.Machine.execMachineCheck at_ s
  | .checkstopRecord c => Sys2Proof.Machine.execCheckstopRecord c s
  | .coreReset c => Sys2Proof.Machine.execCoreReset c s
  | .interruptSourceAssert n line => Sys2Proof.Machine.execInterruptSourceAssert n line s
  | .interruptEntry c => Sys2Proof.Machine.execInterruptEntry c s
  | .intEoi rq v => Sys2Proof.Machine.execIntEoi rq v s
  | .intSwi rq v => Sys2Proof.Machine.execIntSwi rq v s
  | .intSrcStateWrite rq n v => Sys2Proof.Machine.execIntSrcStateWrite rq n v s
  | .intSrcRouteWrite rq n v => Sys2Proof.Machine.execIntSrcRouteWrite rq n v s
  | .compareTimerFire n => Sys2Proof.Machine.execCompareTimerFire n s
  | .timestampCapture u rise => Sys2Proof.Machine.execTimestampCapture u rise s
  | .tsCapPop rq u v => Sys2Proof.Machine.execTsCapPop rq u v s
  | .wdogCtlWrite rq w v => Sys2Proof.Machine.execWdogCtlWrite rq w v s
  | .wdogKick rq w v => Sys2Proof.Machine.execWdogKick rq w v s
  | .watchdogStage1 w => Sys2Proof.Machine.execWatchdogStage1 w s
  | .watchdogStage2 w => Sys2Proof.Machine.execWatchdogStage2 w s
  | .deviceAccessTimeout rq acc => Sys2Proof.Machine.execDeviceAccessTimeout rq acc s
  | .medullaWatchdogExpiry => Sys2Proof.Machine.execMedullaWatchdogExpiry s
  | .rdS src why line => Sys2Proof.Machine.execRdS src why line s
  | .rdU src line => Sys2Proof.Machine.execRdU src line s
  | .upg src line => Sys2Proof.Machine.execUpg src line s
  | .rdUZ src line => Sys2Proof.Machine.execRdUZ src line s
  | .rdIO line => Sys2Proof.Machine.execRdIO line s
  | .rdNC src line => Sys2Proof.Machine.execRdNC src line s
  | .wrNC src line => Sys2Proof.Machine.execWrNC src line s
  | .wrThru src line => Sys2Proof.Machine.execWrThru src line s
  | .wrStash line wmask data tgt => Sys2Proof.Machine.execWrStash line wmask data tgt s
  | .wrInv line wmask data => Sys2Proof.Machine.execWrInv line wmask data s
  | .atomF src line => Sys2Proof.Machine.execAtomF src line s
  | .clean src line => Sys2Proof.Machine.execClean src line s
  | .flush src line => Sys2Proof.Machine.execFlush src line s
  | .putM src line => Sys2Proof.Machine.execPutM src line s
  | .putE src line => Sys2Proof.Machine.execPutE src line s
  | .putS src line => Sys2Proof.Machine.execPutS src line s
  | .snpS agent line => Sys2Proof.Machine.execSnpS agent line s
  | .snpInv agent line => Sys2Proof.Machine.execSnpInv agent line s
  | .snpData agent line => Sys2Proof.Machine.execSnpData agent line s
  | .snpStash agent line => Sys2Proof.Machine.execSnpStash agent line s
  | .snpClean agent line => Sys2Proof.Machine.execSnpClean agent line s
  | .rspAck agent line => Sys2Proof.Machine.execRspAck agent line s
  | .rspData agent line => Sys2Proof.Machine.execRspData agent line s
  | .rspEIF agent line => Sys2Proof.Machine.execRspEIF agent line s
  | .rspDecline agent line => Sys2Proof.Machine.execRspDecline agent line s
  | .cmpAck agent line => Sys2Proof.Machine.execCmpAck agent line s
  | .data agent line => Sys2Proof.Machine.execData agent line s
  | .grantU agent line => Sys2Proof.Machine.execGrantU agent line s
  | .putAck agent line => Sys2Proof.Machine.execPutAck agent line s
  | .cmp agent line => Sys2Proof.Machine.execCmp agent line s
  | .retry agent line => Sys2Proof.Machine.execRetry agent line s
  | .retryBackoffExpiry agent line => Sys2Proof.Machine.execRetryBackoffExpiry agent line s
  | .snoopTimeout agent line => Sys2Proof.Machine.execSnoopTimeout agent line s
  | .dramReadComplete line flips again => Sys2Proof.Machine.execDramReadComplete line flips again s
  | .correctedWriteBack ch => Sys2Proof.Machine.execCorrectedWriteBack ch s
  | .refresh ch => Sys2Proof.Machine.execRefresh ch s
  | .patrolScrub flips again => Sys2Proof.Machine.execPatrolScrub flips again s
  | .rowCopyComplete ch k => Sys2Proof.Machine.execRowCopyComplete ch k s
  | .frondCoreCtlStart rq c v => Sys2Proof.Machine.execFrondCoreCtlStart rq c v s
  | .park rq c v => Sys2Proof.Machine.execPark rq c v s
  | .release rq g v => Sys2Proof.Machine.execRelease rq g v s
  | .lockstepMismatch p => Sys2Proof.Machine.execLockstepMismatch p s
  | .lockstepPairRetirement p => Sys2Proof.Machine.execLockstepPairRetirement p s
  | .tickPeriodWrite rq v => Sys2Proof.Machine.execTickPeriodWrite rq v s
  | .senseWrite => Sys2Proof.Machine.execSenseWrite s
  | .cal rq ch v => Sys2Proof.Machine.execCal rq ch v s
  | .offsetCalibrationEnd ch => Sys2Proof.Machine.execOffsetCalibrationEnd ch s
  | .inputFault ch outOfRange => Sys2Proof.Machine.execInputFault ch outOfRange s
  | .dacFault d atLimit offVoltage iMa vMv => Sys2Proof.Machine.execDacFault d atLimit offVoltage iMa vMv s
  | .senseExcCfgWrite rq d v => Sys2Proof.Machine.execSenseExcCfgWrite rq d v s
  | .senseCtlWrite rq v => Sys2Proof.Machine.execSenseCtlWrite rq v s
  | .touchCtlWrite rq v => Sys2Proof.Machine.execTouchCtlWrite rq v s
  | .scanStart => Sys2Proof.Machine.execScanStart s
  | .touchFrameWrite meas selfRx selfTx noise => Sys2Proof.Machine.execTouchFrameWrite meas selfRx selfTx noise s
  | .ringFrameEmit => Sys2Proof.Machine.execRingFrameEmit s
  | .ringFrame dir fr => Sys2Proof.Machine.execRingFrame dir fr s
  | .link port bipErr0 bipErr1 nakv nakSec lret => Sys2Proof.Machine.execLink port bipErr0 bipErr1 nakv nakSec lret s
  | .dlyReq port sq turn => Sys2Proof.Machine.execDlyReq port sq turn s
  | .dlyRsp port sq turn elapsed => Sys2Proof.Machine.execDlyRsp port sq turn elapsed s
  | .claim port node img => Sys2Proof.Machine.execClaim port node img s
  | .electionClaim => Sys2Proof.Machine.execElectionClaim s
  | .masterHandover => Sys2Proof.Machine.execMasterHandover s
  | .ringCopyLate dir => Sys2Proof.Machine.execRingCopyLate dir s
  | .ringRxAreaStatus => Sys2Proof.Machine.execRingRxAreaStatus s
  | .linkDown port => Sys2Proof.Machine.execLinkDown port s
  | .linkTraining port lanes => Sys2Proof.Machine.execLinkTraining port lanes s
  | .laneRetirement port lane => Sys2Proof.Machine.execLaneRetirement port lane s
  | .bypass rq v => Sys2Proof.Machine.execBypass rq v s
  | .wakePattern rq v => Sys2Proof.Machine.execWakePattern rq v s
  | .ringLayoutWrite rq v => Sys2Proof.Machine.execRingLayoutWrite rq v s
  | .ringRxBaseWrite rq v => Sys2Proof.Machine.execRingRxBaseWrite rq v s
  | .run rq n => Sys2Proof.Machine.execRun rq n s
  | .stop rq n => Sys2Proof.Machine.execStop rq n s
  | .freeze rq n => Sys2Proof.Machine.execFreeze rq n s
  | .thaw rq n => Sys2Proof.Machine.execThaw rq n s
  | .save rq n => Sys2Proof.Machine.execSave rq n s
  | .send rq n => Sys2Proof.Machine.execSend rq n s
  | .restore rq n => Sys2Proof.Machine.execRestore rq n s
  | .mbox rq n => Sys2Proof.Machine.execMbox rq n s
  | .migrationData node srcInst dstInst off words => Sys2Proof.Machine.execMigrationData node srcInst dstInst off words s
  | .migrationAck node srcInst dstInst off => Sys2Proof.Machine.execMigrationAck node srcInst dstInst off s
  | .migrationClaim node srcInst dstInst epoch => Sys2Proof.Machine.execMigrationClaim node srcInst dstInst epoch s
  | .migrationRelease node srcInst dstInst epoch => Sys2Proof.Machine.execMigrationRelease node srcInst dstInst epoch s
  | .migrationRefuse node srcInst dstInst epoch => Sys2Proof.Machine.execMigrationRefuse node srcInst dstInst epoch s
  | .migrationResendTimeout n => Sys2Proof.Machine.execMigrationResendTimeout n s
  | .claimTimeout n => Sys2Proof.Machine.execClaimTimeout n s
  | .pqTailWrite rq n j v => Sys2Proof.Machine.execPqTailWrite rq n j v s
  | .pqRestart rq n j v => Sys2Proof.Machine.execPqRestart rq n j v s
  | .pinnaQCfgWrite rq q v => Sys2Proof.Machine.execPinnaQCfgWrite rq q v s
  | .descriptorCompletion q status => Sys2Proof.Machine.execDescriptorCompletion q status s
  | .senseStreamCopy q => Sys2Proof.Machine.execSenseStreamCopy q s
  | .ethernetFrameReceive port bytes fcsOk => Sys2Proof.Machine.execEthernetFrameReceive port bytes fcsOk s
  | .ethernetFrameTransmit port q => Sys2Proof.Machine.execEthernetFrameTransmit port q s
  | .gateCycleStart port => Sys2Proof.Machine.execGateCycleStart port s
  | .swap rq port => Sys2Proof.Machine.execSwap rq port s
  | .ethMdio rq port v => Sys2Proof.Machine.execEthMdio rq port v s
  | .ethernetLinkChange port up => Sys2Proof.Machine.execEthernetLinkChange port up s
  | .canFrameReceive n id ide fdf brs bytes => Sys2Proof.Machine.execCanFrameReceive n id ide fdf brs bytes s
  | .canFrameTransmit n => Sys2Proof.Machine.execCanFrameTransmit n s
  | .busOff n => Sys2Proof.Machine.execBusOff n s
  | .busOffRecovery n => Sys2Proof.Machine.execBusOffRecovery n s
  | .recover rq n => Sys2Proof.Machine.execRecover rq n s
  | .uartDataWrite rq u v => Sys2Proof.Machine.execUartDataWrite rq u v s
  | .uartDataRead rq u => Sys2Proof.Machine.execUartDataRead rq u s
  | .uartCharacterReceive u ch err => Sys2Proof.Machine.execUartCharacterReceive u ch err s
  | .uartCharacterTransmit u => Sys2Proof.Machine.execUartCharacterTransmit u s
  | .pcieLinkChange up width gen => Sys2Proof.Machine.execPcieLinkChange up width gen s
  | .pcieInboundRequest bar addr write len bytes => Sys2Proof.Machine.execPcieInboundRequest bar addr write len bytes s
  | .pcieApertureCompletion c d0 d1 err => Sys2Proof.Machine.execPcieApertureCompletion c d0 d1 err s
  | .pcieApertureTimeout c => Sys2Proof.Machine.execPcieApertureTimeout c s
  | .configRead rq => Sys2Proof.Machine.execConfigRead rq s
  | .configWrite rq => Sys2Proof.Machine.execConfigWrite rq s
  | .configCompletion cpl d => Sys2Proof.Machine.execConfigCompletion cpl d s
  | .usbSetup bytes => Sys2Proof.Machine.execUsbSetup bytes s
  | .usbBusReset => Sys2Proof.Machine.execUsbBusReset s
  | .usbDescriptorCompletion e bytes status => Sys2Proof.Machine.execUsbDescriptorCompletion e bytes status s
  | .usbEpRestart rq e => Sys2Proof.Machine.execUsbEpRestart rq e s
  | .usbEpTailWrite rq e v => Sys2Proof.Machine.execUsbEpTailWrite rq e v s
  | .commit rq v => Sys2Proof.Machine.execCommit rq v s
  | .verticalBlank o => Sys2Proof.Machine.execVerticalBlank o s
  | .underrun o => Sys2Proof.Machine.execUnderrun o s
  | .dispOutCtlWrite rq o v => Sys2Proof.Machine.execDispOutCtlWrite rq o v s
  | .edpLinkTraining o passed => Sys2Proof.Machine.execEdpLinkTraining o passed s
  | .go rq o v => Sys2Proof.Machine.execGo rq o v s
  | .xferComplete o result reply => Sys2Proof.Machine.execXferComplete o result reply s
  | .dmaGo rq n v => Sys2Proof.Machine.execDmaGo rq n v s
  | .dmaChannelEnd n => Sys2Proof.Machine.execDmaChannelEnd n s
  | .pwrVoteGo rq v => Sys2Proof.Machine.execPwrVoteGo rq v s
  | .forcedEntry rq v => Sys2Proof.Machine.execForcedEntry rq v s
  | .quiescentEntry rq v => Sys2Proof.Machine.execQuiescentEntry rq v s
  | .agree d => Sys2Proof.Machine.execAgree d s
  | .refuse d reason => Sys2Proof.Machine.execRefuse d reason s
  | .voteAnswerTimeout d => Sys2Proof.Machine.execVoteAnswerTimeout d s
  | .dormantWake d => Sys2Proof.Machine.execDormantWake d s
  | .wakeSource e => Sys2Proof.Machine.execWakeSource e s
  | .touchWakeScan sums => Sys2Proof.Machine.execTouchWakeScan sums s
  | .quiescentExit late train => Sys2Proof.Machine.execQuiescentExit late train s
  | .clkDomFreqWrite rq d v => Sys2Proof.Machine.execClkDomFreqWrite rq d v s
  | .pwrDomPolicyWrite rq d v => Sys2Proof.Machine.execPwrDomPolicyWrite rq d v s
  | .thermalMonitorRead die dram => Sys2Proof.Machine.execThermalMonitorRead die dram s
  | .mbxCmd rq port v => Sys2Proof.Machine.execMbxCmd rq port v s
  | .mbxAck rq port v => Sys2Proof.Machine.execMbxAck rq port v s
  | .resultTimeout port => Sys2Proof.Machine.execResultTimeout port s
  | .info port => Sys2Proof.Machine.execInfo port s
  | .updBegin m => Sys2Proof.Machine.execUpdBegin m s
  | .updBlock m => Sys2Proof.Machine.execUpdBlock m s
  | .updEnd m => Sys2Proof.Machine.execUpdEnd m s
  | .updAbort port => Sys2Proof.Machine.execUpdAbort port s
  | .activate m => Sys2Proof.Machine.execActivate m s
  | .confirm m => Sys2Proof.Machine.execConfirm m s
  | .reset port => Sys2Proof.Machine.execReset port s
  | .logRead port => Sys2Proof.Machine.execLogRead port s
  | .retireReport m => Sys2Proof.Machine.execRetireReport m s
  | .retireList port => Sys2Proof.Machine.execRetireList port s
  | .retireClear m => Sys2Proof.Machine.execRetireClear m s
  | .userWrite m => Sys2Proof.Machine.execUserWrite m s
  | .sessionTimeout => Sys2Proof.Machine.execSessionTimeout s
  | .logCopy => Sys2Proof.Machine.execLogCopy s
  | .rstCoreCtlStart rq c v => Sys2Proof.Machine.execRstCoreCtlStart rq c v s
  | .dbgHoldWrite rq v => Sys2Proof.Machine.execDbgHoldWrite rq v s
  | .undefinedEncoding c f w => Sys2Proof.Machine.execUndefinedEncoding c f w s
  | .periodicZqRecalibration ch outOfRange => Sys2Proof.Machine.execPeriodicZqRecalibration ch outOfRange s
  | .mdioFrameComplete port d => Sys2Proof.Machine.execMdioFrameComplete port d s
  | .usbLinkChange vbus speed susp => Sys2Proof.Machine.execUsbLinkChange vbus speed susp s
  | .laneBlockLockLoss port lane => Sys2Proof.Machine.execLaneBlockLockLoss port lane s
  | .medullaLockstepMismatch => Sys2Proof.Machine.execMedullaLockstepMismatch s

end Sys2Proof.Machine
end

