-- ==== Sys2Proof/Safety.lean ====
section
/-! DEFINITION. What counts as a safe step, and the words in which the claims about it are stated: when an instruction
reaches its own effect, what a register-only instruction leaves alone, when a register access is admitted, and the
canonical form of every sparse map. -/

namespace Sys2Proof.Machine

open Sys2Proof

/-- The step from s answers a next state. -/
def Completes (s : State) : Prop := ∃ t, step s = .next t

/-! ## Instructions -/

/-- An instruction of shape d at core c reaches its own effect in state t: the core can issue it, no annulled slot
stands at its PC (R227), its fetch succeeds, and the checks of R276 that come before its operands pass. -/
structure Issues (s : State) (c : CoreId) (d : Shape) (t : State) : Prop where
  can : canIssue s c = true
  live : ((issueStatus s c).core c).inAnnulled = false
  fetched : fetch (issueStatus s c) c = .ok t
  passes : refusedBy (t.core c) c d = none

/-- The instruction reaches its checks in state t and fails one of them with e. -/
structure Rejects (s : State) (c : CoreId) (d : Shape) (t : State) (e : Exc) : Prop where
  can : canIssue s c = true
  live : ((issueStatus s c).core c).inAnnulled = false
  fetched : fetch (issueStatus s c) c = .ok t
  fails : refusedBy (t.core c) c d = some e

/-- General register gd of core c written. -/
def writeReg (t : State) (c : CoreId) (gd : Reg) (v : Word) : State := t.modCore c fun k => k.setReg gd v

/-- The instruction i of shape d writes v to gd, and completes. -/
def Computes (i : Instr) (c : CoreId) (d : Shape) (gd : Reg) (v : Core → Word) : Prop :=
  ∀ s t, Issues s c d t → exec i s = .next (completeInstr (writeReg t c gd (v (t.core c))) c (formLen d.form))

/-- The floating-point instruction i of shape d writes an encoding to gd, sets flags in fcs, and completes. -/
def ComputesFp (i : Instr) (c : CoreId) (d : Shape) (gd : Reg) (v : Core → Nat × Nat) : Prop :=
  ∀ s t, Issues s c d t → exec i s = .next (completeInstr
    (t.modCore c fun k => { k.setReg gd (w48 (v k).1) with fcs := k.fcs ||| w48 (v k).2 }) c (formLen d.form))

/-- The instruction i changes the multiply unit of its core by f, and completes. -/
def ChangesMul (i : Instr) (c : CoreId) (f : Form) (h : Core → MulUnit) : Prop :=
  ∀ s t, Issues s c (plain f) t → exec i s = .next (completeInstr (t.modCore c fun k => { k with mul := h k }) c (formLen f))

/-- The branch i of shape d leaves core c as h says, its delay slot next. -/
def LeavesSlot (i : Instr) (c : CoreId) (d : Shape) (h : Core → Core) : Prop :=
  ∀ s t, Issues s c d t → exec i s = .next (t.modCore c h)

/-- Nothing but core c, the performance counters and the count of free values drawn differs. -/
def OnlyCore (s t : State) (c : CoreId) : Prop :=
  { t with cnt := s.cnt, free := s.free, cores := t.cores.set c.agent (s.core c) } = s

/-- A core without what every instruction may change as it completes: its PC, its slot, the loop count and depth of the
end test (R156), the predictors (R241), the events counted at its commit (R712) and the note that its first instruction of the
frame is done. -/
def Core.bare (k : Core) : Core :=
  { k with pc := 0, slot := none, waiting := none, lctl := 0, lc := Vector.replicate 3 0, predict := Predictors.reset,
           events := [], frame := { k.frame with firstDone := true } }

/-- Core k' is core k but for gd and what completion changes. -/
def SameButReg (k k' : Core) (gd : Reg) : Prop :=
  (∀ r : Reg, r ≠ gd → k'.reg r = k.reg r) ∧ { k'.bare with g := k.g } = k.bare

/-! ## Private Sorus memory of a Frond core -/

/-- a is a word of the private Sorus memory of Frond core i that holds a good value and is nobody else's concern: no
output (R480), no report word (R594), and no word that an engine has still to write (R39, R541); Sorus memory has its clock
(R57), and no earlier frame of the core left an access in flight (R475). -/
structure PrivWord (t : State) (i : Fin 16) (a : Nat) : Prop where
  lo : 0x810000000 + 0x4000 * i.val ≤ a
  hi : a < 0x810000000 + 0x4000 * i.val + 0x4000
  noOutput : outputAt t a = none
  good : (sorusRaw t a).poison = false ∧ (sorusRaw t a).code = .good
  sampled : sampleUnwritten t a = false
  received : areaUnwritten t a = false
  noReport : a ≠ fld t.touch.ctl 35 0 + 0xFFF
  clocked : clockStopped t 24 = false
  alone : (t.core (.frond i)).abandoned = []

/-- The state after a read of such a word: the Sorus port has counted it. -/
def privRead (t : State) : State := count t 62 0xA0

/-- The state after v is stored in such a word. -/
def privPut (t : State) (a : Nat) (v : Word) : State := sorusPut (count t 62 0xA0) a ⟨v, false, .good⟩

/-- What such a word holds. -/
def privGet (t : State) (a : Nat) : Word := (sorusRaw t a).data

/-! ## Register space -/

/-- A register access of a requester is admitted (R13, R764, R778). -/
structure Admitted (s : State) (rq : Requester) (a : Nat) : Prop where
  can : canAccess s rq = true
  ok : verdict (count s 63 0x0B0) rq a true = .ok

/-- The state in which an admitted access acts: the bridge has counted it (R711). -/
def bridged (s : State) : State := count s 63 0x0B0

/-! ## Jobs behind the I/O bridge -/

/-- The state in which a job of an engine makes its accesses: what it has made already stands ready (R393). -/
def jobBegun (s : State) (job : Nat) : State :=
  modSteps { s with coh := { s.coh with job := job } } fun l => l.map fun x => if x.job = job then { x with used := false } else x

/-- State u, which a job begun in s reached, while the job waits. -/
def jobOpen (s u : State) : State := { u with coh := { u.coh with job := s.coh.job } }

/-- State u, which a job begun in s reached, when the job is over. -/
def jobEnded (s : State) (job : Nat) (u : State) : State := dropJob (jobOpen s u) job

/-! ## The canonical form of the sparse maps -/

/-- Registers, counters, NOR, DRAM and Sorus memory are in their form: keys strictly rising, and no entry equal to what
an unlisted key reads as. -/
def Memory.wf (s : State) : Bool :=
  swf regReset s.regs && swf regReset s.cnt.pmc && swf (fun _ => (0xFF : Byte)) s.nor && swf (fillImage s) s.dram &&
  swf (sorusFill s) s.sorus

end Sys2Proof.Machine
end

