-- ==== Sys2Proof/Certificates/Slice0/Obligations.lean ====
section
/-! DEFINITION. The statements about the model, for the provers. Each cites in its docstring the rules of spec/ it rests
on; OBLIGATIONS.json lists them. -/

open Sys2Proof Sys2Proof.Machine

/-- For every command c and every state whose queue begins with c, the step is the execution of c on the state with
the queue's rest. (spec/23_register_map.md, spec/98_reader.md) -/
def Obligations.StepTakesFront : Prop :=
  ∀ (c : Instr) (rest : List Instr) (s : State), s.pending = c :: rest → step s = exec c { s with pending := rest }

/-- A step with an empty queue answers a next state that differs at most in the time base and in the count of domain
57: the time base counts one nanosecond while the power-up reset has ended, domain 56 is not held and the module is
not in Quiescent, and domain 57 counts while the module is powered and its reference runs. That a step with an empty
queue is one nanosecond is the choice of the model (log entry 2). (spec/08_interrupts_timers.md R315, R322,
spec/01_architecture.md R49, R58) -/
def Obligations.EmptyQueueIdles : Prop :=
  ∀ s : State, s.pending = [] →
    (step s = .next { s with tb := if s.timeCounts then s.tb + 1 else s.tb, ref := if s.refCounts then s.ref + 1 else s.ref }) ∧
    (s.timeCounts = true ↔ s.sys.mode ≠ .off ∧ s.sys.mode ≠ .inReset 1 ∧ 56 ∉ s.sys.held ∧ s.power.quiescent = false) ∧
    (s.refCounts = true ↔ s.sys.mode ≠ .off ∧ s.sys.mode ≠ .refLost)

/-- No command of the table ends in a fault or a refusal: for every command and every state the execution answers a
next state. (spec/07_privilege_exceptions.md, spec/21_startup_faults.md) -/
def Obligations.EveryCommandAnswers : Prop :=
  ∀ (c : Instr) (s : State), ∃ t, exec c s = .next t

/-- For every command and every state, the queue of the next state is the queue of the state: commands neither drop
nor add waiting commands. (spec/98_reader.md) -/
def Obligations.QueueUntouched : Prop :=
  ∀ (c : Instr) (s t : State), exec c s = .next t → t.pending = s.pending

/-- From every state whose registers, counters, NOR, DRAM and Sorus memory are in canonical form, a step leads to a
state where they are. (spec/23_register_map.md, spec/11_memory_controller.md, spec/13_sorus_memory.md) -/
def Obligations.MemoriesKeepTheirForm : Prop :=
  ∀ s t : State, Memory.wf s = true → step s = .next t → Memory.wf t = true

/-- The state after reset has every memory in canonical form and no waiting command. (spec/23_register_map.md) -/
def Obligations.ResetMemoriesInForm : Prop :=
  Memory.wf State.reset = true ∧ State.reset.pending = []

/-- After reset every core has its general and bank registers zero, status 0x0F73, fcs zero, empty loop levels, a zero
accumulator and pst, both CRC polynomials 0x01201EDC6F41, rsp, rss and rslo zero with rshi all ones, and no pending
slot. (spec/03_heris_isa_base.md, spec/04_heris_isa_special.md, spec/07_privilege_exceptions.md) -/
def Obligations.ResetValues : Prop :=
  ∀ c : CoreId,
    let k := State.reset.core c
    (∀ r : Reg, k.reg r = 0) ∧ (∀ n : Fin 4, k.b[n] = 0) ∧ k.status = 0x0F73 ∧ k.fcs = 0 ∧ k.lctl = 0 ∧
    k.mul.acc = 0 ∧ k.mul.pst = 0 ∧ k.mul.queue = [] ∧ (∀ p : Fin 2, k.cpoly[p] = 0x01201EDC6F41) ∧
    k.rsp = 0 ∧ k.rss = 0 ∧ k.rslo = 0 ∧ k.rshi = 0xFFFFFFFFFFFF ∧ k.slot = none ∧ k.statusQueue = []

/-- ADD, SUB, AND, OR, XOR, ANDN, the shifts and the rotation, the comparisons, MIN, MAX, MINU and MAXU, in both
forms, and the long CARRY, ABSD, ADDS and SUBS complete, and write to gd the result that R108 and R109 give, for every
operand. (spec/03_heris_isa_base.md R108, R109) -/
def Obligations.IntegerResults : Prop :=
  ∀ (c : CoreId) (f : Form) (gd ga gb : Reg),
    Computes (.add c f gd ga gb) c (plain f) gd (fun k => k.reg ga + k.reg gb) ∧
    Computes (.sub c f gd ga gb) c (plain f) gd (fun k => k.reg ga - k.reg gb) ∧
    Computes (.and c f gd ga gb) c (plain f) gd (fun k => k.reg ga &&& k.reg gb) ∧
    Computes (.or c f gd ga gb) c (plain f) gd (fun k => k.reg ga ||| k.reg gb) ∧
    Computes (.xor c f gd ga gb) c (plain f) gd (fun k => k.reg ga ^^^ k.reg gb) ∧
    Computes (.andn c f gd ga gb) c (plain f) gd (fun k => k.reg ga &&& ~~~k.reg gb) ∧
    Computes (.sll c f gd ga gb) c (plain f) gd (fun k => k.reg ga <<< ((k.reg gb).toNat % 64)) ∧
    Computes (.srl c f gd ga gb) c (plain f) gd (fun k => k.reg ga >>> ((k.reg gb).toNat % 64)) ∧
    Computes (.sra c f gd ga gb) c (plain f) gd (fun k => (k.reg ga).sshiftRight ((k.reg gb).toNat % 64)) ∧
    Computes (.rol c f gd ga gb) c (plain f) gd (fun k => (k.reg ga).rotateLeft ((k.reg gb).toNat % 64 % 48)) ∧
    Computes (.slt c f gd ga gb) c (plain f) gd (fun k => if (k.reg ga).toInt < (k.reg gb).toInt then 1 else 0) ∧
    Computes (.sltu c f gd ga gb) c (plain f) gd (fun k => if k.reg ga < k.reg gb then 1 else 0) ∧
    Computes (.seq c f gd ga gb) c (plain f) gd (fun k => if k.reg ga = k.reg gb then 1 else 0) ∧
    Computes (.sne c f gd ga gb) c (plain f) gd (fun k => if k.reg ga = k.reg gb then 0 else 1) ∧
    Computes (.sle c f gd ga gb) c (plain f) gd (fun k => if (k.reg ga).toInt ≤ (k.reg gb).toInt then 1 else 0) ∧
    Computes (.sleu c f gd ga gb) c (plain f) gd (fun k => if k.reg ga ≤ k.reg gb then 1 else 0) ∧
    Computes (.min c f gd ga gb) c (plain f) gd (fun k => BitVec.ofInt 48 (min (k.reg ga).toInt (k.reg gb).toInt)) ∧
    Computes (.max c f gd ga gb) c (plain f) gd (fun k => BitVec.ofInt 48 (max (k.reg ga).toInt (k.reg gb).toInt)) ∧
    Computes (.minu c f gd ga gb) c (plain f) gd (fun k => w48 (min (k.reg ga).toNat (k.reg gb).toNat)) ∧
    Computes (.maxu c f gd ga gb) c (plain f) gd (fun k => w48 (max (k.reg ga).toNat (k.reg gb).toNat)) ∧
    Computes (.carry c gd ga gb) c (plain .long) gd (fun k => w48 (((k.reg ga).toNat + (k.reg gb).toNat) / 2 ^ 48)) ∧
    Computes (.absd c gd ga gb) c (plain .long) gd (fun k => w48 ((k.reg ga).toInt - (k.reg gb).toInt).natAbs) ∧
    Computes (.adds c gd ga gb) c (plain .long) gd
      (fun k => BitVec.ofInt 48 (max (-2 ^ 47) (min (2 ^ 47 - 1) ((k.reg ga).toInt + (k.reg gb).toInt)))) ∧
    Computes (.subs c gd ga gb) c (plain .long) gd
      (fun k => BitVec.ofInt 48 (max (-2 ^ 47) (min (2 ^ 47 - 1) ((k.reg ga).toInt - (k.reg gb).toInt))))

/-- DIV, DIVU, REM and REMU complete for every operand: division by zero sets DIV and DIVU to all ones and REM and
REMU to ga; otherwise DIV rounds toward zero (−2^47 by −1 wraps to −2^47), and the remainder is ga less gb times the
quotient. (R110) -/
def Obligations.DivisionResults : Prop :=
  ∀ (c : CoreId) (gd ga gb : Reg),
    Computes (.div c gd ga gb) c (plain .long) gd (fun k =>
      if k.reg gb = 0 then 0xFFFFFFFFFFFF else BitVec.ofInt 48 ((k.reg ga).toInt.tdiv (k.reg gb).toInt)) ∧
    Computes (.divu c gd ga gb) c (plain .long) gd (fun k =>
      if k.reg gb = 0 then 0xFFFFFFFFFFFF else k.reg ga / k.reg gb) ∧
    Computes (.rem c gd ga gb) c (plain .long) gd (fun k =>
      if k.reg gb = 0 then k.reg ga else BitVec.ofInt 48 ((k.reg ga).toInt.tmod (k.reg gb).toInt)) ∧
    Computes (.remu c gd ga gb) c (plain .long) gd (fun k =>
      if k.reg gb = 0 then k.reg ga else k.reg ga % k.reg gb)

/-- HADD, HSUB, HADDS and HSUBS complete; half h of the result depends on half h of the operands alone: the wrapping
sum or difference, or the signed one saturated to 24 bits. (R111) -/
def Obligations.HalfResults : Prop :=
  ∀ (c : CoreId) (gd ga gb : Reg),
    let lo (w : Word) : BitVec 24 := w.extractLsb' 0 24
    let hi (w : Word) : BitVec 24 := w.extractLsb' 24 24
    let sat (v : Int) : BitVec 24 := BitVec.ofInt 24 (max (-2 ^ 23) (min (2 ^ 23 - 1) v))
    Computes (.hadd c gd ga gb) c (plain .long) gd (fun k =>
      (hi (k.reg ga) + hi (k.reg gb)) ++ (lo (k.reg ga) + lo (k.reg gb))) ∧
    Computes (.hsub c gd ga gb) c (plain .long) gd (fun k =>
      (hi (k.reg ga) - hi (k.reg gb)) ++ (lo (k.reg ga) - lo (k.reg gb))) ∧
    Computes (.hadds c gd ga gb) c (plain .long) gd (fun k =>
      sat ((hi (k.reg ga)).toInt + (hi (k.reg gb)).toInt) ++ sat ((lo (k.reg ga)).toInt + (lo (k.reg gb)).toInt)) ∧
    Computes (.hsubs c gd ga gb) c (plain .long) gd (fun k =>
      sat ((hi (k.reg ga)).toInt - (hi (k.reg gb)).toInt) ++ sat ((lo (k.reg ga)).toInt - (lo (k.reg gb)).toInt))

/-- The instructions with an immediate and the bit-field instructions complete and write what R109 and R113 give; a
bit-field instruction whose field R114 permits reads or writes exactly its field. (spec/03_heris_isa_base.md R109,
R113, R114) -/
def Obligations.ImmediateResults : Prop :=
  ∀ (c : CoreId) (f : Form) (gd ga : Reg),
    (∀ imm : BitVec 31,
      Computes (.addi c f gd ga imm) c (plain f) gd (fun k => k.reg ga + imm.signExtend 48) ∧
      Computes (.andi c gd ga imm) c (plain .long) gd (fun k => k.reg ga &&& imm.signExtend 48) ∧
      Computes (.ori c gd ga imm) c (plain .long) gd (fun k => k.reg ga ||| imm.signExtend 48) ∧
      Computes (.xori c gd ga imm) c (plain .long) gd (fun k => k.reg ga ^^^ imm.signExtend 48)) ∧
    (∀ amt : BitVec 6,
      Computes (.slli c gd ga amt) c (plain .short) gd (fun k => k.reg ga <<< amt.toNat) ∧
      Computes (.srli c gd ga amt) c (plain .short) gd (fun k => k.reg ga >>> amt.toNat) ∧
      Computes (.srai c gd ga amt) c (plain .short) gd (fun k => (k.reg ga).sshiftRight amt.toNat) ∧
      Computes (.roli c gd ga amt) c (plain .short) gd (fun k => (k.reg ga).rotateLeft (amt.toNat % 48))) ∧
    (∀ imm : BitVec 36,
      Computes (.movi c f gd imm) c (plain f) gd (fun _ => imm.signExtend 48) ∧
      Computes (.addpc c gd imm) c (plain .long) gd (fun k => w48 (k.pc.toNat / 2) + imm.signExtend 48)) ∧
    (∀ imm : BitVec 24,
      Computes (.ldih c gd imm) c (plain .long) gd (fun k => imm ++ (k.reg gd).extractLsb' 0 24)) ∧
    (∀ pos len : BitVec 6, 1 ≤ len.toNat → pos.toNat + len.toNat ≤ 48 →
      Computes (.extu c gd ga pos len) c (plain .long) gd
        (fun k => ((k.reg ga).extractLsb' pos.toNat len.toNat).zeroExtend 48) ∧
      Computes (.exts c gd ga pos len) c (plain .long) gd
        (fun k => ((k.reg ga).extractLsb' pos.toNat len.toNat).signExtend 48) ∧
      (∀ s t, Issues s c (plain .long) t → ∃ v : Word,
        exec (.dep c gd ga pos len) s = .next (completeInstr (writeReg t c gd v) c 2) ∧
        ∀ i < 48, v.getLsbD i = if pos.toNat ≤ i ∧ i < pos.toNat + len.toNat
          then ((t.core c).reg ga).getLsbD (i - pos.toNat) else ((t.core c).reg gd).getLsbD i) ∧
      (∀ s t, Issues s c (plain .long) t → ∃ v : Word,
        exec (.depz c gd ga pos len) s = .next (completeInstr (writeReg t c gd v) c 2) ∧
        ∀ i < 48, v.getLsbD i = if pos.toNat ≤ i ∧ i < pos.toNat + len.toNat
          then ((t.core c).reg ga).getLsbD (i - pos.toNat) else false))

/-- EXTU, EXTS, DEP and DEPZ with LEN = 0, POS > 47 or POS + LEN > 48 raise the illegal-instruction exception: the
instruction changes no register and the exception is taken at its PC. (R114) -/
def Obligations.BitFieldRefused : Prop :=
  ∀ (s t : State) (c : CoreId) (gd ga : Reg) (pos len : BitVec 6),
    Issues s c (plain .long) t → (len.toNat = 0 ∨ 47 < pos.toNat ∨ 48 < pos.toNat + len.toNat) →
    exec (.extu c gd ga pos len) s = .next (faultAt t c (exc 0x01 1)) ∧
    exec (.exts c gd ga pos len) s = .next (faultAt t c (exc 0x01 1)) ∧
    exec (.dep c gd ga pos len) s = .next (faultAt t c (exc 0x01 1)) ∧
    exec (.depz c gd ga pos len) s = .next (faultAt t c (exc 0x01 1)) ∧
    ((t.core c).slot = none → ∀ r : Reg, ((faultAt t c (exc 0x01 1)).core c).reg r = (t.core c).reg r)

/-- MOV, NEG, NOT, ABS, CLZ, CTZ, POPC, SXH, SXB, ZXH, ZXB and SWPH complete in both forms and write what R112 gives,
for every operand. (spec/03_heris_isa_base.md R112) -/
def Obligations.UnaryResults : Prop :=
  ∀ (c : CoreId) (f : Form) (gd ga : Reg),
    Computes (.mov c f gd ga) c (plain f) gd (fun k => k.reg ga) ∧
    Computes (.neg c f gd ga) c (plain f) gd (fun k => -k.reg ga) ∧
    Computes (.not c f gd ga) c (plain f) gd (fun k => ~~~k.reg ga) ∧
    Computes (.abs c f gd ga) c (plain f) gd (fun k => w48 (k.reg ga).toInt.natAbs) ∧
    (∀ s t, Issues s c (plain f) t → ∃ n, n ≤ 48 ∧
      exec (.clz c f gd ga) s = .next (completeInstr (writeReg t c gd (w48 n)) c (formLen f)) ∧
      (∀ i, 48 - n ≤ i → i < 48 → ((t.core c).reg ga).getLsbD i = false) ∧
      (n < 48 → ((t.core c).reg ga).getLsbD (47 - n) = true)) ∧
    (∀ s t, Issues s c (plain f) t → ∃ n, n ≤ 48 ∧
      exec (.ctz c f gd ga) s = .next (completeInstr (writeReg t c gd (w48 n)) c (formLen f)) ∧
      (∀ i, i < n → ((t.core c).reg ga).getLsbD i = false) ∧
      (n < 48 → ((t.core c).reg ga).getLsbD n = true)) ∧
    Computes (.popc c f gd ga) c (plain f) gd (fun k => w48 ((List.range 48).countP fun i => (k.reg ga).getLsbD i)) ∧
    Computes (.sxh c f gd ga) c (plain f) gd (fun k => ((k.reg ga).setWidth 24).signExtend 48) ∧
    Computes (.sxb c f gd ga) c (plain f) gd (fun k => ((k.reg ga).setWidth 8).signExtend 48) ∧
    Computes (.zxh c f gd ga) c (plain f) gd (fun k => k.reg ga &&& 0xFFFFFF) ∧
    Computes (.zxb c f gd ga) c (plain f) gd (fun k => k.reg ga &&& 0xFF) ∧
    Computes (.swph c f gd ga) c (plain f) gd (fun k => (k.reg ga).rotateLeft 24)

/-- Register g0 of every core reads zero, a write to it leaves the core as it was, and a write to any other register
is what that register then reads, with every other register unchanged. (spec/03_heris_isa_base.md R91) -/
def Obligations.RegisterZero : Prop :=
  ∀ (k : Core) (r : Reg) (v : Word),
    k.reg 0 = 0 ∧ k.setReg 0 v = k ∧ (r ≠ 0 → (k.setReg r v).reg r = v) ∧
    ∀ q : Reg, q ≠ r → (k.setReg r v).reg q = k.reg q

/-- An instruction that writes v to gd and completes changes nothing outside its core but performance counters: no
byte of DRAM, Sorus memory or NOR, no register of register space, no cache line, no other core. In its core every
other general register keeps its value, and nothing else changes but the PC, the slot, the loop count and depth of the
end test, the predictors and the note of the first instruction. (spec/03_heris_isa_base.md,
spec/04_heris_isa_special.md R156, spec/06_branches.md R241) -/
def Obligations.RegisterFrame : Prop :=
  ∀ (t : State) (c : CoreId) (gd : Reg) (v : Word) (len : Nat),
    let u := completeInstr (writeReg t c gd v) c len
    OnlyCore t u c ∧ SameButReg (t.core c) (u.core c) gd ∧ (gd ≠ 0 → (u.core c).reg gd = v)

/-- FADD, FSUB, FMUL, FDIV, FSQRT, FMA, FMS and FNMA complete in both precisions: gd receives the encoding and fcs
collects the flags of the operation on the decoded operands under the rounding mode of fcs; FSUB, FMS and FNMA are the
sum with a sign changed. The short form is F48 alone: FADD, FSUB, FMUL and FMIN of binary32 in it are illegal
instructions. (spec/03_heris_isa_base.md R125, R127, R130, R132) -/
def Obligations.FloatArithmetic : Prop :=
  ∀ (c : CoreId) (f : Form) (p : Prec) (gd ga gb gc : Reg),
    let val (k : Core) (r : Reg) : FVal := unpack (fmtOf p) (fin p (k.reg r))
    ComputesFp (.fadd c f p gd ga gb) c (shortShape f p) gd (fun k => addV (fmtOf p) (rmOf k.fcs) (val k ga) (val k gb)) ∧
    ComputesFp (.fsub c f p gd ga gb) c (shortShape f p) gd (fun k => addV (fmtOf p) (rmOf k.fcs) (val k ga) (val k gb).neg) ∧
    ComputesFp (.fmul c f p gd ga gb) c (shortShape f p) gd (fun k => mulV (fmtOf p) (rmOf k.fcs) (val k ga) (val k gb)) ∧
    ComputesFp (.fdiv c p gd ga gb) c (fpShape .long) gd (fun k => divV (fmtOf p) (rmOf k.fcs) (val k ga) (val k gb)) ∧
    ComputesFp (.fsqrt c p gd ga) c (fpShape .long) gd (fun k => sqrtV (fmtOf p) (rmOf k.fcs) (val k ga)) ∧
    ComputesFp (.fma c p gd ga gb gc) c (fpShape .long) gd
      (fun k => fmaV (fmtOf p) (rmOf k.fcs) (val k ga) (val k gb) (val k gc)) ∧
    ComputesFp (.fms c p gd ga gb gc) c (fpShape .long) gd
      (fun k => fmaV (fmtOf p) (rmOf k.fcs) (val k ga) (val k gb) (val k gc).neg) ∧
    ComputesFp (.fnma c p gd ga gb gc) c (fpShape .long) gd
      (fun k => fmaV (fmtOf p) (rmOf k.fcs) (val k ga).neg (val k gb) (val k gc)) ∧
    (∀ s t, Issues s c (fpShape .short) t → ∀ i ∈ [Instr.fadd c .short .s32 gd ga gb, .fsub c .short .s32 gd ga gb,
        .fmul c .short .s32 gd ga gb, .fmin c .short .s32 gd ga gb],
      exec i s = .next (faultAt t c (exc 0x01 1)))

/-- In rounding mode 0 the encoding that a finite magnitude m × 2^e rounds to in F48, binary32 or binary64, if it is
finite, is no further from it than any other finite encoding of the format; in mode 1 its magnitude is the greatest
that does not exceed m × 2^e. Distances are compared exactly, in units of 2^(-4000). (spec/03_heris_isa_base.md R89,
R125, R128) -/
def Obligations.FloatNearest : Prop :=
  ∀ (f : Fmt) (m : Nat) (e : Int), (f = fmtF48 ∨ f = fmtS32 ∨ f = fmtD64) → -4000 ≤ e →
    let mag (v : FVal) : Option Nat := match v with
      | .fin _ m e => some (m * 2 ^ (e + 4000).toNat)
      | _ => none
    let x := m * 2 ^ (e + 4000).toNat
    (∀ r, mag (unpack f (pack f 0 false m e).1) = some r → ∀ y z, mag (unpack f y) = some z →
      (Int.natAbs (r - x : Int)) ≤ Int.natAbs (z - x : Int)) ∧
    (∀ r, mag (unpack f (pack f 1 false m e).1) = some r → r ≤ x ∧
      ∀ y z, mag (unpack f y) = some z → z ≤ x → z ≤ r)

/-- With a NaN operand, FADD, FSUB, FMUL and FDIV write the default NaN of the format, FSQRT does with a NaN or
negative non-zero operand, a product of zero and infinity makes a fused operation write it and set NV whatever the
addend, and a signalling NaN among the operands sets NV. (spec/03_heris_isa_base.md R129) -/
def Obligations.FloatNaN : Prop :=
  ∀ (f : Fmt) (rm : Nat) (a b c : FVal) (x : Bool),
    (∀ op ∈ [addV, mulV, divV], (a.isNaN = true ∨ b.isNaN = true) → (op f rm a b).1 = f.nan ∧
      ((a = .nan true ∨ b = .nan true) → (op f rm a b).2 = flNV)) ∧
    (sqrtV f rm (.nan x)).1 = f.nan ∧ (sqrtV f rm (.inf true)) = (f.nan, flNV) ∧
    (∀ m e, m ≠ 0 → sqrtV f rm (.fin true m e) = (f.nan, flNV)) ∧
    (∀ n e, fmaV f rm (.inf x) (.fin n 0 e) c = (f.nan, flNV) ∧ fmaV f rm (.fin n 0 e) (.inf x) c = (f.nan, flNV)) ∧
    (a.isNaN = true ∨ b.isNaN = true ∨ c.isNaN = true → (fmaV f rm a b c).1 = f.nan)

/-- FMIN, FMAX, FEQ, FLT, FLE, FCLASS, FNEG and FABS complete in both precisions; the comparisons write 1 or 0 by the
order of the decoded values and 0 for a NaN; FCLASS writes one class bit and sets NV for a signalling NaN; FNEG
inverts the sign bit alone and FABS clears it alone, and both set no flag. (spec/03_heris_isa_base.md R129, R130,
R131) -/
def Obligations.FloatCompare : Prop :=
  ∀ (c : CoreId) (f : Form) (p : Prec) (gd ga gb : Reg),
    let enc (k : Core) (r : Reg) : Nat := fin p (k.reg r)
    let val (k : Core) (r : Reg) : FVal := unpack (fmtOf p) (enc k r)
    let sign : Nat := 2 ^ ((fmtOf p).width - 1)
    ComputesFp (.fmin c f p gd ga gb) c (shortShape f p) gd (fun k => minMax (fmtOf p) false (enc k ga) (enc k gb)) ∧
    ComputesFp (.fmax c p gd ga gb) c (fpShape .long) gd (fun k => minMax (fmtOf p) true (enc k ga) (enc k gb)) ∧
    ComputesFp (.feq c p gd ga gb) c (fpShape .long) gd (fun k =>
      if (val k ga).isNaN || (val k gb).isNaN then (0, nvOf [val k ga, val k gb])
      else (if cmpV (val k ga) (val k gb) = 0 then 1 else 0, 0)) ∧
    ComputesFp (.flt c p gd ga gb) c (fpShape .long) gd (fun k =>
      if (val k ga).isNaN || (val k gb).isNaN then (0, flNV)
      else (if cmpV (val k ga) (val k gb) < 0 then 1 else 0, 0)) ∧
    ComputesFp (.fle c p gd ga gb) c (fpShape .long) gd (fun k =>
      if (val k ga).isNaN || (val k gb).isNaN then (0, flNV)
      else (if cmpV (val k ga) (val k gb) ≤ 0 then 1 else 0, 0)) ∧
    (∀ s t, Issues s c (fpShape .long) t → ∃ n < 10,
      exec (.fclass c p gd ga) s = .next (completeInstr (t.modCore c fun k => { k.setReg gd (w48 (2 ^ n)) with
        fcs := k.fcs ||| (if val (t.core c) ga = .nan true then w48 flNV else 0) }) c 2)) ∧
    ComputesFp (.fneg c p gd ga) c (fpShape .long) gd (fun k =>
      (if enc k ga < sign then enc k ga + sign else enc k ga - sign, 0)) ∧
    ComputesFp (.fabs c p gd ga) c (fpShape .long) gd (fun k =>
      (if enc k ga < sign then enc k ga else enc k ga - sign, 0))

/-- The conversions complete: an integer rounds once into the format; a value converts to the integer it rounds to
under the rounding mode (toward zero for FCVT.I.F48Z) and saturates with NV; the formats convert with one rounding;
the binary64 conversions read and write an even pair of registers; the half and byte conversions take their part of
the word. (spec/03_heris_isa_base.md R94, R133, R134, R135) -/
def Obligations.FloatConversions : Prop :=
  ∀ (c : CoreId) (gd ga : Reg),
    ComputesFp (.fcvtF48I c gd ga) c (fpShape .long) gd (fun k => pack fmtF48 (rmOf k.fcs) ((k.reg ga).toInt < 0) (k.reg ga).toInt.natAbs 0) ∧
    ComputesFp (.fcvtF48U c gd ga) c (fpShape .long) gd (fun k => pack fmtF48 (rmOf k.fcs) false (k.reg ga).toNat 0) ∧
    ComputesFp (.fcvtIF48 c gd ga) c (fpShape .long) gd (fun k =>
      ((toIntV (rmOf k.fcs) true (unpack fmtF48 (k.reg ga).toNat)).1.toNat, (toIntV (rmOf k.fcs) true (unpack fmtF48 (k.reg ga).toNat)).2)) ∧
    ComputesFp (.fcvtUF48 c gd ga) c (fpShape .long) gd (fun k =>
      ((toIntV (rmOf k.fcs) false (unpack fmtF48 (k.reg ga).toNat)).1.toNat, (toIntV (rmOf k.fcs) false (unpack fmtF48 (k.reg ga).toNat)).2)) ∧
    ComputesFp (.fcvtIF48Z c gd ga) c (fpShape .long) gd (fun k =>
      ((toIntV 1 true (unpack fmtF48 (k.reg ga).toNat)).1.toNat, (toIntV 1 true (unpack fmtF48 (k.reg ga).toNat)).2)) ∧
    ComputesFp (.fcvtF48S c gd ga) c (fpShape .long) gd (fun k => convV fmtF48 (rmOf k.fcs) (unpack fmtS32 ((k.reg ga).toNat % 2 ^ 32))) ∧
    ComputesFp (.fcvtSF48 c gd ga) c (fpShape .long) gd (fun k => convV fmtS32 (rmOf k.fcs) (unpack fmtF48 (k.reg ga).toNat)) ∧
    ComputesFp (.fcvtF48H0 c gd ga) c (fpShape .long) gd (fun k =>
      ofIntV fmtF48 (rmOf k.fcs) ((k.reg ga).extractLsb' 0 24).toInt) ∧
    ComputesFp (.fcvtF48H1 c gd ga) c (fpShape .long) gd (fun k =>
      ofIntV fmtF48 (rmOf k.fcs) ((k.reg ga).extractLsb' 24 24).toInt) ∧
    ComputesFp (.fcvtIS c gd ga) c (fpShape .long) gd (fun k =>
      ((toIntV (rmOf k.fcs) true (unpack fmtS32 ((k.reg ga).toNat % 2 ^ 32))).1.toNat, (toIntV (rmOf k.fcs) true (unpack fmtS32 ((k.reg ga).toNat % 2 ^ 32))).2)) ∧
    ComputesFp (.fcvtSI c gd ga) c (fpShape .long) gd (fun k => ofIntV fmtS32 (rmOf k.fcs) (k.reg ga).toInt) ∧
    (ga.val % 2 = 0 → ComputesFp (.fcvtF48D64 c gd ga) c (fpShape .long) gd (fun k =>
      convV fmtF48 (rmOf k.fcs) (unpack fmtD64 ((k.reg ga).toNat + (k.reg (pairHi ga)).toNat % 2 ^ 16 * 2 ^ 48)))) ∧
    (gd.val % 2 = 0 → gd ≠ 30 → ∀ s t, Issues s c (fpShape .long) t →
      exec (.fcvtD64F48 c gd ga) s = .next (completeInstr (t.modCore c fun k =>
        let r := convV fmtD64 (rmOf k.fcs) (unpack fmtF48 (k.reg ga).toNat)
        { (k.setReg gd (w48 r.1)).setReg (pairHi gd) (w48 (r.1 / 2 ^ 48)) with fcs := k.fcs ||| w48 r.2 }) c 2)) ∧
    (∀ s t, Issues s c (fpShape .long) t → ga.val % 2 = 1 →
      exec (.fcvtF48D64 c gd ga) s = .next (faultAt t c (exc 0x01 4))) ∧
    (∀ s t, Issues s c (fpShape .long) t → gd.val % 2 = 1 ∨ gd = 30 →
      exec (.fcvtD64F48 c gd ga) s = .next (faultAt t c (exc 0x01 4)))

/-- MUL, MULU, MAC, MACU, MSU, MULH, MACH, MTPLO, MTPHI, MTPGD and CLRA complete and issue one write of the
accumulator behind the writes before it: the exact product, the accumulator as the previous write in program order
leaves it plus or minus the exact term (marked when it overflows 120 bits), or that accumulator with one register
replaced. (spec/04_heris_isa_special.md R139, R141, R144, R147) -/
def Obligations.MultiplyWrites : Prop :=
  ∀ (c : CoreId) (f : Form) (ga gb : Reg),
    let issue (k : Core) (v : BitVec 120) (o : Bool) : MulUnit := { k.mul with queue := k.mul.queue ++ [.setAcc v o] }
    let accum (k : Core) (x : Int) : MulUnit :=
      let v := (k.mul.queue.foldl MulUnit.apply k.mul).acc.toInt + x
      issue k (BitVec.ofInt 120 v) (decide (v < -2 ^ 119) || decide (2 ^ 119 ≤ v))
    let last (k : Core) : BitVec 120 := (k.mul.queue.foldl MulUnit.apply k.mul).acc
    let sp (k : Core) : Int := (k.reg ga).toInt * (k.reg gb).toInt
    let up (k : Core) : Int := ((k.reg ga).toNat * (k.reg gb).toNat : Nat)
    let hp (k : Core) : Int :=
      ((k.reg ga).extractLsb' 0 24).toInt * ((k.reg gb).extractLsb' 0 24).toInt +
      ((k.reg ga).extractLsb' 24 24).toInt * ((k.reg gb).extractLsb' 24 24).toInt
    ChangesMul (.mul c f ga gb) c f (fun k => issue k (BitVec.ofInt 120 (sp k)) false) ∧
    ChangesMul (.mulu c ga gb) c .long (fun k => issue k (BitVec.ofInt 120 (up k)) false) ∧
    ChangesMul (.mulh c ga gb) c .long (fun k => issue k (BitVec.ofInt 120 (hp k)) false) ∧
    ChangesMul (.mac c f ga gb) c f (fun k => accum k (sp k)) ∧
    ChangesMul (.macu c ga gb) c .long (fun k => accum k (up k)) ∧
    ChangesMul (.msu c ga gb) c .long (fun k => accum k (-sp k)) ∧
    ChangesMul (.mach c ga gb) c .long (fun k => accum k (hp k)) ∧
    ChangesMul (.mtplo c ga) c .long (fun k => issue k ((last k).extractLsb' 48 72 ++ k.reg ga) false) ∧
    ChangesMul (.mtphi c ga) c .long (fun k =>
      issue k ((last k).extractLsb' 96 24 ++ k.reg ga ++ (last k).extractLsb' 0 48) false) ∧
    ChangesMul (.mtpgd c ga) c .long (fun k => issue k ((k.reg ga).setWidth 24 ++ (last k).extractLsb' 0 96) false) ∧
    ChangesMul (.clra c) c .long (fun k => issue k 0 false)

/-- MFPLO, MFPHI and MFPGD complete and write the register of the accumulator that stands, whatever writes are still
in flight; a write falls due in program order with MULTIPLY_UNIT_DUE, which changes nothing else of the core.
(spec/04_heris_isa_special.md R139, R141, R142, R147) -/
def Obligations.MultiplyReads : Prop :=
  ∀ (c : CoreId) (f : Form) (gd : Reg) (s : State),
    Computes (.mfplo c f gd) c (plain f) gd (fun k => k.mul.acc.extractLsb' 0 48) ∧
    Computes (.mfphi c f gd) c (plain f) gd (fun k => k.mul.acc.extractLsb' 48 48) ∧
    Computes (.mfpgd c gd) c (plain .long) gd (fun k => (k.mul.acc.extractLsb' 96 24).signExtend 48) ∧
    (∀ e l, (s.core c).mul.queue = e :: l → exec (.multiplyUnitDue c) s = .next (s.modCore c fun k => { k with
      mul := match e with
        | .setAcc v o => ⟨v, if o then setBit k.mul.pst 1 true else k.mul.pst, l⟩
        | .writePst v => ⟨k.mul.acc, v &&& 0x3E, l⟩
        | .setSV => ⟨k.mul.acc, setBit k.mul.pst 2 true, l⟩ })) ∧
    ((s.core c).mul.queue = [] → exec (.multiplyUnitDue c) s = .next s)

/-- EXTA completes and writes the standing accumulator shifted right by bits 6:0 of gb, rounded as RND says: toward
minus infinity, half up, or half to even; 120 or more give copies of the sign. With SAT a value outside 48 bits
becomes the nearest limit and SV is set; otherwise bits 47:0 are written. (spec/04_heris_isa_special.md R139, R146,
R147) -/
def Obligations.ExtractResult : Prop :=
  ∀ (s t : State) (c : CoreId) (gd gb : Reg), Issues s c (plain .long) t →
    let k := t.core c
    let sh := (k.reg gb).toNat % 128
    let a := k.mul.acc.toInt
    let rnd := fld k.mul.pst 5 4
    ∃ (v : Int) (m : MulUnit),
      (sh < 120 → rnd = 0 → v * 2 ^ sh ≤ a ∧ a < (v + 1) * 2 ^ sh) ∧
      (sh < 120 → rnd = 1 → (2 * v - 1) * 2 ^ sh ≤ 2 * a ∧ 2 * a < (2 * v + 1) * 2 ^ sh) ∧
      (sh < 120 → rnd = 2 → (2 * v - 1) * 2 ^ sh ≤ 2 * a ∧ 2 * a ≤ (2 * v + 1) * 2 ^ sh ∧
        (2 * a = (2 * v - 1) * 2 ^ sh ∨ 2 * a = (2 * v + 1) * 2 ^ sh → v % 2 = 0)) ∧
      (120 ≤ sh → v = if a < 0 then -1 else 0) ∧
      m.acc = k.mul.acc ∧
      (m = if bit k.mul.pst 3 && (v < -2 ^ 47 || 2 ^ 47 ≤ v)
        then (if k.mul.queue = [] then { k.mul with pst := setBit k.mul.pst 2 true }
              else { k.mul with queue := k.mul.queue ++ [.setSV] })
        else k.mul) ∧
      exec (.exta c gd gb) s = .next (completeInstr (t.modCore c fun k => { k.setReg gd
        (if bit k.mul.pst 3 then BitVec.ofInt 48 (max (-2 ^ 47) (min (2 ^ 47 - 1) v)) else BitVec.ofInt 48 v) with mul := m }) c 2)

/-- CRCB, CRCH and CRCW complete and write the state that R151's loop leaves after 8, 24 or 48 bits of gb under
polynomial register P, bit by bit: each step shifts the state by one and folds the polynomial in when the outgoing bit
and the data bit differ. (spec/04_heris_isa_special.md R149, R150, R151) -/
def Obligations.CrcResults : Prop :=
  ∀ (c : CoreId) (p : Fin 2) (gd ga gb : Reg),
    Computes (.crcb c p gd ga gb) c (plain .long) gd (fun k => crcStep k.cpoly[p] 8 (k.reg ga) (k.reg gb)) ∧
    Computes (.crch c p gd ga gb) c (plain .long) gd (fun k => crcStep k.cpoly[p] 24 (k.reg ga) (k.reg gb)) ∧
    Computes (.crcw c p gd ga gb) c (plain .long) gd (fun k => crcStep k.cpoly[p] 48 (k.reg ga) (k.reg gb)) ∧
    (∀ (w poly crc : Nat) (d : Bool), 1 ≤ w → w ≤ 32 → crc < 2 ^ w →
      crcStepBit w poly false crc d < 2 ^ w ∧ crcStepBit w poly true crc d < 2 ^ w ∧
      (∀ i < w, (crcStepBit w poly false crc d).testBit i =
        ((decide (0 < i) && crc.testBit (i - 1)) != ((crc.testBit (w - 1) != d) && poly.testBit i))) ∧
      (∀ i < w, (crcStepBit w poly true crc d).testBit i =
        ((decide (i + 1 < w) && crc.testBit (i + 1)) != ((crc.testBit 0 != d) && poly.testBit (w - 1 - i)))))

/-- PAR, PARH, PARB, BREV8, BREV24 and BREV48 complete and write the parities of the word, of its halves and of its
bytes, and the word with the bits of each group reversed in place. (spec/04_heris_isa_special.md R149) -/
def Obligations.ParityResults : Prop :=
  ∀ (c : CoreId) (gd ga : Reg),
    let par (w : Word) (i n : Nat) : Bool := (List.range n).foldl (fun b j => b != w.getLsbD (i + j)) false
    (∀ s t, Issues s c (plain .long) t → ∀ i ∈ [Instr.par c gd ga, .parh c gd ga, .parb c gd ga, .brev8 c gd ga,
        .brev24 c gd ga, .brev48 c gd ga],
      ∃ v : Word, exec i s = .next (completeInstr (writeReg t c gd v) c 2) ∧
      let a := (t.core c).reg ga
      ∀ j < 48, v.getLsbD j = match i with
        | .par _ _ _ => decide (j = 0) && par a 0 48
        | .parh _ _ _ => decide (j < 2) && par a (24 * j) 24
        | .parb _ _ _ => decide (j < 6) && par a (8 * j) 8
        | .brev8 _ _ _ => a.getLsbD (8 * (j / 8) + 7 - j % 8)
        | .brev24 _ _ _ => a.getLsbD (24 * (j / 24) + 23 - j % 24)
        | _ => a.getLsbD (47 - j))

/-- Each of the sixteen conditional branches, outside a delay slot, leaves its delay slot next: taken exactly when its
condition on ga (and gb) holds, to the PC of the branch plus the offset, and annulled when A is set and it is not
taken. It changes no other register. (spec/06_branches.md R225, R226, R227, R234, R235) -/
def Obligations.BranchResults : Prop :=
  ∀ (c : CoreId) (f : Form) (ga gb : Reg) (off : BitVec 31) (of2 : BitVec 25) (a h : Bool),
    let go (f : Form) (o : Word) (p : Core → Bool) (k : Core) : Core :=
      k.toSlot { k.slotFor c (formLen f) (p k) a (k.pc + o) 0 with cond := true, hint := h }
    let z (p : Core → Bool) : Core → Core := go f (off.signExtend 48) p
    let r (p : Core → Bool) : Core → Core := go .long (of2.signExtend 48) p
    LeavesSlot (.eqz c f ga off a h) c (transfer f) (z fun k => k.reg ga == 0) ∧
    LeavesSlot (.nez c f ga off a h) c (transfer f) (z fun k => k.reg ga != 0) ∧
    LeavesSlot (.ltz c f ga off a h) c (transfer f) (z fun k => (k.reg ga).msb) ∧
    LeavesSlot (.gez c f ga off a h) c (transfer f) (z fun k => !(k.reg ga).msb) ∧
    LeavesSlot (.lez c f ga off a h) c (transfer f) (z fun k => (k.reg ga).msb || k.reg ga == 0) ∧
    LeavesSlot (.gtz c f ga off a h) c (transfer f) (z fun k => !(k.reg ga).msb && k.reg ga != 0) ∧
    LeavesSlot (.bodd c f ga off a h) c (transfer f) (z fun k => (k.reg ga).getLsbD 0) ∧
    LeavesSlot (.bevn c f ga off a h) c (transfer f) (z fun k => !(k.reg ga).getLsbD 0) ∧
    LeavesSlot (.beq c ga gb of2 a h) c (transfer .long) (r fun k => k.reg ga == k.reg gb) ∧
    LeavesSlot (.bne c ga gb of2 a h) c (transfer .long) (r fun k => k.reg ga != k.reg gb) ∧
    LeavesSlot (.blt c ga gb of2 a h) c (transfer .long) (r fun k => (k.reg ga).slt (k.reg gb)) ∧
    LeavesSlot (.bge c ga gb of2 a h) c (transfer .long) (r fun k => !(k.reg ga).slt (k.reg gb)) ∧
    LeavesSlot (.bltu c ga gb of2 a h) c (transfer .long) (r fun k => (k.reg ga).ult (k.reg gb)) ∧
    LeavesSlot (.bgeu c ga gb of2 a h) c (transfer .long) (r fun k => !(k.reg ga).ult (k.reg gb)) ∧
    LeavesSlot (.bany c ga gb of2 a h) c (transfer .long) (r fun k => (k.reg ga &&& k.reg gb) != 0) ∧
    LeavesSlot (.bnone c ga gb of2 a h) c (transfer .long) (r fun k => (k.reg ga &&& k.reg gb) == 0)

/-- DBNZ and DBGZ write ga less 1 and branch when the new value is not zero, or is above zero as a signed number; with
g0 they are illegal. J goes to its PC plus the offset and JR to the PC in ga. All of them leave their delay slot next;
in a delay slot any of them is illegal. (spec/06_branches.md R225, R228, R234, R236, R237) -/
def Obligations.JumpResults : Prop :=
  ∀ (c : CoreId) (ga : Reg) (off : BitVec 7) (o2 : BitVec 36) (a h : Bool),
    let cnt (p : Word → Bool) (k : Core) : Core :=
      let v := k.reg ga - 1
      (k.setReg ga v).toSlot { k.slotFor c 1 (p v) a (k.pc + off.signExtend 48) 0 with
        cond := true, hint := h, undoReg := some (ga, k.reg ga) }
    (ga ≠ 0 → LeavesSlot (.dbnz c ga off a h) c (transfer .short) (cnt fun v => v != 0) ∧
      LeavesSlot (.dbgz c ga off a h) c (transfer .short) (cnt fun v => decide (0 < v.toInt))) ∧
    LeavesSlot (.j c o2) c (transfer .long) (fun k => k.toSlot (k.slotFor c 2 true false (k.pc + o2.signExtend 48) 0)) ∧
    LeavesSlot (.jr c ga) c (transfer .long) (fun k => k.toSlot (k.slotFor c 2 true false (k.reg ga) 3)) ∧
    (∀ s t, Issues s c (transfer .short) t →
      exec (.dbnz c 0 off a h) s = .next (faultAt t c (exc 0x01 1)) ∧
      exec (.dbgz c 0 off a h) s = .next (faultAt t c (exc 0x01 1))) ∧
    (∀ s t, Rejects s c (transfer .long) t (exc 0x01 3) →
      exec (.j c o2) s = .next (faultAt t c (exc 0x01 3)) ∧ exec (.jr c ga) s = .next (faultAt t c (exc 0x01 3)))

/-- When the instruction in the slot of a taken branch completes, execution goes on at the branch's target and the
loop end test does not apply; after the slot of a branch not taken it goes on after the slot, under the end test. An
instruction in the slot of an annulled branch completes with none of its effects on general registers or memory, and
one that R228 forbids there is illegal. An annulled slot in half 1 counts as one half-word whatever its L bit, the
choice of the model (log entry 124). (spec/06_branches.md R226, R227, R228, spec/04_heris_isa_special.md R157) -/
def Obligations.SlotOutcome : Prop :=
  ∀ (s : State) (c : CoreId) (b : Slot) (len : Nat) (ga gb gd : Reg),
    ((s.core c).slot = some b → b.taken = true →
      ((completeInstr s c len).core c).pc = b.target ∧ ((completeInstr s c len).core c).slot = none ∧
      ((completeInstr s c len).core c).lctl = (s.core c).lctl ∧ ((completeInstr s c len).core c).lc = (s.core c).lc) ∧
    ((s.core c).slot = some b → b.taken = false →
      ((completeInstr s c len).core c).pc =
        pcOf c (endTest (s.core c) (pcOf c ((s.core c).pc + w48 len)) (fld (s.core c).lctl 1 0)).2 ∧
      ((completeInstr s c len).core c).slot = none) ∧
    (canIssue s c = true → ((issueStatus s c).core c).inAnnulled = true →
      let t := issueStatus s c
      let passed (n : Nat) : Host.Outcome State Fault Refusal := .next (completeInstr (tally (tally t c 0x11 0 1) c 0x12 0 1) c n)
      let two : Nat := if (t.core c).pc.getLsbD 0 then 1 else 2
      (∀ disp, exec (.store c gd ga disp .word 0 false) s = passed two) ∧
      exec (.add c .short gd ga gb) s = passed 1 ∧ exec (.mul c .long ga gb) s = passed two ∧
      exec (.jr c ga) s = .next (faultAt (issueStatus s c) c (exc 0x01 3)) ∧
      (∀ i ∈ [Instr.lpop c, .retx c, .fend c], exec i s = .next (faultAt (issueStatus s c) c (exc 0x01 3))))

/-- When the instruction in a delay slot faults, the exception is taken with the PC of the branch as its resume
address, and what the branch wrote, a counted register or the return-stack pointers, has its old value again.
(spec/06_branches.md R230, spec/07_privilege_exceptions.md R277) -/
def Obligations.SlotFaultUndoesBranch : Prop :=
  ∀ (s : State) (c : CoreId) (b : Slot) (e : Exc), (s.core c).slot = some b →
    let k := s.core c
    faultAt s c e = raiseAt (s.modCore c fun _ =>
      { (match b.undoReg with
          | some (r, v) => k.setReg r v
          | none => k) with
        slot := none, pc := b.branchPc, rsp := b.undoRsp, rss := b.undoRss, waiting := none }) c e b.branchPc

/-- LOOP with all three levels open raises the loop-overflow exception and changes nothing; with ga zero it skips the
body; otherwise it opens the next level over the body with its count and the current privilege level. LPOP closes the
innermost level when its owner is not above the current level, and otherwise changes no loop register. An offset below
3 is illegal. (spec/04_heris_isa_special.md R152, R154, R155) -/
def Obligations.LoopResults : Prop :=
  ∀ (s t : State) (c : CoreId) (ga : Reg) (off : BitVec 31), Issues s c (transfer .long) t →
    let k := t.core c
    let n := fld k.lctl 1 0
    let e := k.pc + off.signExtend 48
    (off.toInt < 3 → exec (.loop c ga off) s = .next (faultAt t c (exc 0x01 1))) ∧
    (3 ≤ off.toInt →
      (n = 3 → exec (.loop c ga off) s = .next (faultAt t c (exc 0x04 0))) ∧
      (n ≠ 3 → k.reg ga = 0 → exec (.loop c ga off) s = .next (completeAt t c e)) ∧
      (n ≠ 3 → k.reg ga ≠ 0 → exec (.loop c ga off) s = .next (completeInstr (t.setCore c { k with
        ls := k.ls.set (lvl n) (k.pc + 2), le := k.le.set (lvl n) e, lc := k.lc.set (lvl n) (k.reg ga),
        lctl := setFld (setFld k.lctl (9 + 2 * n) (8 + 2 * n) k.pl) 1 0 (n + 1) }) c 2))) ∧
    (n ≠ 0 → fld k.lctl (9 + 2 * (n - 1)) (8 + 2 * (n - 1)) ≤ k.pl →
      exec (.lpop c) s = .next (completeInstr (t.modCore c fun k =>
        { k with lc := k.lc.set (lvl (n - 1)) 0, lctl := setFld k.lctl 1 0 (n - 1) }) c 2)) ∧
    (n = 0 ∨ k.pl < fld k.lctl (9 + 2 * (n - 1)) (8 + 2 * (n - 1)) → exec (.lpop c) s = .next (completeInstr t c 2))

/-- An instruction outside a delay slot that completes with its next PC at the end of the innermost open level, owned
by the current privilege level, goes back to the start of the body and counts one pass while more than one is left; on
the last pass a single open level closes and execution goes on after the body. Where the next PC is not that end it is
the next PC. (spec/04_heris_isa_special.md R156) -/
def Obligations.LoopEndTest : Prop :=
  ∀ (s : State) (c : CoreId) (len : Nat),
    let k := s.core c
    let n := fld k.lctl 1 0
    let x := pcOf c (k.pc + w48 len)
    let u := (completeInstr s c len).core c
    k.slot = none →
    (n = 0 → u.pc = x ∧ u.lctl = k.lctl) ∧
    (n ≠ 0 → x ≠ k.le[lvl (n - 1)] → u.pc = x ∧ u.lctl = k.lctl ∧ u.lc = k.lc) ∧
    (n ≠ 0 → x = k.le[lvl (n - 1)] → k.own (n - 1) = k.pl → 1 < (k.lc[lvl (n - 1)]).toNat →
      u.pc = pcOf c (k.ls[lvl (n - 1)]) ∧ u.lctl = k.lctl ∧ u.lc = k.lc.set (lvl (n - 1)) (k.lc[lvl (n - 1)] - 1)) ∧
    (n = 1 → x = k.le[lvl 0] → k.own 0 = k.pl → (k.lc[lvl 0]).toNat ≤ 1 →
      u.pc = x ∧ u.lctl = setFld k.lctl 1 0 0 ∧ u.lc = k.lc.set (lvl 0) 0)

/-- On a Frond core whose stack words lie in its private Sorus memory, CALL and CALLR store the PC after their delay
slot at rsp, and when guarded also at rss, step the pointers up and leave the slot next; RET steps them down, loads
the target, and leaves its slot next. (spec/04_heris_isa_special.md R160, R163, R166, spec/06_branches.md R225, R237)
-/
def Obligations.CallsAndReturns : Prop :=
  ∀ (s t : State) (i : Fin 16) (f : Form), let c : CoreId := .frond i
    Issues s c (transfer f) t →
    let k := t.core c
    let p1 := pcOf c (k.pc + w48 (formLen f))
    let back (slot : Form) : Word := pcOf c (p1 + w48 (if p1.getLsbD 0 then 1 else formLen slot))
    let pushed (r : Word) : State :=
      if k.gx then privPut (privPut t k.rsp.toNat r) k.rss.toNat r else privPut t k.rsp.toNat r
    let called (slot : Form) (target : Word) (kind : Nat) : State := (pushed (back slot)).modCore c fun k =>
      { k.toSlot { k.slotFor c (formLen f) true false target kind with retAddr := back slot } with
        rsp := k.rsp + 1, rss := if k.gx then k.rss + 1 else k.rss }
    (k.rsp < k.rshi → PrivWord t i k.rsp.toNat → (k.gx = true → PrivWord t i k.rss.toNat) →
      (∀ off slot, exec (.call c f off slot) s = .next (called slot (k.pc + off.signExtend 48) 1)) ∧
      (∀ ga slot, exec (.callr c f ga slot) s = .next (called slot (k.reg ga) 4))) ∧
    (k.rslo < k.rsp → PrivWord t i (k.rsp - 1).toNat →
      (k.gx = true → PrivWord t i (k.rss - 1).toNat ∧ privGet t (k.rss - 1).toNat = privGet t (k.rsp - 1).toNat) →
      exec (.ret c f) s = .next ((if k.gx then privRead (privRead t) else privRead t).modCore c fun x =>
        { x.toSlot (x.slotFor c (formLen f) true false (privGet t (k.rsp - 1).toNat) 2) with
          rsp := k.rsp - 1, rss := if k.gx then k.rss - 1 else k.rss }))

/-- CALL and CALLR with rsp at or above rshi, and RET with rsp at or below rslo, raise the control-flow check with the
return-stack-bound cause, and neither rsp nor any memory changes. (spec/04_heris_isa_special.md R162) -/
def Obligations.ReturnStackBounds : Prop :=
  ∀ (s t : State) (c : CoreId) (f : Form) (off : BitVec 36) (ga : Reg) (slot : Form), Issues s c (transfer f) t →
    let k := t.core c
    (k.rshi.toNat ≤ k.rsp.toNat →
      exec (.call c f off slot) s = .next (faultAt t c (exc 0x05 1 k.rsp)) ∧
      exec (.callr c f ga slot) s = .next (faultAt t c (exc 0x05 1 k.rsp))) ∧
    (k.rsp.toNat ≤ k.rslo.toNat → exec (.ret c f) s = .next (faultAt t c (exc 0x05 1 (k.rsp - 1)))) ∧
    (k.slot = none → ∀ e : Exc, ((faultAt t c e).core c).rsp = k.rsp)

/-- On a Frond core, LW, the long load, the indexed load, the bank load and POP of a good word of its private Sorus
memory complete and write the word, the half or byte that the selector names, sign- or zero-extended, or the two words
of a double-word; POP also steps dsp up. No memory changes. (spec/03_heris_isa_base.md R94, R115, R116, R117, R119) -/
def Obligations.LoadsFromSorus : Prop :=
  ∀ (s t : State) (i : Fin 16), let c : CoreId := .frond i
    let k := t.core c
    let elem (w : Word) (sz : Size) (sel : Nat) (sx : Bool) : Word := match sz, sx with
      | .half, true => (w.extractLsb' (24 * sel) 24).signExtend 48
      | .half, false => (w.extractLsb' (24 * sel) 24).setWidth 48
      | .byte, true => (w.extractLsb' (8 * sel) 8).signExtend 48
      | .byte, false => (w.extractLsb' (8 * sel) 8).setWidth 48
      | _, _ => w
    let one (gd : Reg) (a : Word) (sz : Size) (sel : Nat) (sx : Bool) (len : Nat) : State :=
      completeInstr (writeReg (privRead t) c gd (elem (privGet t a.toNat) sz sel sx)) c len
    let two (gd : Reg) (a : Word) : State := completeInstr (writeReg (writeReg (privRead (privRead t)) c gd
      (privGet t a.toNat)) c (pairHi gd) (privGet t (a + 1).toNat)) c 2
    (Issues s c (plain .short) t →
      (∀ gd ga (imm : BitVec 7), let a := k.reg ga + imm.setWidth 48
        PrivWord t i a.toNat → exec (.lw c gd ga imm) s = .next (one gd a .word 0 false 1)) ∧
      (∀ n j off, let a := w48 (k.b[n].toNat * 65536 + off.toNat)
        PrivWord t i a.toNat → exec (.bankLoad c n j off) s = .next (one ⟨8 + j.val, by omega⟩ a .word 0 false 1)) ∧
      (∀ gd, PrivWord t i (k.reg 31).toNat → exec (.pop c gd) s = .next (completeInstr
        (writeReg (writeReg (privRead t) c 31 (k.reg 31 + 1)) c gd (privGet t (k.reg 31).toNat)) c 1))) ∧
    (Issues s c (plain .long) t →
      (∀ gd ga (disp : BitVec 25) sz (sel : BitVec 3) sx, let a := k.reg ga + disp.signExtend 48
        PrivWord t i a.toNat →
        (sz = .word ∧ sel = 0 ∧ sx = false) ∨ (sz = .half ∧ sel.toNat ≤ 1) ∨ (sz = .byte ∧ sel.toNat ≤ 5) →
        exec (.load c gd ga disp sz sel sx) s = .next (one gd a sz sel.toNat sx 2)) ∧
      (∀ gd ga (disp : BitVec 25), let a := k.reg ga + disp.signExtend 48
        PrivWord t i a.toNat → PrivWord t i (a + 1).toNat → gd.val % 2 = 0 → gd ≠ 30 →
        exec (.load c gd ga disp .dword 0 false) s = .next (two gd a)) ∧
      (∀ gd ga gb sz sx, let a := eaIndex (k.reg ga) (k.reg gb) sz
        PrivWord t i a.toNat → (sz = .word ∧ sx = false) ∨ sz = .half ∨ sz = .byte →
        exec (.indexedLoad c gd ga gb sz sx) s = .next (one gd a sz (selIndex (k.reg gb) sz) sx 2)) ∧
      (∀ gd ga gb, let a := k.reg ga + 2 * k.reg gb
        PrivWord t i a.toNat → PrivWord t i (a + 1).toNat → gd.val % 2 = 0 → gd ≠ 30 →
        exec (.indexedLoad c gd ga gb .dword false) s = .next (two gd a)))

/-- On a Frond core, SW, the long store, the indexed store, the bank store and PUSH to a good word of its private
Sorus memory complete and store the register, the selected half or byte with the rest of the word kept, or the two
words of a double-word; PUSH steps dsp down and stores below it. (spec/03_heris_isa_base.md R94, R115, R116, R117,
R120) -/
def Obligations.StoresToSorus : Prop :=
  ∀ (s t : State) (i : Fin 16), let c : CoreId := .frond i
    let k := t.core c
    let merge (o v : Word) (sz : Size) (sel : Nat) : Word := match sz with
      | .half => (o &&& ~~~((0xFFFFFF : Word) <<< (24 * sel))) ||| ((v &&& 0xFFFFFF) <<< (24 * sel))
      | .byte => (o &&& ~~~((0xFF : Word) <<< (8 * sel))) ||| ((v &&& 0xFF) <<< (8 * sel))
      | _ => v
    let one (gd : Reg) (a : Word) (sz : Size) (sel : Nat) (len : Nat) : State :=
      completeInstr (privPut t a.toNat (merge (privGet t a.toNat) (k.reg gd) sz sel)) c len
    let two (gd : Reg) (a : Word) : State :=
      completeInstr (privPut (privPut t a.toNat (k.reg gd)) (a + 1).toNat (k.reg (pairHi gd))) c 2
    (Issues s c (plain .short) t →
      (∀ gd ga (imm : BitVec 7), let a := k.reg ga + imm.setWidth 48
        PrivWord t i a.toNat → exec (.sw c gd ga imm) s = .next (one gd a .word 0 1)) ∧
      (∀ n j off, let a := w48 (k.b[n].toNat * 65536 + off.toNat)
        PrivWord t i a.toNat → exec (.bankStore c n j off) s = .next (one ⟨8 + j.val, by omega⟩ a .word 0 1)) ∧
      (∀ ga, PrivWord t i (k.reg 31 - 1).toNat → exec (.push c ga) s = .next (completeInstr
        (writeReg (privPut t (k.reg 31 - 1).toNat (k.reg ga)) c 31 (k.reg 31 - 1)) c 1))) ∧
    (Issues s c (plain .long) t →
      (∀ gd ga (disp : BitVec 25) sz (sel : BitVec 3), let a := k.reg ga + disp.signExtend 48
        PrivWord t i a.toNat →
        (sz = .word ∧ sel = 0) ∨ (sz = .half ∧ sel.toNat ≤ 1) ∨ (sz = .byte ∧ sel.toNat ≤ 5) →
        exec (.store c gd ga disp sz sel false) s = .next (one gd a sz sel.toNat 2)) ∧
      (∀ gd ga (disp : BitVec 25), let a := k.reg ga + disp.signExtend 48
        PrivWord t i a.toNat → PrivWord t i (a + 1).toNat → gd.val % 2 = 0 →
        exec (.store c gd ga disp .dword 0 false) s = .next (two gd a)) ∧
      (∀ gd ga gb sz, let a := eaIndex (k.reg ga) (k.reg gb) sz
        PrivWord t i a.toNat → sz ≠ .dword →
        exec (.indexedStore c gd ga gb sz false) s = .next (one gd a sz (selIndex (k.reg gb) sz) 2)) ∧
      (∀ gd ga gb, let a := k.reg ga + 2 * k.reg gb
        PrivWord t i a.toNat → PrivWord t i (a + 1).toNat → gd.val % 2 = 0 →
        exec (.indexedStore c gd ga gb .dword false) s = .next (two gd a)))

/-- After a store to private Sorus memory the word holds the stored value; every other word of Sorus memory, every
word of DRAM, every byte of the NOR, every register of register space and every core is as before.
(spec/13_sorus_memory.md R514, R515) -/
def Obligations.StoreFrame : Prop :=
  ∀ (t : State) (a : Nat) (v : Word), Memory.wf t = true →
    let u := privPut t a v
    privGet u a = v ∧ (∀ b, b ≠ a → sorusRaw u b = sorusRaw t b) ∧ (∀ b, dramRaw u b = dramRaw t b) ∧
    u.nor = t.nor ∧ u.regs = t.regs ∧ u.cores = t.cores ∧ u.coh = t.coh ∧ u.outs = t.outs

/-- On a Frond core, AADD, ASWP, ACAS, AOR and AAND on a good word of its private Sorus memory return the old word in
gd and leave the sum, gb, gb where the old word equals gc, the OR or the AND; placement 3 is illegal. RSW from PL1
stores gb at ga. (spec/04_heris_isa_special.md R165, R168, R170, R172) -/
def Obligations.AtomicsOnSorus : Prop :=
  ∀ (s t : State) (i : Fin 16) (gd ga gb gc : Reg) (plc : BitVec 2), let c : CoreId := .frond i
    let k := t.core c
    let a := (k.reg ga).toNat
    let old := privGet t a
    let done (v : Word) : State := completeInstr (writeReg (privPut t a v) c gd old) c 2
    (Issues s c (plain .long) t → PrivWord t i a → plc ≠ 3 →
      exec (.aadd c plc gd ga gb) s = .next (done (old + k.reg gb)) ∧
      exec (.aswp c plc gd ga gb) s = .next (done (k.reg gb)) ∧
      exec (.acas c plc gd ga gb gc) s = .next (done (if old = k.reg gc then k.reg gb else old)) ∧
      exec (.aor c plc gd ga gb) s = .next (done (old ||| k.reg gb)) ∧
      exec (.aand c plc gd ga gb) s = .next (done (old &&& k.reg gb))) ∧
    (Issues s c (plain .long) t →
      exec (.aadd c 3 gd ga gb) s = .next (faultAt t c (exc 0x01 1)) ∧
      exec (.acas c 3 gd ga gb gc) s = .next (faultAt t c (exc 0x01 1))) ∧
    (Issues s c { plain .long with level := 1 } t → PrivWord t i a →
      exec (.rsw c ga gb) s = .next (completeInstr (privPut t a (k.reg gb)) c 2))

/-- MFSR of a register its profile holds at a permitted level completes and writes the value of that register to gd:
status as the latest write leaves it, the floating-point, return-stack, loop, multiply-unit, polynomial, bank, save
and translation registers, the time base low word with its high word latched, and coreid. SETB writes one bank
register. (spec/04_heris_isa_special.md R175, R176, R179, R180, spec/03_heris_isa_base.md R118,
spec/05_pipeline_timing.md R220) -/
def Obligations.SpecialReads : Prop :=
  ∀ (s t : State) (c : CoreId) (gd : Reg) (sr : BitVec 8),
    (Issues s c (specShape sr.toNat true false) t → specReg sr.toNat ≠ none →
      exec (.mfsr c gd sr) s = .next (completeInstr (writeReg
        (if sr = 0x50 then t.modCore c fun k => { k with tbhLatch := t.tbh } else t) c gd (specValue t c sr.toNat)) c 2)) ∧
    (∀ n imm, Issues s c (plain .long) t →
      exec (.setb c n imm) s = .next (completeInstr (t.modCore c fun k => { k with b := k.b.set n imm }) c 2)) ∧
    (let k := t.core c;
      (k.statusQueue = [] → specValue t c 0x00 = k.status) ∧
      (∀ l w, k.statusQueue = l ++ [w] → specValue t c 0x00 = w.value) ∧
      specValue t c 0x01 = k.fcs ∧ specValue t c 0x02 = k.rsp ∧ specValue t c 0x03 = k.rss ∧
      specValue t c 0x04 = k.rslo ∧ specValue t c 0x05 = k.rshi ∧ specValue t c 0x06 = k.lctl ∧
      (∀ l : Fin 3, specValue t c (0x08 + 3 * l.val) = k.ls[l] ∧ specValue t c (0x09 + 3 * l.val) = k.le[l] ∧
        specValue t c (0x0A + 3 * l.val) = k.lc[l]) ∧
      specValue t c 0x11 = k.mul.acc.extractLsb' 0 48 ∧ specValue t c 0x12 = k.mul.acc.extractLsb' 48 48 ∧
      specValue t c 0x13 = (k.mul.acc.extractLsb' 96 24).setWidth 48 ∧
      specValue t c 0x15 = k.cpoly[0] ∧ specValue t c 0x16 = k.cpoly[1] ∧
      (∀ n : Fin 4, specValue t c (0x18 + n.val) = (k.b[n]).setWidth 48) ∧
      (∀ l : Fin 3, let v := k.save[l]
        specValue t c (0x20 + 8 * l.val) = v.epc ∧ specValue t c (0x21 + 8 * l.val) = v.est ∧
        specValue t c (0x22 + 8 * l.val) = v.ecause ∧ specValue t c (0x23 + 8 * l.val) = v.eaddr ∧
        specValue t c (0x24 + 8 * l.val) = v.evec ∧ specValue t c (0x25 + 8 * l.val) = v.escr) ∧
      specValue t c 0x40 = k.asid ∧ specValue t c 0x41 = k.ptb1 ∧ specValue t c 0x42 = k.vmid ∧
      specValue t c 0x43 = k.ptb2 ∧ specValue t c 0x48 = k.ucnt ∧ specValue t c 0x50 = t.tb.extractLsb' 0 48 ∧
      specValue t c 0x51 = k.tbhLatch ∧ specValue t c 0x60 = k.fentry)

/-- MTSR, MSSET and MSCLR of a writable register complete and then write, so that their own end test and the pair they
end see the registers as they stood: MTSR writes ga, MSSET and MSCLR deliver the old value and set or clear the bits
of ga in it, or, for a register of the multiply unit, in the value that the writes before it leave; a read-only
register is left as it is. A write of vmid may change what the controller presents. Each register takes its writable
fields alone, and a field whose value breaks its rule keeps the old one. That a write of a loop register stands over
what the end test of its own writer counts is the choice of the model (log entry 159). (spec/04_heris_isa_special.md
R144, R148, R150, R158, R159, R175, R176, R180, spec/03_heris_isa_base.md R125, R126, spec/01_architecture.md R13,
spec/06_branches.md R252) -/
def Obligations.SpecialWrites : Prop :=
  ∀ (s t : State) (c : CoreId) (gd ga : Reg) (sr : BitVec 8) (r : SpecReg), specReg sr.toNat = some r →
    let n := sr.toNat
    let k := t.core c
    let put (v : Word) (t : State) : State :=
      let u := t.modCore c fun k => k.putSpec c n v
      if n = 0x42 then represent u (coreNum c) else u
    let m := k.mul.queue.foldl MulUnit.apply k.mul
    let base : Word := if n = 0x11 then m.acc.extractLsb' 0 48 else if n = 0x12 then m.acc.extractLsb' 48 48
      else if n = 0x13 then (m.acc.extractLsb' 96 24).setWidth 48 else if n = 0x14 then m.pst else specValue t c n
    (Issues s c (specShape n false true) t → r.wr ≠ none →
      exec (.mtsr c sr ga) s = .next (put (k.reg ga) (completeInstr t c 2))) ∧
    (Issues s c (specShape n false true) t → r.wr = none → exec (.mtsr c sr ga) s = .next (completeInstr t c 2)) ∧
    (Issues s c (specShape n true true) t → r.wr ≠ none →
      let u := completeInstr (writeReg t c gd (specValue t c n)) c 2
      exec (.msset c gd sr ga) s = .next (put (base ||| k.reg ga) u) ∧
      exec (.msclr c gd sr ga) s = .next (put (base &&& ~~~k.reg ga) u)) ∧
    (∀ v, (k.putSpec c 0x02 v).rsp = v ∧ (k.putSpec c 0x03 v).rss = v ∧ (k.putSpec c 0x04 v).rslo = v ∧
      (k.putSpec c 0x05 v).rshi = v ∧ (k.putSpec c 0x40 v).asid = v &&& 0xFFFF ∧
      (k.putSpec c 0x42 v).vmid = v &&& 0xFFF ∧ (k.putSpec c 0x48 v).ucnt = v &&& 3 ∧
      (k.putSpec c 0x60 v).fentry = v &&& 0x1FFFFFFFFF ∧
      (∀ i < 8, 3 ≤ i → (k.putSpec c 0x01 v).fcs.getLsbD i = v.getLsbD i) ∧
      fld (k.putSpec c 0x01 v).fcs 2 0 = (if fld v 2 0 ≤ 4 then fld v 2 0 else fld k.fcs 2 0) ∧
      fld ((k.putSpec c 0x15 v).cpoly[0]) 37 32 =
        (if 1 ≤ fld v 37 32 ∧ fld v 37 32 ≤ 32 then fld v 37 32 else fld k.cpoly[0] 37 32) ∧
      fld ((k.putSpec c 0x15 v).cpoly[0]) 31 0 = fld v 31 0)

/-- A status write at privilege level pl takes the written PL if it is not above pl, the written EML if it is not
above top(pl), GX only at PL3, VM only at PL2 or above, and IML always; a field that breaks its limit keeps its old
value, and reserved bits read zero. (spec/07_privilege_exceptions.md R263) -/
def Obligations.StatusWriteLimits : Prop :=
  ∀ (pl : Fin 4) (old v : Word), let w := statusLimited pl.val old v
    fld w 1 0 = (if fld v 1 0 ≤ pl.val then fld v 1 0 else fld old 1 0) ∧
    fld w 10 8 = (if fld v 10 8 ≤ topLevel pl.val then fld v 10 8 else fld old 10 8) ∧
    fld w 6 4 = fld v 6 4 ∧
    fld w 11 11 = (if pl.val = 3 then fld v 11 11 else fld old 11 11) ∧
    fld w 12 12 = (if 2 ≤ pl.val then fld v 12 12 else fld old 12 12) ∧
    w &&& ~~~0x1F73 = 0

/-- A status write that MTSR issues joins the writes inside their delay with three instructions to go on an
application core and two on a Frond core. Each instruction that issues brings every such write one nearer, and one
with none to go is in force from that instruction on. (spec/05_pipeline_timing.md R218, spec/04_heris_isa_special.md
R178) -/
def Obligations.StatusWriteDelay : Prop :=
  ∀ (k : Core) (c : CoreId) (v : Word) (w : StatusWrite),
    (k.putSpec c 0x00 v).status = k.status ∧
    (k.putSpec c 0x00 v).statusQueue = k.statusQueue ++ [⟨statusLimited k.pl k.latestStatus v,
      match c with
      | .app _ => 3
      | _ => 2⟩] ∧
    (k.statusQueue = [w] → w.left = 0 → k.tickStatus.status = w.value ∧ k.tickStatus.statusQueue = []) ∧
    (k.statusQueue = [w] → w.left ≠ 0 →
      k.tickStatus.status = k.status ∧ k.tickStatus.statusQueue = [⟨w.value, w.left - 1⟩])

/-- SYSC, HCALL, MCALL and BRK complete and then raise their class with their code as detail and the PC of the next
instruction as resume address; RAISE from PL3 raises the class ga names with its detail and gb as address, at its own
PC, and an unlisted class is illegal; an undefined encoding raises the illegal-instruction exception with detail 1
where no earlier check of R278 stops it, and otherwise the exception of that check; a machine check is taken at the PC
of a running core, and a core that does not run, or whose clock stands still, takes none.
(spec/07_privilege_exceptions.md R276, R277, R278, R279, R280, R281, spec/03_heris_isa_base.md R99, R102) -/
def Obligations.SystemCalls : Prop :=
  ∀ (s t : State) (c : CoreId) (code : BitVec 12),
    (Issues s c { plain .short with held := fun p => p = .A, noSlot := true } t →
      let u := completeAt t c ((t.core c).pc + 1)
      exec (.sysc c code) s = .next (raiseAt u c (exc 0x08 code.toNat) (u.core c).pc)) ∧
    (let u := completeInstr t c 1;
      (Issues s c { plain .short with held := fun p => p = .A, level := 1 } t →
        exec (.hcall c code) s = .next (raiseAt u c (exc 0x09 code.toNat) (u.core c).pc) ∧
        exec (.mcall c code) s = .next (raiseAt u c (exc 0x0A code.toNat) (u.core c).pc)) ∧
      (Issues s c (plain .short) t →
        exec (.brk c code) s = .next (raiseAt u c (exc 0x06 code.toNat) (u.core c).pc))) ∧
    (∀ ga gb, let a := (s.core c).reg ga
      Issues s c { plain .long with level := 3 } t →
      (classLevel (a.toNat % 64) ≠ none → exec (.raise c ga gb) s =
        .next (faultAt t c (exc (a.toNat % 64) (a.toNat / 64 % 65536) ((t.core c).reg gb)))) ∧
      (classLevel (a.toNat % 64) = none → exec (.raise c ga gb) s = .next (faultAt t c (exc 0x01 1)))) ∧
    (∀ f w, (∀ s t e, Rejects s c { plain f with bad := some 1 } t e →
        exec (.undefinedEncoding c f w) s = .next (faultAt t c e)) ∧
      (∀ s t, Issues s c (plain f) t →
        exec (.undefinedEncoding c f w) s = .next (faultAt t c (exc 0x01 1)))) ∧
    ((s.core c).run = .running → coreClocked s c = true → exec (.machineCheck (.core c)) s = .next (faultAt s c (exc 0x3E 0))) ∧
    ((s.core c).run ≠ .running ∨ coreClocked s c = false → exec (.machineCheck (.core c)) s = .next s)

/-- An exception above the mask is taken at the higher of its owner and the current level: that level's save set
receives the resume PC, the status as it stands, the cause and the address; the status takes the level with its top
mask, GX at PL3 and no VM from PL2; the PC goes to the vector of the class. No general register, return-stack pointer,
loop level, memory or other core changes. (spec/07_privilege_exceptions.md R266, R273, R275, R277,
spec/05_pipeline_timing.md R221) -/
def Obligations.ExceptionEntry : Prop :=
  ∀ (s : State) (c : CoreId) (e : Exc) (resume : Word) (lvl : Nat),
    let k := (s.core c).flushStatus
    let p := max (ownerLevel lvl) k.pl
    let v := raiseAt s c e resume
    let u := v.core c
    let sv := u.save[(p - 1) % 3]'(Nat.mod_lt _ (by decide))
    let ov := k.save[(p - 1) % 3]'(Nat.mod_lt _ (by decide))
    classLevel e.cls = some lvl → k.eml < lvl →
    sv.epc = resume ∧ sv.est = k.status ∧ sv.eaddr = e.addr ∧ sv.evec = ov.evec ∧ sv.escr = ov.escr ∧
    fld sv.ecause 5 0 = e.cls ∧ fld sv.ecause 14 12 = lvl ∧ fld sv.ecause 39 24 = e.detail % 65536 ∧
    fld sv.ecause 23 15 = 0 ∧ bit sv.ecause 9 = e.write ∧ bit sv.ecause 8 = k.vm ∧
    u.pl = p ∧ u.eml = topLevel p ∧ u.iml = k.iml ∧ u.gx = (decide (p = 3) || k.gx) ∧
    u.vm = (decide (p < 2) && k.vm) ∧
    u.pc = pcOf c ((ov.evec &&& ~~~0x1FF) + w48 (8 * e.cls)) ∧
    u.slot = none ∧ u.waiting = none ∧ u.statusQueue = [] ∧ u.g = k.g ∧ u.b = k.b ∧ u.rsp = k.rsp ∧ u.rss = k.rss ∧
    u.lctl = k.lctl ∧ u.ls = k.ls ∧ u.le = k.le ∧ u.lc = k.lc ∧ u.fcs = k.fcs ∧ OnlyCore s v c

/-- A masked exception is raised as ESC one level above the mask, with its own class and level in ORIG and OLVL, at
the higher of that level's owner and the current level. With the mask at 7 a core other than the Medulla core
checkstops instead: it stops, and its record, with the cause and address the exception would have written, waits for
the Medulla core. (spec/07_privilege_exceptions.md R266, R269, R271) -/
def Obligations.MaskedEscalates : Prop :=
  ∀ (s : State) (c : CoreId) (e : Exc) (resume : Word) (lvl : Nat),
    let k := (s.core c).flushStatus
    let p := max (ownerLevel (k.eml + 1)) k.pl
    let u := (raiseAt s c e resume).core c
    let sv := u.save[(p - 1) % 3]'(Nat.mod_lt _ (by decide))
    classLevel e.cls = some lvl → lvl ≤ k.eml →
    (k.eml < 7 → fld sv.ecause 5 0 = 0x3F ∧ fld sv.ecause 23 18 = e.cls ∧ fld sv.ecause 17 15 = lvl ∧
      fld sv.ecause 14 12 = k.eml + 1 ∧ sv.epc = resume ∧ sv.est = k.status ∧ u.pl = p) ∧
    (k.eml = 7 → c ≠ .medulla → u.run = .checkstopped ∧ (raiseAt s c e resume).mdl.checkstops = s.mdl.checkstops ++
      [(coreNum c, resume, k.status, ecauseWord e.detail 0 0 lvl e.write k.vm e.cls, e.addr)])

/-- RETX at PL0 raises the privileged-instruction exception; a saved image above the current level raises privilege
forgery with detail 1, and one with a mask above top of the current level with detail 2; otherwise status takes the
saved image without its reserved bits, keeping GX below PL3 and VM below PL2, and the PC the saved one.
(spec/07_privilege_exceptions.md R282, R283, R284, spec/05_pipeline_timing.md R221) -/
def Obligations.ReturnFromException : Prop :=
  ∀ (s t : State) (c : CoreId), Issues s c { plain .short with noSlot := true } t →
    let k := (t.core c).flushStatus
    let sv := k.save[(k.pl - 1) % 3]'(Nat.mod_lt _ (by decide))
    (k.pl = 0 → exec (.retx c) s = .next (faultAt t c (exc 0x02 1))) ∧
    (k.pl ≠ 0 → k.pl < fld sv.est 1 0 → exec (.retx c) s = .next (faultAt t c (exc 0x1A 1))) ∧
    (k.pl ≠ 0 → fld sv.est 1 0 ≤ k.pl → topLevel k.pl < fld sv.est 10 8 →
      exec (.retx c) s = .next (faultAt t c (exc 0x1A 2))) ∧
    (k.pl ≠ 0 → fld sv.est 1 0 ≤ k.pl → fld sv.est 10 8 ≤ topLevel k.pl →
      ∃ v, exec (.retx c) s = .next v ∧
        let u := v.core c
        u.pc = pcOf c sv.epc ∧ u.pl = fld sv.est 1 0 ∧ u.eml = fld sv.est 10 8 ∧ u.iml = fld sv.est 6 4 ∧
        u.gx = (if k.pl = 3 then bit sv.est 11 else k.gx) ∧ u.vm = (if 2 ≤ k.pl then bit sv.est 12 else k.vm) ∧
        u.status &&& ~~~0x1F73 = 0 ∧ u.statusQueue = [] ∧ u.g = k.g ∧ u.save = k.save)

/-- FENCE, FENCE.IO and FENCE.I complete at once with an empty store buffer and otherwise hold the core until it has
drained; they are not issued while an access of an abandoned frame is in flight. On the Medulla core, for a line that
it does not hold and whose L1D set is empty, DC.CLEAN, DC.FLUSH and DC.ZERO send Clean, Flush or RdUZ for it, and the
core waits for its completion. (spec/10_coherence.md R395, R398, R399) -/
def Obligations.BarriersAndMaintenance : Prop :=
  ∀ (s t : State) (c : CoreId),
    (∀ i ∈ [Instr.fence c, .fenceIo c, .fenceI c], (s.core c).abandoned ≠ [] → exec i s = .next s) ∧
    ((s.core c).abandoned = [] → Issues s c (plain .long) t → ∀ i ∈ [Instr.fence c, .fenceIo c, .fenceI c],
      ((t.core c).storeBuffer = [] → exec i s = .next (completeInstr t c 2)) ∧
      ((t.core c).storeBuffer ≠ [] → exec i s = .next (t.modCore c fun k => { k with waiting := some .barrier }))) ∧
    (c = .medulla → Issues s c { plain .long with held := fun p => p ≠ .F, level := 1 } t →
      ∀ ga : Reg, let a := ((t.core c).reg ga).toNat
      let l := dataLine t (a / 8)
      a < memTop t → a < 0x800000000 → isCompl t a = false → (t.core c).storeBuffer = [] →
      cacheLine t 32 l = none → setPeers t 32 l .l1d = [] →
      let sent (q : MsgType) (o : Host.Outcome State Fault Refusal) : Prop := ∃ u, o = .next u ∧
        (u.core c).waiting = some (.maintenance q l true) ∧
        u.coh.net.getLast? = some { mkMsg q 32 l with twin := isTwin t (8 * l), txn := t.coh.tag }
      sent .Clean (exec (.dcClean c ga) s) ∧ sent .Flush (exec (.dcFlush c ga) s) ∧ sent .RdUZ (exec (.dcZero c ga) s))

/-- With an empty store buffer a TLBI drops from its core exactly the TLB entries it covers, by page, ASID or context
as its code says, and a broadcast one is queued for every other core and the pinna engine; TLBSYNC completes when
every broadcast of its core is acknowledged; a receiver of a broadcast drops the entries it covers. (spec/09_mmu.md
R358, R359, R360, R361, R362, R363) -/
def Obligations.TlbMaintenance : Prop :=
  ∀ (s t : State) (c : CoreId) (b : Bool) (ga gb : Reg),
    let k := t.core c
    let ctx : Option Nat := if k.pl ≤ 1 then (if k.vm then some (fld k.vmid 11 0) else none)
      else if bit (k.reg gb) 28 then none else some (fld (k.reg gb) 27 16)
    let op (code va : Nat) : TlbOp := ⟨b, code, ctx, fld (k.reg gb) 15 0, va⟩
    let drops (o : TlbOp) (r : Host.Outcome State Fault Refusal) : Prop := ∃ u, r = .next u ∧
      (∀ e, e ∈ (u.core c).tlb.l2 ↔ e ∈ k.tlb.l2 ∧ o.covers e = false) ∧
      (∀ e, e ∈ (u.core c).tlb.itlb ↔ e ∈ k.tlb.itlb ∧ o.covers e = false) ∧
      (∀ e, e ∈ (u.core c).tlb.dtlb ↔ e ∈ k.tlb.dtlb ∧ o.covers e = false) ∧
      u.sys.tlbOps.map (·.2.1) = t.sys.tlbOps.map (·.2.1) ++ (if b then [o] else [])
    (k.storeBuffer = [] → Issues s c { plain .long with held := fun p => p = .A, level := 1 } t →
      drops (op 0 (k.reg ga).toNat) (exec (.tlbiVa c b ga gb) s) ∧
      drops (op 1 (k.reg ga).toNat) (exec (.tlbiVaa c b ga gb) s) ∧
      drops (op 2 0) (exec (.tlbiAsid c b gb) s) ∧ drops (op 3 0) (exec (.tlbiCtx c b gb) s) ∧
      (syncReady t c = true → exec (.tlbsync c) s = .next (completeInstr t c 2))) ∧
    (k.storeBuffer = [] → Issues s c { plain .long with held := fun p => p = .A, level := 2 } t →
      ∃ u, exec (.tlbiAll c b) s = .next u ∧ (u.core c).tlb.l2 = [] ∧ (u.core c).tlb.itlb = [] ∧ (u.core c).tlb.dtlb = []) ∧
    (∀ (i j : Fin 16) o l, i ≠ j → s.sys.tlbOps = [(i.val, o, l)] → j.val ∈ l →
      (s.core (.app j)).storeBuffer = [] → (s.core (.app j)).waiting = none →
      ∃ u, exec (.tlbBroadcastReceive i ⟨j.val, by omega⟩) s = .next u ∧
        (∀ e, e ∈ (u.core (.app j)).tlb.l2 ↔ e ∈ (s.core (.app j)).tlb.l2 ∧ o.covers e = false) ∧
        ∀ e ∈ u.sys.tlbOps, j.val ∉ e.2.2)

/-- On a Frond core, OUT of an output of its own group sets its back copy and notes it as written; INB and INF read
the back copy of its own group and the front copy of any; a refused one is a violation of cause 3 and reads zero;
FTIME and FNUM read the time since the group's frame start and TICK_COUNT; FBAR in an open barrier and FEND complete,
and FEND, once no access of an abandoned frame is left in flight, leaves the core idle until its next frame.
(spec/12_frond_tick.md R473, R477, R478, R481) -/
def Obligations.FrameInstructions : Prop :=
  ∀ (s t : State) (i : Fin 16) (gd ga gb : Reg), let c : CoreId := .frond i
    let k := t.core c
    let n := (k.reg ga).toNat % 512
    (Issues s c { plain .long with held := fun p => p = .F } t →
      (∀ o, t.outs[n]? = some o → groupOf t i.val = some o.group →
        exec (.out c ga gb) s = .next (completeInstr ({ t with outs := t.outs.set n { o with back := k.reg gb } }.modCore c
          fun k => { k with frame := { k.frame with written := n :: k.frame.written.filter (· ≠ n) } }) c 2) ∧
        exec (.inb c gd ga) s = .next (completeInstr (writeReg t c gd o.back) c 2)) ∧
      (∀ o, t.outs[n]? = some o → exec (.inf c gd ga) s = .next (completeInstr (writeReg t c gd o.front) c 2)) ∧
      (t.outs[n]? = none →
        exec (.out c ga gb) s = .next (completeInstr (outputViolation t c true) c 2) ∧
        exec (.inb c gd ga) s = .next (completeInstr (writeReg (outputViolation t c false) c gd 0) c 2) ∧
        exec (.inf c gd ga) s = .next (completeInstr (writeReg (outputViolation t c false) c gd 0) c 2)) ∧
      (∀ g, groupOf t i.val = some g → exec (.ftime c gd) s = .next (completeInstr
        (writeReg t c gd (t.tb.extractLsb' 0 48 - (regGet t aTickLast + w48 (regF t (aGrpCfg g) 39 24)))) c 2)) ∧
      exec (.fnum c gd) s = .next (completeInstr (writeReg t c gd (regGet t aTickCount)) c 2) ∧
      (frondState t i.val ≠ 2 → (∀ j : Fin 16, j ≠ i → (t.core (.frond j)).waiting ≠ some .barrier) →
        ∃ u, exec (.fbar c) s = .next u ∧ (u.core c).waiting = none ∧
          (u.core c).frame.barriers = k.frame.barriers + 1)) ∧
    ((s.core c).abandoned = [] → Issues s c { plain .short with held := fun p => p = .F, noSlot := true } t →
      (∀ j : Fin 16, j ≠ i → (t.core (.frond j)).waiting ≠ some .barrier) →
      ∃ u, exec (.fend c) s = .next u ∧ (u.core c).run = .idle ∧ (u.core c).frame.fendDone = true)

/-- A register access that its checks refuse changes nothing and is logged as a violation with the cause they give. An
admitted write of a compare time stores it. A read of TB_LO returns the low word and latches the high word for a core.
INT_SWI asserts source 56 + n, and nothing for 7. INT_EOI does nothing for 511, ends a source active for the
requester, and is a violation of cause 9 for a number that is no source. INT_SRC_STATE clears the pending edge and the
merge count as its bits say. INT_SRC_ROUTE refuses a locked source, a target that is not enabled and level 0, and
otherwise stores the route and presents to the old and the new target. TS_CAP_POP removes the head of its FIFO.
WDOG_CTL of a disabled watchdog starts it only with a legal timeout; a locked one keeps its times. WDOG_KICK of a
wrong requester or with a wrong word is a violation, and a right one restarts the count on domain 57, a paused one
from zero on its resumption, unless stage 2 has come. (spec/08_interrupts_timers.md R294, R298, R303, R305,
spec/08_interrupts_timers.md R316, R319, R321, R322, R323, R324, R326, spec/23_register_map.md R764,
spec/01_architecture.md R13) -/
def Obligations.ControllerCommands : Prop :=
  ∀ (s : State) (rq : Requester) (v : Word),
    let afresh (u : State) (n : Nat) : State :=
      let t := setWdogStart u n s.ref
      if (sget s.timers.wdogPaused n).isSome then
        { t with timers := { t.timers with wdogPaused := sins s.timers.wdogPaused n s.ref } } else t
    (∀ a cause w, canAccess s rq = true → regBase ≤ a → a < 0x810000000 → inAperture a = false →
      verdict (bridged s) rq a true = .bad cause w →
      exec (.registerWrite rq a v) s = .next (rqViolation (bridged s) cause rq true w)) ∧
    (∀ n : Fin 8, Admitted s rq (aTmrCmp n) →
      exec (.registerWrite rq (aTmrCmp n) v) s = .next (regSet (bridged s) (aTmrCmp n) v)) ∧
    (canAccess s rq = true → verdict (bridged s) rq aTbLo false = .ok → ∃ u, exec (.tbLoRead rq) s = .next u ∧
      u.readOut = s.tb.extractLsb' 0 48 ∧ ∀ c, rq = .core c → (u.core c).tbhLatch = s.tb.extractLsb' 48 48) ∧
    (Admitted s rq aIntSwi → exec (.intSwi rq v) s =
      .next (if fld v 2 0 = 7 then bridged s else assertEdge (bridged s) (56 + fld v 2 0))) ∧
    (Admitted s rq aIntEoi → fld v 8 0 = 511 → exec (.intEoi rq v) s = .next (bridged s)) ∧
    (Admitted s rq aIntEoi → 320 ≤ fld v 8 0 → fld v 8 0 < 511 →
      exec (.intEoi rq v) s = .next (rqViolation (bridged s) 9 rq true aIntEoi)) ∧
    (∀ n : Fin 320, n.val ≠ 63 → Admitted s rq aIntEoi → fld v 8 0 = n → srcAct s n = true →
      regF s (aSrcState n) 33 28 = rqNum rq → ∃ u, exec (.intEoi rq v) s = .next (represent u (regF u (aRoute n) 14 9)) ∧
        u.regs = (regFld s (aSrcState n) 1 1 0).regs ∧ ∀ c, coreNum c = rqNum rq → n.val ∉ (u.core c).active) ∧
    (∀ n : Fin 320, Admitted s rq (aSrcState n) → isLevelSource n = false →
      let u := if bit v 9 then regFld (bridged s) (aSrcState n) 47 40 0 else bridged s
      let u := if bit v 0 then regFld u (aSrcState n) 0 0 0 else u
      exec (.intSrcStateWrite rq n v) s = .next (represent u (regF u (aRoute n) 14 9))) ∧
    (∀ n : Fin 320, Admitted s rq (aRoute n) → let u := bridged s
      let old := regGet u (aRoute n)
      ((bit old 8 = true ∨ coreEnabled u (fld v 14 9) = false) →
        exec (.intSrcRouteWrite rq n v) s = .next (rqViolation u 6 rq true (aRoute n))) ∧
      (bit old 8 = false → coreEnabled u (fld v 14 9) = true → fld v 2 1 = 0 →
        exec (.intSrcRouteWrite rq n v) s = .next (rqViolation u 9 rq true (aRoute n))) ∧
      (bit old 8 = false → coreEnabled u (fld v 14 9) = true → fld v 2 1 ≠ 0 → bit v 35 = false →
        exec (.intSrcRouteWrite rq n v) s =
          .next (represent (represent (plainWrite u (aRoute n) v) (fld old 14 9)) (fld v 14 9)))) ∧
    (∀ n : Fin 4, Admitted s rq (aTsPop n) → bit v 0 = true → ∃ u, exec (.tsCapPop rq n v) s = .next u ∧
      u.timers = { s.timers with capture := s.timers.capture.set n (s.timers.capture.getD n []).tail }) ∧
    (∀ n : Fin 36, Admitted s rq (aWdogCtl n) → let u := bridged s
      let old := regGet u (aWdogCtl n)
      (bit old 46 = false → bit old 47 = false → bit v 46 = false → bit v 47 = true →
        1 ≤ fld (setFld old 31 0 (fld v 31 0)) 15 0 → fld (setFld old 31 0 (fld v 31 0)) 15 0 ≤ 60000 →
        exec (.wdogCtlWrite rq n v) s = .next (afresh (regSet u (aWdogCtl n) (setBit (setFld old 31 0 (fld v 31 0)) 47 true)) n)) ∧
      (bit old 46 = true → bit old 47 = true → bit v 46 = false →
        exec (.wdogCtlWrite rq n v) s = .next (regSet u (aWdogCtl n) old))) ∧
    (∀ n : Fin 36, Admitted s rq (aWdogKick n) → let u := bridged s
      (kickAdmits u rq n = false → exec (.wdogKick rq n v) s = .next (rqViolation u 1 rq true (aWdogKick n))) ∧
      (kickAdmits u rq n = true → v ≠ 0xA5C3 →
        exec (.wdogKick rq n v) s = .next (rqViolation u 9 rq true (aWdogKick n))) ∧
      (kickAdmits u rq n = true → v = 0xA5C3 → regF u (aWdogCtl n) 33 32 < 2 →
        exec (.wdogKick rq n v) s = .next (afresh (regFld u (aWdogCtl n) 33 32 0) n)) ∧
      (kickAdmits u rq n = true → v = 0xA5C3 → 2 ≤ regF u (aWdogCtl n) 33 32 → exec (.wdogKick rq n v) s = .next u))

/-- START of a parked Frond core that is no checker resets it, sets its PC to BOOT and gives it state init; START and
PARK of a checker are violations. PARK of a core in init or joined is remembered. RELEASE is taken only in a safe
state whose cause permits it. TICK_PERIOD accepts a period of the permitted range, to apply later. CAL sets BUSY and
waits for the next frame. A DAC current limit is accepted while the sum of all limits stays within 120 mA. SENSE_CTL
and TOUCH_CTL with EN = 1, RING_LAYOUT and RING_RX_BASE refuse a base or a layout that breaks its rule. BYPASS below
PL3 is dropped, and at PL3 drops both links; WAKE sends its pattern by both ports. (spec/12_frond_tick.md R461, R467,
R468, R470, R486, spec/15_sense_touch.md R577, R580, R582, R592, R598, spec/14_bellaos_ring.md R561, R562, R565, R566,
R567) -/
def Obligations.ClusterCommands : Prop :=
  ∀ (s : State) (rq : Requester) (v : Word), let u := bridged s
    (∀ c : Fin 16, Admitted s rq (aFrondCtl c) →
      (isChecker u c = true →
        exec (.frondCoreCtlStart rq c v) s = .next (rqViolation u 9 rq true (aFrondCtl c)) ∧
        exec (.park rq c v) s = .next (rqViolation u 9 rq true (aFrondCtl c))) ∧
      (isChecker u c = false → bit v 46 = false → let t := plainWrite u (aFrondCtl c) (setBit v 47 true)
        (frondState t c ≠ 0 → exec (.frondCoreCtlStart rq c v) s = .next t) ∧
        (frondState t c = 0 → (t.core (.frond c)).run = .parked → exec (.frondCoreCtlStart rq c v) s =
          .next (setUnitState (t.modCore (.frond c) fun k => { k.toReset with
            pc := w48 (regF t (aFrondCtl c) 36 0), run := .running }) c 1))) ∧
      (isChecker u c = false → bit v 47 = false → let t := plainWrite u (aFrondCtl c) (setBit v 46 true)
        (frondState t c = 1 ∨ frondState t c = 2) → exec (.park rq c v) s =
          .next (t.modCore (.frond c) fun k => { k with frame := { k.frame with parkPending := true } }))) ∧
    (∀ g : Fin 4, Admitted s rq (aGrpCtl g) →
      (regB u (aGrpStat g) 5 = true → causePermits (regF u (aGrpStat g) 11 8) = true →
        exec (.release rq g v) s = .next (regFld u (aGrpStat g) 4 4 1)) ∧
      (regB u (aGrpStat g) 5 = false ∨ causePermits (regF u (aGrpStat g) 11 8) = false →
        exec (.release rq g v) s = .next (rqViolation u 9 rq true (aGrpCtl g)))) ∧
    (Admitted s rq aTickPeriod →
      (tickMin s ≤ fld v 23 0 → fld v 23 0 ≤ tickMax s → exec (.tickPeriodWrite rq v) s =
        .next { plainWrite u aTickPeriod v with tick := { s.tick with pendingPeriod := s.tick.pendingPeriod ++ [(fld v 23 0, s.now, regF u aTickPeriod 23 0)] } }) ∧
      (fld v 23 0 < tickMin s ∨ tickMax s < fld v 23 0 →
        exec (.tickPeriodWrite rq v) s = .next (rqViolation u 6 rq true aTickPeriod))) ∧
    (∀ c : Fin 32, Admitted s rq (aSenseCfg c) → regB u (aSenseCfg c) 36 = false → (fld v 43 40 = 0 ∨ 8 ≤ fld v 43 40) →
      exec (.cal rq c v) s = .next (modChan
        (regFld (plainWrite u (aSenseCfg c) (setBit v 46 true)) (aSenseCfg c) 36 36 1) c fun x => { x with calWait := true })) ∧
    (∀ d : Fin 8, Admitted s rq (aExcCfg d) → fld v 47 46 ≤ 2 → fld v 12 0 ≤ 4500 → 1 ≤ fld v 39 32 → fld v 39 32 ≤ 30 →
      (otherLimits u d + fld v 39 32 ≤ 120 → exec (.senseExcCfgWrite rq d v) s = .next (plainWrite u (aExcCfg d) v)) ∧
      (120 < otherLimits u d + fld v 39 32 → regF u (aExcCfg d) 39 32 < fld v 39 32 →
        exec (.senseExcCfgWrite rq d v) s = .next (rqViolation
          (plainWrite u (aExcCfg d) (setFld v 39 32 (regF u (aExcCfg d) 39 32))) 9 rq true (aExcCfg d)))) ∧
    (Admitted s rq aSenseCtl → fld v 39 36 ≤ 8 → bit v 47 = true →
      let ok := senseBankAt u (fld v 35 0) = true ∧ fld v 35 0 % (32 * 2 ^ fld v 39 36) = 0
      (ok → exec (.senseCtlWrite rq v) s = .next (plainWrite u aSenseCtl v)) ∧
      (¬ok → exec (.senseCtlWrite rq v) s = .next (rqViolation u 9 rq true aSenseCtl))) ∧
    (Admitted s rq aTouchCtl → bit v 47 = true →
      let ok := senseBankAt u (fld v 35 0) = true ∧ fld v 35 0 % 4096 = 0
      (ok → exec (.touchCtlWrite rq v) s = .next (plainWrite u aTouchCtl v)) ∧
      (¬ok → exec (.touchCtlWrite rq v) s = .next (rqViolation u 9 rq true aTouchCtl))) ∧
    (Admitted s rq aRingCtl → 8 ≤ fld v 32 25 → 1 ≤ fld v 24 21 → 1 ≤ fld v 15 0 →
      (bit v 46 = false → rqLevel s rq = 3 →
        let t := plainWrite u aRingCtl (setBit v 47 true)
        let t := closeRing (if regF t aTickStat 1 0 = 2 then regFld t aTickStat 1 0 3 else t)
        exec (.bypass rq v) s = .next t ∧ t.sys.bypass = true) ∧
      (bit v 46 = false → rqLevel s rq ≠ 3 →
        exec (.bypass rq v) s = .next (plainWrite u aRingCtl (setBit v 47 false))) ∧
      (bit v 47 = false → s.sys.bypass = false → let t := plainWrite u aRingCtl (setBit (setBit v 46 true) 47 false)
        exec (.wakePattern rq v) s =
          .next (sendWake (sendWake t 0 (fld v 45 34)) 1 (fld v 45 34)))) ∧
    (Admitted s rq aRingLayout →
      let bad := fld v 47 36 < fld v 35 24 ∨ 4000 < fld v 47 36 + fld v 35 24 ∨ fld v 15 12 = 0
      (bad → exec (.ringLayoutWrite rq v) s = .next (rqViolation u 9 rq true aRingLayout)) ∧
      (¬bad → exec (.ringLayoutWrite rq v) s = .next (plainWrite u aRingLayout v))) ∧
    (Admitted s rq aRingRxBase → let b := fld v 35 0
      let ok := b = 0 ∨ (0x820000000 ≤ b ∧ b < 0x820100000 ∧ b % 0x4000 = 0 ∧
        bankGrants u ((b - 0x820000000) / 0x8000) .ring = true)
      (ok → exec (.ringRxBaseWrite rq v) s = .next (plainWrite u aRingRxBase v)) ∧
      (¬ok → exec (.ringRxBaseWrite rq v) s = .next (rqViolation u 9 rq true aRingRxBase)))

/-- Each command of PINNA_INST_CTL acts in the states that permit it and is a violation of cause 9 in the others;
SAVE, SEND and RESTORE then have the engine write, read or check the record in memory. PQ_TAIL moves the tail of a
queue within its ring, or sets DISAGREE where there is no such queue, and RESTART clears its stop. The commands of
Ethernet, CAN, RS-485, PCIe configuration, USB, display and DMA do what their registers say, and are dropped or
refused while their unit is busy. GO of PWR_VOTE starts the vote, or waits for the one that runs. Frequencies, idle
limits, mailbox commands and acknowledgements, RST_CORE_CTL START and DBG_HOLD follow their bounds.
(spec/16_virtual_io.md R605, R607, R611, R612, R617, R621, R622, R623, R626, spec/17_io_display.md R635, R640, R643,
R648, R651, R656, R660, R661, spec/23_register_map.md R767, spec/18_power.md R665, R669, R675, R681,
spec/19_medulla_update.md R691, R692, spec/21_startup_faults.md R737, R770) -/
def Obligations.DeviceCommands : Prop :=
  ∀ (s : State) (rq : Requester) (v : Word), let u := bridged s
    let begins (t : State) (i : Nat) : State := if unitRuns t 59 = true then pinnaJob t i else t
    (∀ i : Fin 64, Admitted s rq (aInstCtl i) → let st := pinState u i
      let no := rqViolation u 9 rq true (aInstCtl i)
      (st = 0 → bit (pinEntry u i) 0 = true → s.sys.recovery = false →
        let t := modInst (endJob u i) i fun x => { x with limit := regGet u (aInstLimit i) }
        let t := (queuesOf t i).foldl (fun t q => modQ (leaveFlights t q) q fun x => { x with head := 0, tail := 0, slots := 0 }) t
        exec (.run rq i) s = .next (pinLine (regFld (setPinState t i 1) (aInstStat i) 40 40 0) i)) ∧
      (st = 0 → (bit (pinEntry u i) 0 = false ∨ s.sys.recovery = true) →
        ∃ t, exec (.run rq i) s = .next (rqViolation t 9 rq true (aInstCtl i)) ∧ t.regs = u.regs) ∧
      (st = 4 → exec (.run rq i) s = .next (if regB u (aInstStat i) 41 = true
        then pinLine (regFld (setPinState u i 1) (aInstStat i) 40 40 0) i else no)) ∧
      (st ≠ 0 → st ≠ 4 → exec (.run rq i) s = .next no) ∧
      (st ≠ 0 → let t := modInst (setPinState (endJob u i) i 0) i fun x => { x with claiming := false, sendBuf := [] }
        exec (.stop rq i) s = .next (endQueues (pinLine t i) rq i (aInstCtl i) (queuesOf t i))) ∧
      (st = 0 → exec (.stop rq i) s = .next no) ∧
      (st = 1 → exec (.freeze rq i) s = .next (pinLine (setPinState u i 2) i)) ∧
      (st ≠ 1 → exec (.freeze rq i) s = .next no) ∧
      (st = 3 → exec (.thaw rq i) s = .next (pinLine (setPinState (endJob u i) i 1) i)) ∧
      (st ≠ 3 → exec (.thaw rq i) s = .next no ∧ exec (.save rq i) s = .next no ∧ exec (.send rq i) s = .next no) ∧
      (st = 3 → let t := regFld (endJob u i) (aInstStat i) 23 0 (satN 24 (regF u (aInstStat i) 23 0 + 1))
        let a := regF t (aInstSave i) 35 0
        (recordPlace t a (saveRecord t i).length = true → exec (.save rq i) s =
          .next (begins (modInst t i fun x => { x with job := 0x10 }) i)) ∧
        (recordPlace t a (saveRecord t i).length = false → exec (.save rq i) s =
          .next (begins (setErr (setPinState t i 5) i 7) i))) ∧
      (st = 3 → exec (.send rq i) s = .next (begins (modInst (endJob u i) i fun x => { x with job := 0x20 }) i)) ∧
      (st = 0 → exec (.restore rq i) s = .next (begins (modInst (endJob u i) i fun x => { x with job := 0x40 }) i)) ∧
      (st ≠ 0 → exec (.restore rq i) s = .next no ∧ exec (.mbox rq i) s = .next (pinCause u i 2)) ∧
      (st = 0 → exec (.mbox rq i) s = .next no)) ∧
    (∀ (t : State) (i : Fin 64), let x := pinInst t i
      let a := regF t (aInstSave i) 35 0
      let b : State := jobBegun t (jobInst i)
      let ended (u : State) : State := jobEnded t (jobInst i) (modInst u i fun x => { x with job := 0 })
      x.recvWords.length ≤ x.recvDone →
      (x.job = 0x10 → ∀ v, (bridgePuts b a (saveRecord t i) = .done () v →
          pinnaJob t i = ended (regFld v (aInstStat i) 43 43 1)) ∧
        (bridgePuts b a (saveRecord t i) = .held v → pinnaJob t i = jobOpen t v)) ∧
      (x.job = 0x20 → (recordPlace t a (9 + 8 * (queuesOf t i).length) = false → pinnaJob t i = ended b) ∧
        (recordPlace t a (9 + 8 * (queuesOf t i).length) = true →
          ∀ ws v, bridgeWords b a (9 + 8 * (queuesOf t i).length) = .done ws v →
          ((∀ w ∈ ws, w.2 = 0) → pinnaJob t i = ended (sendFrom (modInst v i fun x =>
            { x with sendBuf := ws.map (·.1), sendAcked := 0, sendFrames := 0, sendTries := 0 }) i)) ∧
          ((∃ w ∈ ws, w.2 ≠ 0) → pinnaJob t i = ended v))) ∧
      (x.job = 0x40 → (recordPlace t a 1 = false → pinnaJob t i = ended (setErr b i 1)) ∧
        (recordPlace t a 1 = true → ∀ w v, bridgeWord b a = .done w v → let n := fld w.1 15 0
          (recordPlace v a n = false → pinnaJob t i = ended (setErr v i 1)) ∧
          (recordPlace v a n = true → ∀ ws z, bridgeWords v a n = .done ws z →
            (recordErr z i ws ≠ 0 → pinnaJob t i = ended (setErr z i (recordErr z i ws))) ∧
            (recordErr z i ws = 0 → pinnaJob t i = ended (loadRecord z i (ws.map (·.1)))))))) ∧
    (∀ (i : Fin 64) (j : Nat),
      (∀ a, a = aPage i + 0x100 + 4 * (j % 256) → Admitted s rq a →
        (pinState u i = 0 ∨ queueOf u i (j % 256) = none →
          exec (.pqTailWrite rq i j v) s = .next (regFld u (aInstStat i) 44 44 1)) ∧
        (∀ q, pinState u i ≠ 0 → queueOf u i (j % 256) = some q → let far := (fld v 15 0 + 65536 - (pinQ u q).head) % 65536
          (far ≤ 2 ^ qLog u q → exec (.pqTailWrite rq i j v) s = .next (modQ u q fun x => { x with tail := fld v 15 0 })) ∧
          (2 ^ qLog u q < far → exec (.pqTailWrite rq i j v) s = .next (rqViolation u 9 rq true a)))) ∧
      (∀ q, pinState u i ≠ 0 → Admitted s rq (aPage i + 0x102 + 4 * (j % 256)) → queueOf u i (j % 256) = some q →
        exec (.pqRestart rq i j v) s = .next (modQ u q fun x => { x with stopped := false }))) ∧
    (∀ q : Fin 256, Admitted s rq (aQCfg q) → qEn u q = false →
      (bit v 47 = false → exec (.pinnaQCfgWrite rq q v) s = .next (plainWrite u (aQCfg q) v)) ∧
      (let i := fld v 43 38
       let others := (queuesOf u i).filter (· ≠ q.val)
       let good := classGranted u i (fld v 45 44) = true ∧ others.length + 1 ≤ maxQ u i ∧
         (∀ r ∈ others, qLocal u r ≠ fld v 37 30) ∧ 2 ^ qLog u q ≤ maxDesc u i ∧ qLog u q ≤ 12 ∧
         (fld v 45 44 = 3 → bit v 46 = true)
       bit v 47 = true →
        (good → exec (.pinnaQCfgWrite rq q v) s = .next (modQ (plainWrite u (aQCfg q) v) q fun x =>
          { QueueState.reset with ending := x.ending, copied := x.copied })) ∧
        (¬good → exec (.pinnaQCfgWrite rq q v) s = .next (rqViolation u 9 rq true (aQCfg q))))) ∧
    (∀ p : Fin 2, Admitted s rq (aEth p 0) → let w := setBit (regGet s (aEth p 0)) 43 true
      fld w 46 45 ≠ 3 → 64 ≤ fld w 13 0 → fld w 13 0 ≤ 9216 → bit w 47 = true → exec (.swap rq p) s =
        .next (regFld { plainWrite u (aEth p 0) (w &&& ~~~(mask 43 43)) with
          io := { s.io with swapPending := s.io.swapPending.set p true } } (aEth p 0) 43 43 0)) ∧
    (∀ p : Fin 2, Admitted s rq (aEth p 9) →
      (s.io.mdioBusy.getD p false = true → exec (.ethMdio rq p v) s = .next u) ∧
      (s.io.mdioBusy.getD p false = false → unitRuns u (40 + 2 * p) = true →
        exec (.ethMdio rq p v) s = .next { regSet u (aEth p 9) (setBit v 47 true) with
          io := { s.io with mdioBusy := s.io.mdioBusy.set p true, mdioLog := s.io.mdioLog ++ [(p.val, v)] } }) ∧
      (s.io.mdioBusy.getD p false = false → unitRuns u (40 + 2 * p) = false →
        exec (.ethMdio rq p v) s = .next { regSet u (aEth p 9) (setBit v 47 true) with
          io := { s.io with mdioBusy := s.io.mdioBusy.set p true, mdioDue := s.io.mdioDue.set p true } })) ∧
    (∀ p : Fin 2, Admitted s rq (aEth p 2) → let ahead := (v - s.tbl).toNat
      let from_ : Nat := if ahead < 2 ^ 47 then s.now + ahead else s.now - (2 ^ 48 - ahead)
      exec (.registerWrite rq (aEth p 2) v) s = .next { plainWrite u (aEth p 2) v with
        io := { s.io with gclStart := s.io.gclStart.set p from_ } }) ∧
    (∀ n : Fin 8, Admitted s rq (aCan n 0) → exec (.recover rq n) s =
      .next (canRejoin (plainWrite u (aCan n 0) (setBit (regGet s (aCan n 0)) 45 true)) n)) ∧
    (∀ n : Fin 4, Admitted s rq (aUart n 1) → exec (.uartDataWrite rq n v) s =
      .next (uartLine (if 64 ≤ (uartTx u n).length then regFld u (aUart n 2) 13 13 1
        else setTx u n (uartTx u n ++ [v.extractLsb' 0 9])) n)) ∧
    (∀ n : Fin 4, canAccess s rq = true → verdict u rq (aUart n 1) false = .ok →
      (uartRx u n = [] → exec (.uartDataRead rq n) s = .next { uartDma u n with readOut := 0 }) ∧
      (∀ c l, uartRx u n = c :: l →
        exec (.uartDataRead rq n) s = .next { uartDma (setRx u n l) n with readOut := c.zeroExtend 48 })) ∧
    (Admitted s rq (aPcie 0x42) → let bus := regF u (aPcie 0x40) 47 40
      let sec := regF u (aPcie 0) 15 8
      let sub := regF u (aPcie 0) 7 0
      let sent (rd : Bool) : State := { regFld u (aPcie 0x41) 47 47 1 with io := { s.io with cfgRead := rd, cfgOut :=
        s.io.cfgOut ++ [(rd, if bus = sec then 0 else 1, regGet u (aPcie 0x40), regGet u (aPcie 0x41))] } }
      (regB u (aPcie 0x41) 47 = true → exec (.configRead rq) s = .next u ∧ exec (.configWrite rq) s = .next u) ∧
      (regB u (aPcie 0x41) 47 = false → (bus = sec ∨ (sec < bus ∧ bus ≤ sub)) →
        exec (.configRead rq) s = .next (sent true) ∧ exec (.configWrite rq) s = .next (sent false)) ∧
      (regB u (aPcie 0x41) 47 = false → ¬(bus = sec ∨ (sec < bus ∧ bus ≤ sub)) →
        exec (.configRead rq) s = .next (regFld u (aPcie 0x41) 46 44 1) ∧
        exec (.configWrite rq) s = .next (regFld u (aPcie 0x41) 46 44 1))) ∧
    (∀ e : Fin 18, Admitted s rq (aUsbEp e 0) → let w := setBit (regGet s (aUsbEp e 0)) 43 true
      8 ≤ fld w 26 16 → fld w 26 16 ≤ 1024 → exec (.usbEpRestart rq e) s =
        .next (regFld (plainWrite u (aUsbEp e 0) (if e.val < 2 then setFld w 46 45 0 else w)) (aUsbEp e 3) 47 47 0)) ∧
    (∀ e : Fin 18, Admitted s rq (aUsbEp e 2) → let far := (fld v 15 0 + 65536 - regF u (aUsbEp e 3) 15 0) % 65536
      (far ≤ 2 ^ regF u (aUsbEp e 1) 47 44 → exec (.usbEpTailWrite rq e v) s = .next (plainWrite u (aUsbEp e 2) v)) ∧
      (2 ^ regF u (aUsbEp e 1) 47 44 < far →
        exec (.usbEpTailWrite rq e v) s = .next (rqViolation u 9 rq true (aUsbEp e 2)))) ∧
    (Admitted s rq (aDisp 1) →
      exec (.commit rq v) s = .next { u with disp := { s.disp with
        commitPending := [true, true]
        committed := buffered.foldl (fun l a => swrite regReset l a (regGet u a)) s.disp.committed } }) ∧
    (∀ o : Fin 2, Admitted s rq (aDispOut o 0) → let a := aDispOut o 0
      (regB u a 47 = true → regF u (aDispOut o 4) 45 44 ≠ 3 →
        exec (.dispOutCtlWrite rq o v) s = .next (rqViolation u 9 rq true a)) ∧
      (regB u a 47 = true → regF u (aDispOut o 4) 45 44 = 3 → exec (.dispOutCtlWrite rq o v) s =
        .next (if bit v 47 then regFld u (aDispOut o 4) 45 44 1 else regFld u a 47 47 0)) ∧
      (regB u a 47 = false → 1 ≤ fld v 45 43 → fld v 45 43 ≤ 4 → (bit v 46 = true ∨ fld v 45 43 ≠ 3) →
        fld v 42 41 ≠ 3 → 80 ≤ fld v 36 24 → fld v 36 24 ≤ 4500 →
        (bit v 47 = false → exec (.dispOutCtlWrite rq o v) s = .next (plainWrite u a v)) ∧
        (bit v 47 = true → timingBad u o (fld v 23 0) = true →
          exec (.dispOutCtlWrite rq o v) s = .next (rqViolation u 9 rq true a)) ∧
        (bit v 47 = true → timingBad u o (fld v 23 0) = false → bit v 46 = true →
          exec (.dispOutCtlWrite rq o v) s = .next (scanStart (regFld (plainWrite u a v) (aDispOut o 4) 46 46 1) o)) ∧
        (bit v 47 = true → timingBad u o (fld v 23 0) = false → bit v 46 = false → exec (.dispOutCtlWrite rq o v) s =
          .next (regFld (regFld (plainWrite u a v) (aDispOut o 4) 45 44 1) (aDispOut o 4) 46 46 0)))) ∧
    (∀ o : Fin 2, Admitted s rq (aDispOut o 5) → let a := aDispOut o 5
      (regB u a 46 = true → exec (.go rq o v) s = .next u) ∧
      (regB u a 46 = false → let t := regFld (plainWrite u a (setBit v 47 true)) a 46 46 1
        let video := bit v 42 = true ∧ regB t (aDispOut o 0) 47 = true ∧ inBlank t o = false
        let data := (unpackBytes ((upto 3).map fun k => regGet t (aDispOut o (6 + k))) 18).take (regF t a 4 0)
        (video → exec (.go rq o v) s = .next { t with disp := { s.disp with xferDue := s.disp.xferDue.set o true } }) ∧
        (¬video → exec (.go rq o v) s = .next { t with disp := { s.disp with
          xfers := s.disp.xfers ++ [(o.val, regGet t a, data)], xferDue := s.disp.xferDue.set o false } }))) ∧
    (∀ n : Fin 8, Admitted s rq (aDma n 2) →
      (regB u (aDma n 3) 47 = true → exec (.dmaGo rq n v) s = .next (rqViolation u 9 rq true (aDma n 2))) ∧
      (regB u (aDma n 3) 47 = false → bit v 46 = false →
        let t := dmaLine (plainWrite u (aDma n 2) (setBit v 47 true)) n
        let src := regF t (aDma n 0) 35 0
        let dst := regF t (aDma n 1) 35 0
        (∀ k < fld v 23 0, dmaPlace t (src + k) false = true ∧ dmaPlace t (dst + k) true = true) →
        exec (.dmaGo rq n v) s = .next (regFld (regFld (regFld (modDma t n fun _ => ⟨src, dst, fld v 23 0, false, 0⟩)
          (aDma n 3) 47 47 1) (aDma n 3) 45 44 0) (aDma n 3) 23 0 0))) ∧
    (Admitted s rq aPwrVote → let t := regFld u aPwrVote 15 0 (fld v 15 0)
      (regF t aPwrVote 43 42 = 0 → s.power.startNext = false →
        (bit v 46 = false → bit v 45 = false → exec (.pwrVoteGo rq v) s = .next (startVote t false false)) ∧
        (rqLevel s rq = 3 → bit v 45 = false → exec (.forcedEntry rq v) s = .next (startVote t true false)) ∧
        (rqLevel s rq = 3 → bit v 46 = false → exec (.quiescentEntry rq v) s = .next (startVote t false true))) ∧
      (regF t aPwrVote 43 42 ≠ 0 → bit v 46 = false → bit v 45 = false → exec (.pwrVoteGo rq v) s =
        .next { regFld t aPwrVote 44 44 1 with power := { s.power with pendingGo := some (false, false) } })) ∧
    (∀ d : Fin 64, Admitted s rq (aClkFreq d) → let e := clockWord u d
      (bit e 47 = false ∨ bit e 46 = false ∨ fld v 23 0 < fld e 45 24 ∨ fld e 23 0 < fld v 23 0 →
        exec (.clkDomFreqWrite rq d v) s = .next (rqViolation u 6 rq true (aClkFreq d))) ∧
      (bit e 47 = true → bit e 46 = true → fld e 45 24 ≤ fld v 23 0 → fld v 23 0 ≤ fld e 23 0 → (d.val < 20 ∨ 24 < d.val) →
        exec (.clkDomFreqWrite rq d v) s = .next { plainWrite u (aClkFreq d) v with
          power := { s.power with pendFreq := d.val :: s.power.pendFreq.filter (· ≠ d.val) } })) ∧
    (∀ d : Fin 64, Admitted s rq (aPwrPolicy d) →
      let limit := Nat.min (if runOnly d then 0 else 2) (regF u (aPwrPolicy d) 1 0)
      (fld v 41 40 ≤ limit → fld v 41 40 ≠ 3 →
        exec (.pwrDomPolicyWrite rq d v) s = .next (regFld u (aPwrPolicy d) 41 40 (fld v 41 40))) ∧
      (limit < fld v 41 40 → fld v 41 40 ≠ 3 →
        exec (.pwrDomPolicyWrite rq d v) s = .next (rqViolation u 6 rq true (aPwrPolicy d)))) ∧
    (∀ p : Fin 2, Admitted s rq (aMbx p 0) →
      (served u p = false ∨ (port u p).posted = true ∨ (port u p).ready = true →
        exec (.mbxCmd rq p v) s = .next (mbxFlag u p 46 true)) ∧
      (served u p = true → (port u p).posted = false → (port u p).ready = false → let t := plainWrite u (aMbx p 0) v
        exec (.mbxCmd rq p v) s = .next (postCommand t p (if p = 0 then rqLevel s rq else 3) (v &&& mask 47 32)
          ((upto 8).map fun k => regGet t (aMbx p (1 + k))) ((upto 683).map fun k => regGet t (aMbx p (0x400 + k)))))) ∧
    (∀ p : Fin 2, Admitted s rq (aMbx p 0x20) → exec (.mbxAck rq p v) s =
      .next (if (port u p).ready = true ∧ resultSeq (port u p) = fld v 47 40 then releaseResult u p else u)) ∧
    (∀ c : Fin 16, Admitted s rq (aRstCore c) → let t := plainWrite u (aRstCore c) (setBit v 47 true)
      (s.sys.held.contains c.val = true → exec (.rstCoreCtlStart rq c v) s = .next t) ∧
      (s.sys.held.contains c.val = false → coreState t c = 0 → exec (.rstCoreCtlStart rq c v) s = .next ((coreToReset t (.app c) .running).modCore (.app c) fun k =>
        { k with pc := w48 (regF t (aRstCore c) 36 0) })) ∧
      (s.sys.held.contains c.val = false → coreState t c ≠ 0 → exec (.rstCoreCtlStart rq c v) s = .next (rqViolation t 9 rq true (aRstCore c)))) ∧
    (Admitted s .debug aDbgHold → exec (.dbgHoldWrite .debug v) s = .next (plainWrite u aDbgHold v))

/-- While domain 62 runs, and the pad of a source that a pad drives is placed, a change of a level source follows its
line, and the input of an edge source sets LINE, its rise being the edge. Interrupt entry makes the presented source
active, saves the PC, the status and the source number in the registers of its level, and goes to vector 0x20 of that
level; the status it tests is that of a waiting instruction, and otherwise the one that the next instruction would run
under. A compare timer that is due asserts its source, and reloads or stops. A capture at a placed pad takes the time
and the edge, or sets overflow. The two stages of a watchdog, counted on domain 57, raise its source and then act on
its core. An access that its block does not answer is logged and counted, once for each word: a read of the debug
port, the PCIe host or the Medulla core, by a word, double-word, POP or PUSH form, gets zero and a write is dropped.
While the Medulla core runs, its watchdog and a Medulla lockstep mismatch are module fault 5, a checkstop record is
logged before its core is reset, and a mismatched structure register is repaired once in 24 h; a Medulla core that
does not run does none of this. The record of one without a register address has a free word 2, the choice of the
model (log entry 148). (spec/08_interrupts_timers.md R291, R296, R297, R309, R314, spec/08_interrupts_timers.md R318,
R320, R325, spec/07_privilege_exceptions.md R267, R271, R272, R273, spec/18_power.md R682, R683,
spec/21_startup_faults.md R736, R770, spec/02_structure_image.md R80, R81) -/
def Obligations.ControllerEvents : Prop :=
  ∀ s : State,
    (∀ (n : Fin 320) (b : Bool),
      (n.val = 63 → exec (.interruptSourceAssert n b) s = .next s) ∧
      (unitRuns s 62 = false ∨ sourcePadded s n = false → exec (.interruptSourceAssert n b) s = .next s) ∧
      (n.val ≠ 63 → unitRuns s 62 = true → sourcePadded s n = true → isLevelSource n = true →
        exec (.interruptSourceAssert n b) s = .next (setLine s n b)) ∧
      (n.val ≠ 63 → unitRuns s 62 = true → sourcePadded s n = true → isLevelSource n = false →
        exec (.interruptSourceAssert n b) s = .next (setEdgeInput s n b))) ∧
    (∀ (n : Fin 320), isReservedSource n = false → s.sys.held.contains 62 = false → Memory.wf s = true →
      srcLine (setEdgeInput s n true) n = true ∧ srcLine (setEdgeInput s n false) n = false ∧
      (srcLine s n = true → ∀ b, srcPend (setEdgeInput s n b) n = srcPend s n) ∧
      (srcLine s n = false → srcPend (setEdgeInput s n true) n = true)) ∧
    (∀ (c : CoreId) (p : Presented) (l : Fin 3), let k := s.core c
      presentedNow s c = some p → selectSource s (coreNum c) = some p → p.src ≠ 63 → p.lvl = l.val + 1 →
      k.atBoundary = true → k.takesInterrupt p = true → k.waiting = none → k.statusQueue = [] →
      unitRuns s 62 = true → coreClocked s c = true →
      ∃ t, exec (.interruptEntry c) s = .next t ∧ let k' := t.core c
        k'.save[l] = { k.save[l] with epc := k.pc, est := k.status, ecause := ecauseWord p.src 0 0 0 false k.vm 0x20, eaddr := 0 } ∧
        k'.pc = pcOf c (setFld (k.save[l]).evec 8 0 0 + 0x100) ∧ k'.status = entryStatus k.status p.lvl (some p.prio) ∧
        k'.g = k.g ∧ k'.active = p.src :: k.active ∧ srcAct t p.src = true) ∧
    (∀ (c : CoreId) (w : StatusWrite), (s.core c).statusQueue = [w] →
      ((s.core c).waiting ≠ none → (s.core c).boundaryStatus = (s.core c).status) ∧
      ((s.core c).waiting = none → (s.core c).boundaryStatus = (if w.left = 0 then w.value else (s.core c).status))) ∧
    (∀ (c : CoreId) (p : Presented), presentedNow s c = some p →
      ({ s.core c with status := (s.core c).boundaryStatus }.takesInterrupt p = false ∨ (s.core c).atBoundary = false) →
      exec (.interruptEntry c) s = .next s) ∧
    (∀ n : Fin 8, let ctl := regGet s (aTmrCtl n)
      let cmp := regGet s (aTmrCmp n)
      s.timeCounts = true → bit ctl 47 = true → (s.tbl - cmp).toNat < 2 ^ 47 → let t := assertEdge s (178 + n)
      exec (.compareTimerFire n) s = .next (if bit ctl 46 = true ∧ fld ctl 39 0 ≠ 0 then
        regSet t (aTmrCmp n) (cmp + w48 (fld ctl 39 0)) else regFld t (aTmrCtl n) 47 47 0)) ∧
    (∀ (n : Fin 4) (rise : Bool), let mode := regF s (aTsStat n) 14 13
      (mode = 3 ∨ (mode = 1 ∧ rise = true) ∨ (mode = 2 ∧ rise = false)) → funcPlaced s (4 + n) = true → s.timeCounts = true →
      exec (.timestampCapture n rise) s = .next (if 16 ≤ (fifo s n).length then regFld s (aTsStat n) 15 15 1
        else setFifo s n (fifo s n ++ [(s.tbl, rise)]))) ∧
    (∀ w : Fin 36, let ctl := regGet s (aWdogCtl w)
      (wdogCounts s w = true → fld ctl 33 32 = 0 → wdogStart s w + fld ctl 15 0 * 1000000 ≤ s.ref →
        exec (.watchdogStage1 w) s = .next (assertEdge (regFld s (aWdogCtl w) 33 32 1) (wdogSource w))) ∧
      (wdogCounts s w = true → fld ctl 33 32 = 1 → wdogStart s w + (fld ctl 15 0 + fld ctl 31 16) * 1000000 ≤ s.ref →
        let t := logFault (regFld s (aWdogCtl w) 33 32 2) 0x10 w 0 0 0
        (∀ i : Fin 16, w.val = i.val → ((t.core (.app i)).run = .checkstopped → exec (.watchdogStage2 w) s = .next t) ∧
          ((t.core (.app i)).run ≠ .checkstopped →
            exec (.watchdogStage2 w) s = .next (coreToReset t (.app i) .held))) ∧
        (∀ g, 16 ≤ w.val → w.val < 32 → groupOf t (w - 16) = some g →
          exec (.watchdogStage2 w) s = .next (safeGroup t g 4)) ∧
        (32 ≤ w.val → exec (.watchdogStage2 w) s = .next (safeGroup t (w - 32) 5)))) ∧
    (∀ rq a w f r, (∀ c, rq ≠ .core c) → canAccess s rq = true → regBase ≤ a → a < 0x810000000 →
      let t := count (logFault s 0x17 (rqNum rq) 0 (w48 a) 0) 63 0x0B1
      exec (.deviceAccessTimeout rq ⟨a, w, f, r⟩) s = .next (if w then t else { t with readOut := 0 })) ∧
    (let c : CoreId := .medulla
     let logged (u : State) (a : Nat) : State := count (logFault u 0x17 (rqNum (.core c)) 0 (w48 a) 0) 63 0x0B1
     ∀ (t : State) (a : Nat) (r : Reg), (t.core c).storeBuffer = [] → regBase ≤ a → a < 0x810000000 → inAperture a = false →
      let u := logged t a
      let ends (w : Bool) (f : DeviceForm) (v : State) : Prop := exec (.deviceAccessTimeout (.core c) ⟨a, w, f, r⟩) s = .next v
      (∀ w f, Issues s c (plain f) t → ends w (.word f) (completeInstr (if w then u else writeReg u c r 0) c (formLen f))) ∧
      (∀ w, Issues s c { plain .long with bad := badElem (!w) r .dword 0 false } t → a % 2 = 0 → a + 1 < 0x810000000 →
        inAperture (a + 1) = false → let u := logged u (a + 1)
        ends w .dword (completeInstr (if w then u else writeReg (writeReg u c r 0) c (pairHi r) 0) c 2)) ∧
      (Issues s c (plain .short) t →
        ((s.core c).reg 31 = w48 a → (t.core c).reg 31 = w48 a →
          ends false .stack (completeInstr (writeReg (writeReg u c 31 (w48 a + 1)) c r 0) c 1)) ∧
        ((s.core c).reg 31 - 1 = w48 a → (t.core c).reg 31 - 1 = w48 a →
          ends true .stack (completeInstr (writeReg u c 31 (w48 a)) c 1))) ∧
      ((s.core c).reg 31 ≠ w48 a → ends false .stack s) ∧ ((s.core c).reg 31 - 1 ≠ w48 a → ends true .stack s)) ∧
    (medullaActs s = false → exec .medullaWatchdogExpiry s = .next s ∧ exec .medullaLockstepMismatch s = .next s ∧
      ∀ a, exec (.structureRepair a) s = .next s) ∧
    (medullaActs s = true →
      (∃ t, exec .medullaWatchdogExpiry s = .next t ∧ t.sys.mode = .inReset 4 ∧ t.sys.bypass = true ∧
        t.tick.running = false ∧ ∀ c, c ≠ .medulla → (t.core c).run = .held) ∧
      (∃ t, exec .medullaLockstepMismatch s = .next t ∧ (t.core .medulla).run = .checkstopped ∧ t.sys.bypass = true ∧
        ((∀ f, s.sys.mode ≠ .hold f) → t.sys.mode = .inReset 5))) ∧
    (∀ c n pc st ec ea, (s.mdl.checkstops.find? fun r => r.1 = coreNum c) = some (n, pc, st, ec, ea) →
      medullaActs s = true → exec (.checkstopRecord c) s = .next (settleSyncs (assertEdge (logFault { s with mdl :=
        { s.mdl with checkstops := s.mdl.checkstops.filter fun r => r.1 ≠ n, resettable := n :: s.mdl.resettable } }
        0x0D n 241 pc ec) 241))) ∧
    (∀ c, s.mdl.resettable.contains (coreNum c) = true → (s.core c).run = .checkstopped → debugHolds s (coreNum c) = false →
      medullaActs s = true → ∃ t, exec (.coreReset c) s = .next t ∧ (t.core c).g = Core.reset.g ∧ (t.core c).status = Core.reset.status ∧
        (t.core c).waiting = none ∧ ((t.core c).run = .held ∨ (t.core c).run = .parked) ∧
        coreNum c ∉ t.mdl.resettable) ∧
    (∀ a, s.struct.mismatched.contains a = true → s.struct.pendingRepair.contains a = false →
      medullaActs s = true → ((∃ r ∈ s.struct.repairs, r.1 = a ∧ s.now ≤ r.2 + 86400000000000) →
        exec (.structureRepair a) s = .next (moduleFault s 2)) ∧
      ((∀ r ∈ s.struct.repairs, r.1 = a → r.2 + 86400000000000 < s.now) →
        let t := regAddSat { s with struct := { s.struct with
          repairs := s.struct.repairs ++ [(a, s.now)], pendingRepair := s.struct.pendingRepair ++ [a] } } aStructStatus 31 24 1
        (a < 2 ^ 36 → exec (.structureRepair a) s = .next (logFault t 0x0C (structSection a) 240 (w48 a) 0)) ∧
        (2 ^ 36 ≤ a → ∃ w : Word, exec (.structureRepair a) s =
          .next (logFault { t with free := t.free + 1 } 0x0C (structSection a) 240 w 0))))

/-- A channel delivers its messages in order. The message in flight is taken and accepted: a dead agent is ignored, a
busy line queues the request, a full set answers Retry to any requester but a Frond core. A slice serves a request
that has been passed 16 times first, and otherwise one of the lowest class that waits. A request of an unmarked line
that the L3 holds is answered at once under its tag: RdS with E, or S for a fetch; RdU, and an upgrade whose sharer is
marked no more, with E; RdUZ with zeros in M; RdIO and RdNC with data; a written-through or uncached store, an
invalidating write, an atomic, a clean and a flush with Cmp; one that needs the words of a line that the L3 does not
hold goes to DRAM. A request of a line with another owner sends it the snoop of its type. An upgrade of the only
sharer is answered with GrantU. The bridge sends RdIO, WrStash and WrInv as agent 33 while its clock runs.
(spec/10_coherence.md R369, R374, R375, R376, R377, R380, spec/10_coherence.md R382, R383, R389, R391, R411) -/
def Obligations.CoherenceRequests : Prop :=
  ∀ (s : State) (src : Fin 33) (l : Nat),
    (∀ ty a m u, takeMsg s ty a l = some (m, u) → m.type = ty ∧ m.agent = a ∧ m.line = l ∧
      ∃ before after, s.coh.net = before ++ m :: after ∧ (∀ x ∈ before, sameLane s x m = false) ∧
        u = { s with coh := { s.coh with net := before ++ after } }) ∧
    (∀ why m u, takeMsg s .RdS src l = some (m, u) → exec (.rdS src why l) s = .next (accept u m)) ∧
    (∀ m u, takeMsg s .RdU src l = some (m, u) → exec (.rdU src l) s = .next (accept u m)) ∧
    (∀ m u, takeMsg s .Upg src l = some (m, u) → exec (.upg src l) s = .next (accept u m)) ∧
    (∀ m u, takeMsg s .RdUZ src l = some (m, u) → exec (.rdUZ src l) s = .next (accept u m)) ∧
    (∀ m u, takeMsg s .RdNC src l = some (m, u) → exec (.rdNC src l) s = .next (accept u m)) ∧
    (∀ m u, takeMsg s .WrNC src l = some (m, u) → exec (.wrNC src l) s = .next (accept u m)) ∧
    (∀ m u, takeMsg s .WrThru src l = some (m, u) → exec (.wrThru src l) s = .next (accept u m)) ∧
    (∀ m u, takeMsg s .AtomF src l = some (m, u) → exec (.atomF src l) s = .next (accept u m)) ∧
    (∀ m u, takeMsg s .Clean src l = some (m, u) → exec (.clean src l) s = .next (accept u m)) ∧
    (∀ m u, takeMsg s .Flush src l = some (m, u) → exec (.flush src l) s = .next (accept u m)) ∧
    (8 * l + 7 < memTop s → dataLine s l = l → ∀ (wmask : BitVec 8) (d : List Word) (tgt : Nat),
      let twin := isTwin s (8 * l)
      let words : LineData := pairData twin ((upto 8).map fun i => (d.getD i 0, false))
      let drawn (t : State) : State := { t with coh := { t.coh with tag := (s.coh.tag + 1) % 256 } }
      let free (ty : MsgType) : Prop := clockStopped s 63 = false ∧ takeMsg s ty 33 l = none ∧ laneOpen s (mkMsg ty 33 l) = true
      let wrInv : Msg := { mkMsg .WrInv 33 l with twin := twin, wmask := wmask.toNat, data := words, txn := s.coh.tag }
      (clockStopped s 63 = true → ∀ i ∈ [Instr.rdIO l, .wrInv l wmask d, .wrStash l wmask d tgt], exec i s = .next s) ∧
      (free .RdIO → exec (.rdIO l) s = .next (accept (drawn s) { mkMsg .RdIO 33 l with twin := twin, txn := s.coh.tag })) ∧
      (free .WrInv → exec (.wrInv l wmask d) s = .next (accept (drawn (lineMoved s l twin)) wrInv)) ∧
      (16 ≤ tgt → free .WrInv → exec (.wrStash l wmask d tgt) s = .next (accept (drawn (lineMoved s l twin)) wrInv)) ∧
      (tgt < 16 → free .WrStash → exec (.wrStash l wmask d tgt) s =
        .next (accept (drawn (count (lineMoved s l twin) 63 0x0B2)) { wrInv with type := .WrStash, req := .WrStash, tgt := tgt }))) ∧
    (∀ q m, nextWaiting q = some m → m ∈ q ∧ ((∃ x ∈ q, 16 ≤ x.skips) → 16 ≤ m.skips) ∧
      ((∀ x ∈ q, x.skips < 16) → ∀ x ∈ q, classOf m.agent ≤ classOf x.agent)) ∧
    (∀ (u : State) (m : Msg), m.line = l →
      (deadAgent u m.agent = true → accept u m = u) ∧
      (deadAgent u m.agent = false → txnFind u l ≠ none → u.coh.waitq = [] ∧ (∀ x ∈ u.coh.dir, x.overflow = none) →
        (accept u m).coh = { u.coh with waitq := [m] }) ∧
      (deadAgent u m.agent = false → txnFind u l = none → dirFind u l = none → dirRoom u l = .full → u.coh.waitq = [] ∧ (∀ x ∈ u.coh.dir, x.overflow = none) →
        m.recalling = false → (m.agent < 16 ∨ 32 ≤ m.agent) →
        (accept u m).coh.net = u.coh.net ++ [{ mkMsg .Retry m.agent l with
          twin := m.twin, n := Nat.min m.n 4, txn := m.txn, req := m.type }]) ∧
      (deadAgent u m.agent = false ∧ txnFind u l = none ∧ dirFind u l = none ∧ dirRoom u l = .free ∧
        u.coh.waitq = [] ∧ (∀ x ∈ u.coh.dir, x.overflow = none) →
        let answer (n : Msg) : Prop := (accept u m).coh.net = u.coh.net ++ [n] ∧
          ∃ t, txnFind (accept u m) l = some t ∧ t.granted = true
        (∀ e, l3Find u l = some e →
          let data : Msg := { mkMsg .Data m.agent l with twin := m.twin, data := e.data, req := m.type, txn := m.txn }
          let cmp : Msg := { mkMsg .Cmp m.agent l with twin := m.twin, req := m.type, txn := m.txn }
          (m.type = .RdS → answer { data with gnt := if m.isFetch then 1 else 2 }) ∧
          (m.type = .RdU ∨ m.type = .Upg → answer { data with gnt := 2, req := .RdU }) ∧
          (m.type = .RdUZ → answer { data with gnt := 3, data := (upto (if m.twin then 16 else 8)).map fun i =>
            (if i < 8 then 0 else 0xFFFFFFFFFFFF, false) }) ∧
          (m.type = .RdIO ∨ m.type = .RdNC → answer data) ∧
          (m.type = .WrNC ∨ m.type = .WrThru ∨ m.type = .WrInv ∨ m.type = .Clean ∨ m.type = .Flush → answer cmp) ∧
          (m.type = .AtomF → ∃ c, answer { cmp with
            word := (atomicLine m e.data).1, c := c, fail := (atomicLine m e.data).2.2 })) ∧
        (l3Find u l = none → (m.type = .RdS ∨ m.type = .RdU ∨ m.type = .Upg ∨ m.type = .RdIO ∨ m.type = .RdNC ∨
            m.type = .WrNC ∨ m.type = .WrThru ∨ m.type = .AtomF) →
          (accept u m).coh.net = u.coh.net ∧ ∃ t, txnFind (accept u m) l = some t ∧ t.needDram = true)) ∧
      (deadAgent u m.agent = false → txnFind u l = none → u.coh.waitq = [] ∧ (∀ x ∈ u.coh.dir, x.overflow = none) → ∀ (e : DirEntry) (b : Fin 33), dirFind u l = some e →
        e.vec = vecSet 0 b true → e.exclusive = true → m.agent ≠ b.val → deadAgent u b = false →
        let snoop (ty : MsgType) : Prop := (accept u m).coh.net = u.coh.net ++
          [{ mkMsg ty b l with twin := m.twin, txn := u.coh.tag }]
        (m.type = .RdS → snoop .SnpS) ∧ (m.type = .RdIO ∨ m.type = .RdNC → snoop .SnpData) ∧
        (m.type = .Clean → snoop .SnpClean) ∧
        (m.type = .RdU ∨ m.type = .Upg ∨ m.type = .RdUZ ∨ m.type = .WrNC ∨ m.type = .WrThru ∨ m.type = .WrInv ∨
          m.type = .AtomF ∨ m.type = .Flush → snoop .SnpInv)) ∧
      (m.type = .Upg → deadAgent u m.agent = false → txnFind u l = none → m.agent < 34 → u.coh.waitq = [] ∧ (∀ x ∈ u.coh.dir, x.overflow = none) →
        ∀ e, dirFind u l = some e → e.vec = vecSet 0 m.agent true → e.exclusive = false →
        (accept u m).coh.net = u.coh.net ++ [{ mkMsg .GrantU m.agent l with twin := m.twin, req := .Upg, txn := m.txn }]))

/-- A snoop that finds no copy is acknowledged under its tag; one that finds a copy leaves it and answers as R378 says
for its state; an agent whose domain a clock fault holds does not answer. A stash installs the line in M or is
declined by a stopped core. An answer that no snoop of its tag awaits is counted late; an awaited one leaves its
transaction, with its dirty data. A grant installs the line and is acknowledged, a copy in SM becomes E, a PutAck ends
an eviction, a Cmp completes what its core waits for, a Retry waits and is sent again. A Put of a marked line clears
the mark and, if dirty, writes the L3, or the transaction that awaits it; one of an unmarked line is counted late.
Both are acknowledged, one whose sender has a stash of the line under way when it has answered the stash, the choice
of the model (log entry 176). A snoop timer that expires removes the agent, poisons the line and is logged; it runs by
the limit that stood when the snoop was sent. (spec/10_coherence.md R367, R374, R377, R378, R380, R382,
spec/10_coherence.md R383, R385, R388, R389, R392, R393, spec/10_coherence.md R403, R406, R407, R408, R410, R411,
spec/01_architecture.md R59) -/
def Obligations.CoherenceAnswers : Prop :=
  ∀ (s : State) (ag : Fin 33) (l : Nat),
    let answered (ty : MsgType) (o : Host.Outcome State Fault Refusal) : Prop :=
      (answersSnoops s ag = false → o = .next s) ∧
      ∀ m u, takeMsg s ty ag l = some (m, u) → answersSnoops s ag = true →
        (cacheLine u ag l = none → o = .next (send u { mkMsg .RspAck ag l with twin := m.twin, txn := m.txn })) ∧
        (∀ e, cacheLine u ag l = some e → o = .next (send (match (snoopAnswer ty e).2 with
          | some x => modLine u ag l fun _ => x
          | none => dropLine u ag l) { (snoopAnswer ty e).1 with txn := m.txn }))
    answered .SnpS (exec (.snpS ag l) s) ∧ answered .SnpInv (exec (.snpInv ag l) s) ∧
    answered .SnpData (exec (.snpData ag l) s) ∧ answered .SnpClean (exec (.snpClean ag l) s) ∧
    (∀ e : CacheLine, let dirty : Msg := { mkMsg .RspData e.agent e.line with twin := e.twin, dirty := true, data := e.data }
      let clean : Msg := { mkMsg .RspAck e.agent e.line with twin := e.twin }
      (e.st = .M → snoopAnswer .SnpS e = (dirty, some { e with st := .S }) ∧ snoopAnswer .SnpInv e = (dirty, none) ∧
        snoopAnswer .SnpData e = (dirty, some e) ∧ snoopAnswer .SnpClean e = (dirty, some { e with st := .E })) ∧
      (e.st = .E → snoopAnswer .SnpS e = (clean, some { e with st := .S }) ∧ snoopAnswer .SnpInv e = (clean, none) ∧
        snoopAnswer .SnpData e = (clean, some e) ∧ snoopAnswer .SnpClean e = (clean, some e)) ∧
      (e.st = .S → snoopAnswer .SnpInv e = (clean, none)) ∧
      (e.st = .SM → snoopAnswer .SnpInv e = (clean, some { e with st := .IM, data := [] })) ∧
      (e.st = .MI ∨ e.st = .EI ∨ e.st = .SI →
        ∀ ty, snoopAnswer ty e = ({ clean with type := .RspEIF }, some e))) ∧
    (∀ m u, takeMsg s .SnpStash ag l = some (m, u) → answersSnoops s ag = true → (∀ e ∈ u.coh.caches, e.agent ≠ ag.val) →
      ∀ c, coreOfAgent ag = some c →
      (regF u (aPwrPolicy ag) 47 46 < 2 → (u.core c).run ≠ .held → (u.core c).run ≠ .checkstopped →
        exec (.snpStash ag l) s = .next (send (putLine u ⟨ag, l, .M, m.twin, false, false, m.data⟩)
          { mkMsg .RspAck ag l with twin := m.twin, txn := m.txn })) ∧
      (2 ≤ regF u (aPwrPolicy ag) 47 46 ∨ (u.core c).run = .held ∨ (u.core c).run = .checkstopped →
        exec (.snpStash ag l) s = .next (send u
          { mkMsg .RspDecline ag l with twin := m.twin, data := m.data, txn := m.txn }))) ∧
    (∀ m u, let late := regAddSat u (aCohLate (homeOf u l)) 47 0 1
      let counted := count (regAddSat u (aCohEif (homeOf u l)) 47 0 1) (32 + homeOf u l) 0x45
      (txnFind u l = none ∨ (∃ t, txnFind u l = some t ∧ ∀ x ∈ t.snoops, x.agent = ag.val → x.tag ≠ m.txn) →
        (takeMsg s .RspAck ag l = some (m, u) → exec (.rspAck ag l) s = .next late) ∧
        (takeMsg s .RspData ag l = some (m, u) → exec (.rspData ag l) s = .next late) ∧
        (takeMsg s .RspDecline ag l = some (m, u) → exec (.rspDecline ag l) s = .next late) ∧
        (takeMsg s .RspEIF ag l = some (m, u) → exec (.rspEIF ag l) s = .next late)) ∧
      (∀ t x, txnFind u l = some t → x ∈ t.snoops → x.agent = ag.val → x.tag = m.txn →
        let left (u : State) (d : Option LineData) : State :=
          goOn (txnPut u { t with snoops := t.snoops.filter (fun x => !x.answers m), dirtyData := d }) l
        (t.stashing = false → x.awaitPut = false →
          (takeMsg s .RspAck ag l = some (m, u) → exec (.rspAck ag l) s = .next (left u t.dirtyData)) ∧
          (takeMsg s .RspDecline ag l = some (m, u) → exec (.rspDecline ag l) s = .next (left u t.dirtyData)) ∧
          (takeMsg s .RspData ag l = some (m, u) →
            exec (.rspData ag l) s = .next (left u (if m.dirty then some m.data else t.dirtyData)))) ∧
        (t.stashing = true →
          (takeMsg s .RspAck ag l = some (m, u) → exec (.rspAck ag l) s = .next (stashAnswered u t none)) ∧
          (takeMsg s .RspDecline ag l = some (m, u) →
            exec (.rspDecline ag l) s = .next (stashAnswered u t (some m.data)))) ∧
        (takeMsg s .RspEIF ag l = some (m, u) →
          ((∀ y ∈ t.snoops, y.answers m = true → y.putSeen = false) →
            exec (.rspEIF ag l) s = .next (txnPut counted { t with snoops := t.snoops.map fun y =>
              if (y.answers m) = true then { y with awaitPut := true } else y })) ∧
          (x.putSeen = true → x.awaitPut = false →
            exec (.rspEIF ag l) s = .next (left (oweAck counted t ag.val) t.dirtyData))))) ∧
    (∀ (a : Fin 34) m u, let acked := send u { mkMsg .CmpAck a l with twin := m.twin, txn := m.txn }
      (takeMsg s .CmpAck a l = some (m, u) → ∀ t e, txnFind u l = some t → t.granted = true → t.req.agent = a.val →
        dirFind (txnDel u l) l = some e → let v := dirPut (txnDel u l) { e with busy := false }
        exec (.cmpAck a l) s = .next (retryBlocked (pump v (homeOf v l)))) ∧
      (takeMsg s .Data a l = some (m, u) →
        (coreOfAgent a = none → exec (.data a l) s = .next (bridgeGoesOn (answerStep acked m))) ∧
        (∀ c, coreOfAgent a = some c →
          (m.req = .RdNC → exec (.data a l) s = .next (afterDrain (giveWords acked c m) c)) ∧
          (m.req = .RdUZ → exec (.data a l) s =
            .next (maintenanceDone (zeroedInL1 (installLine acked a m) a l) c l)) ∧
          (m.req ≠ .RdNC → m.req ≠ .RdUZ → exec (.data a l) s =
            .next (afterDrain (markContended (installLine acked a m) c m) c)))) ∧
      (takeMsg s .Cmp a l = some (m, u) →
        (coreOfAgent a = none → exec (.cmp a l) s = .next (bridgeGoesOn (answerStep acked m))) ∧
        (∀ c, coreOfAgent a = some c →
          (m.req = .AtomF → atomicWaits (u.core c) = true → exec (.cmp a l) s = .next (atomicDone acked c m)) ∧
          (m.req = .AtomF → atomicWaits (u.core c) = false → exec (.cmp a l) s = .next (afterDrain acked c)) ∧
          (m.req = .WrNC ∨ m.req = .WrThru → exec (.cmp a l) s = .next (throughDone acked c l)) ∧
          (m.req = .Clean ∨ m.req = .Flush → exec (.cmp a l) s = .next (maintenanceDone acked c l))))) ∧
    (∀ (m : Msg), ∃ e, cacheLine (installLine s ag m) ag m.line = some e ∧ e.data = m.data ∧ e.twin = m.twin ∧
      e.st = (if m.gnt = 3 then .M else if m.gnt = 2 then .E else .S)) ∧
    (∀ m u c, coreOfAgent ag = some c →
      (takeMsg s .GrantU ag l = some (m, u) → exec (.grantU ag l) s = .next (afterDrain (markContended
        (modLine (send u { mkMsg .CmpAck ag l with twin := m.twin, txn := m.txn }) ag l fun e =>
          if e.st = .SM then { e with st := .E } else e) c m) c)) ∧
      (takeMsg s .PutAck ag l = some (m, u) → ∀ e, cacheLine u ag l = some e → e.st.evicting = true →
        exec (.putAck ag l) s = .next (afterDrain (dropLine u ag l) c))) ∧
    (∀ (a : Fin 34) m u x, takeMsg s .Retry a l = some (m, u) →
      (u.coh.refused.find? fun x => x.agent = m.agent && x.line = m.line && x.txn = m.txn) = some x →
      exec (.retry a l) s = .next { u with coh := { u.coh with
        refused := u.coh.refused.erase x, retries := u.coh.retries ++ [{ x with n := x.n + 1 }] } }) ∧
    (∀ (a : Fin 34) m, (s.coh.retries.find? fun m => m.agent = a.val && m.line = l) = some m →
      exec (.retryBackoffExpiry a l) s = .next (send { s with coh := { s.coh with retries := s.coh.retries.erase m } } m)) ∧
    (∀ m u, let ack (t : State) : State := send t { mkMsg .PutAck ag l with twin := m.twin, txn := m.txn }
      let late := ack (regAddSat u (aCohLate (homeOf u l)) 47 0 1)
      let v := clearSharer u ag l
      let freed (t : State) : State := pump (ack t) (homeOf v l)
      (dirFind u l = none ∨ (∃ e, dirFind u l = some e ∧ e.vec.getLsbD ag = false) →
        (takeMsg s .PutM ag l = some (m, u) → exec (.putM ag l) s = .next late) ∧
        (takeMsg s .PutE ag l = some (m, u) → exec (.putE ag l) s = .next late) ∧
        (takeMsg s .PutS ag l = some (m, u) → exec (.putS ag l) s = .next late)) ∧
      (∀ e, dirFind u l = some e → e.vec.getLsbD ag = true →
        (txnFind u l = none →
          (takeMsg s .PutM ag l = some (m, u) → exec (.putM ag l) s = .next (freed (l3Put v l m.data true))) ∧
          (takeMsg s .PutE ag l = some (m, u) → exec (.putE ag l) s = .next (freed v)) ∧
          (takeMsg s .PutS ag l = some (m, u) → exec (.putS ag l) s = .next (freed v))) ∧
        (∀ t, txnFind u l = some t → (∃ y ∈ t.snoops, y.agent = ag.val ∧ y.awaitPut = true) →
          let left (d : Option LineData) : State := goOn (ack (txnPut v { t with
            dirtyData := d, snoops := t.snoops.filter fun y => y.agent ≠ ag.val })) l
          (takeMsg s .PutM ag l = some (m, u) → exec (.putM ag l) s = .next (left (some m.data))) ∧
          (takeMsg s .PutE ag l = some (m, u) → exec (.putE ag l) s = .next (left t.dirtyData)) ∧
          (takeMsg s .PutS ag l = some (m, u) → exec (.putS ag l) s = .next (left t.dirtyData))) ∧
        (∀ t, txnFind u l = some t → (∃ y ∈ t.snoops, y.agent = ag.val) →
          (∀ y ∈ t.snoops, y.agent = ag.val → y.awaitPut = false) →
          let seen (d : Option LineData) : State := txnPut v { t with
            dirtyData := d
            snoops := t.snoops.map fun y => if y.agent = ag.val then
              { y with putSeen := true, putAck := if t.stashing then some m.txn else none } else y }
          let on (d : Option LineData) : State := goOn (if t.stashing then seen d else ack (seen d)) l
          (takeMsg s .PutM ag l = some (m, u) → exec (.putM ag l) s = .next (on (some m.data))) ∧
          (takeMsg s .PutE ag l = some (m, u) → exec (.putE ag l) s = .next (on t.dirtyData)) ∧
          (takeMsg s .PutS ag l = some (m, u) → exec (.putS ag l) s = .next (on t.dirtyData))))) ∧
    (∀ t x, txnFind s l = some t → (t.snoops.find? fun x => x.agent = ag.val) = some x →
      (s.now < x.sent + x.limit → exec (.snoopTimeout ag l) s = .next (settleSyncs s)) ∧
      (x.sent + x.limit ≤ s.now → homeHeld s l = false → let h := homeOf s l
        let u := txnPut (oweAck (clearSharer s ag l) t ag.val) { t with
          snoops := t.snoops.filter (fun y => y.agent ≠ ag.val), poisonAll := true }
        let u := count (regAddSat u (aCohTimeout h) 47 0 1) (32 + h) 0x46
        let u := regSet u (aCohPoison h) (mk 47 47 1 ||| mk 46 41 ag ||| mk 32 0 l)
        let u := assertEdge (logFault u 0x04 ag (212 + h) (w48 l) (w48 h)) (212 + h)
        exec (.snoopTimeout ag l) s = .next (settleSyncs (noteTimeout (goOn u l) ag))))

/-- A DRAM read returns its line to the transaction that waits for it, through the L3, unless it must wait for a row
copy or an owed refresh. The oldest corrected write-back of a channel that can be written is. A refresh that is due
moves to the next bank pair. The patrol scrub reads its line and moves on, and raises source 209 at the end of a pass.
A completed row copy puts its shadow entry into use. A ZQ result out of range retires the channel. A controller whose
domain stands still does none of this. The oldest entry of the store buffer of a core that is not held goes to the
home slice, its device or its Sorus bank, asks for its line, or is written into the line that the core owns. A Sorus
bank performs its oldest write-back. (spec/11_memory_controller.md R422, R424, R433, R443, R444, R445, R447,
spec/10_coherence.md R396, spec/05_pipeline_timing.md R202, R208, spec/13_sorus_memory.md R515) -/
def Obligations.MemoryEvents : Prop :=
  ∀ s : State,
    (∀ (l : Nat) (flips again : List (BitVec 64)) t, txnFind s l = some t → t.needDram = true →
      (dramWaits s l = true → exec (.dramReadComplete l flips again) s = .next s) ∧
      (dramWaits s l = false →
        let q := if ((frondReads s).any fun x => x.2 = l) = true then count s (48 + (placeOf s (8 * l)).1) 0x52 else s
        let d := (dramRead q l flips again).1
        let v := (dramRead q l flips again).2
        let u := lineMoved v l (isTwin v (8 * l))
        (l3Find u l = none → exec (.dramReadComplete l flips again) s =
          .next (goOn (txnPut (l3Put u l d false) { t with needDram := false }) l)) ∧
        (l3Find u l ≠ none → exec (.dramReadComplete l flips again) s =
          .next (goOn (txnPut u { t with needDram := false }) l)))) ∧
    (∀ (c : Fin 8) e, (s.memctl.writeBacks.find? fun e =>
        (placeOf s (8 * e.1)).1 = c.val && !(clockStopped s (26 + c) || rowCopying s e.1 || refreshFirst s e.1)) = some e →
      exec (.correctedWriteBack c) s = .next (dramWriteLine { s with memctl := { s.memctl with
        writeBacks := s.memctl.writeBacks.filter fun x => x.1 ≠ e.1 } } e.1 e.2)) ∧
    (∀ c : Fin 8, s.memctl.unreadable = false → clockStopped s (26 + c) = false → c.val ∈ channelsIn s →
      s.memctl.refreshDue.getD c 0 ≤ s.now → exec (.refresh c) s = .next (count { s with memctl := { s.memctl with
        refreshPair := modAt s.memctl.refreshPair c fun p => (p + 1) % 8
        refreshDue := modAt s.memctl.refreshDue c fun d => d + refreshInterval s } } (48 + c) 0x54)) ∧
    (∀ flips again, let l := regF s aMemScrub 32 0
      regB s aMemCtl 15 = true → s.memctl.unreadable = false → slotWaits s l = false →
      (isTwin s (8 * l) = false ∨ slotWaits s (complLine s l) = false) →
      let u := (dramRead s l flips again).2
      let n := scrubSkip u (l + 1) 65
      (8 * n < memTop u → exec (.patrolScrub flips again) s = .next (regFld u aMemScrub 32 0 n)) ∧
      (memTop u ≤ 8 * n → exec (.patrolScrub flips again) s =
        .next (assertEdge (regAddSat (regFld u aMemScrub 32 0 0) aMemScrub 47 40 1) 209))) ∧
    (∀ c k : Fin 8, s.memctl.copies.contains (c.val, k.val) = true →
      (clockStopped s (26 + c) = true → exec (.rowCopyComplete c k) s = .next s) ∧
      (clockStopped s (26 + c) = false → exec (.rowCopyComplete c k) s =
        .next (shadowCount (regFld { s with memctl := { s.memctl with copies := s.memctl.copies.erase (c.val, k.val) } }
          (aMemShadow c k) 47 47 1) c))) ∧
    (∀ c : Fin 8, s.memctl.unreadable = false →
      (clockStopped s (26 + c) = false → c.val ∈ channelsIn s →
        exec (.periodicZqRecalibration c true) s = .next (retireChannel s c)) ∧
      (clockStopped s (26 + c) = true ∨ c.val ∉ channelsIn s → exec (.periodicZqRecalibration c true) s = .next s) ∧
      exec (.periodicZqRecalibration c false) s = .next s) ∧
    (∀ (i : Fin 16) e rest, (s.core (.app i)).storeBuffer = e :: rest → e.sent = false → clockStopped s i = false →
      (s.core (.app i)).run ≠ .held →
      let c : CoreId := .app i
      let l := dataLine s (e.pa / 8)
      let twin := isTwin s (8 * l)
      let through : Msg := { mkMsg (if e.type = .uncached then .WrNC else .WrThru) i l with
        twin := twin, wmask := 2 ^ (e.pa % 8), word := e.mask, data := oneWord twin (e.pa % 8) (e.data, false) }
      let sent := (send s through).modCore c fun k => { k with storeBuffer := { e with sent := true } :: rest }
      let popped (t : State) : State := afterDrain (t.modCore c fun k => { k with storeBuffer := k.storeBuffer.tail }) c
      (inSorus e.pa = true → (clockStopped s 24 = true → exec (.storeBufferDrain i) s = .next s) ∧
        (clockStopped s 24 = false → exec (.storeBufferDrain i) s = .next (popped (deviceStore s c e none)))) ∧
      (isDevice e.type = true → inSorus e.pa = false → (e.low = false ∨ inAperture e.pa = false ∨ rest = []) →
        exec (.storeBufferDrain i) s = .next (popped (deviceStore s c e none))) ∧
      (∀ e' rest', isDevice e.type = true → inSorus e.pa = false → e.low = true → inAperture e.pa = true → rest = e' :: rest' →
        exec (.storeBufferDrain i) s = .next (popped ((deviceStore s c e (some e')).modCore c fun k =>
          { k with storeBuffer := k.storeBuffer.tail }))) ∧
      (e.type = .uncached → inSorus e.pa = false → lineEvicting s i l = false → exec (.storeBufferDrain i) s = .next sent) ∧
      (e.type = .uncached → inSorus e.pa = false → lineEvicting s i l = true → exec (.storeBufferDrain i) s = .next s) ∧
      (isDevice e.type = false → inSorus e.pa = false → e.type ≠ .uncached → lineOwned s i l = false →
        exec (.storeBufferDrain i) s = .next (drainMiss s c l)) ∧
      (e.type = .writeThrough → inSorus e.pa = false → lineOwned s i l = true → exec (.storeBufferDrain i) s = .next sent) ∧
      (isDevice e.type = false → inSorus e.pa = false → e.type ≠ .uncached → e.type ≠ .writeThrough → lineOwned s i l = true →
        exec (.storeBufferDrain i) s = .next (popped (cacheStore s i e.pa e.data e.mask)))) ∧
    (∀ (n : Fin 48) e, (s.sorusCtl.writeBacks.find? fun e => keyBank e.1 = n.val) = some e →
      (clockStopped s 24 = false → exec (.sorusWriteBack n) s = .next (sorusPut s e.1 e.2)) ∧
      (clockStopped s 24 = true → exec (.sorusWriteBack n) s = .next s))

/-- A tick that is due performs its actions and sets the time of the next one. A frame start makes back and published
outputs equal to the front ones and starts every joined core at FENTRY with its status, return stack and loop count
set; a held or checkstopped one keeps its registers. A group that enters the safe state drives its safe values, and
the Medulla core, if it runs, writes the record. A holdover leaves state joined. A lockstep mismatch stops the pair,
or parks it in init, and three in a row retire it. The bandwidth window and the counter record are written when due.
The sense writer writes its slot once per frame, a calibration ends after 64 ticks, four bad ticks set an input or DAC
fault, and a touch scan starts and ends as its configuration says. (spec/01_architecture.md R36, R38, R39,
spec/12_frond_tick.md R463, R464, R471, R481, R484, R488, R489, R491, spec/14_bellaos_ring.md R553,
spec/20_counters.md R716, R718, R719, spec/15_sense_touch.md R577, R578, R580, R583, R588, R589, R591) -/
def Obligations.ClusterEvents : Prop :=
  ∀ s : State,
    (∀ raw, s.tick.running = true → s.tick.next ≤ s.now → s.timeCounts = true →
      let t := tickActions { s with tick := { s.tick with started := [] } } raw
      let t := { t with tick := { t.tick with mismatch := [] } }
      exec (.frameTick raw) s = .next (settleSyncs (if t.tick.next = s.tick.next then
        { t with tick := { t.tick with next := s.tick.next + t.tick.curNs } } else t))) ∧
    (tickUpdate s = assertEdge (regSet (regSet s aTickCount (nextTickCount s)) aTickLast s.tbl) 32 ∧
      (ringState s ≠ 3 → nextTickCount s = regGet s aTickCount + 1)) ∧
    (∀ g : Fin 4, s.tick.running = true → regGet s aTickCount ≠ 0 → s.tick.started.contains g.val = false →
      regF s (aGrpCfg g) 39 24 ≤ (s.tbl - regGet s aTickLast).toNat → ∃ t, exec (.frameStart g) s = .next t ∧
        t.tick.started = g.val :: s.tick.started ∧
        ∀ o ∈ t.outs, o.group = g.val → o.back = o.front ∧ o.published = o.front) ∧
    (∀ i, let k := s.core (frondId i)
      let k' := (beginFrame s i).core (frondId i)
      k'.frame.fendDone = false ∧ k'.frame.barriers = 0 ∧ k'.frame.stopped = false ∧
      ((k.run = .held ∨ k.run = .checkstopped) → k' = { k with frame := k'.frame }) ∧
      (k.run ≠ .held → k.run ≠ .checkstopped →
        k'.pc = k.fentry &&& 0x1FFFFFFFFF ∧ k'.status = w48 (fld k.fstat 11 0) ∧ k'.rsp = k.rslo ∧ fld k'.lctl 1 0 = 0 ∧
        k'.run = .running ∧ k'.fentry = k.fentry ∧ fld k'.fstat 47 36 = fld (regGet s aTickCount) 11 0 ∧
        (k.frame.resyncPending = false → k'.g = k.g ∧ k'.mul = k.mul) ∧
        (k.frame.resyncPending = true → k'.g = Core.reset.g ∧ k'.mul = Core.reset.mul))) ∧
    (∀ (g : Fin 4) (cause : Nat),
      (cause = 1 ∨ (3 ≤ cause ∧ cause ≤ 6) → exec (.safeStateEntry g cause) s = .next (safeGroup s g cause)) ∧
      (cause ≠ 1 → (cause < 3 ∨ 6 < cause) → exec (.safeStateEntry g cause) s = .next s) ∧
      (regB s (aGrpStat g) 5 = false → let t := assertEdge (setFronts (regSet s (aGrpStat g)
          (setBit (setFld (setBit (regGet s (aGrpStat g)) 5 true) 11 8 cause) 4 false)) g (·.safe)) (16 + g)
        ((s.core .medulla).run = .running → safeGroup s g cause = logFault t 0x11 g (16 + g) 0 (w48 cause)) ∧
        ((s.core .medulla).run ≠ .running → safeGroup s g cause = t))) ∧
    (ringState s = 4 → s.tick.running = true → s.ring.header = false → s.tick.next ≤ s.now + 40 →
      exec .tickHoldover s = .next (assertEdge (regFld (setRingState (modRing s fun r => { r with holdoverFrames := 0 }) 5)
        aTickStat 1 0 3) 33)) ∧
    (∀ p : Fin 8, let i := 2 * p.val
      let k := s.core (frondId i)
      isPair s p = true → k.run = .running → k.frame.fendDone = false → k.frame.stopped = false →
      let u := assertEdge (regAddSat (regAddSat s (aPairStat p) 23 8 1) (aPairStat p) 1 0 1) (20 + p)
      (frondState u i = 1 → exec (.lockstepMismatch p) s = .next ((setUnitState u i 0).modCore (frondId i) fun k =>
        { k with run := .parked, waiting := none, slot := none, frame := FrameState.reset })) ∧
      (frondState u i ≠ 1 → ∃ t, exec (.lockstepMismatch p) s = .next t ∧ let k' := t.core (frondId i)
        k'.frame.stopped = true ∧ k'.frame.resyncPending = true ∧ k'.waiting = none ∧
        ∀ g, groupOf u i = some g → t.tick.mismatch = g :: s.tick.mismatch)) ∧
    (∀ p : Fin 8, let i := 2 * p.val
      isPair s p = true → regF s (aPairStat p) 1 0 = 3 → regB s (aPairStat p) 2 = false →
      let u := regFld (setUnitState s i 3) (aPairStat p) 2 2 1
      let hold (u : State) (j : Nat) : State :=
        u.modCore (frondId j) fun k => { k with run := .held, waiting := none, slot := none }
      let u := hold (hold u i) (i + 1)
      let u := recordRetirement u ⟨7, p, 0, 0, 0, u.mdl.sfmt, 0⟩ 0 (20 + p)
      (∀ g, groupOf u i = some g → exec (.lockstepPairRetirement p) s = .next (safeGroup (openBarriers u) g 3))) ∧
    (s.cnt.windowEnd = none → exec .bandwidthWindowEnd s = .next s) ∧
    (unitRuns s 60 = false → exec .bandwidthWindowEnd s = .next s ∧ exec .counterRecordWrite s = .next s) ∧
    (∀ l, s.cnt.windowEnd = some l → unitRuns s 60 = true → ∃ t, exec .bandwidthWindowEnd s = .next t ∧ t.cnt.windowEnd = none ∧
      t.regs = ((upto 34).foldl (fun u p => regSet u (aPmcBw p) (w48 (l.getD p 0))) s).regs) ∧
    (s.cnt.record ≠ [] → unitRuns s 60 = true → let full := s.cnt.record ++ [w48 (crc32c s.cnt.record)]
      let a := s.cnt.recordAt
      let b : State := jobBegun s jobRecord
      (∀ s1 s2 s3, bridgePuts b (a + 8) (full.drop 8) = .done () s1 →
        bridgePuts s1 (a + 1) ((full.drop 1).take 7) = .done () s2 →
        bridgePut s2 a (full.getD 0 0) false none = .done () s3 →
        exec .counterRecordWrite s = .next { jobEnded s jobRecord s3 with cnt := { s3.cnt with record := [] } }) ∧
      (∀ s1, bridgePuts b (a + 8) (full.drop 8) = .held s1 → exec .counterRecordWrite s = .next (jobOpen s s1))) ∧
    (s.sense.unwritten = true → clockStopped s 24 = false →
      let t := sorusEngineWrites s .sense (slotBase s) (slotWords s)
      exec .senseWrite s = .next (retryFrond { t with sense := { t.sense with unwritten := false } })) ∧
    (s.sense.unwritten = false ∨ clockStopped s 24 = true → exec .senseWrite s = .next (retryFrond s)) ∧
    (∀ c : Fin 32, let x := s.sense.chans.getD c SenseChan.reset
      (x.calTicks = some 64 → frontRuns s (51 + c / 16) = true → exec (.offsetCalibrationEnd c) s = .next (modChan (regFld (regFld s (aSenseCal c) 47 24
        (uns 24 ((x.calSum + 32) / 64))) (aSenseCfg c) 36 36 0) c fun x => { x with calTicks := none, calSum := 0 })) ∧
      (x.calTicks ≠ some 64 → exec (.offsetCalibrationEnd c) s = .next s)) ∧
    (∀ c : Fin 32, s.sense.chans.length = 32 → frontRuns s (51 + c / 16) = true → let x := s.sense.chans.getD c SenseChan.reset
      (∃ t, exec (.inputFault c true) s = .next t ∧ let y := t.sense.chans.getD c SenseChan.reset
        (3 ≤ x.outCount → y.fault = true) ∧ (x.outCount < 3 → y.fault = x.fault) ∧ y.inCount = 0) ∧
      (∃ t, exec (.inputFault c false) s = .next t ∧ let y := t.sense.chans.getD c SenseChan.reset
        (3 ≤ x.inCount → y.fault = false) ∧ (x.inCount < 3 → y.fault = x.fault) ∧ y.outCount = 0)) ∧
    (∀ (d : Fin 8) (lim off : Bool) (i v : Nat), let x := s.sense.dacs.getD d DacState.reset
      s.tick.running = true → fld x.applied 47 46 ≠ 0 → clockStopped s (51 + d / 4) = false →
      let l := dacLimited x.applied lim i
      let o := dacAstray x.applied off v
      let st (f : Bool) : Word :=
        mk 47 47 f.toNat ||| mk 46 46 l.toNat ||| mk 39 32 (Nat.min i (fld x.applied 39 32)) ||| mk 12 0 (satN 13 v)
      let done (f : Bool) (u : State) : State := setLine (regSet u (aExcStat d) (st f)) (288 + d) f
      ((l = true ∨ o = true) → 3 ≤ x.bad → exec (.dacFault d lim off i v) s =
        .next (done true (modDac s d fun x => { x with bad := 4, ok := 0 }))) ∧
      ((l = true ∨ o = true) → x.bad < 3 → exec (.dacFault d lim off i v) s =
        .next (done (regB s (aExcStat d) 47) (modDac s d fun y => { y with bad := x.bad + 1, ok := 0 }))) ∧
      (l = false → o = false → 3 ≤ x.ok → exec (.dacFault d lim off i v) s =
        .next (done false (modDac s d fun x => { x with bad := 0, ok := 4 })))) ∧
    (∀ (cfg : Word) (b : Bool) (i v : Nat), let lim := fld cfg 39 32
      let set := fld cfg 12 0
      (lim < i → dacLimited cfg b i = true) ∧ (i < lim → dacLimited cfg b i = false) ∧
      (set + 25 < 50 * ((v - set) + (set - v)) → dacAstray cfg b v = true) ∧
      (50 * ((v - set) + (set - v)) + 25 < set → dacAstray cfg b v = false)) ∧
    (∀ (c : Fin 32) (out : Bool), frontRuns s (51 + c / 16) = false → exec (.inputFault c out) s = .next s) ∧
    (∀ (d : Fin 8) (lim off : Bool) (i v : Nat), s.tick.running = false → exec (.dacFault d lim off i v) s = .next s) ∧
    (s.tick.running = true → unitRuns s 53 = true → regGet s aTickCount ≠ 0 → regGet s aTickCount ≠ s.touch.lastTick →
      (regGet s aTickCount).toNat % fld s.touch.cfg 47 32 = 0 →
      let f := regF s aTouchStat 39 24
      let u : State := { s with touch := { s.touch with lastTick := regGet s aTickCount } }
      let began : State := regFld { u with touch := { u.touch with
        ctl := regGet s aTouchCtl, cfg := regGet s aTouchCfg, startTb := s.tbl, lastEn := true, fset := f
        freshTx := if s.touch.lastEn = true ∧ s.touch.baseline ≠ [] then changedTx s.touch.fset f else upto 48 } } aTouchStat 1 1 1
      (regB s aTouchStat 1 = true → exec .scanStart s = .next (regAddSat u aTouchStat 47 40 1)) ∧
      (regB s aTouchStat 1 = false → regB s aTouchCtl 47 = false →
        exec .scanStart s = .next { u with touch := { u.touch with lastEn := false } }) ∧
      (regB s aTouchStat 1 = false → regB s aTouchCtl 47 = true → regB s aTouchCtl 45 = true →
        exec .scanStart s = .next began) ∧
      (regB s aTouchStat 1 = false → regB s aTouchCtl 47 = true → regB s aTouchCtl 45 = false →
        let v := regFld { began with touch := { began.touch with filmClear := 0 } } aTouchStat 3 3 0
        exec .scanStart s = .next (setLine v 297 (regF v aTouchStat 3 2 ≠ 0)))) ∧
    (∀ meas rx tx noise, regB s aTouchStat 1 = true → frontRuns s 53 = true →
      scanSteps s * fld s.touch.cfg 31 23 * 1000 ≤ (s.tbl - s.touch.startTb).toNat →
      ∃ t, exec (.touchFrameWrite meas rx tx noise) s = .next t ∧ t.touch.scan = s.touch.scan + 1 ∧ t.touch.freshTx = [] ∧
        t.touch.baseline = nextBaseline s meas (scanResult s meas rx tx) (nextFilm s (scanResult s meas rx tx).film).1)

/-- A master emits both copies of its frame 8 ns after the tick. Of a copy that arrives the sections that come in time
are taken, and nothing where its lanes lie too far apart; one whose header is bad and was not sent again only passes
on with its bad sections stomped, one at a master is its own or a rival, any other is taken by a member. A section is
good under its own check, and never when stomped. The descrambler gives back what the scrambler took. At a LINK block
each live lane counts its sync errors and the parity bits that differ; then its retirements and its retransmission
request are served. A delay request is answered; a result that answers an open request enters the mean of the port.
Claims are forwarded, accepted or answered by the lower address. A late copy is counted, the map and the status word
of a completed area are written, a dead link wraps, and a trained one ends the wrap at the next tick; a node leaves
state 1 when its last port has trained. That a block received outside a frame counts in the port is the choice of the
model (log entry 183). (spec/14_bellaos_ring.md R530, R531, R535, spec/14_bellaos_ring.md R537, R541, R544, R545,
R546, R547, R548, spec/14_bellaos_ring.md R549, R550, R551, R554, R556, spec/14_bellaos_ring.md R557, R558, R559,
R560, R566) -/
def Obligations.RingEvents : Prop :=
  ∀ s : State,
    ((ringState s = 6 ∨ ringState s = 7) → s.sys.bypass = false → s.tick.running = true → s.ring.emitted = false →
      8 ≤ (s.tbl - regGet s aTickLast).toNat → let t := emitCopy (emitCopy s false) true
      exec .ringFrameEmit s = .next (modRing t fun r => { r with emitted := true, announced := r.handover.isSome })) ∧
    (∀ (d : Dir) (fr : RingFrame), let p := if d = .east then 1 else 0
      s.sys.bypass = false → 2 ≤ ringState s → linkUp s p = true → portHears s p = true →
      (liveLanes s p = 2 → 16 < fr.skew → received s p fr = none) ∧
      ((liveLanes s p ≠ 2 ∨ fr.skew ≤ 16) → (s.tick.running = false ∨ ringState s < 3 ∨
        s.now + blockNs fr * frameBlocks fr + 40 ≤ s.tick.next) → received s p fr = some fr) ∧
      (received s p fr = none → exec (.ringFrame d fr) s = .next s) ∧
      (∀ got, received s p fr = some got →
        let fits := fitsFrame s fr
        let u := bwAdd (noteBad s p got) (25 + 2 * p) (frameBlocks got)
        (headerIn got = none →
          exec (.ringFrame d fr) s = .next (forward (notePass u (decide (d = .west)) fits) p (stompAll got))) ∧
        (∀ h, headerIn got = some h →
          ((ringState u = 6 ∨ ringState u = 7) →
            exec (.ringFrame d fr) s = .next (if h.master = nodeNum u then ownCopy u p h fits else rivalCopy u p h)) ∧
          (ringState u < 6 → exec (.ringFrame d fr) s = .next (memberCopy u p h fits)) ∧
          (ringState u < 6 → s.ring.stuck = true → exec (.ringFrame d fr) s =
            .next (forward (statHeader (notePass u h.west fits) h) p (stompAll h)))))) ∧
    (∀ (n : Nat) (x : Section), sectionGood n (sealSection n x) = true ∧ sectionGood n (stompSection n x) = false ∧
      (sectionGood n x = true → stompBad n x = x) ∧
      (sectionGood n x = false → stompBad n x = stompSection n x)) ∧
    (∀ (st : BitVec 58) (w : Word), descramble st (scramble st w).1 = (w, (scramble st w).2)) ∧
    (∀ x : LaneIn, ((∀ b ∈ x.blocks, b.sync = 1) → x.bip = laneParity x.blocks → laneFaults x = 0) ∧
      (∀ b l, x.blocks = b :: l → (b.sync = 0 ∨ b.sync = 3) → 1 ≤ laneFaults x)) ∧
    (∀ (p : Fin 2) (l0 l1 : LaneIn) (nakv : Bool) (sec : Nat) (lret : BitVec 2), s.sys.bypass = false →
      linkUp s p = true → portHears s p = true →
      let u := if regB s (aRingPort p) 4 = true then laneErrors s p 0 (laneFaults l0) else s
      let u := if regB u (aRingPort p) 5 = true then laneErrors u p 1 (laneFaults l1) else u
      let u := if lret.getLsbD 0 = true then retireLane u p 0 else u
      let u := if lret.getLsbD 1 = true then retireLane u p 1 else u
      exec (.link p l0 l1 nakv sec lret) s = .next (if nakv = true then retransmit u p sec else u)) ∧
    (s.sys.bypass = false → ∀ (p : Fin 2) (sq : BitVec 16) (turn elapsed : Nat), portHears s p = true →
      exec (.dlyReq p sq turn) s = .next (sendBlock (hearBlock s p) p 0x12 (turn % 2 ^ 24) sq.toNat) ∧
      ((ringPort s p).dlyOpen.contains sq = false → exec (.dlyRsp p sq turn elapsed) s = .next s) ∧
      ((ringPort s p).dlyOpen.contains sq = true →
       let u := modRingPort (hearBlock s p) p fun x => { x with
         dlyOpen := x.dlyOpen.filter (· ≠ sq)
         delays := ((elapsed - turn) / 2 :: x.delays).take 16 }
       let l := (ringPort u p).delays
       ∃ up, up ≤ 1 ∧ (l.sum % l.length = 0 → up = 0) ∧
        ∃ t, exec (.dlyRsp p sq turn elapsed) s = .next t ∧ t.ring = u.ring ∧
          t.regs = (regFld u (aRingPort p) 47 24 (l.sum / l.length + up)).regs)) ∧
    (∀ (p : Fin 2) (node : Nat) (img : Bool), s.sys.bypass = false → 2 ≤ ringState s → portHears s p = true →
      let v := hearBlock s p
      let on (u : State) : State := if linkUp u (1 - p) then sendBlock u (1 - p) 0x21 node img.toNat else u
      (img = true → ringState s = 7 → exec (.claim p node img) s = .next (modRing v fun r => { r with handover := some node })) ∧
      (img = true → ringState s ≠ 7 → exec (.claim p node img) s = .next (on v)) ∧
      (img = false → electing s = false → exec (.claim p node img) s = .next (on v)) ∧
      (img = false → electing s = true → node < nodeNum s → exec (.claim p node img) s =
        .next (on (modRing v fun r => { r with lowerClaim := true, claims := 0 }))) ∧
      (img = false → electing s = true → nodeNum s ≤ node → exec (.claim p node img) s = .next v)) ∧
    (electing s = true → s.ring.claimed = false → s.ring.lowerClaim = false → exec .electionClaim s =
      .next (modRing (sendClaims s (nodeNum s) false) fun r => { r with claimed := true, claims := r.claims + 1 })) ∧
    (regB s aRingCfg 35 = true → ringState s = 4 → 16 ≤ s.ring.joinedFrames → regB s aRingStat 32 = true →
      exec .masterHandover s = .next (sendClaims s (nodeNum s) true)) ∧
    (2 ≤ ringState s → s.tick.running = true → s.tick.next ≤ s.now + 40 →
      (copyDue s false = true → s.ring.eastSeen = 0 → s.ring.lateEast = false →
        exec (.ringCopyLate .east) s = .next (ringCount (modRing s fun r => { r with lateEast := true }) 3 1)) ∧
      (copyDue s true = true → s.ring.westSeen = 0 → s.ring.lateWest = false →
        exec (.ringCopyLate .west) s = .next (ringCount (modRing s fun r => { r with lateWest := true }) 3 1))) ∧
    (∀ west, (ringState s ≠ 6 → ringState s ≠ 7 → copyDue s west = true) ∧
      ((∃ c ∈ s.ring.outFrames, c.frame.west = west) → copyDue s west = true)) ∧
    (s.ring.done = none → exec .ringRxAreaStatus s = .next (retryFrond s)) ∧
    (∀ d, s.ring.done = some d → exec .ringRxAreaStatus s = .next (retryFrond (modRing
      (sorusEngineWrites s .ring (d.base + 0x2000 * fld d.tick 0 0 + d.values) (areaTail d)) fun r => { r with done := none }))) ∧
    (∀ p : Fin 2, (linkUp s p = true → exec (.linkDown p) s = .next (dropLink s p)) ∧
      (linkUp s p = false → exec (.linkDown p) s = .next s)) ∧
    (∀ (p : Fin 2) (lanes : BitVec 2), s.sys.bypass = false → ringState s ≠ 0 → portHears s p = true → portSends s p = true →
      let en := regF s aRingCfg (31 + 2 * p) (30 + 2 * p)
      let ret := regF s (aRingPort p) 3 2
      (lanes = 3 → en = 3 → ret = 0 → 2 ≤ ringState s → ∃ t, exec (.linkTraining p lanes) s = .next t ∧
        t.regs = (regFld (regFld (regFld (regFld s (aRingPort p) 5 4 3) (aRingPort p) 1 0 3) (aRingPort p) 7 7 1)
          (aRingPort p) 6 6 1).regs) ∧
      (lanes = 0 → 2 ≤ ringState s → ∃ t, exec (.linkTraining p lanes) s = .next t ∧
        t.regs = (regFld (regFld (regFld (regFld s (aRingPort p) 5 4 0) (aRingPort p) 1 0 0) (aRingPort p) 7 7 0)
          (aRingPort p) 6 6 1).regs) ∧
      (ringState s = 1 → Memory.wf s = true → s.ring.ports.length = 2 → ∃ t, exec (.linkTraining p lanes) s = .next t ∧
        ((ringPort s (1 - p)).training = false → ringState t = 2) ∧
        ((ringPort s (1 - p)).training = true → ringState t = 1))) ∧
    (∀ p k : Fin 2, let n := (s.ring.laneHistory.filter fun e => e.1 = 2 * p.val + k.val && s.now ≤ e.2 + 1000000000).length
      (regF s aRingCtl 15 0 ≤ n → regB s (aRingPort p) (4 + k) = true →
        exec (.laneRetirement p k) s = .next (retireLane s p k)) ∧
      (n < regF s aRingCtl 15 0 → exec (.laneRetirement p k) s = .next s)) ∧
    (∀ p k : Fin 2, (regB s (aRingPort p) k = true →
        exec (.laneBlockLockLoss p k) s = .next (laneErrors (regFld s (aRingPort p) k k 0) p k 1)) ∧
      (regB s (aRingPort p) k = false → exec (.laneBlockLockLoss p k) s = .next s))

/-- While its domain runs, the pinna engine takes migration cells: they move a record word by word and hand an
instance over, with resends after four frames and an end after eight. A completed transfer ends its descriptor, and a
copy of the sense stream enters its queue. Frames and characters enter the queue or FIFO they fall under and leave
from it; an Ethernet frame leaves when its launch time, its gate and its shaper let it, a preemptable one in part
where its gate closes, and the rest later. Link changes, bus-off and recovery show in the registers, a gate cycle
takes a pending swap. PCIe, USB and display events set the registers, answers and interrupt lines that their rules
name. A DMA channel ends with its words moved, or with its error. The event lines of the Ethernet ports and the PCIe
link, the credit of the shaper, the error counters of CAN, PERST and HPD, and the pixels that an underrun misses are
the choices of the model (log entries 74, 75, 85, 86 and 105). (spec/16_virtual_io.md R601, R602, R605, R622, R624,
spec/17_io_display.md R632, R634, R635, R636, R639, R640, R642, spec/17_io_display.md R645, R646, R648, R649, R651,
R652, spec/17_io_display.md R656, R657, R661, spec/23_register_map.md R767, R768) -/
def Obligations.UnitEvents : Prop :=
  ∀ s : State,
    let drawn (u : State) : State := { u with free := u.free + 1 }
    (unitRuns s 59 = true →
      (∀ (node : Nat) (src dst : Fin 64) (off : Nat) (words : List Word), pinState s dst = 0 →
        regB s (aInstMig dst) 29 = true → regF s (aInstMig dst) 47 36 = node → regF s (aInstMig dst) 35 30 = src →
        off = (pinInst s dst).recvWords.length → regB s (aInstStat dst) 42 = false →
        let l := (pinInst s dst).recvWords ++ words
        recordPlace s (regF s (aInstSave dst) 35 0) (Nat.max (fld (l.getD 0 0) 15 0) l.length) = true →
        exec (.migrationData node src dst off words) s =
          .next (queueCell (pinnaJob (modInst s dst fun x => { x with recvWords := l }) dst) node 1
            [migWord 2 src dst l.length, w48 (fld (l.getD 1 0) 23 0)])) ∧
      (∀ (node : Nat) (src dst : Fin 64) (off : Nat), let x := pinInst s src
        regF s (aInstMig src) 47 36 = node → regF s (aInstMig src) 35 30 = dst → x.sendAcked < off → off ≤ x.sendBuf.length →
        exec (.migrationAck node src dst off) s = .next (modInst s src fun x => { x with
          sendAcked := off, sendFrames := 0, sendTries := 0, sendBuf := if off = x.sendBuf.length then [] else x.sendBuf })) ∧
      (∀ (node : Nat) (src dst : Fin 64) (epoch : Nat), let q := releaseInst s src epoch
        exec (.migrationClaim node src dst epoch) s =
          .next (queueCell q.2 node 1 [migWord (if q.1 then 4 else 5) src dst 0, w48 epoch]) ∧
        (claimOpen s node src dst epoch = true → let u := modInst s dst fun x => { x with claiming := false }
          exec (.migrationRelease node src dst epoch) s = .next (regFld u (aInstStat dst) 41 41 1) ∧
          exec (.migrationRefuse node src dst epoch) s = .next (setErr (setPinState u dst 0) dst 5))) ∧
      (∀ i : Fin 64, let x := pinInst s i
        (pinState s i = 3 → x.sendBuf ≠ [] → 4 ≤ x.sendFrames →
          (x.sendTries = 8 → exec (.migrationResendTimeout i) s =
            .next (setErr (setPinState (modInst s i fun x => { x with sendBuf := [] }) i 5) i 6)) ∧
          (x.sendTries ≠ 8 → exec (.migrationResendTimeout i) s = .next (sendFrom (modInst s i fun x =>
            { x with sendTries := x.sendTries + 1, sendFrames := 0 }) i))) ∧
        (x.claiming = true → pinState s i = 4 → 4 ≤ x.claimFrames →
          (x.claimTries = 8 → exec (.claimTimeout i) s =
            .next (setErr (setPinState (modInst s i fun x => { x with claiming := false }) i 0) i 6)) ∧
          (x.claimTries ≠ 8 → exec (.claimTimeout i) s = .next (sendClaim (modInst s i fun x =>
            { x with claimTries := x.claimTries + 1, claimFrames := 0 }) i)))) ∧
      (∀ (q : Fin 256) (st : BitVec 8), let cut := s.io.ethCut.any fun k => k.q = q.val
        let ends (f : Flight) : Nat := if f.status ≠ 0 then f.status
          else if st.toNat = 7 ∧ unitDown s q = true then 7 else 0
        (cut = true → unitDown s q = false → exec (.descriptorCompletion q st) s = .next s) ∧
        (cut = false ∨ unitDown s q = true →
          (∀ at_ f l, (pinQ s q).ending = (at_, f) :: l → exec (.descriptorCompletion q st) s =
            .next (endEnded s q at_ f (ends f) f.bytes f.bytes.length).state) ∧
          (∀ f l, (pinQ s q).ending = [] → (pinQ s q).flights = f :: l → exec (.descriptorCompletion q st) s =
            .next (endFlight s q f (ends f) f.bytes f.bytes.length).state))) ∧
      (∀ q : Fin 256, qEn s q = true → qRx s q = true → qClass s q = 3 → (pinQ s q).copied = false →
        s.sense.unwritten = false → bit s.sense.ctl 47 = true → rxState (pinState s (qInst s q)) = true →
        ((qRuns s q = false ∨ qPosted s q = false) →
          exec (.senseStreamCopy q) s = .next (dropQ (modQ s q fun x => { x with copied := true }) q)) ∧
        (qRuns s q = true → qPosted s q = true → ∀ d s1 ws s2 n s3,
          readDesc (jobBegun s (jobStream q)) (qInst s q) q (pinQ s q).head = .done (d, 0) s1 → 108 ≤ fld (d.getD 1 0) 23 0 →
          let x := pinQ s1 q
          slotReads s1 (slotBase s1) 18 [] = .done (ws, 0) s2 →
          pinWrites s2 (qInst s q) q (d.getD 0 0 + w48 (18 * (pinQ s1 q).slots)) 108 0 ws = .done (0, n) s3 →
          x.slots + 1 ≠ fld (d.getD 1 0) 23 0 / 108 →
          exec (.senseStreamCopy q) s = .next (jobEnded s (jobStream q) (modQ s3 q fun y => { y with
            copied := true, slots := x.slots + 1
            firstTick := if x.slots = 0 then regGet s1 aTickCount else x.firstTick }))))) ∧
    (∀ (i : Fin 64), let x := pinInst s i
      let puts := bridgePuts (jobBegun s (jobLand i)) (regF s (aInstSave i) 35 0 + x.recvDone) (x.recvWords.drop x.recvDone)
      x.recvDone < x.recvWords.length → ∀ u,
      (puts = .held u → pinnaJob s i = jobOpen s u) ∧
      (puts = .done () u → let v := modInst u i fun y => { y with recvDone := x.recvWords.length }
        (x.recvWords.length < fld (x.recvWords.getD 0 0) 15 0 → pinnaJob s i = jobEnded s (jobLand i) v) ∧
        (fld (x.recvWords.getD 0 0) 15 0 ≤ x.recvWords.length →
          pinnaJob s i = jobEnded s (jobLand i) (regFld v (aInstStat i) 42 42 1)))) ∧
    (∀ (q : Nat) (f : Flight) (st n : Nat) (b : List Byte), let at_ := descAddr s q (pinQ s q).head
      let passes (u : State) (e : Nat) (irq : Bool) : Whole Unit := .done () (passHead (jobEnded s (jobQueue q) u) q f e irq)
      let puts (u : State) (d : List Word) (e : Nat) : Whole Nat :=
        pinPuts u f.inst q at_ [(3, mk 47 40 e ||| mk 23 0 n), (1, setBit (d.getD 1 0) 47 false)]
      ∀ d e u, descAt (jobBegun s (jobQueue q)) f.inst q at_ = .done (d, e) u →
        (e = 1 → endFlight s q f st b n = passes u 1 false) ∧
        (f.tx = true → e ≠ 1 → (e = 0 → f.aux = none) → let r := if e = 0 then st else e
          (∀ x v, puts u d r = .done x v →
            endFlight s q f st b n = passes v (if x = 0 then r else x) (bit (d.getD 1 0) 46)) ∧
          (∀ v, puts u d r = .held v → endFlight s q f st b n = .held (jobOpen s v)))) ∧
    (∀ p : Fin 2, let ctl := regGet s (aEth p 0)
      (∀ bytes, bit ctl 47 = true → bit ctl 41 = true → unitRuns s (41 + 2 * p) = true →
        let u := bwAdd (count s (58 + p) 0x71) (29 + 2 * p) (bytes.length + 4)
        let takes (q : Nat) : Bool := destMac bytes &&& regGet u (aQMask q) = regGet u (aQFilt q) &&& regGet u (aQMask q)
        (∀ ok, (ok = false ∨ fld ctl 13 0 < bytes.length + 4) →
          exec (.ethernetFrameReceive p bytes ok) s = .next (ethDrop u p)) ∧
        (bytes.length + 4 ≤ fld ctl 13 0 →
          (∀ q, rxQueue u 0 p takes = some q → exec (.ethernetFrameReceive p bytes true) s =
            .next (setLine (rxOffer u q bytes u.tbl) (129 + 4 * p) true)) ∧
          (rxQueue u 0 p takes = none → exec (.ethernetFrameReceive p bytes true) s = .next u))) ∧
      (∀ (q : Fin 256), bit ctl 47 = true → bit ctl 41 = true → qClass s q = 0 → qUnit s q = p → qRx s q = false →
        unitRuns s (40 + 2 * p) = true → unitRuns s 59 = true →
        (∀ k, cutOf s p = some k → k.q = q → let c := sendingClass s p q
          let goes := wireFree s p = true ∧ gateLets s p c k.rest.length = true
          (goes → exec (.ethernetFrameTransmit p q) s =
            .next (ethOutCut (dropCut s p) p q k.rest (gateCut s p c k.rest.length))) ∧
          (¬goes → exec (.ethernetFrameTransmit p q) s = .next s)) ∧
        (cutOf s p = none → qRuns s q = true → qPosted s q = true → ∀ d2 bytes u, txFetch s q = .done (d2, bytes, 0) u →
          cutOf u p = none → unitSending u 0 p = false →
          let c := ethClass u p bytes
          let pad := bytes ++ List.replicate (60 - bytes.length) 0
          let late : Bool := d2 ≠ 0 && launchPassed u d2 && decide (1000000 < (u.tbl - d2).toNat)
          let goes : Prop := late = true ∨ (gateLets u p c pad.length = true ∧ creditLets u p c = true)
          (launchPassed u d2 = false → exec (.ethernetFrameTransmit p q) s = .next u) ∧
          (launchPassed u d2 = true → ¬goes → exec (.ethernetFrameTransmit p q) s = .next (creditWait u p c)) ∧
          (launchPassed u d2 = true → goes →
            let z := if late = true then regAddSat u (aEth p 8) 47 0 1 else u
            let f : Flight := ⟨qInst z q, true, bytes, if d2 = 0 then none else some z.tbl, 0⟩
            let y := creditSend z p c pad.length
            let x := ethOutCut y p q pad (if late = true then none else gateCut y p c pad.length)
            exec (.ethernetFrameTransmit p q) s = .next (setLine
              (bwAdd (count (startFlight x q f) (58 + p) 0x70) (28 + 2 * p) (pad.length + 4)) (128 + 4 * p) true)))) ∧
      (∀ (c len : Nat), (preemptable s p c = false → gateCut s p c len = none) ∧
        (∀ n, gateOpen s p c = some n → frameNs s p len ≤ n → gateLets s p c len = true ∧ gateCut s p c len = none) ∧
        (∀ lo hi, gateCut s p c len = some (lo, hi) → 60 ≤ lo ∧ lo ≤ hi ∧ hi + 60 ≤ len) ∧
        (idleSlope s p c = 0 → creditLets s p c = true) ∧
        (idleSlope s p c ≠ 0 → creditNow s p c < 0 → creditLets s p c = false)) ∧
      (unitRuns s (40 + 2 * p) = true → regF s (aEth p 3) 31 0 ≠ 0 → cyclePos s p = some 0 → let u := setLine s (130 + 4 * p) true
        exec (.gateCycleStart p) s = .next (if u.io.swapPending.getD p false = true then
          { regFld u (aEth p 0) 42 42 (1 - regF u (aEth p 0) 42 42) with
            io := { u.io with swapPending := u.io.swapPending.set p false } } else u)) ∧
      (∀ d : BitVec 16, s.io.mdioBusy.getD p false = true → unitRuns s (40 + 2 * p) = true →
        funcPlaced s (0x30 + 2 * p) = true → funcPlaced s (0x31 + 2 * p) = true →
        let w := setBit (regGet s (aEth p 9)) 47 false
        exec (.mdioFrameComplete p d) s = .next { regSet s (aEth p 9) (setFld w 15 0 d.toNat) with
          io := { s.io with
            mdioBusy := s.io.mdioBusy.set p false
            mdioDue := s.io.mdioDue.set p false
            mdioLog := s.io.mdioLog ++ (if s.io.mdioDue.getD p false = true then [(p.val, w)] else []) } }) ∧
      (bit ctl 47 = true → unitRuns s (41 + 2 * p) = true → exec (.ethernetLinkChange p true) s = .next (regFld s (aEth p 0) 41 41 1)) ∧
      exec (.ethernetLinkChange p false) s = .next (failUnit (regFld s (aEth p 0) 41 41 0) 0 p)) ∧
    (∀ n : Fin 8, canLive s n = true →
      (∀ id ide fdf brs bytes q, bytes.length ≤ (if fdf then 64 else 8) → let w := canWord id ide false false
        (rxQueue s 2 n fun q => w &&& regGet s (aQMask q) = regGet s (aQFilt q) &&& regGet s (aQMask q)) = some q →
        let u := rxOffer s q bytes s.tbl
        exec (.canFrameReceive n id ide fdf brs bytes) s = .next (canErrors { u with io := { u.io with
          canOvf := u.io.canOvf.set n (!qRuns s q || !qPosted s q) } } n)) ∧
      (∀ x u, regB s (aCan n 0) 44 = false → unitSending s 2 n = false → unitRuns s 59 = true →
        canFirst s n none (upto 256) = .done x u →
        (x = none → exec (.canFrameTransmit n) s = .next u) ∧
        (∀ q d2 bytes, x = some (q, d2, bytes) → exec (.canFrameTransmit n) s = .next (canErrors (startFlight { u with io := { u.io with
          canTx := u.io.canTx ++ [(n.val, d2, bytes)] } } q ⟨qInst u q, true, bytes, none, 0⟩) n))) ∧
      (Memory.wf s = true → let t := canErrors s n
        regF t (aCan n 0) 41 40 = if 128 ≤ regF t (aCan n 0) 39 32 ∨ 128 ≤ regF t (aCan n 0) 31 24 then 1 else 0) ∧
      (∀ best qs y u, canFirst s n (some best) qs = .done (some y) u → fld y.2.1 28 0 ≤ fld best.2.1 28 0) ∧
      exec (.busOff n) s =
        .next (canLine (failUnit (regFld (regFld s (aCan n 0) 41 40 2) (aCan n 0) 39 32 0xFF) 2 n) n)) ∧
    (∀ n : Fin 8, regB s (aCan n 0) 46 = true → unitRuns s 54 = true → regF s (aCan n 0) 41 40 = 2 → exec (.busOffRecovery n) s =
      .next (canLine (regFld (regFld (regFld s (aCan n 0) 41 40 0) (aCan n 0) 39 32 0) (aCan n 0) 31 24 0) n)) ∧
    (∀ n : Fin 4, uartLive s n = true →
      (∀ ch err, (regB s (aUart n 0) 41 = true ∨ uartTx s n = []) →
        exec (.uartCharacterReceive n ch err) s = .next (uartReceive s n ch err)) ∧
      (∀ ch err, regB s (aUart n 0) 41 = false → uartTx s n ≠ [] → exec (.uartCharacterReceive n ch err) s = .next s) ∧
      (∀ c l, uartTx s n = c :: l → let u := setTx s n l
        let u := { u with io := { u.io with uartLine := u.io.uartLine.set n (u.io.uartLine.getD n [] ++ [uartBits u n c]) } }
        exec (.uartCharacterTransmit n) s =
          .next (uartDma (if regB u (aUart n 0) 41 then uartReceive u n c false else u) n))) ∧
    (∀ width gen, let ctl := regGet s (aPcie 0)
      (pcieRuns s = true → bit ctl 47 = true → bit ctl 41 = true → (width = 1 ∨ width = 2 ∨ width = 4) → width ≤ 2 ^ fld ctl 45 44 →
        gen ≤ fld ctl 43 42 → ∃ w : Word, let u := drawn s
        let u := regFld (regFld (regFld u (aPcie 0) 41 41 1) (aPcie 0) 40 38 width) (aPcie 0) 37 36 gen
        let u := regFld (regFld u (aPcie 0) 29 24 w.toNat) (aPcie 0) 35 35 0
        exec (.pcieLinkChange true width gen) s = .next (if bit w 6 = true then regFld u (aPcie 1) 45 45 1 else u)) ∧
      (bit ctl 47 = false → ∃ b : Bool, exec (.pcieLinkChange false width gen) s = .next (pciePerst (pcieDown (drawn s)) b)) ∧
      (∀ b, (regB s (aPcie 0) 46 = true ∨ funcPlaced s 0x38 = false) → pciePerst s b = regFld s (aPcie 0) 35 35 0)) ∧
    (∀ bar addr len bytes, regB s (aPcie 0) 41 = true → pcieRuns s = true →
      let root := regB s (aPcie 0) 46
      let u (n : Nat) : State := setLine (bwAdd (count s 60 0x80) 32 n) (if root then 149 else 148) true
      (1 ≤ len → len ≤ 4096 → let u := u 0
        (∀ base b, root = true → rpInFind u addr len = some (base, b) →
          exec (.pcieInboundRequest bar addr false len bytes) s = .next (winRequest u base b false len bytes)) ∧
        (root = true → rpInFind u addr len = none →
          exec (.pcieInboundRequest bar addr false len bytes) s = .next (pcieUr u addr false true)) ∧
        (root = false → bar = false → addr + len ≤ 65536 →
          let r := bar0Slots u (addr / 8) ((addr + len + 7) / 8 - addr / 8)
          exec (.pcieInboundRequest bar addr false len bytes) s =
            .next (pcieAnswer r.2 ((r.1.drop (addr % 8)).take len) 0))) ∧
      (1 ≤ bytes.length → bytes.length ≤ 512 → ∀ base b, root = true →
        rpInFind (u bytes.length) addr bytes.length = some (base, b) →
        exec (.pcieInboundRequest bar addr true len bytes) s =
          .next (winRequest (u bytes.length) base b true bytes.length bytes)) ∧
      (512 < bytes.length → exec (.pcieInboundRequest bar addr true len bytes) s = .next s)) ∧
    (∀ n : Nat, n < 0x1000 → bit s.struct.image.sec0 1 = true → regInfo (aMbx 1 n) ≠ none →
      let r := regRead s .pcieHost (aMbx 1 n)
      bar0Slot s n = (unpackBytes [r.1] 6 ++ [0, 0], r.2)) ∧
    (∀ base b len bytes, s.io.pcieIn = [] → pcieRuns s = true → let r : InboundReq := ⟨base, b, false, len, bytes⟩
      let u : State := { s with io := { s.io with pcieIn := [r] } }
      (∀ l bad v, winRead (jobBegun u jobPcie) base b len = .done (l, bad) v →
        let w := jobEnded u jobPcie (pcieAnswer v l (if bad then 1 else 0))
        winRequest s base b false len bytes = { w with io := { w.io with pcieIn := [] } }) ∧
      (∀ v, winRead (jobBegun u jobPcie) base b len = .held v → winRequest s base b false len bytes = jobOpen u v)) ∧
    (∀ c d0 d1, apertureWaits s c = true → let u := count s 60 0x80
      exec (.pcieApertureCompletion c d0 d1 false) s = .next (apertureDone u c [d0, d1]) ∧
      exec (.pcieApertureCompletion c d0 d1 true) s = .next (apertureDone (apertureError u) c [0, 0]) ∧
      exec (.pcieApertureTimeout c) s = .next (apertureDone (apertureError s) c [0, 0])) ∧
    (∀ (cpl : BitVec 3) (d : BitVec 32), pcieRuns s = true → regB s (aPcie 0x41) 47 = true → cpl.toNat ≤ 4 →
      let u := regFld (regFld s (aPcie 0x41) 47 47 0) (aPcie 0x41) 46 44 cpl.toNat
      exec (.configCompletion cpl d) s =
        .next (if s.io.cfgRead = true ∧ cpl = 0 then regFld u (aPcie 0x41) 31 0 d.toNat else u)) ∧
    (usbLive s = true →
      (∀ bytes, bytes.length = 8 → let u := regSet s (aUsb 3) ((packBytes (bytes.take 6)).getD 0 0)
        let u := regSet u (aUsb 4) ((packBytes (bytes.drop 6)).getD 0 0)
        exec (.usbSetup bytes) s =
          .next (usbLines (regFld (regFld (regFld u (aUsbEp 0 0) 44 44 0) (aUsbEp 1 0) 44 44 0) (aUsb 1) 42 42 1))) ∧
      exec .usbBusReset s = .next (usbLines (usbFailAll (regFld s (aUsb 1) 44 44 1))) ∧
      (∀ vbus (speed : BitVec 2) susp, speed.toNat ≤ 2 → clockStopped s 47 = false →
        let v := vbus && funcPlaced s 0x3C
        let u := regFld (regFld s (aUsb 1) 47 47 v.toNat) (aUsb 1) 43 43 susp.toNat
        exec (.usbLinkChange vbus speed susp) s = .next (usbLines (usbSpeed
          (if regB s (aUsb 1) 47 ≠ v then regFld u (aUsb 1) 41 41 1 else u)
          (Nat.min speed.toNat (if regB s (aUsb 0) 46 = true then 2 else 1)))))) ∧
    (∀ n : Nat, (regF s (aUsb 1) 46 45 = n → usbSpeed s n = s) ∧
      (regF s (aUsb 1) 46 45 ≠ n → let u := regFld (regFld s (aUsb 1) 46 45 n) (aUsb 1) 41 41 1
        usbSpeed s n = if n = 0 then usbFailAll u else u)) ∧
    (∀ (e : Fin 18) bytes, s.io.usbFail.contains e.val = false →
      let ready := regB s (aUsb 0) 47 = true ∧ unitRuns s 47 = true ∧ usbPosted s e = true
      (ready → exec (.usbDescriptorCompletion e bytes 7) s = .next (runJob s (jobUsb e) fun u => usbWork u e bytes true)) ∧
      (ready → usbLive s = true → regB s (aUsbEp e 0) 44 = false → exec (.usbDescriptorCompletion e bytes 0) s =
        .next (runJob s (jobUsb e) fun u => usbWork u e bytes false)) ∧
      (¬ready → ∀ st, exec (.usbDescriptorCompletion e bytes st) s = .next s)) ∧
    (∀ (e : Fin 18) bytes, let ring := regF s (aUsbEp e 1) 35 0 + 4 * (regF s (aUsbEp e 3) 15 0 % 2 ^ regF s (aUsbEp e 1) 47 44)
      let pass (u : State) : State := { u with io := { u.io with usbFail := u.io.usbFail.filter (· ≠ e.val) } }
      (usbPlace s ring 4 = false → ∀ fails, usbWork s e bytes fails = .done () (pass (usbPass s e 1 false))) ∧
      (usbPlace s ring 4 = true → ∀ d0 d1 u, bridgeWords s ring 2 = .done [(d0, 0), (d1, 0)] u →
        (∀ v, usbFinish u e ring d1 7 0 = .done () v → usbWork s e bytes true = .done () (pass v)) ∧
        (∀ st n out v w, usbMove u e d0 (fld d1 23 0) bytes = .done (st, n, out) v → usbFinish v e ring d1 st n = .done () w →
          (out = none → usbWork s e bytes false = .done () w) ∧
          (∀ l, out = some l → usbWork s e bytes false =
            .done () { w with io := { w.io with epSent := w.io.epSent ++ usbPackets w e d1 l } })))) ∧
    (∀ (e : Fin 18) d1 l, (usbPackets s e d1 l).flatMap (·.2) = l ∧
      ∀ x ∈ usbPackets s e d1 l, x.1 = e ∧ x.2.length ≤ Nat.max 1 (regF s (aUsbEp e 0) 26 16)) ∧
    (∀ (e : Fin 18) d0 n bytes,
      (e.val % 2 = 1 → usbMove s e d0 0 bytes = .done (4, 0, none) s) ∧
      (e.val % 2 = 0 → usbMove s e d0 0 bytes = .done (0, 0, some []) s) ∧
      (n ≠ 0 → (2 ^ 36 ≤ d0.toNat ∨ usbPlace s d0.toNat ((n + 5) / 6) = false) →
        usbMove s e d0 n bytes = .done (1, 0, none) s)) ∧
    (∀ o : Fin 2,
      (dispRuns s o = true → let u := scanStart s o
        let u := if s.disp.xferDue.getD o false = true then sendXfer u o else u
        (unitRuns s 50 = false → exec (.verticalBlank o) s = .next (assertEdge u (298 + o))) ∧
        (unitRuns s 50 = true → s.disp.commitPending.getD o false = false →
          exec (.verticalBlank o) s = .next (assertEdge (toneStep u o) (298 + o))) ∧
        (unitRuns s 50 = true → s.disp.commitPending.getD o false = true →
          let sh := (commitSet u o).foldl (fun l a => swrite regReset l a (committed u a)) u.disp.shown
          exec (.verticalBlank o) s = .next (assertEdge (toneStep { u with disp := { u.disp with
            shown := sh, commitPending := u.disp.commitPending.set o false } } o) (298 + o))) ∧
        ∃ w : Word, exec (.underrun o) s = .next (assertEdge (regAddSat { drawn s with disp := { s.disp with
          missing := s.disp.missing ++ [(o.val, outLine s o, w)] } } (aDisp 0) 47 24 1) 300)) ∧
      (dispRuns s o = false → exec (.verticalBlank o) s = .next s ∧ exec (.underrun o) s = .next s) ∧
      (∀ p x y under, (activeAt s o x y = false → planeOver s o p x y under = under) ∧
        (pixelMissing s o p x y = true → planeOver s o p x y under = under ∨ planeOver s o p x y under = background s o)) ∧
      (let a := aDispOut o 4
       let hpd (u : State) (b : Bool) : State := regFld u a 47 47 (b && funcPlaced u (0x40 + o)).toNat
       regF s a 45 44 = 1 → unitRuns s (48 + o) = true →
        exec (.edpLinkTraining o true) s = .next (scanStart (regFld (regFld (hpd s true) a 45 44 2) a 46 46 1) o) ∧
        ∃ b, exec (.edpLinkTraining o false) s = .next (regFld (hpd (drawn s) b) a 45 44 3)) ∧
      (∀ (result : BitVec 3) w0 w1 w2, let a := aDispOut o 5
        let u := if regB s a 42 = true then s else hpdAfter s o (decide (result.toNat ≤ 2))
        (s.disp.xferDue.getD o false = true → exec (.xferComplete o result [w0, w1, w2]) s = .next s) ∧
        (s.disp.xferDue.getD o false = false → regB s a 46 = true → result.toNat ≤ 4 → unitRuns s (48 + o) = true →
          exec (.xferComplete o result [w0, w1, w2]) s =
            .next (regSet (regSet (regSet (regFld (regFld u a 46 46 0) a 45 43 result.toNat) (aDispOut o 6) w0)
              (aDispOut o 7) w1) (aDispOut o 8) w2)))) ∧
    (∀ n : Fin 8, let c := dmaChan s n
      (regB s (aDma n 3) 47 = false → exec (.dmaChannelEnd n) s = .next s) ∧
      (regB s (aDma n 3) 47 = true → unitRuns s 63 = true →
        (c.err ≠ 0 → exec (.dmaChannelEnd n) s = .next (dmaEnd s n c.err)) ∧
        (c.err = 0 → c.paced = true → c.words ≤ dmaMoved s n → exec (.dmaChannelEnd n) s = .next (dmaEnd s n 0)) ∧
        (c.err = 0 → c.paced = false → ∀ e u, dmaMove s n (c.words - dmaMoved s n) = .done e u →
          exec (.dmaChannelEnd n) s = .next (dmaEnd u n e))))

/-- A participant that can agree is marked and the vote completes with the last one; a refusal or a silent participant
ends it. A waking domain runs again and, as a participant, ends the vote. A wake source in Quiescent is noted and ends
it. Thermal readings show in THERM_STAT and 125 °C is module fault 9. A clock fault of a domain resets its cores and
holds them. Power-up clears the time base and starts a reset of cause 1; a supply dip turns the module off; RESET_N,
the debug reset and the return of the reference start a reset with their cause; the reset runs the start-up stages,
and the release starts core 0 and the tick. (spec/18_power.md R665, R666, R667, R668, R672, R673, R674, R677,
spec/22_package_electrical.md R751, R752, R753, R756, spec/01_architecture.md R57, R58, R59, R60,
spec/21_startup_faults.md R726, R729, R732, R733, R735, R738) -/
def Obligations.PowerAndStartEvents : Prop :=
  ∀ s : State,
    (∀ d : Fin 64, regF s aPwrVote 43 42 = 1 → s.power.participants.contains d.val = true →
      s.power.agreed.contains d.val = false →
      (canAgree s d = true → (d.val = 59 → pinnaBusy s = false) → s.power.force = false → s.power.quiescentVote = false → goalOf s d ≠ 2 →
        ∃ t u, exec (.agree d) s = .next t ∧ t = settleVote u ∧ u.power.agreed = d.val :: s.power.agreed ∧
          u.regs = (regFld (regAddSat s aPwrVote 15 0 0) (aPwrPolicy d) 45 45 1).regs) ∧
      (∀ reason, refusesFor s d reason = true → exec (.refuse d reason) s = .next (refuseVote s d reason)) ∧
      (s.power.voteTb + regF s aPwrCtl 15 0 * 1000 ≤ s.now → exec (.voteAnswerTimeout d) s = .next (refuseVote s d 5))) ∧
    (∀ d : Fin 64, s.power.quiescent = false → (domState s d = 1 ∨ domState s d = 2) → wakeInterrupt s d = true →
      exec (.dormantWake d) s = .next (wakeDomain (if (regF s aPwrVote 43 42 = 1 ∨ regF s aPwrVote 43 42 = 2) ∧
        d.val ∈ s.power.participants then refuseVote s d 4 else s) d)) ∧
    (∀ (b : Fin 12) (node : Nat), let named := b.val = 11 → node = nodeNum s ∨ node = 0xFFF
      (regB s aPwrWakeCfg (36 + b) = false ∨ wakePadded s b = false ∨ ¬named → exec (.wakeSource ⟨b, node⟩) s = .next s) ∧
      (regB s aPwrWakeCfg (36 + b) = true → wakePadded s b = true → named →
      (s.power.quiescent = true → exec (.wakeSource ⟨b, node⟩) s = .next { regFld s aPwrWakeStat (36 + b) (36 + b) 1 with
        power := { s.power with wakePending := true } }) ∧
      (s.power.quiescent = false → regF s aPwrVote 43 42 = 0 → exec (.wakeSource ⟨b, node⟩) s =
        .next ((wakeDomains b).foldl (fun u d => if domState u d = 2 then wakeDomain u d else u) s)) ∧
      (∀ d, s.power.quiescent = false → regF s aPwrVote 43 42 = 1 →
        (wakeDomains b).find? (fun d => s.power.participants.contains d) = some d → exec (.wakeSource ⟨b, node⟩) s =
        .next ((wakeDomains b).foldl (fun u d => if domState u d = 2 then wakeDomain u d else u) (refuseVote s d 4))))) ∧
    (∀ sums, s.power.quiescent = true → regB s aPwrWakeCfg 44 = true → regB s aTouchCtl 47 = false →
      (s.power.touchSums = none →
        exec (.touchWakeScan sums) s = .next { s with power := { s.power with touchRef := s.ref, touchSums := some sums } }) ∧
      (∀ old, s.power.touchSums = some old → s.ref < s.power.touchRef + regF s aPwrWakeCfg 35 26 * 1000000 →
        exec (.touchWakeScan sums) s = .next s) ∧
      (∀ old, s.power.touchSums = some old → s.power.touchRef + regF s aPwrWakeCfg 35 26 * 1000000 ≤ s.ref →
        (∃ p ∈ old.zip sums, p.1 + regF s aPwrWakeCfg 15 0 < p.2 ∨
          p.2 + regF s aPwrWakeCfg 15 0 < p.1) → exec (.touchWakeScan sums) s =
        .next { regFld s aPwrWakeStat 44 44 1 with power := { s.power with touchRef := s.ref, wakePending := true } })) ∧
    (s.power.quiescent = true → s.power.wakePending = true →
      (∀ (late : Bool) train, ∃ t, exec (.quiescentExit late train) s = .next t ∧
        t.tb = s.tb + BitVec.ofNat 96 (40 * ((s.ref - s.power.enteredTb) / 40 + late.toNat))) ∧
      (∀ late, ∃ t, exec (.quiescentExit late []) s = .next t ∧ t.power.quiescent = false ∧ t.power.wakePending = false ∧
        (s.sys.mode = .running → (regB s aRingCfg 34 = false ∨ regB s aRingCfg 35 = true) → t.tick.running = true))) ∧
    (s.power.quiescent = false ∨ s.power.wakePending = false → ∀ late train, exec (.quiescentExit late train) s = .next s) ∧
    (∀ die dram, s.sys.mode ≠ .off →
      (maxReading die < 480 → maxReading die < regF s aThermCfg 11 0 - 8 → ∃ t, exec (.thermalMonitorRead die dram) s = .next t ∧
        t.sys = s.sys ∧ t.mdl.flog = s.mdl.flog) ∧
      (500 ≤ maxReading die → regB s aThermStat 3 = false →
        ∃ u, exec (.thermalMonitorRead die dram) s = .next (moduleFault u 9) ∧ u.sys = { s.sys with thermN := true })) ∧
    (∀ d : Fin 64, (s.sys.mode = .running ∨ s.sys.mode = .started) → s.sys.held.contains d.val = false →
      domainEnabled s d = true →
      (d.val = 57 → exec (.clockFault d) s = .next (settleSyncs (moduleFault s 6))) ∧
      (s.power.quiescent = false → let u := assertEdge (logFault s 0x0B d 239 0 0) 239
        (d.val = 56 → exec (.clockFault d) s =
          .next (settleSyncs (moduleFault { u with sys := { u.sys with held := d.val :: u.sys.held } } 1))) ∧
        (d.val ≠ 57 → d.val ≠ 56 → ∃ t, exec (.clockFault d) s = .next t ∧ t.sys.held = d.val :: s.sys.held ∧
          domState t d = 3 ∧ ∀ c ∈ domainCores s d, (t.core c).run = .held ∧ ∀ e ∈ t.coh.caches, e.agent ≠ coreNum c))) ∧
    (s.sys.mode = .off → ∃ t, exec .powerUp s = .next t ∧ t.tb = 0 ∧ t.sys.mode = .inReset 1) ∧
    (∀ ns, 2000 < ns → ∃ t, exec (.supplyDip ns) s = .next t ∧ t.sys.mode = .off ∧ t.sys.bypass = true) ∧
    (∀ ns, ns ≤ 2000 → exec (.supplyDip ns) s = .next s) ∧
    (∀ ns, 1000 ≤ ns → s.sys.mode ≠ .off → s.sys.mode ≠ .refLost → tripped s = false →
      exec (.resetN ns) s = .next (enterReset s 2 0)) ∧
    (debugServed s = true → tripped s = false → exec .debugReset s = .next (enterReset s 7 0)) ∧
    (∀ ms, s.sys.mode = .refLost → 10 ≤ ms → exec (.referenceClockReturn ms) s = .next (enterReset s 8 6)) ∧
    (∀ cause fault, (enterReset s cause fault).sys.mode = .inReset cause ∧ (enterReset s cause fault).sys.bypass = true ∧
      (enterReset s cause fault).tick.running = false ∧
      ∀ c, c ≠ .medulla → ((enterReset s cause fault).core c).run = .held) ∧
    (∀ cause inp, s.sys.mode = .inReset cause →
      exec (.moduleReset cause inp) s = .next (runStages cause inp 0 [1, 2, 3, 4, 5, 6, 7, 8] (resetBlocks s cause)) ∧
      (∀ stage, 1 ≤ stage → stage ≤ 8 → exec (.stageTimeout stage) s =
        .next (runStages cause ⟨[], [], ⟨[], []⟩⟩ stage [1, 2, 3, 4, 5, 6, 7, 8] (resetBlocks s cause)))) ∧
    (s.sys.mode = .started → ∃ t, exec .clusterRelease s = .next t ∧ t.sys.mode = .running ∧
      (domainEnabled s 0 = true → (t.core (.app 0)).run = .running ∧ (t.core (.app 0)).g = Core.reset.g) ∧
      (s.sys.recovery = false → t.tick.running = true ∧
        (domainEnabled s 0 = true → (t.core (.app 0)).pc = s.sys.loaderEntry)))

/-- The Medulla core serves the port whose turn it is: a repeated SEQ gets the stored result again, too low a level
STATUS 4, and each operation its answer. INFO, LOG_READ and RETIRE_LIST change nothing but the result. UPD_BEGIN with
a session open, ACTIVATE of an image that is not verified, or whose record cannot be written, and CONFIRM without a
trial have their STATUS and change nothing. UPD_ABORT ends the session. RESET copies the logs and starts a reset of
cause 3. A result that is not released, and, while the Medulla core acts, a session without commands, time out.
(spec/19_medulla_update.md R690, R693, R694, R695, R696, R697, spec/19_medulla_update.md R698, R699, R700, R702, R705,
spec/19_medulla_update.md R772, R773) -/
def Obligations.MailboxEvents : Prop :=
  ∀ (s : State) (p : Fin 3) (nor : NorReads) (err : Bool),
    (let x := port s p
      let u := { s with mdl := { s.mdl with nextPort := (p.val + 1) % 3 } }
      let turn (op lvl : Nat) : Prop := turnPort s = some p.val ∧ fld x.cmd 39 32 = op ∧
        x.lastSeq ≠ some (fld x.cmd 47 40) ∧ lvl ≤ x.level ∧ reducedMailbox s = false
      (turn 1 1 → exec (.info p) s = .next (answer u p (opInfo u))) ∧
      (turn 2 2 → exec (.updBegin ⟨p, err⟩) s = .next (answer (opBegin u p err).2 p (opBegin u p err).1)) ∧
      (turn 3 2 → exec (.updBlock ⟨p, err⟩) s = .next (answer (opBlock u p err).2 p (opBlock u p err).1)) ∧
      (turn 4 2 → exec (.updEnd ⟨p, nor, err⟩) s = .next (answer (opEnd u p nor err).2 p (opEnd u p nor err).1)) ∧
      (turn 5 2 → exec (.updAbort p) s = .next (answer (opAbort u p).2 p (opAbort u p).1)) ∧
      (turn 6 2 → exec (.activate ⟨p, err⟩) s = .next (answer (opActivate u p err).2 p (opActivate u p err).1)) ∧
      (turn 7 2 → exec (.confirm ⟨p, err⟩) s = .next (answer (opConfirm u p err).2 p (opConfirm u p err).1)) ∧
      (turn 9 1 → exec (.logRead p) s = .next (answer u p (opLogRead u p))) ∧
      (turn 10 2 → exec (.retireReport ⟨p, err⟩) s = .next (answer (opRetireReport u p err).2 p (opRetireReport u p err).1)) ∧
      (turn 11 1 → exec (.retireList p) s = .next (answer u p (opRetireList u p))) ∧
      (turn 12 3 → exec (.retireClear ⟨p, err⟩) s = .next (answer (opRetireClear u p err).2 p (opRetireClear u p err).1)) ∧
      (turn 13 2 → exec (.userWrite ⟨p, err⟩) s = .next (answer (opUserWrite u p err).2 p (opUserWrite u p err).1)) ∧
      (turn 8 3 → exec (.reset p) s = .next (opReset u p) ∧ (tripped s = false → (opReset u p).sys.mode = .inReset 3 ∧
        (opReset u p).mdl.norVlog = s.mdl.vlog ∧ (opReset u p).mdl.norFlog = s.mdl.flog)) ∧
      (turnPort s = some p.val → fld x.cmd 39 32 = 1 → x.lastSeq = some (fld x.cmd 47 40) →
        exec (.info p) s = .next (postStored u p)) ∧
      (turnPort s = some p.val → fld x.cmd 39 32 = 2 → x.lastSeq ≠ some (fld x.cmd 47 40) → x.level < 2 →
        reducedMailbox s = false → exec (.updBegin ⟨p, err⟩) s = .next (answer u p (plainAnswer 4)))) ∧
    (s.mdl.session ≠ none → opBegin s p err = (plainAnswer 3, s) ∧ opActivate s p err = (plainAnswer 3, s) ∧
      opConfirm s p err = (plainAnswer 3, s)) ∧
    (∀ y, s.mdl.session = some y →
      (y.port = p.val → opAbort s p = (plainAnswer 0, endSession s)) ∧
      (y.port ≠ p.val → opAbort s p = (plainAnswer 3, s) ∧ opBlock s p err = (plainAnswer 3, s) ∧
        opEnd s p nor err = (plainAnswer 3, s))) ∧
    (s.mdl.session = none → (arg s p 0).toNat ≤ 1 →
      (s.mdl.verified.contains (arg s p 0).toNat = false → opActivate s p err = (plainAnswer 9, s)) ∧
      (s.mdl.verified.contains (arg s p 0).toNat = true → opActivate s p true = (plainAnswer 10, s)) ∧
      (regB s aBootStat (if (arg s p 0).toNat = 0 then 5 else 3) = false → opConfirm s p err = (plainAnswer 9, s))) ∧
    ((endSession s).mdl.session = none) ∧
    (∀ i, (arg s p 0).toNat = 0 → (arg s p 1).toNat = i → ∀ r, s.mdl.vlog[i]? = some r →
      (opLogRead s p).status = 0 ∧ (opLogRead s p).data = [r.w0, r.w1, r.w2, r.w3, w48 s.mdl.vlog.length]) ∧
    ((port s p).ready = true → (port s p).resultTb + resultTimeoutS s p * 1000000000 ≤ s.now →
      exec (.resultTimeout p) s = .next (mbxFlag (releaseResult s p) p 45 true)) ∧
    (∀ y, s.mdl.session = some y →
      (medullaActs s = true → y.lastTb + 60000000000 ≤ s.now → exec .sessionTimeout s = .next (endSession s)) ∧
      (medullaActs s = false → exec .sessionTimeout s = .next s) ∧
      (s.now < y.lastTb + 60000000000 → exec .sessionTimeout s = .next s)) ∧
    ((s.core .medulla).run = .running → coreClocked s .medulla = true → exec .logCopy s =
      .next { s with mdl := { s.mdl with norVlog := s.mdl.vlog, norFlog := s.mdl.flog } })
end

