-- ==== Sys2Proof/Laws/Flow.lean ====
section
/-! SUPPORT. What running one instruction comes to, once: with its checks passed it settles its effect; with one failed
it takes that exception. -/

namespace Sys2Proof.Machine

open Sys2Proof

/-- With every check passed, an instruction settles the outcome of its body. -/
theorem runInstr_of_issues {s t : State} {c : CoreId} {d : Shape} (h : Issues s c d t) (body : State → Body) :
    runInstr s c d body = settle c (formLen d.form) (body t) := by
  obtain ⟨h1, h2, h3, h4⟩ := h
  simp [runInstr, h1, h2, h3, h4]

/-- With a check failed, an instruction takes that exception at its PC and its body does not run. -/
theorem runInstr_of_rejects {s t : State} {c : CoreId} {d : Shape} {e : Exc} (h : Rejects s c d t e)
    (body : State → Body) : runInstr s c d body = faultAt t c e := by
  obtain ⟨h1, h2, h3, h4⟩ := h
  simp [runInstr, h1, h2, h3, h4]

/-- A core that cannot issue ignores its instruction. -/
theorem runInstr_of_blocked {s : State} {c : CoreId} (h : canIssue s c = false) (d : Shape) (body : State → Body) :
    runInstr s c d body = s := by
  simp [runInstr, h]

/-- An illegal operand makes a shape reject that would otherwise pass. -/
theorem Issues.rejects_bad {s t : State} {c : CoreId} {d : Shape} (h : Issues s c d t) (n : Nat) :
    Rejects s c { d with bad := some n } t (exc 0x01 n) := by
  obtain ⟨h1, h2, h3, h4⟩ := h
  refine ⟨h1, h2, h3, ?_⟩
  revert h4
  simp only [refusedBy]
  split
  · simp
  · simp

/-- An operand within its rule leaves the checks as they are. -/
theorem Issues.of_bad_none {s t : State} {c : CoreId} {d : Shape} {o : Option Nat} (h : Issues s c { d with bad := none } t)
    (ho : o = none) : Issues s c { d with bad := o } t := by
  subst ho
  exact h

/-- The effect of an instruction that writes one register. -/
theorem regInstr_of_issues {s t : State} {c : CoreId} {d : Shape} (h : Issues s c d t) (gd : Reg) (f : Core → Word) :
    regInstr s c d gd f = completeInstr (writeReg t c gd (f (t.core c))) c (formLen d.form) := by
  simp [regInstr, runInstr_of_issues h, settle, writeReg, State.modCore]

end Sys2Proof.Machine
end

