-- ==== Sys2Proof/Laws/Memory.lean ====
section
/-! SUPPORT. The sparse maps: every operation keeps the canonical form, a read after a write gives the value written, and
a write leaves every other key alone. -/

namespace Sys2Proof.Machine

open Sys2Proof

section
variable {α : Type} [DecidableEq α] {d : Nat → α}

theorem swfFrom_cons {n k : Nat} {v : α} {t : List (Nat × α)} :
    swfFrom d n ((k, v) :: t) = true ↔ n ≤ k ∧ v ≠ d k ∧ swfFrom d (k + 1) t = true := by
  simp [swfFrom, and_assoc]

theorem swfFrom_mono {n m : Nat} {l : List (Nat × α)} (h : swfFrom d n l = true) (hm : m ≤ n) : swfFrom d m l = true := by
  cases l with
  | nil => rfl
  | cons e t =>
    obtain ⟨k, v⟩ := e
    rw [swfFrom_cons] at h ⊢
    exact ⟨by omega, h.2⟩

/-- A key below the lower bound is not listed. -/
theorem sget_of_lt {n a : Nat} {l : List (Nat × α)} (h : swfFrom d n l = true) (ha : a < n) : sget l a = none := by
  induction l generalizing n with
  | nil => rfl
  | cons e t ih =>
    obtain ⟨k, v⟩ := e
    rw [swfFrom_cons] at h
    have : k ≠ a := by omega
    simp [sget, this, ih h.2.2 (by omega)]

theorem swfFrom_sins {n a : Nat} {v : α} {l : List (Nat × α)} (h : swfFrom d n l = true) (hn : n ≤ a) (hv : v ≠ d a) :
    swfFrom d n (sins l a v) = true := by
  induction l generalizing n with
  | nil => simp [sins, swfFrom, hn, hv]
  | cons e t ih =>
    obtain ⟨k, w⟩ := e
    rw [swfFrom_cons] at h
    unfold sins
    split
    · next hk => subst hk; exact swfFrom_cons.2 ⟨hn, hv, h.2.2⟩
    · split
      · exact swfFrom_cons.2 ⟨hn, hv, swfFrom_cons.2 ⟨by omega, h.2⟩⟩
      · exact swfFrom_cons.2 ⟨h.1, h.2.1, ih h.2.2 (by omega)⟩

theorem swfFrom_sdel {n a : Nat} {l : List (Nat × α)} (h : swfFrom d n l = true) : swfFrom d n (sdel l a) = true := by
  induction l generalizing n with
  | nil => rfl
  | cons e t ih =>
    obtain ⟨k, w⟩ := e
    rw [swfFrom_cons] at h
    unfold sdel
    split
    · exact swfFrom_mono h.2.2 (by omega)
    · split
      · exact swfFrom_cons.2 h
      · exact swfFrom_cons.2 ⟨h.1, h.2.1, ih h.2.2⟩

/-- A write keeps the canonical form. -/
theorem swf_swrite {l : List (Nat × α)} (h : swf d l = true) (a : Nat) (v : α) : swf d (swrite d l a v) = true := by
  unfold swrite swf
  split
  · exact swfFrom_sdel h
  · next hv => exact swfFrom_sins h (Nat.zero_le a) hv

/-- Dropping keys keeps the canonical form. -/
theorem swf_sdrop {l : List (Nat × α)} (h : swf d l = true) (p : Nat → Bool) : swf d (sdrop p l) = true := by
  suffices hs : ∀ n, swfFrom d n l = true → swfFrom d n (sdrop p l) = true from hs 0 h
  induction l with
  | nil => intro n _; rfl
  | cons e t ih =>
    obtain ⟨k, v⟩ := e
    intro n hn
    rw [swfFrom_cons] at hn
    have ht := ih (swfFrom_mono hn.2.2 (Nat.zero_le _)) (k + 1) hn.2.2
    unfold sdrop at ht ⊢
    by_cases hp : p k = true
    · rw [List.filter_cons_of_neg (by simpa using hp)]; exact swfFrom_mono ht (by omega)
    · rw [List.filter_cons_of_pos (by simpa using hp)]; exact swfFrom_cons.2 ⟨hn.1, hn.2.1, ht⟩

@[simp] theorem swf_nil : swf d [] = true := rfl

omit [DecidableEq α] in
theorem sget_sins_same (l : List (Nat × α)) (a : Nat) (v : α) : sget (sins l a v) a = some v := by
  induction l with
  | nil => simp [sins, sget]
  | cons e t ih =>
    obtain ⟨k, w⟩ := e
    unfold sins
    split
    · simp [sget]
    · split
      · simp [sget]
      · next hk _ => simp [sget, hk, ih]

omit [DecidableEq α] in
theorem sget_sins_other (l : List (Nat × α)) {a b : Nat} (v : α) (h : b ≠ a) : sget (sins l a v) b = sget l b := by
  induction l with
  | nil => simp [sins, sget, Ne.symm h]
  | cons e t ih =>
    obtain ⟨k, w⟩ := e
    unfold sins
    split
    · next hk => subst hk; simp [sget, Ne.symm h]
    · split
      · simp [sget, Ne.symm h]
      · simp [sget, ih]

theorem sget_sdel_same {n : Nat} {l : List (Nat × α)} (h : swfFrom d n l = true) (a : Nat) : sget (sdel l a) a = none := by
  induction l generalizing n with
  | nil => rfl
  | cons e t ih =>
    obtain ⟨k, w⟩ := e
    rw [swfFrom_cons] at h
    unfold sdel
    split
    · next hk => subst hk; exact sget_of_lt h.2.2 (by omega)
    · next hk =>
      split
      · next hlt => simp [sget, hk, sget_of_lt h.2.2 (show a < k + 1 by omega)]
      · simp [sget, hk, ih h.2.2]

omit [DecidableEq α] in
theorem sget_sdel_other (l : List (Nat × α)) {a b : Nat} (h : b ≠ a) : sget (sdel l a) b = sget l b := by
  induction l with
  | nil => rfl
  | cons e t ih =>
    obtain ⟨k, w⟩ := e
    unfold sdel
    split
    · next hk => subst hk; simp [sget, Ne.symm h]
    · split
      · rfl
      · simp [sget, ih]

/-- A read after a write gives the value written. -/
theorem sread_swrite_same {l : List (Nat × α)} (h : swf d l = true) (a : Nat) (v : α) :
    sread d (swrite d l a v) a = v := by
  unfold swrite sread
  split
  · next hv => simp [sget_sdel_same h a, hv]
  · simp [sget_sins_same]

/-- A write leaves every other key alone. -/
theorem sread_swrite_other (l : List (Nat × α)) {a b : Nat} (v : α) (h : b ≠ a) :
    sread d (swrite d l a v) b = sread d l b := by
  unfold swrite sread
  split
  · rw [sget_sdel_other l h]
  · rw [sget_sins_other l v h]

end

/-! ## The form of a state's memories -/

theorem Memory.wf_iff (s : State) : Memory.wf s = true ↔ swf regReset s.regs = true ∧ swf regReset s.cnt.pmc = true ∧
    swf (fun _ => (0xFF : Byte)) s.nor = true ∧ swf (fillImage s) s.dram = true ∧ swf (sorusFill s) s.sorus = true := by
  simp [Memory.wf, and_assoc]

/-- The form depends on the maps and on the applied image alone. -/
theorem Memory.wf_congr {s t : State} (h1 : t.regs = s.regs) (h2 : t.cnt.pmc = s.cnt.pmc) (h3 : t.nor = s.nor)
    (h4 : t.dram = s.dram) (h5 : t.sorus = s.sorus) (h6 : t.struct.image = s.struct.image) :
    Memory.wf t = Memory.wf s := by
  have e1 : fillImage t = fillImage s := by
    funext a; simp [fillImage, isCompl, regionAt, h6]
  have e2 : sorusFill t = sorusFill s := by
    funext a; simp [sorusFill, h6]
  simp [Memory.wf, h1, h2, h3, h4, h5, e1, e2]

theorem fillImage_congr {s t : State} (h : t.struct.image = s.struct.image) : fillImage t = fillImage s := by
  funext a; simp [fillImage, isCompl, regionAt, h]

theorem sorusFill_congr {s t : State} (h : t.struct.image = s.struct.image) : sorusFill t = sorusFill s := by
  funext a; simp [sorusFill, h]

/-- A register write keeps every memory in form. -/
theorem Memory.wf_regSet {s : State} (h : Memory.wf s = true) (a : Nat) (v : Word) : Memory.wf (regSet s a v) = true := by
  rw [Memory.wf_iff] at h ⊢
  unfold regSet
  split
  · exact ⟨h.1, swf_swrite h.2.1 a v, h.2.2⟩
  · exact ⟨swf_swrite h.1 a v, h.2⟩

/-- A stored container keeps every memory in form. -/
theorem Memory.wf_dramPut {s : State} (h : Memory.wf s = true) (a : Nat) (c : BitVec 64) :
    Memory.wf (dramPut s a c) = true := by
  rw [Memory.wf_iff] at h ⊢
  exact ⟨h.1, h.2.1, h.2.2.1, swf_swrite h.2.2.2.1 a c, h.2.2.2.2⟩

/-- A stored Sorus word keeps every memory in form. -/
theorem Memory.wf_sorusPut {s : State} (h : Memory.wf s = true) (k : Nat) (w : SorusWord) :
    Memory.wf (sorusPut s k w) = true := by
  rw [Memory.wf_iff] at h ⊢
  exact ⟨h.1, h.2.1, h.2.2.1, h.2.2.2.1, swf_swrite h.2.2.2.2 k w⟩

/-- A range erased in the NOR keeps every memory in form. -/
theorem Memory.wf_norErase {s : State} (h : Memory.wf s = true) (i n : Nat) : Memory.wf (norErase s i n) = true := by
  rw [Memory.wf_iff] at h ⊢
  exact ⟨h.1, h.2.1, swf_sdrop h.2.2.1 (fun k => i ≤ k && k < i + n), h.2.2.2⟩

/-- Bytes programmed in the NOR keep every memory in form. -/
theorem Memory.wf_norPut {s : State} (h : Memory.wf s = true) (i : Nat) (l : List Byte) :
    Memory.wf (norPut s i l) = true := by
  induction l generalizing s i with
  | nil => exact h
  | cons b t ih =>
    apply ih
    rw [Memory.wf_iff] at h ⊢
    exact ⟨h.1, h.2.1, swf_swrite h.2.2.1 i b, h.2.2.2⟩

/-- One counter keeps its map in form. -/
theorem swf_bumpOne {c : Counters} (h : swf regReset c.pmc = true) (b code n k : Nat) :
    swf regReset (bumpOne c b code n k).pmc = true := by
  unfold bumpOne
  dsimp only
  split
  · dsimp only
    split
    · exact swf_swrite (swf_swrite h _ _) _ _
    · exact swf_swrite h _ _
  · exact h

/-- A counted event keeps every memory in form. -/
theorem Memory.wf_count {s : State} (h : Memory.wf s = true) (b code n : Nat) : Memory.wf (count s b code n) = true := by
  rw [Memory.wf_iff] at h ⊢
  refine ⟨h.1, ?_, h.2.2⟩
  show swf regReset (bumpCnt s.cnt b code n).pmc = true
  unfold bumpCnt
  split
  · exact h.2.1
  · exact swf_bumpOne (swf_bumpOne (swf_bumpOne (swf_bumpOne h.2.1 _ _ _ _) _ _ _ _) _ _ _ _) _ _ _ _

/-- What a stored container leaves: reading it gives it, and every other container reads as before. -/
theorem dramRaw_dramPut_same {s : State} (h : Memory.wf s = true) (a : Nat) (c : BitVec 64) :
    dramRaw (dramPut s a c) a = c := by
  rw [Memory.wf_iff] at h
  exact sread_swrite_same h.2.2.2.1 a c

theorem dramRaw_dramPut_other (s : State) {a b : Nat} (c : BitVec 64) (h : b ≠ a) :
    dramRaw (dramPut s a c) b = dramRaw s b := sread_swrite_other s.dram c h

/-- What a stored Sorus word leaves: reading it gives it, and every other word reads as before. -/
theorem sorusRaw_sorusPut_same {s : State} (h : Memory.wf s = true) (k : Nat) (w : SorusWord) :
    sorusRaw (sorusPut s k w) k = w := by
  rw [Memory.wf_iff] at h
  exact sread_swrite_same h.2.2.2.2 k w

theorem sorusRaw_sorusPut_other (s : State) {k j : Nat} (w : SorusWord) (h : j ≠ k) :
    sorusRaw (sorusPut s k w) j = sorusRaw s j := sread_swrite_other s.sorus w h

/-- What a register write leaves: reading it gives the value, and every other register reads as before. -/
theorem regGet_regSet_same {s : State} (h : Memory.wf s = true) (a : Nat) (v : Word) : regGet (regSet s a v) a = v := by
  rw [Memory.wf_iff] at h
  unfold regGet regSet
  split
  · exact sread_swrite_same h.2.1 a v
  · exact sread_swrite_same h.1 a v

theorem regGet_regSet_other (s : State) {a b : Nat} (v : Word) (h : b ≠ a) : regGet (regSet s a v) b = regGet s b := by
  unfold regGet regSet
  split <;> split
  · exact sread_swrite_other s.cnt.pmc v h
  · rfl
  · rfl
  · exact sread_swrite_other s.regs v h

end Sys2Proof.Machine
end

