-- ==== Sys2Proof/Laws/Regs.lean ====
section
/-! SUPPORT. Register accesses: what an admitted write does, block by block, and what a refused one does. -/

namespace Sys2Proof.Machine

open Sys2Proof

/-- An admitted write outside the PCIe aperture is the store of its block. -/
theorem writeCmd_admitted {s : State} {rq : Requester} {a : Nat} (v : Word) (h : Admitted s rq a)
    (ha : inAperture a = false) : writeCmd s rq a v = regStore (bridged s) rq a v := by
  have h1 := h.can
  have h2 := h.ok
  simp [writeCmd, h1, ha, regWrite, h2, bridged]

/-- A write that its checks refuse is a violation. -/
theorem writeCmd_refused {s : State} {rq : Requester} {a cause w : Nat} (v : Word) (h : canAccess s rq = true)
    (ha : inAperture a = false) (hv : verdict (bridged s) rq a true = .bad cause w) :
    writeCmd s rq a v = rqViolation (bridged s) cause rq true w := by
  unfold bridged at hv ⊢
  simp [writeCmd, h, ha, regWrite, hv]

/-- An admitted read leaves the value in readOut. -/
theorem readCmd_admitted {s : State} {rq : Requester} {a : Nat} (h : canAccess s rq = true)
    (hv : verdict (bridged s) rq a false = .ok) :
    readCmd s rq a = { (regValue (bridged s) rq a).2 with readOut := (regValue (bridged s) rq a).1 } := by
  unfold bridged at hv ⊢
  simp [readCmd, h, regRead, hv]

/-- Counting an event leaves every register but the counters' alone. -/
theorem regGet_count (s : State) (b code n a : Nat) (h : isPmc a = false) : regGet (count s b code n) a = regGet s a := by
  simp [regGet, h, count]

theorem regGet_bridged (s : State) (a : Nat) (h : isPmc a = false) : regGet (bridged s) a = regGet s a :=
  regGet_count s 63 0x0B0 1 a h

/-! The store of a register in each block of R764. -/

section
variable (s : State) (rq : Requester) (a o : Nat) (v : Word)

theorem regStore_int (h : a = regBase + 0x20000 + o) (ho : o < 0x10000) :
    regStore s rq a v = intWrite s rq o a v := by
  subst h
  have h1 : (regBase + 0x20000 + o - regBase) / 0x10000 = 2 := by omega
  have h2 : (regBase + 0x20000 + o - regBase) % 0x10000 = o := by omega
  unfold regStore; simp only [h1, h2]

theorem regStore_time (h : a = regBase + 0x30000 + o) (ho : o < 0x10000) :
    regStore s rq a v = timeWrite s rq o a v := by
  subst h
  have h1 : (regBase + 0x30000 + o - regBase) / 0x10000 = 3 := by omega
  have h2 : (regBase + 0x30000 + o - regBase) % 0x10000 = o := by omega
  unfold regStore; simp only [h1, h2]

theorem regStore_tick (h : a = regBase + 0x60000 + o) (ho : o < 0x10000) :
    regStore s rq a v = tickWrite s rq o a v := by
  subst h
  have h1 : (regBase + 0x60000 + o - regBase) / 0x10000 = 6 := by omega
  have h2 : (regBase + 0x60000 + o - regBase) % 0x10000 = o := by omega
  unfold regStore; simp only [h1, h2]

theorem regStore_ring (h : a = regBase + 0x80000 + o) (ho : o < 0x10000) :
    regStore s rq a v = ringWrite s rq o a v := by
  subst h
  have h1 : (regBase + 0x80000 + o - regBase) / 0x10000 = 8 := by omega
  have h2 : (regBase + 0x80000 + o - regBase) % 0x10000 = o := by omega
  unfold regStore; simp only [h1, h2]

theorem regStore_sense (h : a = regBase + 0x90000 + o) (ho : o < 0x10000) :
    regStore s rq a v = senseWriteReg s rq o a v := by
  subst h
  have h1 : (regBase + 0x90000 + o - regBase) / 0x10000 = 9 := by omega
  have h2 : (regBase + 0x90000 + o - regBase) % 0x10000 = o := by omega
  unfold regStore; simp only [h1, h2]

theorem regStore_pinna (h : a = regBase + 0xA0000 + o) (ho : o < 0x10000) :
    regStore s rq a v = pinnaWrite s rq o a v := by
  subst h
  have h1 : (regBase + 0xA0000 + o - regBase) / 0x10000 = 10 := by omega
  have h2 : (regBase + 0xA0000 + o - regBase) % 0x10000 = o := by omega
  unfold regStore; simp only [h1, h2]

theorem regStore_eth (h : a = regBase + 0xC0000 + o) (ho : o < 0x10000) :
    regStore s rq a v = ethWrite s o a v := by
  subst h
  have h1 : (regBase + 0xC0000 + o - regBase) / 0x10000 = 12 := by omega
  have h2 : (regBase + 0xC0000 + o - regBase) % 0x10000 = o := by omega
  unfold regStore; simp only [h1, h2]

theorem regStore_canUart (h : a = regBase + 0xD0000 + o) (ho : o < 0x10000) :
    regStore s rq a v = canUartWrite s o a v := by
  subst h
  have h1 : (regBase + 0xD0000 + o - regBase) / 0x10000 = 13 := by omega
  have h2 : (regBase + 0xD0000 + o - regBase) % 0x10000 = o := by omega
  unfold regStore; simp only [h1, h2]

theorem regStore_pcieUsb (h : a = regBase + 0xE0000 + o) (ho : o < 0x10000) :
    regStore s rq a v = pcieUsbWrite s rq o a v := by
  subst h
  have h1 : (regBase + 0xE0000 + o - regBase) / 0x10000 = 14 := by omega
  have h2 : (regBase + 0xE0000 + o - regBase) % 0x10000 = o := by omega
  unfold regStore; simp only [h1, h2]

theorem regStore_disp (h : a = regBase + 0xF0000 + o) (ho : o < 0x10000) :
    regStore s rq a v = dispWrite s rq o a v := by
  subst h
  have h1 : (regBase + 0xF0000 + o - regBase) / 0x10000 = 15 := by omega
  have h2 : (regBase + 0xF0000 + o - regBase) % 0x10000 = o := by omega
  unfold regStore; simp only [h1, h2]

theorem regStore_power (h : a = regBase + 0x100000 + o) (ho : o < 0x10000) :
    regStore s rq a v = powerWrite s rq o a v := by
  subst h
  have h1 : (regBase + 0x100000 + o - regBase) / 0x10000 = 16 := by omega
  have h2 : (regBase + 0x100000 + o - regBase) % 0x10000 = o := by omega
  unfold regStore; simp only [h1, h2]

theorem regStore_mbox (h : a = regBase + 0x110000 + o) (ho : o < 0x10000) :
    regStore s rq a v = mboxWrite s rq o a v := by
  subst h
  have h1 : (regBase + 0x110000 + o - regBase) / 0x10000 = 17 := by omega
  have h2 : (regBase + 0x110000 + o - regBase) % 0x10000 = o := by omega
  unfold regStore; simp only [h1, h2]

theorem regStore_rst (h : a = regBase + 0x140000 + o) (ho : o < 0x10000) :
    regStore s rq a v = if 0x10 ≤ o && o < 0x20 then rstCoreWrite s rq (o - 0x10) v
      else if a = aDbgHold then dbgHoldWrite s rq v
      else plainWrite s a v := by
  subst h
  have h1 : (regBase + 0x140000 + o - regBase) / 0x10000 = 20 := by omega
  have h2 : (regBase + 0x140000 + o - regBase) % 0x10000 = o := by omega
  unfold regStore; simp only [h1, h2]

theorem regStore_dma (h : a = regBase + 0x160000 + o) (ho : o < 0x10000) :
    regStore s rq a v = dmaWriteReg s rq o a v := by
  subst h
  have h1 : (regBase + 0x160000 + o - regBase) / 0x10000 = 22 := by omega
  have h2 : (regBase + 0x160000 + o - regBase) % 0x10000 = o := by omega
  unfold regStore; simp only [h1, h2]

end

end Sys2Proof.Machine
end

