-- ==== Sys2Proof/Laws/State.lean ====
section
/-! SUPPORT. What each named update of State leaves in each of its fields: a later proof unfolds no record update. -/

namespace Sys2Proof.Machine

open Sys2Proof

/-! ## Cores -/

@[simp] theorem core_setCore_same (s : State) (c : CoreId) (k : Core) : (s.setCore c k).core c = k := by
  simp [State.core, State.setCore]

theorem CoreId.agent_inj {c d : CoreId} (h : c ≠ d) : c.agent.val ≠ d.agent.val := by
  cases c <;> cases d <;> simp_all [CoreId.agent, Fin.ext_iff] <;> omega

theorem core_setCore_other (s : State) {c d : CoreId} (k : Core) (h : d ≠ c) : (s.setCore c k).core d = s.core d := by
  simp [State.core, State.setCore, Vector.getElem_set_ne _ _ (CoreId.agent_inj (Ne.symm h))]

@[simp] theorem core_modCore_same (s : State) (c : CoreId) (f : Core → Core) : (s.modCore c f).core c = f (s.core c) := by
  simp [State.modCore]

theorem core_modCore_other (s : State) {c d : CoreId} (f : Core → Core) (h : d ≠ c) :
    (s.modCore c f).core d = s.core d := core_setCore_other s _ h

/-! ## State.setCore -/

@[simp] theorem setCore_pending (s : State) (c : CoreId) (k : Core) : (s.setCore c k).pending = s.pending := rfl
@[simp] theorem setCore_regs (s : State) (c : CoreId) (k : Core) : (s.setCore c k).regs = s.regs := rfl
@[simp] theorem setCore_coh (s : State) (c : CoreId) (k : Core) : (s.setCore c k).coh = s.coh := rfl
@[simp] theorem setCore_dram (s : State) (c : CoreId) (k : Core) : (s.setCore c k).dram = s.dram := rfl
@[simp] theorem setCore_memctl (s : State) (c : CoreId) (k : Core) : (s.setCore c k).memctl = s.memctl := rfl
@[simp] theorem setCore_sorus (s : State) (c : CoreId) (k : Core) : (s.setCore c k).sorus = s.sorus := rfl
@[simp] theorem setCore_sorusCtl (s : State) (c : CoreId) (k : Core) : (s.setCore c k).sorusCtl = s.sorusCtl := rfl
@[simp] theorem setCore_nor (s : State) (c : CoreId) (k : Core) : (s.setCore c k).nor = s.nor := rfl
@[simp] theorem setCore_struct (s : State) (c : CoreId) (k : Core) : (s.setCore c k).struct = s.struct := rfl
@[simp] theorem setCore_outs (s : State) (c : CoreId) (k : Core) : (s.setCore c k).outs = s.outs := rfl
@[simp] theorem setCore_tick (s : State) (c : CoreId) (k : Core) : (s.setCore c k).tick = s.tick := rfl
@[simp] theorem setCore_timers (s : State) (c : CoreId) (k : Core) : (s.setCore c k).timers = s.timers := rfl
@[simp] theorem setCore_sense (s : State) (c : CoreId) (k : Core) : (s.setCore c k).sense = s.sense := rfl
@[simp] theorem setCore_touch (s : State) (c : CoreId) (k : Core) : (s.setCore c k).touch = s.touch := rfl
@[simp] theorem setCore_ring (s : State) (c : CoreId) (k : Core) : (s.setCore c k).ring = s.ring := rfl
@[simp] theorem setCore_pinna (s : State) (c : CoreId) (k : Core) : (s.setCore c k).pinna = s.pinna := rfl
@[simp] theorem setCore_io (s : State) (c : CoreId) (k : Core) : (s.setCore c k).io = s.io := rfl
@[simp] theorem setCore_disp (s : State) (c : CoreId) (k : Core) : (s.setCore c k).disp = s.disp := rfl
@[simp] theorem setCore_dma (s : State) (c : CoreId) (k : Core) : (s.setCore c k).dma = s.dma := rfl
@[simp] theorem setCore_power (s : State) (c : CoreId) (k : Core) : (s.setCore c k).power = s.power := rfl
@[simp] theorem setCore_cnt (s : State) (c : CoreId) (k : Core) : (s.setCore c k).cnt = s.cnt := rfl
@[simp] theorem setCore_mdl (s : State) (c : CoreId) (k : Core) : (s.setCore c k).mdl = s.mdl := rfl
@[simp] theorem setCore_sys (s : State) (c : CoreId) (k : Core) : (s.setCore c k).sys = s.sys := rfl
@[simp] theorem setCore_tb (s : State) (c : CoreId) (k : Core) : (s.setCore c k).tb = s.tb := rfl
@[simp] theorem setCore_ref (s : State) (c : CoreId) (k : Core) : (s.setCore c k).ref = s.ref := rfl
@[simp] theorem setCore_tbLatch (s : State) (c : CoreId) (k : Core) : (s.setCore c k).tbLatch = s.tbLatch := rfl
@[simp] theorem setCore_readOut (s : State) (c : CoreId) (k : Core) : (s.setCore c k).readOut = s.readOut := rfl
@[simp] theorem setCore_free (s : State) (c : CoreId) (k : Core) : (s.setCore c k).free = s.free := rfl

/-! ## State.modCore -/

@[simp] theorem modCore_pending (s : State) (c : CoreId) (f : Core → Core) : (s.modCore c f).pending = s.pending := rfl
@[simp] theorem modCore_regs (s : State) (c : CoreId) (f : Core → Core) : (s.modCore c f).regs = s.regs := rfl
@[simp] theorem modCore_coh (s : State) (c : CoreId) (f : Core → Core) : (s.modCore c f).coh = s.coh := rfl
@[simp] theorem modCore_dram (s : State) (c : CoreId) (f : Core → Core) : (s.modCore c f).dram = s.dram := rfl
@[simp] theorem modCore_memctl (s : State) (c : CoreId) (f : Core → Core) : (s.modCore c f).memctl = s.memctl := rfl
@[simp] theorem modCore_sorus (s : State) (c : CoreId) (f : Core → Core) : (s.modCore c f).sorus = s.sorus := rfl
@[simp] theorem modCore_sorusCtl (s : State) (c : CoreId) (f : Core → Core) : (s.modCore c f).sorusCtl = s.sorusCtl := rfl
@[simp] theorem modCore_nor (s : State) (c : CoreId) (f : Core → Core) : (s.modCore c f).nor = s.nor := rfl
@[simp] theorem modCore_struct (s : State) (c : CoreId) (f : Core → Core) : (s.modCore c f).struct = s.struct := rfl
@[simp] theorem modCore_outs (s : State) (c : CoreId) (f : Core → Core) : (s.modCore c f).outs = s.outs := rfl
@[simp] theorem modCore_tick (s : State) (c : CoreId) (f : Core → Core) : (s.modCore c f).tick = s.tick := rfl
@[simp] theorem modCore_timers (s : State) (c : CoreId) (f : Core → Core) : (s.modCore c f).timers = s.timers := rfl
@[simp] theorem modCore_sense (s : State) (c : CoreId) (f : Core → Core) : (s.modCore c f).sense = s.sense := rfl
@[simp] theorem modCore_touch (s : State) (c : CoreId) (f : Core → Core) : (s.modCore c f).touch = s.touch := rfl
@[simp] theorem modCore_ring (s : State) (c : CoreId) (f : Core → Core) : (s.modCore c f).ring = s.ring := rfl
@[simp] theorem modCore_pinna (s : State) (c : CoreId) (f : Core → Core) : (s.modCore c f).pinna = s.pinna := rfl
@[simp] theorem modCore_io (s : State) (c : CoreId) (f : Core → Core) : (s.modCore c f).io = s.io := rfl
@[simp] theorem modCore_disp (s : State) (c : CoreId) (f : Core → Core) : (s.modCore c f).disp = s.disp := rfl
@[simp] theorem modCore_dma (s : State) (c : CoreId) (f : Core → Core) : (s.modCore c f).dma = s.dma := rfl
@[simp] theorem modCore_power (s : State) (c : CoreId) (f : Core → Core) : (s.modCore c f).power = s.power := rfl
@[simp] theorem modCore_cnt (s : State) (c : CoreId) (f : Core → Core) : (s.modCore c f).cnt = s.cnt := rfl
@[simp] theorem modCore_mdl (s : State) (c : CoreId) (f : Core → Core) : (s.modCore c f).mdl = s.mdl := rfl
@[simp] theorem modCore_sys (s : State) (c : CoreId) (f : Core → Core) : (s.modCore c f).sys = s.sys := rfl
@[simp] theorem modCore_tb (s : State) (c : CoreId) (f : Core → Core) : (s.modCore c f).tb = s.tb := rfl
@[simp] theorem modCore_ref (s : State) (c : CoreId) (f : Core → Core) : (s.modCore c f).ref = s.ref := rfl
@[simp] theorem modCore_tbLatch (s : State) (c : CoreId) (f : Core → Core) : (s.modCore c f).tbLatch = s.tbLatch := rfl
@[simp] theorem modCore_readOut (s : State) (c : CoreId) (f : Core → Core) : (s.modCore c f).readOut = s.readOut := rfl
@[simp] theorem modCore_free (s : State) (c : CoreId) (f : Core → Core) : (s.modCore c f).free = s.free := rfl

/-! ## regSet -/

@[simp] theorem regSet_pending (s : State) (a : Nat) (v : Word) : (regSet s a v).pending = s.pending := by
  unfold regSet; split <;> rfl
@[simp] theorem regSet_cores (s : State) (a : Nat) (v : Word) : (regSet s a v).cores = s.cores := by
  unfold regSet; split <;> rfl
@[simp] theorem regSet_coh (s : State) (a : Nat) (v : Word) : (regSet s a v).coh = s.coh := by
  unfold regSet; split <;> rfl
@[simp] theorem regSet_dram (s : State) (a : Nat) (v : Word) : (regSet s a v).dram = s.dram := by
  unfold regSet; split <;> rfl
@[simp] theorem regSet_memctl (s : State) (a : Nat) (v : Word) : (regSet s a v).memctl = s.memctl := by
  unfold regSet; split <;> rfl
@[simp] theorem regSet_sorus (s : State) (a : Nat) (v : Word) : (regSet s a v).sorus = s.sorus := by
  unfold regSet; split <;> rfl
@[simp] theorem regSet_sorusCtl (s : State) (a : Nat) (v : Word) : (regSet s a v).sorusCtl = s.sorusCtl := by
  unfold regSet; split <;> rfl
@[simp] theorem regSet_nor (s : State) (a : Nat) (v : Word) : (regSet s a v).nor = s.nor := by
  unfold regSet; split <;> rfl
@[simp] theorem regSet_struct (s : State) (a : Nat) (v : Word) : (regSet s a v).struct = s.struct := by
  unfold regSet; split <;> rfl
@[simp] theorem regSet_outs (s : State) (a : Nat) (v : Word) : (regSet s a v).outs = s.outs := by
  unfold regSet; split <;> rfl
@[simp] theorem regSet_tick (s : State) (a : Nat) (v : Word) : (regSet s a v).tick = s.tick := by
  unfold regSet; split <;> rfl
@[simp] theorem regSet_timers (s : State) (a : Nat) (v : Word) : (regSet s a v).timers = s.timers := by
  unfold regSet; split <;> rfl
@[simp] theorem regSet_sense (s : State) (a : Nat) (v : Word) : (regSet s a v).sense = s.sense := by
  unfold regSet; split <;> rfl
@[simp] theorem regSet_touch (s : State) (a : Nat) (v : Word) : (regSet s a v).touch = s.touch := by
  unfold regSet; split <;> rfl
@[simp] theorem regSet_ring (s : State) (a : Nat) (v : Word) : (regSet s a v).ring = s.ring := by
  unfold regSet; split <;> rfl
@[simp] theorem regSet_pinna (s : State) (a : Nat) (v : Word) : (regSet s a v).pinna = s.pinna := by
  unfold regSet; split <;> rfl
@[simp] theorem regSet_io (s : State) (a : Nat) (v : Word) : (regSet s a v).io = s.io := by
  unfold regSet; split <;> rfl
@[simp] theorem regSet_disp (s : State) (a : Nat) (v : Word) : (regSet s a v).disp = s.disp := by
  unfold regSet; split <;> rfl
@[simp] theorem regSet_dma (s : State) (a : Nat) (v : Word) : (regSet s a v).dma = s.dma := by
  unfold regSet; split <;> rfl
@[simp] theorem regSet_power (s : State) (a : Nat) (v : Word) : (regSet s a v).power = s.power := by
  unfold regSet; split <;> rfl
@[simp] theorem regSet_mdl (s : State) (a : Nat) (v : Word) : (regSet s a v).mdl = s.mdl := by
  unfold regSet; split <;> rfl
@[simp] theorem regSet_sys (s : State) (a : Nat) (v : Word) : (regSet s a v).sys = s.sys := by
  unfold regSet; split <;> rfl
@[simp] theorem regSet_tb (s : State) (a : Nat) (v : Word) : (regSet s a v).tb = s.tb := by
  unfold regSet; split <;> rfl
@[simp] theorem regSet_ref (s : State) (a : Nat) (v : Word) : (regSet s a v).ref = s.ref := by
  unfold regSet; split <;> rfl
@[simp] theorem regSet_tbLatch (s : State) (a : Nat) (v : Word) : (regSet s a v).tbLatch = s.tbLatch := by
  unfold regSet; split <;> rfl
@[simp] theorem regSet_readOut (s : State) (a : Nat) (v : Word) : (regSet s a v).readOut = s.readOut := by
  unfold regSet; split <;> rfl
@[simp] theorem regSet_free (s : State) (a : Nat) (v : Word) : (regSet s a v).free = s.free := by
  unfold regSet; split <;> rfl

/-! ## regFld -/

@[simp] theorem regFld_pending (s : State) (a hi lo v : Nat) : (regFld s a hi lo v).pending = s.pending := by
  simp [regFld]
@[simp] theorem regFld_cores (s : State) (a hi lo v : Nat) : (regFld s a hi lo v).cores = s.cores := by
  simp [regFld]
@[simp] theorem regFld_coh (s : State) (a hi lo v : Nat) : (regFld s a hi lo v).coh = s.coh := by
  simp [regFld]
@[simp] theorem regFld_dram (s : State) (a hi lo v : Nat) : (regFld s a hi lo v).dram = s.dram := by
  simp [regFld]
@[simp] theorem regFld_memctl (s : State) (a hi lo v : Nat) : (regFld s a hi lo v).memctl = s.memctl := by
  simp [regFld]
@[simp] theorem regFld_sorus (s : State) (a hi lo v : Nat) : (regFld s a hi lo v).sorus = s.sorus := by
  simp [regFld]
@[simp] theorem regFld_sorusCtl (s : State) (a hi lo v : Nat) : (regFld s a hi lo v).sorusCtl = s.sorusCtl := by
  simp [regFld]
@[simp] theorem regFld_nor (s : State) (a hi lo v : Nat) : (regFld s a hi lo v).nor = s.nor := by
  simp [regFld]
@[simp] theorem regFld_struct (s : State) (a hi lo v : Nat) : (regFld s a hi lo v).struct = s.struct := by
  simp [regFld]
@[simp] theorem regFld_outs (s : State) (a hi lo v : Nat) : (regFld s a hi lo v).outs = s.outs := by
  simp [regFld]
@[simp] theorem regFld_tick (s : State) (a hi lo v : Nat) : (regFld s a hi lo v).tick = s.tick := by
  simp [regFld]
@[simp] theorem regFld_timers (s : State) (a hi lo v : Nat) : (regFld s a hi lo v).timers = s.timers := by
  simp [regFld]
@[simp] theorem regFld_sense (s : State) (a hi lo v : Nat) : (regFld s a hi lo v).sense = s.sense := by
  simp [regFld]
@[simp] theorem regFld_touch (s : State) (a hi lo v : Nat) : (regFld s a hi lo v).touch = s.touch := by
  simp [regFld]
@[simp] theorem regFld_ring (s : State) (a hi lo v : Nat) : (regFld s a hi lo v).ring = s.ring := by
  simp [regFld]
@[simp] theorem regFld_pinna (s : State) (a hi lo v : Nat) : (regFld s a hi lo v).pinna = s.pinna := by
  simp [regFld]
@[simp] theorem regFld_io (s : State) (a hi lo v : Nat) : (regFld s a hi lo v).io = s.io := by
  simp [regFld]
@[simp] theorem regFld_disp (s : State) (a hi lo v : Nat) : (regFld s a hi lo v).disp = s.disp := by
  simp [regFld]
@[simp] theorem regFld_dma (s : State) (a hi lo v : Nat) : (regFld s a hi lo v).dma = s.dma := by
  simp [regFld]
@[simp] theorem regFld_power (s : State) (a hi lo v : Nat) : (regFld s a hi lo v).power = s.power := by
  simp [regFld]
@[simp] theorem regFld_mdl (s : State) (a hi lo v : Nat) : (regFld s a hi lo v).mdl = s.mdl := by
  simp [regFld]
@[simp] theorem regFld_sys (s : State) (a hi lo v : Nat) : (regFld s a hi lo v).sys = s.sys := by
  simp [regFld]
@[simp] theorem regFld_tb (s : State) (a hi lo v : Nat) : (regFld s a hi lo v).tb = s.tb := by
  simp [regFld]
@[simp] theorem regFld_ref (s : State) (a hi lo v : Nat) : (regFld s a hi lo v).ref = s.ref := by
  simp [regFld]
@[simp] theorem regFld_tbLatch (s : State) (a hi lo v : Nat) : (regFld s a hi lo v).tbLatch = s.tbLatch := by
  simp [regFld]
@[simp] theorem regFld_readOut (s : State) (a hi lo v : Nat) : (regFld s a hi lo v).readOut = s.readOut := by
  simp [regFld]
@[simp] theorem regFld_free (s : State) (a hi lo v : Nat) : (regFld s a hi lo v).free = s.free := by
  simp [regFld]

/-! ## count -/

@[simp] theorem count_pending (s : State) (b code n : Nat) : (count s b code n).pending = s.pending := rfl
@[simp] theorem count_regs (s : State) (b code n : Nat) : (count s b code n).regs = s.regs := rfl
@[simp] theorem count_cores (s : State) (b code n : Nat) : (count s b code n).cores = s.cores := rfl
@[simp] theorem count_coh (s : State) (b code n : Nat) : (count s b code n).coh = s.coh := rfl
@[simp] theorem count_dram (s : State) (b code n : Nat) : (count s b code n).dram = s.dram := rfl
@[simp] theorem count_memctl (s : State) (b code n : Nat) : (count s b code n).memctl = s.memctl := rfl
@[simp] theorem count_sorus (s : State) (b code n : Nat) : (count s b code n).sorus = s.sorus := rfl
@[simp] theorem count_sorusCtl (s : State) (b code n : Nat) : (count s b code n).sorusCtl = s.sorusCtl := rfl
@[simp] theorem count_nor (s : State) (b code n : Nat) : (count s b code n).nor = s.nor := rfl
@[simp] theorem count_struct (s : State) (b code n : Nat) : (count s b code n).struct = s.struct := rfl
@[simp] theorem count_outs (s : State) (b code n : Nat) : (count s b code n).outs = s.outs := rfl
@[simp] theorem count_tick (s : State) (b code n : Nat) : (count s b code n).tick = s.tick := rfl
@[simp] theorem count_timers (s : State) (b code n : Nat) : (count s b code n).timers = s.timers := rfl
@[simp] theorem count_sense (s : State) (b code n : Nat) : (count s b code n).sense = s.sense := rfl
@[simp] theorem count_touch (s : State) (b code n : Nat) : (count s b code n).touch = s.touch := rfl
@[simp] theorem count_ring (s : State) (b code n : Nat) : (count s b code n).ring = s.ring := rfl
@[simp] theorem count_pinna (s : State) (b code n : Nat) : (count s b code n).pinna = s.pinna := rfl
@[simp] theorem count_io (s : State) (b code n : Nat) : (count s b code n).io = s.io := rfl
@[simp] theorem count_disp (s : State) (b code n : Nat) : (count s b code n).disp = s.disp := rfl
@[simp] theorem count_dma (s : State) (b code n : Nat) : (count s b code n).dma = s.dma := rfl
@[simp] theorem count_power (s : State) (b code n : Nat) : (count s b code n).power = s.power := rfl
@[simp] theorem count_mdl (s : State) (b code n : Nat) : (count s b code n).mdl = s.mdl := rfl
@[simp] theorem count_sys (s : State) (b code n : Nat) : (count s b code n).sys = s.sys := rfl
@[simp] theorem count_tb (s : State) (b code n : Nat) : (count s b code n).tb = s.tb := rfl
@[simp] theorem count_ref (s : State) (b code n : Nat) : (count s b code n).ref = s.ref := rfl
@[simp] theorem count_tbLatch (s : State) (b code n : Nat) : (count s b code n).tbLatch = s.tbLatch := rfl
@[simp] theorem count_readOut (s : State) (b code n : Nat) : (count s b code n).readOut = s.readOut := rfl
@[simp] theorem count_free (s : State) (b code n : Nat) : (count s b code n).free = s.free := rfl

/-! ## bwAdd -/

@[simp] theorem bwAdd_pending (s : State) (p n : Nat) : (bwAdd s p n).pending = s.pending := rfl
@[simp] theorem bwAdd_regs (s : State) (p n : Nat) : (bwAdd s p n).regs = s.regs := rfl
@[simp] theorem bwAdd_cores (s : State) (p n : Nat) : (bwAdd s p n).cores = s.cores := rfl
@[simp] theorem bwAdd_coh (s : State) (p n : Nat) : (bwAdd s p n).coh = s.coh := rfl
@[simp] theorem bwAdd_dram (s : State) (p n : Nat) : (bwAdd s p n).dram = s.dram := rfl
@[simp] theorem bwAdd_memctl (s : State) (p n : Nat) : (bwAdd s p n).memctl = s.memctl := rfl
@[simp] theorem bwAdd_sorus (s : State) (p n : Nat) : (bwAdd s p n).sorus = s.sorus := rfl
@[simp] theorem bwAdd_sorusCtl (s : State) (p n : Nat) : (bwAdd s p n).sorusCtl = s.sorusCtl := rfl
@[simp] theorem bwAdd_nor (s : State) (p n : Nat) : (bwAdd s p n).nor = s.nor := rfl
@[simp] theorem bwAdd_struct (s : State) (p n : Nat) : (bwAdd s p n).struct = s.struct := rfl
@[simp] theorem bwAdd_outs (s : State) (p n : Nat) : (bwAdd s p n).outs = s.outs := rfl
@[simp] theorem bwAdd_tick (s : State) (p n : Nat) : (bwAdd s p n).tick = s.tick := rfl
@[simp] theorem bwAdd_timers (s : State) (p n : Nat) : (bwAdd s p n).timers = s.timers := rfl
@[simp] theorem bwAdd_sense (s : State) (p n : Nat) : (bwAdd s p n).sense = s.sense := rfl
@[simp] theorem bwAdd_touch (s : State) (p n : Nat) : (bwAdd s p n).touch = s.touch := rfl
@[simp] theorem bwAdd_ring (s : State) (p n : Nat) : (bwAdd s p n).ring = s.ring := rfl
@[simp] theorem bwAdd_pinna (s : State) (p n : Nat) : (bwAdd s p n).pinna = s.pinna := rfl
@[simp] theorem bwAdd_io (s : State) (p n : Nat) : (bwAdd s p n).io = s.io := rfl
@[simp] theorem bwAdd_disp (s : State) (p n : Nat) : (bwAdd s p n).disp = s.disp := rfl
@[simp] theorem bwAdd_dma (s : State) (p n : Nat) : (bwAdd s p n).dma = s.dma := rfl
@[simp] theorem bwAdd_power (s : State) (p n : Nat) : (bwAdd s p n).power = s.power := rfl
@[simp] theorem bwAdd_mdl (s : State) (p n : Nat) : (bwAdd s p n).mdl = s.mdl := rfl
@[simp] theorem bwAdd_sys (s : State) (p n : Nat) : (bwAdd s p n).sys = s.sys := rfl
@[simp] theorem bwAdd_tb (s : State) (p n : Nat) : (bwAdd s p n).tb = s.tb := rfl
@[simp] theorem bwAdd_ref (s : State) (p n : Nat) : (bwAdd s p n).ref = s.ref := rfl
@[simp] theorem bwAdd_tbLatch (s : State) (p n : Nat) : (bwAdd s p n).tbLatch = s.tbLatch := rfl
@[simp] theorem bwAdd_readOut (s : State) (p n : Nat) : (bwAdd s p n).readOut = s.readOut := rfl
@[simp] theorem bwAdd_free (s : State) (p n : Nat) : (bwAdd s p n).free = s.free := rfl

/-! ## State.takeFree -/

@[simp] theorem takeFree_pending (s : State) : (s.takeFree.2).pending = s.pending := rfl
@[simp] theorem takeFree_regs (s : State) : (s.takeFree.2).regs = s.regs := rfl
@[simp] theorem takeFree_cores (s : State) : (s.takeFree.2).cores = s.cores := rfl
@[simp] theorem takeFree_coh (s : State) : (s.takeFree.2).coh = s.coh := rfl
@[simp] theorem takeFree_dram (s : State) : (s.takeFree.2).dram = s.dram := rfl
@[simp] theorem takeFree_memctl (s : State) : (s.takeFree.2).memctl = s.memctl := rfl
@[simp] theorem takeFree_sorus (s : State) : (s.takeFree.2).sorus = s.sorus := rfl
@[simp] theorem takeFree_sorusCtl (s : State) : (s.takeFree.2).sorusCtl = s.sorusCtl := rfl
@[simp] theorem takeFree_nor (s : State) : (s.takeFree.2).nor = s.nor := rfl
@[simp] theorem takeFree_struct (s : State) : (s.takeFree.2).struct = s.struct := rfl
@[simp] theorem takeFree_outs (s : State) : (s.takeFree.2).outs = s.outs := rfl
@[simp] theorem takeFree_tick (s : State) : (s.takeFree.2).tick = s.tick := rfl
@[simp] theorem takeFree_timers (s : State) : (s.takeFree.2).timers = s.timers := rfl
@[simp] theorem takeFree_sense (s : State) : (s.takeFree.2).sense = s.sense := rfl
@[simp] theorem takeFree_touch (s : State) : (s.takeFree.2).touch = s.touch := rfl
@[simp] theorem takeFree_ring (s : State) : (s.takeFree.2).ring = s.ring := rfl
@[simp] theorem takeFree_pinna (s : State) : (s.takeFree.2).pinna = s.pinna := rfl
@[simp] theorem takeFree_io (s : State) : (s.takeFree.2).io = s.io := rfl
@[simp] theorem takeFree_disp (s : State) : (s.takeFree.2).disp = s.disp := rfl
@[simp] theorem takeFree_dma (s : State) : (s.takeFree.2).dma = s.dma := rfl
@[simp] theorem takeFree_power (s : State) : (s.takeFree.2).power = s.power := rfl
@[simp] theorem takeFree_cnt (s : State) : (s.takeFree.2).cnt = s.cnt := rfl
@[simp] theorem takeFree_mdl (s : State) : (s.takeFree.2).mdl = s.mdl := rfl
@[simp] theorem takeFree_sys (s : State) : (s.takeFree.2).sys = s.sys := rfl
@[simp] theorem takeFree_tb (s : State) : (s.takeFree.2).tb = s.tb := rfl
@[simp] theorem takeFree_ref (s : State) : (s.takeFree.2).ref = s.ref := rfl
@[simp] theorem takeFree_tbLatch (s : State) : (s.takeFree.2).tbLatch = s.tbLatch := rfl
@[simp] theorem takeFree_readOut (s : State) : (s.takeFree.2).readOut = s.readOut := rfl

/-! ## State.idle -/

@[simp] theorem idle_pending (s : State) : (s.idle).pending = s.pending := by
  unfold State.idle; split <;> rfl
@[simp] theorem idle_regs (s : State) : (s.idle).regs = s.regs := by
  unfold State.idle; split <;> rfl
@[simp] theorem idle_cores (s : State) : (s.idle).cores = s.cores := by
  unfold State.idle; split <;> rfl
@[simp] theorem idle_coh (s : State) : (s.idle).coh = s.coh := by
  unfold State.idle; split <;> rfl
@[simp] theorem idle_dram (s : State) : (s.idle).dram = s.dram := by
  unfold State.idle; split <;> rfl
@[simp] theorem idle_memctl (s : State) : (s.idle).memctl = s.memctl := by
  unfold State.idle; split <;> rfl
@[simp] theorem idle_sorus (s : State) : (s.idle).sorus = s.sorus := by
  unfold State.idle; split <;> rfl
@[simp] theorem idle_sorusCtl (s : State) : (s.idle).sorusCtl = s.sorusCtl := by
  unfold State.idle; split <;> rfl
@[simp] theorem idle_nor (s : State) : (s.idle).nor = s.nor := by
  unfold State.idle; split <;> rfl
@[simp] theorem idle_struct (s : State) : (s.idle).struct = s.struct := by
  unfold State.idle; split <;> rfl
@[simp] theorem idle_outs (s : State) : (s.idle).outs = s.outs := by
  unfold State.idle; split <;> rfl
@[simp] theorem idle_tick (s : State) : (s.idle).tick = s.tick := by
  unfold State.idle; split <;> rfl
@[simp] theorem idle_timers (s : State) : (s.idle).timers = s.timers := by
  unfold State.idle; split <;> rfl
@[simp] theorem idle_sense (s : State) : (s.idle).sense = s.sense := by
  unfold State.idle; split <;> rfl
@[simp] theorem idle_touch (s : State) : (s.idle).touch = s.touch := by
  unfold State.idle; split <;> rfl
@[simp] theorem idle_ring (s : State) : (s.idle).ring = s.ring := by
  unfold State.idle; split <;> rfl
@[simp] theorem idle_pinna (s : State) : (s.idle).pinna = s.pinna := by
  unfold State.idle; split <;> rfl
@[simp] theorem idle_io (s : State) : (s.idle).io = s.io := by
  unfold State.idle; split <;> rfl
@[simp] theorem idle_disp (s : State) : (s.idle).disp = s.disp := by
  unfold State.idle; split <;> rfl
@[simp] theorem idle_dma (s : State) : (s.idle).dma = s.dma := by
  unfold State.idle; split <;> rfl
@[simp] theorem idle_power (s : State) : (s.idle).power = s.power := by
  unfold State.idle; split <;> rfl
@[simp] theorem idle_cnt (s : State) : (s.idle).cnt = s.cnt := by
  unfold State.idle; split <;> rfl
@[simp] theorem idle_mdl (s : State) : (s.idle).mdl = s.mdl := by
  unfold State.idle; split <;> rfl
@[simp] theorem idle_sys (s : State) : (s.idle).sys = s.sys := by
  unfold State.idle; split <;> rfl
@[simp] theorem idle_tbLatch (s : State) : (s.idle).tbLatch = s.tbLatch := by
  unfold State.idle; split <;> rfl
@[simp] theorem idle_readOut (s : State) : (s.idle).readOut = s.readOut := by
  unfold State.idle; split <;> rfl
@[simp] theorem idle_free (s : State) : (s.idle).free = s.free := by
  unfold State.idle; split <;> rfl

theorem takeFree_value (s : State) : s.takeFree.1 = Config.freeWord s.free := rfl
theorem takeFree_free (s : State) : s.takeFree.2.free = s.free + 1 := rfl

/-! ## Core.setReg (R91) -/

theorem reg_zero (k : Core) : k.reg 0 = 0 := rfl

theorem setReg_zero (k : Core) (v : Word) : k.setReg 0 v = k := rfl

theorem reg_setReg_same (k : Core) {r : Reg} (v : Word) (h : r ≠ 0) : (k.setReg r v).reg r = v := by
  simp [Core.reg, Core.setReg, h]

theorem reg_setReg_other (k : Core) {r q : Reg} (v : Word) (h : q ≠ r) : (k.setReg r v).reg q = k.reg q := by
  unfold Core.reg Core.setReg
  split
  · rfl
  · split
    · rfl
    · simp [Vector.getElem_set_ne _ _ (fun e => h (Fin.ext e.symm))]

@[simp] theorem setReg_b (k : Core) (r : Reg) (v : Word) : (k.setReg r v).b = k.b := by
  unfold Core.setReg; split <;> rfl
@[simp] theorem setReg_pc (k : Core) (r : Reg) (v : Word) : (k.setReg r v).pc = k.pc := by
  unfold Core.setReg; split <;> rfl
@[simp] theorem setReg_status (k : Core) (r : Reg) (v : Word) : (k.setReg r v).status = k.status := by
  unfold Core.setReg; split <;> rfl
@[simp] theorem setReg_fcs (k : Core) (r : Reg) (v : Word) : (k.setReg r v).fcs = k.fcs := by
  unfold Core.setReg; split <;> rfl
@[simp] theorem setReg_rsp (k : Core) (r : Reg) (v : Word) : (k.setReg r v).rsp = k.rsp := by
  unfold Core.setReg; split <;> rfl
@[simp] theorem setReg_rss (k : Core) (r : Reg) (v : Word) : (k.setReg r v).rss = k.rss := by
  unfold Core.setReg; split <;> rfl
@[simp] theorem setReg_rslo (k : Core) (r : Reg) (v : Word) : (k.setReg r v).rslo = k.rslo := by
  unfold Core.setReg; split <;> rfl
@[simp] theorem setReg_rshi (k : Core) (r : Reg) (v : Word) : (k.setReg r v).rshi = k.rshi := by
  unfold Core.setReg; split <;> rfl
@[simp] theorem setReg_lctl (k : Core) (r : Reg) (v : Word) : (k.setReg r v).lctl = k.lctl := by
  unfold Core.setReg; split <;> rfl
@[simp] theorem setReg_ls (k : Core) (r : Reg) (v : Word) : (k.setReg r v).ls = k.ls := by
  unfold Core.setReg; split <;> rfl
@[simp] theorem setReg_le (k : Core) (r : Reg) (v : Word) : (k.setReg r v).le = k.le := by
  unfold Core.setReg; split <;> rfl
@[simp] theorem setReg_lc (k : Core) (r : Reg) (v : Word) : (k.setReg r v).lc = k.lc := by
  unfold Core.setReg; split <;> rfl
@[simp] theorem setReg_mul (k : Core) (r : Reg) (v : Word) : (k.setReg r v).mul = k.mul := by
  unfold Core.setReg; split <;> rfl
@[simp] theorem setReg_cpoly (k : Core) (r : Reg) (v : Word) : (k.setReg r v).cpoly = k.cpoly := by
  unfold Core.setReg; split <;> rfl
@[simp] theorem setReg_save (k : Core) (r : Reg) (v : Word) : (k.setReg r v).save = k.save := by
  unfold Core.setReg; split <;> rfl
@[simp] theorem setReg_asid (k : Core) (r : Reg) (v : Word) : (k.setReg r v).asid = k.asid := by
  unfold Core.setReg; split <;> rfl
@[simp] theorem setReg_ptb1 (k : Core) (r : Reg) (v : Word) : (k.setReg r v).ptb1 = k.ptb1 := by
  unfold Core.setReg; split <;> rfl
@[simp] theorem setReg_vmid (k : Core) (r : Reg) (v : Word) : (k.setReg r v).vmid = k.vmid := by
  unfold Core.setReg; split <;> rfl
@[simp] theorem setReg_ptb2 (k : Core) (r : Reg) (v : Word) : (k.setReg r v).ptb2 = k.ptb2 := by
  unfold Core.setReg; split <;> rfl
@[simp] theorem setReg_ucnt (k : Core) (r : Reg) (v : Word) : (k.setReg r v).ucnt = k.ucnt := by
  unfold Core.setReg; split <;> rfl
@[simp] theorem setReg_tbhLatch (k : Core) (r : Reg) (v : Word) : (k.setReg r v).tbhLatch = k.tbhLatch := by
  unfold Core.setReg; split <;> rfl
@[simp] theorem setReg_fentry (k : Core) (r : Reg) (v : Word) : (k.setReg r v).fentry = k.fentry := by
  unfold Core.setReg; split <;> rfl
@[simp] theorem setReg_fstat (k : Core) (r : Reg) (v : Word) : (k.setReg r v).fstat = k.fstat := by
  unfold Core.setReg; split <;> rfl
@[simp] theorem setReg_run (k : Core) (r : Reg) (v : Word) : (k.setReg r v).run = k.run := by
  unfold Core.setReg; split <;> rfl
@[simp] theorem setReg_statusQueue (k : Core) (r : Reg) (v : Word) : (k.setReg r v).statusQueue = k.statusQueue := by
  unfold Core.setReg; split <;> rfl
@[simp] theorem setReg_slot (k : Core) (r : Reg) (v : Word) : (k.setReg r v).slot = k.slot := by
  unfold Core.setReg; split <;> rfl
@[simp] theorem setReg_waiting (k : Core) (r : Reg) (v : Word) : (k.setReg r v).waiting = k.waiting := by
  unfold Core.setReg; split <;> rfl
@[simp] theorem setReg_abandoned (k : Core) (r : Reg) (v : Word) : (k.setReg r v).abandoned = k.abandoned := by
  unfold Core.setReg; split <;> rfl
@[simp] theorem setReg_storeBuffer (k : Core) (r : Reg) (v : Word) : (k.setReg r v).storeBuffer = k.storeBuffer := by
  unfold Core.setReg; split <;> rfl
@[simp] theorem setReg_tlb (k : Core) (r : Reg) (v : Word) : (k.setReg r v).tlb = k.tlb := by
  unfold Core.setReg; split <;> rfl
@[simp] theorem setReg_predict (k : Core) (r : Reg) (v : Word) : (k.setReg r v).predict = k.predict := by
  unfold Core.setReg; split <;> rfl
@[simp] theorem setReg_contention (k : Core) (r : Reg) (v : Word) : (k.setReg r v).contention = k.contention := by
  unfold Core.setReg; split <;> rfl
@[simp] theorem setReg_events (k : Core) (r : Reg) (v : Word) : (k.setReg r v).events = k.events := by
  unfold Core.setReg; split <;> rfl
@[simp] theorem setReg_frame (k : Core) (r : Reg) (v : Word) : (k.setReg r v).frame = k.frame := by
  unfold Core.setReg; split <;> rfl
@[simp] theorem setReg_presented (k : Core) (r : Reg) (v : Word) : (k.setReg r v).presented = k.presented := by
  unfold Core.setReg; split <;> rfl
@[simp] theorem setReg_active (k : Core) (r : Reg) (v : Word) : (k.setReg r v).active = k.active := by
  unfold Core.setReg; split <;> rfl
@[simp] theorem setReg_virtCtl (k : Core) (r : Reg) (v : Word) : (k.setReg r v).virtCtl = k.virtCtl := by
  unfold Core.setReg; split <;> rfl
@[simp] theorem setReg_src63Active (k : Core) (r : Reg) (v : Word) : (k.setReg r v).src63Active = k.src63Active := by
  unfold Core.setReg; split <;> rfl
@[simp] theorem setReg_src63On (k : Core) (r : Reg) (v : Word) : (k.setReg r v).src63On = k.src63On := by
  unfold Core.setReg; split <;> rfl
@[simp] theorem setReg_src63Ts (k : Core) (r : Reg) (v : Word) : (k.setReg r v).src63Ts = k.src63Ts := by
  unfold Core.setReg; split <;> rfl

end Sys2Proof.Machine
end

