-- ==== Sys2Proof/WellFormed.lean ====
section
/-! DEFINITION. Which commands name something the module can be sent: the checks that the types of the operands do not
make. -/

namespace Sys2Proof

/-- An address of the 36-bit physical word address space (R760). -/
def addrOk (a : Nat) : Bool := decide (a < 2 ^ 36)

/-- The short form of an arithmetic operation is F48 alone (R132). -/
def fpFormOk (f : Form) (p : Prec) : Bool := !(f = .short && p = .s32)

/-- A line address (R366). -/
def lineOk (l : Nat) : Bool := decide (l < 2 ^ 33)

/-- A node address of the ring (R534). -/
def nodeOk (n : Nat) : Bool := decide (n < 4096)

/-- A short form exists for every operand that fits its narrower field (R103, R104): a signed field of w bits. -/
def shortOk (f : Form) (n w : Nat) (v : Int) : Bool :=
  match f with
  | .long => true
  | .short => decide (w ≤ n) && decide (-(2 ^ (w - 1) : Int) ≤ v) && decide (v < (2 ^ (w - 1) : Int))

/-- The NOR holds five areas that are read whole (R61, R684). -/
def norOk (n : NorReads) : Bool := (n.fails.all fun a => decide (a < 5)) && n.flips.all fun x => decide (x.1 < 5)

/-- What a start-up finds: a code for each channel at most, columns of the half-arrays of the 48 banks, of which a private
one has one (R449, R520, R521, R527). -/
def startOk (i : StartInput) : Bool :=
  decide (i.train.length ≤ 8) && norOk i.nor && i.badColumns.all fun c =>
    decide (c.1 < 48) && decide (c.2.1 < if c.1 < 32 then 2 else 1) && decide (c.2.2 < 56)

/-- A process section has 32 words (R533, R536). -/
def Section.wellFormed (x : Section) : Bool := decide (x.words.length = 32)

/-- A section in a retransmit slot is a header, a process section or a cell (R533, R546). -/
def Section.slotFormed (x : Section) : Bool := [4, 32, 16].contains x.words.length

/-- A cell's fields have their widths, and it has 15 payload words at most (R542). -/
def Cell.wellFormed (c : Cell) : Bool :=
  nodeOk c.dst && nodeOk c.src && decide (c.chan < 256) && decide (c.seq < 2048) && decide (c.words.length ≤ 15)

/-- A frame's header fields have their widths (R534), and its sections, cells and slots their numbers (R533). -/
def RingFrame.wellFormed (fr : RingFrame) : Bool :=
  nodeOk fr.master && nodeOk fr.hops && nodeOk fr.hnode && decide (fr.accDelay < 2 ^ 24) && decide (fr.periodNs < 2 ^ 24) &&
  decide (fr.values < 4096) && decide (fr.twins ≤ fr.values) && decide (1 ≤ fr.rtx) && decide (fr.rtx ≤ 15) &&
  decide (fr.sections.length = (fr.values + fr.twins + 31) / 32) && decide (fr.cells.length < 256) &&
  decide (fr.retrans.length = fr.rtx) && fr.sections.all (·.wellFormed) && fr.cells.all (·.wellFormed) &&
  fr.retrans.all fun o => o.all (·.slotFormed)

/-- The place of an error exists: an entry of a TLB of 48 or 2048 entries (R353), a word of a line or pair (R369). -/
def ErrorSite.wellFormed : ErrorSite → Bool
  | .core _ => true
  | .tlb _ which n => decide (n < if which = 2 then 2048 else 48)
  | .cached _ l w _ => lineOk l && decide (w < 16)
  | .l3 l w _ => lineOk l && decide (w < 16)
  | .slice _ _ => true

/-- Well-formedness of a command: every address lies in the physical map, every line and node number in its space, every
list has the length of what it stands for, and every short immediate fits its field. -/
def Instr.wellFormed : Instr → Bool
  | .registerWrite _ a _ => addrOk a
  | .tbLoRead .. => true
  | .frameTick raw => decide (raw.length = 32)
  | .structureRepair a => decide (a < 2 ^ 37)
  | .bandwidthWindowEnd | .counterRecordWrite | .frameStart .. => true
  | .safeStateEntry _ n => decide (n = 1) || (decide (3 ≤ n) && decide (n ≤ 6))
  | .tickHoldover | .clockFault .. | .powerUp | .supplyDip .. | .resetN .. | .debugReset
  | .referenceClockReturn .. => true
  | .moduleReset c i => decide (1 ≤ c) && decide (c ≤ 9) && startOk i
  | .clusterRelease => true
  | .stageTimeout st => decide (1 ≤ st) && decide (st ≤ 9)
  | .add .. | .sub .. | .and .. | .or .. | .xor .. | .andn .. | .sll .. | .srl .. | .sra .. | .rol .. | .slt ..
  | .sltu .. | .seq .. | .sne .. | .min .. | .max .. | .sle .. | .sleu .. | .minu .. | .maxu .. | .carry ..
  | .absd .. | .adds .. | .subs .. | .div .. | .divu .. | .rem .. | .remu .. | .hadd .. | .hsub .. | .hadds ..
  | .hsubs .. => true
  | .addi _ f _ _ imm => shortOk f 31 7 imm.toInt
  | .slli .. | .srli .. | .srai .. | .roli .. | .andi .. | .ori .. | .xori .. => true
  | .movi _ f _ imm => shortOk f 36 12 imm.toInt
  | .ldih .. | .addpc .. | .extu .. | .exts .. | .dep .. | .depz .. | .mov .. | .neg .. | .not .. | .abs ..
  | .clz .. | .ctz .. | .popc .. | .sxh .. | .sxb .. | .zxh .. | .zxb .. | .swph .. | .push .. | .pop ..
  | .lw .. | .sw .. | .load .. | .store .. | .indexedLoad .. | .indexedStore .. | .bankLoad .. | .bankStore ..
  | .setb .. | .storeBufferDrain .. | .sorusWriteBack .. | .fdiv ..
  | .fsqrt .. | .fma .. | .fms .. | .fnma .. | .fmax .. | .feq .. | .flt .. | .fle .. | .fclass ..
  | .fneg .. | .fabs .. | .fcvtF48I .. | .fcvtF48U .. | .fcvtIF48 .. | .fcvtUF48 .. | .fcvtF48S ..
  | .fcvtSF48 .. | .fcvtF48D64 .. | .fcvtD64F48 .. | .fcvtIF48Z .. | .fcvtF48H0 .. | .fcvtF48H1 .. | .fcvtIS ..
  | .fcvtSI .. | .mul .. | .mulu .. | .mac .. | .macu .. | .msu .. | .mulh .. | .mach .. | .mfplo ..
  | .mfphi .. | .mfpgd .. | .exta .. | .mtplo .. | .mtphi .. | .mtpgd .. | .clra .. | .multiplyUnitDue ..
  | .crcb .. | .crch .. | .crcw .. | .par .. | .parh .. | .parb .. | .brev8 .. | .brev24 .. | .brev48 ..
  | .loop .. | .lpop .. => true
  | .fadd _ f p _ _ _ => fpFormOk f p
  | .fsub _ f p _ _ _ => fpFormOk f p
  | .fmul _ f p _ _ _ => fpFormOk f p
  | .fmin _ f p _ _ _ => fpFormOk f p
  | .call _ f off _ => shortOk f 36 12 off.toInt
  | .callr .. | .ret .. | .rsw .. | .aadd .. | .aswp .. | .acas .. | .aor .. | .aand .. | .mfsr .. | .mtsr ..
  | .msset .. | .msclr .. => true
  | .eqz _ f _ off _ _ => shortOk f 31 7 off.toInt
  | .nez _ f _ off _ _ => shortOk f 31 7 off.toInt
  | .ltz _ f _ off _ _ => shortOk f 31 7 off.toInt
  | .gez _ f _ off _ _ => shortOk f 31 7 off.toInt
  | .lez _ f _ off _ _ => shortOk f 31 7 off.toInt
  | .gtz _ f _ off _ _ => shortOk f 31 7 off.toInt
  | .bodd _ f _ off _ _ => shortOk f 31 7 off.toInt
  | .bevn _ f _ off _ _ => shortOk f 31 7 off.toInt
  | .beq .. | .bne .. | .blt .. | .bge .. | .bltu .. | .bgeu .. | .bany .. | .bnone .. | .dbnz .. | .dbgz ..
  | .j .. | .jr .. | .sysc .. | .hcall .. | .mcall .. | .brk .. | .retx .. | .raise .. | .fend .. | .fence ..
  | .fenceIo .. | .fenceI .. | .dcClean .. | .dcFlush .. | .dcZero .. | .tlbiVa .. | .tlbiVaa .. | .tlbiAsid ..
  | .tlbiCtx .. | .tlbiAll .. | .tlbsync .. | .tlbBroadcastReceive .. | .out .. | .inb .. | .inf .. | .ftime ..
  | .fnum .. | .fbar .. | .checkstopRecord .. | .coreReset .. | .interruptSourceAssert ..
  | .interruptEntry .. | .intEoi .. | .intSwi .. | .intSrcStateWrite .. | .intSrcRouteWrite ..
  | .compareTimerFire .. | .timestampCapture .. | .tsCapPop .. | .wdogCtlWrite .. | .wdogKick ..
  | .watchdogStage1 .. | .watchdogStage2 .. => true
  | .machineCheck e => e.wellFormed
  | .deviceAccessTimeout _ a => decide (a.addr < 2 ^ 48)
  | .medullaWatchdogExpiry => true
  | .rdS _ _ l => lineOk l
  | .rdU _ l => lineOk l
  | .upg _ l => lineOk l
  | .rdUZ _ l => lineOk l
  | .rdIO l => lineOk l
  | .rdNC _ l => lineOk l
  | .wrNC _ l => lineOk l
  | .wrThru _ l => lineOk l
  | .wrStash l _ d t => lineOk l && decide (d.length = 8) && decide (t < 34)
  | .wrInv l _ d => lineOk l && decide (d.length = 8)
  | .atomF _ l => lineOk l
  | .clean _ l => lineOk l
  | .flush _ l => lineOk l
  | .putM _ l => lineOk l
  | .putE _ l => lineOk l
  | .putS _ l => lineOk l
  | .snpS _ l => lineOk l
  | .snpInv _ l => lineOk l
  | .snpData _ l => lineOk l
  | .snpStash _ l => lineOk l
  | .snpClean _ l => lineOk l
  | .rspAck _ l => lineOk l
  | .rspData _ l => lineOk l
  | .rspEIF _ l => lineOk l
  | .rspDecline _ l => lineOk l
  | .cmpAck _ l => lineOk l
  | .data _ l => lineOk l
  | .grantU _ l => lineOk l
  | .putAck _ l => lineOk l
  | .cmp _ l => lineOk l
  | .retry _ l => lineOk l
  | .retryBackoffExpiry _ l => lineOk l
  | .snoopTimeout _ l => lineOk l
  | .dramReadComplete l f g => lineOk l && decide (f.length ≤ 16) && decide (g.length ≤ 16)
  | .correctedWriteBack .. | .refresh .. => true
  | .patrolScrub f g => decide (f.length ≤ 16) && decide (g.length ≤ 16)
  | .rowCopyComplete .. | .frondCoreCtlStart .. | .park .. | .release .. | .lockstepMismatch ..
  | .lockstepPairRetirement .. | .tickPeriodWrite .. | .senseWrite | .cal .. | .offsetCalibrationEnd ..
  | .inputFault .. | .dacFault .. | .senseExcCfgWrite .. | .senseCtlWrite .. | .touchCtlWrite .. | .scanStart => true
  | .touchFrameWrite m r t n => decide (m.length = 3840) && decide (r.length = 80) && decide (t.length = 48) && decide (n.length = 16)
  | .ringFrameEmit => true
  | .ringFrame _ fr => fr.wellFormed
  | .link _ _ _ _ n _ => decide (n < 2048)
  | .dlyReq .. | .dlyRsp .. => true
  | .claim _ n _ => nodeOk n
  | .electionClaim | .masterHandover | .ringCopyLate .. | .ringRxAreaStatus | .linkDown .. | .linkTraining ..
  | .laneRetirement .. | .bypass .. | .wakePattern .. | .ringLayoutWrite .. | .ringRxBaseWrite .. | .run ..
  | .stop .. | .freeze .. | .thaw .. | .save .. | .send .. | .restore .. | .mbox .. => true
  | .migrationData n _ _ o w => nodeOk n && decide (o < 65536) && decide (w.length ≤ 14)
  | .migrationAck n _ _ o => nodeOk n && decide (o < 65536)
  | .migrationClaim n _ _ e => nodeOk n && decide (e < 2 ^ 24)
  | .migrationRelease n _ _ e => nodeOk n && decide (e < 2 ^ 24)
  | .migrationRefuse n _ _ e => nodeOk n && decide (e < 2 ^ 24)
  | .migrationResendTimeout .. | .claimTimeout .. => true
  | .pqTailWrite _ _ k _ => decide (k < 256)
  | .pqRestart _ _ k _ => decide (k < 256)
  | .pinnaQCfgWrite .. | .descriptorCompletion .. | .senseStreamCopy .. | .ethernetFrameReceive ..
  | .ethernetFrameTransmit .. | .gateCycleStart .. | .swap .. | .ethMdio .. | .ethernetLinkChange .. => true
  | .canFrameReceive _ _ _ fdf _ b => decide (b.length ≤ if fdf then 64 else 8)
  | .canFrameTransmit .. | .busOff .. | .busOffRecovery .. | .recover .. | .uartDataWrite .. | .uartDataRead ..
  | .uartCharacterReceive .. | .uartCharacterTransmit .. | .pcieLinkChange .. => true
  | .pcieInboundRequest _ _ _ n b => decide (n ≤ 4096) && decide (b.length ≤ 4096)
  | .pcieApertureCompletion .. | .pcieApertureTimeout .. | .configRead .. | .configWrite ..
  | .configCompletion .. => true
  | .usbSetup b => decide (b.length = 8)
  | .usbBusReset | .usbDescriptorCompletion .. | .usbEpRestart .. | .usbEpTailWrite .. | .commit ..
  | .verticalBlank .. | .underrun .. | .dispOutCtlWrite .. | .edpLinkTraining .. | .go .. => true
  | .xferComplete _ _ r => decide (r.length ≤ 3)
  | .dmaGo .. | .dmaChannelEnd .. | .pwrVoteGo .. | .forcedEntry .. | .quiescentEntry .. | .agree .. => true
  | .refuse _ r => decide (1 ≤ r) && decide (r ≤ 6)
  | .voteAnswerTimeout .. | .dormantWake .. => true
  | .wakeSource e => nodeOk e.node
  | .touchWakeScan l => decide (l.length = 80)
  | .updEnd m => norOk m.nor
  | .quiescentExit _ t => decide (t.length ≤ 8) && t.all fun x => decide (x = 0) || decide (x = 1) || decide (x = 3) || decide (x = 4)
  | .clkDomFreqWrite .. | .pwrDomPolicyWrite .. => true
  | .thermalMonitorRead d _ => decide (d.length = 8)
  | .undefinedEncoding _ f w => decide (f = .long) || decide (w.toNat < 2 ^ 24)
  | .mbxCmd .. | .mbxAck .. | .resultTimeout .. | .info .. | .updBegin .. | .updBlock ..
  | .updAbort .. | .activate .. | .confirm .. | .reset .. | .logRead .. | .retireReport .. | .retireList ..
  | .retireClear .. | .userWrite .. | .sessionTimeout | .logCopy | .rstCoreCtlStart .. | .dbgHoldWrite ..
  | .periodicZqRecalibration .. | .mdioFrameComplete .. | .usbLinkChange ..
  | .laneBlockLockLoss .. | .medullaLockstepMismatch => true

end Sys2Proof
end

