-- ==== Sys2Proof/Tests/Slice0.lean ====
section
/-! SUPPORT. Tests: an ill-formed term for each check of WellFormed; for every statement with hypotheses, clause by
clause, a concrete state and operands that meet them together, at the edges of their ranges; and small checks of values
that the manual's worked examples and tables give. -/

namespace Sys2Proof.Tests

open Sys2Proof Sys2Proof.Machine

set_option Elab.async false

/-! ## Words in which the witnesses are stated -/

/-- The state in which an instruction reaches its effect, if it does. -/
def issuedAt (s : State) (c : CoreId) (d : Shape) : Option State :=
  if canIssue s c && !((issueStatus s c).core c).inAnnulled then match fetch (issueStatus s c) c with
    | .ok t => if refusedBy (t.core c) c d = none then some t else none
    | _ => none
  else none

/-- An instruction that issues, in a state of which P holds. -/
theorem meets {s : State} {c : CoreId} {d : Shape} {P : State → Prop} [DecidablePred P]
    (h : (match issuedAt s c d with
      | some t => decide (P t)
      | none => false) = true) : ∃ t, Issues s c d t ∧ P t := by
  unfold issuedAt at h
  split at h
  · next t ht =>
    split at ht
    · next hc =>
      split at ht
      · next u hf =>
        split at ht
        · next hr =>
          simp only [Option.some.injEq] at ht
          subst ht
          simp only [Bool.and_eq_true, Bool.not_eq_true'] at hc
          exact ⟨u, ⟨hc.1, hc.2, hf, hr⟩, of_decide_eq_true h⟩
        · simp at ht
      · simp at ht
    · simp at ht
  · simp at h

/-- An instruction that issues. -/
theorem issues {s : State} {c : CoreId} {d : Shape} (h : (issuedAt s c d).isSome = true) : ∃ t, Issues s c d t := by
  have : ∃ t, Issues s c d t ∧ True := by
    apply meets
    revert h
    cases issuedAt s c d <;> simp
  exact ⟨this.choose, this.choose_spec.1⟩

/-- An instruction that an earlier check stops. -/
theorem rejects {s : State} {c : CoreId} {d : Shape} {e : Exc}
    (h : (canIssue s c && !((issueStatus s c).core c).inAnnulled && match fetch (issueStatus s c) c with
      | .ok t => decide (refusedBy (t.core c) c d = some e)
      | _ => false) = true) : ∃ t, Rejects s c d t e := by
  simp only [Bool.and_eq_true, Bool.not_eq_true'] at h
  obtain ⟨⟨h1, h2⟩, h3⟩ := h
  split at h3
  · next t ht => exact ⟨t, ⟨h1, h2, ht, of_decide_eq_true h3⟩⟩
  · simp at h3

/-- Admitted as a check. -/
def admits (s : State) (rq : Requester) (a : Nat) : Bool :=
  canAccess s rq && decide (verdict (count s 63 0x0B0) rq a true = .ok)

theorem admits_iff (s : State) (rq : Requester) (a : Nat) : admits s rq a = true ↔ Admitted s rq a := by
  simp only [admits, Bool.and_eq_true, decide_eq_true_eq]
  exact ⟨fun h => ⟨h.1, h.2⟩, fun h => ⟨h.can, h.ok⟩⟩

/-- PrivWord as a check. -/
def privWord (t : State) (i : Fin 16) (a : Nat) : Bool :=
  decide (0x810000000 + 0x4000 * i.val ≤ a) && decide (a < 0x810000000 + 0x4000 * i.val + 0x4000) &&
  (outputAt t a).isNone && !(sorusRaw t a).poison && decide ((sorusRaw t a).code = .good) && !sampleUnwritten t a &&
  !areaUnwritten t a && decide (a ≠ fld t.touch.ctl 35 0 + 0xFFF) && !clockStopped t 24 &&
  decide ((t.core (.frond i)).abandoned = [])

theorem privWord_iff (t : State) (i : Fin 16) (a : Nat) : privWord t i a = true ↔ PrivWord t i a := by
  simp only [privWord, Bool.and_eq_true, decide_eq_true_eq, Bool.not_eq_true', Option.isNone_iff_eq_none]
  constructor
  · rintro ⟨⟨⟨⟨⟨⟨⟨⟨⟨a, b⟩, c⟩, d⟩, e⟩, f⟩, g⟩, h⟩, k⟩, l⟩
    exact ⟨a, b, c, ⟨d, e⟩, f, g, h, k, l⟩
  · rintro ⟨a, b, c, ⟨d, e⟩, f, g, h, k, l⟩
    exact ⟨⟨⟨⟨⟨⟨⟨⟨⟨a, b⟩, c⟩, d⟩, e⟩, f⟩, g⟩, h⟩, k⟩, l⟩

/-! ## Small states -/

/-- A module after release. -/
def up : State := { State.reset with sys := { State.reset.sys with mode := .running } }

/-- Frond core 3 at word 0x100 of its private memory. -/
def f3 : CoreId := .frond 3
def onF (f : Core → Core) : State :=
  up.modCore f3 fun k => f { k with run := .running, pc := 0x1020018200 }

/-- Frond core 3 with its registers pointing into its private memory. -/
def sF : State := onF fun k => { k with
  g := (((k.g.set 1 0x81000C010).set 2 0x123456789ABC).set 4 3).set 31 0x81000C080
  b := k.b.set 1 0x81000, rsp := 0x81000C015, rss := 0x81000C01A }

/-- Application core 0 at word 0x100 of DRAM. -/
def onA (f : Core → Core) : State :=
  (regSet up aMemTop 0x8000).modCore (.app 0) fun k => f { k with run := .running, pc := 0x200 }
def sA : State := onA id

/-- The Medulla core at word 0x100 of DRAM, with DRAM up to word 0x8000. -/
def sM : State := (regSet up aMemTop 0x8000).modCore .medulla fun k => { k with run := .running, pc := 0x200, g := k.g.set 1 0x7FFF }

/-- The state after release with the debug port served. -/
def sD : State := { up with struct := { up.struct with image := { up.struct.image with sec0 := 8 } } }

/-! ## Witnesses: integer, floating-point, multiply, CRC (O8 to O25) -/

theorem witness_plain_issues :
    (∃ t, Issues sF f3 (plain .short) t) ∧ (∃ t, Issues sF f3 (plain .long) t) ∧ (∃ t, Issues sA (.app 0) (plain .short) t) ∧
    (∃ t, Issues sA (.app 0) (plain .long) t) ∧ (∃ t, Issues sM .medulla (plain .short) t) ∧
    ∃ t, Issues sM .medulla (plain .long) t :=
  ⟨issues (by decide +kernel), issues (by decide +kernel), issues (by decide +kernel), issues (by decide +kernel),
    issues (by decide +kernel), issues (by decide +kernel)⟩

theorem witness_fp_issues :
    (∃ t, Issues sF f3 (fpShape .short) t) ∧ (∃ t, Issues sF f3 (fpShape .long) t) ∧
    ∃ t, Issues sA (.app 0) (fpShape .long) t :=
  ⟨issues (by decide +kernel), issues (by decide +kernel), issues (by decide +kernel)⟩

/-- A field that R114 permits at both ends, and one refused on each ground. -/
theorem witness_bit_fields :
    (1 ≤ (48 : BitVec 6).toNat ∧ (0 : BitVec 6).toNat + (48 : BitVec 6).toNat ≤ 48) ∧
    (1 ≤ (1 : BitVec 6).toNat ∧ (47 : BitVec 6).toNat + (1 : BitVec 6).toNat ≤ 48) ∧
    (∃ t, Issues sF f3 (plain .long) t ∧ (t.core f3).slot = none ∧ (0 : BitVec 6).toNat = 0) ∧
    (∃ t, Issues sF f3 (plain .long) t ∧ 47 < (48 : BitVec 6).toNat) ∧
    ∃ t, Issues sF f3 (plain .long) t ∧ 48 < (1 : BitVec 6).toNat + (48 : BitVec 6).toNat :=
  ⟨by decide, by decide, meets (by decide +kernel), meets (by decide +kernel), meets (by decide +kernel)⟩

/-- The magnitude of a finite encoding, as FloatNearest reads it. -/
def magOf (f : Fmt) (x : Nat) : Option Nat := match unpack f x with
  | .fin _ m e => some (m * 2 ^ (e + 4000).toNat)
  | _ => none

/-- One rounds to a finite encoding in each format, and a lower and a higher finite encoding stand beside it. -/
theorem witness_FloatNearest :
    ∀ f ∈ [fmtF48, fmtS32, fmtD64], (-4000 : Int) ≤ 0 ∧ (magOf f (pack f 0 false 3 0).1).isSome = true ∧
      (magOf f (pack f 1 false 3 0).1).isSome = true ∧ magOf f (pack f 0 false 1 0).1 = some (2 ^ 4000) ∧
      2 ^ 4000 ≤ 3 * 2 ^ 4000 ∧ (magOf f (pack f 0 false 0 (-4000)).1).isSome = true := by decide +kernel

theorem witness_FloatNaN :
    (FVal.nan false).isNaN = true ∧ (FVal.nan true).isNaN = true ∧ (1 : Nat) ≠ 0 ∧ addV ∈ [addV, mulV, divV] :=
  ⟨by decide, by decide, by decide, by simp⟩

/-- The register pairs of the binary64 conversions: even and odd sources, even destinations, g30, odd destinations. -/
theorem witness_FloatConversions :
    (0 : Reg).val % 2 = 0 ∧ (30 : Reg).val % 2 = 0 ∧ ((28 : Reg).val % 2 = 0 ∧ (28 : Reg) ≠ 30) ∧
    (∃ t, Issues sF f3 (fpShape .long) t ∧ (31 : Reg).val % 2 = 1) ∧
    ∃ t, Issues sF f3 (fpShape .long) t ∧ ((1 : Reg).val % 2 = 1 ∨ (30 : Reg) = 30) :=
  ⟨by decide, by decide, by decide, meets (by decide +kernel), meets (by decide +kernel)⟩

/-- A multiply unit with a write in flight, and one with none. -/
def sMul : State := onF fun k => { k with mul := ⟨5, 0, [.setAcc 7 true]⟩ }

theorem witness_MultiplyReads :
    (sMul.core f3).mul.queue = .setAcc 7 true :: [] ∧ (sF.core f3).mul.queue = [] := by decide +kernel

theorem witness_ExtractResult :
    (∃ t, Issues sMul f3 (plain .long) t ∧ (t.core f3).mul.queue ≠ []) ∧
    (∃ t, Issues (onF fun k => { k with g := k.g.set 1 119, mul := ⟨-1, 0x18, []⟩ }) f3 (plain .long) t ∧
      ((t.core f3).reg 1).toNat % 128 < 120 ∧ fld (t.core f3).mul.pst 5 4 = 1) ∧
    (∃ t, Issues (onF fun k => { k with mul := ⟨-1, 0x28, []⟩ }) f3 (plain .long) t ∧
      ((t.core f3).reg 1).toNat % 128 < 120 ∧ fld (t.core f3).mul.pst 5 4 = 2) ∧
    ∃ t, Issues (onF fun k => { k with g := k.g.set 1 120, mul := ⟨-1, 0, []⟩ }) f3 (plain .long) t ∧
      120 ≤ ((t.core f3).reg 1).toNat % 128 :=
  ⟨meets (by decide +kernel), meets (by decide +kernel), meets (by decide +kernel), meets (by decide +kernel)⟩

theorem witness_CrcResults : (1 ≤ 1 ∧ 1 ≤ 32 ∧ 1 < 2 ^ 1) ∧ (1 ≤ 32 ∧ 32 ≤ 32 ∧ 2 ^ 32 - 1 < 2 ^ 32) := by decide

/-! ## Witnesses: control (O26 to O33) -/

theorem witness_transfer_issues :
    (∃ t, Issues sF f3 (transfer .short) t ∧ (1 : Reg) ≠ 0) ∧ (∃ t, Issues sF f3 (transfer .long) t) ∧
    ∃ t, Issues sA (.app 0) (transfer .long) t :=
  ⟨meets (by decide +kernel), issues (by decide +kernel), issues (by decide +kernel)⟩

/-- A branch at word 0xFE whose slot stands at word 0x100. -/
def branch (taken annulled : Bool) : Slot :=
  ⟨0x10200181FC, 0x1020018200, taken, 0x1020018300, annulled, some (2, 9), 0x81000C015, 0x81000C01A, true, false, 0, 0⟩

/-- Frond core 3 in the delay slot of such a branch. -/
def inSlotOf (taken annulled : Bool) : State := onF fun k => { k with slot := some (branch taken annulled) }

theorem witness_JumpResults_slot : ∃ t, Rejects (inSlotOf true false) f3 (transfer .long) t (exc 0x01 3) :=
  rejects (by decide +kernel)

theorem witness_SlotOutcome :
    (((inSlotOf true false).core f3).slot = some (branch true false) ∧ (branch true false).taken = true) ∧
    (((inSlotOf false false).core f3).slot = some (branch false false) ∧ (branch false false).taken = false) ∧
    canIssue (inSlotOf false true) f3 = true ∧
    ((issueStatus (inSlotOf false true) f3).core f3).inAnnulled = true := by decide +kernel

/-- Frond core 3 with n loop levels open, the innermost ending after a short instruction with cnt passes left. -/
def inLoop (n own : Nat) (cnt : Word) : State := onF fun k => { k with
  lctl := setFld (w48 n) (9 + 2 * (n - 1)) (8 + 2 * (n - 1)) own
  le := k.le.set (lvl (n - 1)) 0x1020018201, lc := k.lc.set (lvl (n - 1)) cnt, g := k.g.set 1 3 }

theorem witness_LoopResults :
    (∃ t, Issues sF f3 (transfer .long) t ∧ (2 : BitVec 31).toInt < 3) ∧
    (∃ t, Issues (inLoop 3 3 5) f3 (transfer .long) t ∧ 3 ≤ (3 : BitVec 31).toInt ∧ fld (t.core f3).lctl 1 0 = 3) ∧
    (∃ t, Issues (inLoop 2 3 5) f3 (transfer .long) t ∧ fld (t.core f3).lctl 1 0 ≠ 3 ∧ (t.core f3).reg 2 = 0) ∧
    (∃ t, Issues (inLoop 2 3 5) f3 (transfer .long) t ∧ fld (t.core f3).lctl 1 0 ≠ 3 ∧ (t.core f3).reg 1 ≠ 0) ∧
    (∃ t, Issues (inLoop 1 3 5) f3 (transfer .long) t ∧ fld (t.core f3).lctl 1 0 ≠ 0 ∧
      fld (t.core f3).lctl (9 + 2 * (fld (t.core f3).lctl 1 0 - 1)) (8 + 2 * (fld (t.core f3).lctl 1 0 - 1)) ≤ (t.core f3).pl) ∧
    (∃ t, Issues sF f3 (transfer .long) t ∧ fld (t.core f3).lctl 1 0 = 0) ∧
    ∃ t, Issues ((inLoop 1 3 5).modCore f3 fun k => { k with status := 0x072 }) f3 (transfer .long) t ∧
      (t.core f3).pl < fld (t.core f3).lctl (9 + 2 * (fld (t.core f3).lctl 1 0 - 1)) (8 + 2 * (fld (t.core f3).lctl 1 0 - 1)) :=
  ⟨meets (by decide +kernel), meets (by decide +kernel), meets (by decide +kernel), meets (by decide +kernel),
    meets (by decide +kernel), meets (by decide +kernel), meets (by decide +kernel)⟩

theorem witness_LoopEndTest :
    let at_ (s : State) : Word := pcOf f3 ((s.core f3).pc + w48 1)
    ((sF.core f3).slot = none ∧ fld (sF.core f3).lctl 1 0 = 0) ∧
    (let s := (inLoop 1 3 2).modCore f3 fun k => { k with pc := k.pc + 1 };
      fld (s.core f3).lctl 1 0 ≠ 0 ∧ at_ s ≠ (s.core f3).le[lvl (fld (s.core f3).lctl 1 0 - 1)]) ∧
    (let s := inLoop 3 3 2;
      let n := fld (s.core f3).lctl 1 0;
      n ≠ 0 ∧ at_ s = (s.core f3).le[lvl (n - 1)] ∧ (s.core f3).own (n - 1) = (s.core f3).pl ∧
      1 < ((s.core f3).lc[lvl (n - 1)]).toNat) ∧
    (let s := inLoop 1 3 1;
      fld (s.core f3).lctl 1 0 = 1 ∧ at_ s = (s.core f3).le[lvl 0] ∧ (s.core f3).own 0 = (s.core f3).pl ∧
      ((s.core f3).lc[lvl 0]).toNat ≤ 1) := by decide +kernel

/-- Frond core 3 with its return stack below its bound, guarded or not, the words below the pointers equal. -/
def calling (guarded : Bool) : State := onF fun k => { k with
  rsp := 0x81000C015, rss := 0x81000C01A, rshi := 0x81000C016, rslo := 0x81000C014
  status := if guarded then 0x0F73 else 0x0773 }

theorem witness_CallsAndReturns :
    (∀ b ∈ [true, false], (match issuedAt (calling b) f3 (transfer .short) with
      | some t => decide ((t.core f3).rsp < (t.core f3).rshi) && privWord t 3 (t.core f3).rsp.toNat &&
        privWord t 3 (t.core f3).rss.toNat && decide ((t.core f3).gx = b) && decide ((t.core f3).rslo < (t.core f3).rsp) &&
        privWord t 3 ((t.core f3).rsp - 1).toNat && privWord t 3 ((t.core f3).rss - 1).toNat &&
        decide (privGet t ((t.core f3).rss - 1).toNat = privGet t ((t.core f3).rsp - 1).toNat)
      | none => false) = true) ∧
    (∃ t, Issues (calling true) f3 (transfer .long) t) :=
  ⟨by decide +kernel, issues (by decide +kernel)⟩

theorem witness_ReturnStackBounds :
    (∃ t, Issues (onF fun k => { k with rsp := 0x1000, rshi := 0x1000 }) f3 (transfer .long) t ∧
      (t.core f3).rshi.toNat ≤ (t.core f3).rsp.toNat) ∧
    (∃ t, Issues (onF fun k => { k with rsp := 0x1000, rslo := 0x1000 }) f3 (transfer .short) t ∧
      (t.core f3).rsp.toNat ≤ (t.core f3).rslo.toNat) ∧
    ∃ t, Issues sF f3 (transfer .long) t ∧ (t.core f3).slot = none :=
  ⟨meets (by decide +kernel), meets (by decide +kernel), meets (by decide +kernel)⟩

/-! ## Witnesses: memory and special registers (O34 to O48) -/

theorem witness_LoadsFromSorus :
    (∃ t, Issues sF f3 (plain .short) t ∧ privWord t 3 ((t.core f3).reg 1 + (127 : BitVec 7).setWidth 48).toNat = true ∧
      privWord t 3 (w48 ((t.core f3).b[(1 : Fin 4)].toNat * 65536 + 0xFFFF)).toNat = true ∧
      privWord t 3 ((t.core f3).reg 31).toNat = true) ∧
    (∃ t, Issues sF f3 (plain .long) t ∧ privWord t 3 ((t.core f3).reg 1 + (-1 : BitVec 25).signExtend 48).toNat = true ∧
      privWord t 3 (eaIndex ((t.core f3).reg 1) ((t.core f3).reg 4) .byte).toNat = true ∧
      privWord t 3 ((t.core f3).reg 1 + 2 * (t.core f3).reg 4).toNat = true ∧
      privWord t 3 ((t.core f3).reg 1 + 2 * (t.core f3).reg 4 + 1).toNat = true) ∧
    ((Size.half = .half ∧ (1 : BitVec 3).toNat ≤ 1) ∧ (Size.byte = .byte ∧ (5 : BitVec 3).toNat ≤ 5) ∧
      (28 : Reg).val % 2 = 0 ∧ (28 : Reg) ≠ 30) :=
  ⟨meets (by decide +kernel), meets (by decide +kernel), by decide⟩

theorem witness_StoresToSorus :
    (∃ t, Issues sF f3 (plain .short) t ∧ privWord t 3 ((t.core f3).reg 1).toNat = true ∧
      privWord t 3 ((t.core f3).reg 31 - 1).toNat = true) ∧
    (∃ t, Issues sF f3 (plain .long) t ∧ privWord t 3 ((t.core f3).reg 1 + (0xFFFF : BitVec 25).signExtend 48 - 0xFFFF).toNat = true ∧
      privWord t 3 (eaIndex ((t.core f3).reg 1) ((t.core f3).reg 4) .half).toNat = true ∧
      privWord t 3 ((t.core f3).reg 1 + 2 * (t.core f3).reg 4 + 1).toNat = true) ∧ (30 : Reg).val % 2 = 0 :=
  ⟨meets (by decide +kernel), meets (by decide +kernel), by decide⟩

/-- The state after reset, and one with a listed word, have their memories in form. -/
theorem witness_StoreFrame : Memory.wf sF = true ∧ Memory.wf (privPut sF 0x81000C010 0) = true ∧
    Memory.wf (privPut sF 0x81000C010 5) = true := by decide +kernel

theorem witness_AtomicsOnSorus :
    (∃ t, Issues sF f3 (plain .long) t ∧ privWord t 3 ((t.core f3).reg 1).toNat = true ∧ (2 : BitVec 2) ≠ 3) ∧
    ∃ t, Issues sF f3 { plain .long with level := 1 } t ∧ privWord t 3 ((t.core f3).reg 31).toNat = true :=
  ⟨meets (by decide +kernel), meets (by decide +kernel)⟩

/-- Special registers at the ends of their ranges, readable and writable. -/
theorem witness_SpecialReads :
    (∃ t, Issues sF f3 (specShape (0x00 : BitVec 8).toNat true false) t ∧ specReg (0x00 : BitVec 8).toNat ≠ none) ∧
    (∃ t, Issues sF f3 (specShape (0x60 : BitVec 8).toNat true false) t ∧ specReg (0x60 : BitVec 8).toNat ≠ none) ∧
    (∃ t, Issues sA (.app 0) (specShape (0x50 : BitVec 8).toNat true false) t ∧ specReg (0x50 : BitVec 8).toNat ≠ none) ∧
    (sF.core f3).statusQueue = [] ∧
    ((onF fun k => { k with statusQueue := [⟨3, 2⟩] }).core f3).statusQueue = [] ++ [⟨3, 2⟩] :=
  ⟨meets (by decide +kernel), meets (by decide +kernel), meets (by decide +kernel), by decide +kernel, by decide +kernel⟩

theorem witness_SpecialWrites :
    (∃ t, Issues sF f3 (specShape 0x01 false true) t ∧ (match specReg 0x01 with
      | some r => r.wr.isSome
      | none => false) = true) ∧
    (∃ t, Issues sA (.app 0) (specShape 0x42 false true) t ∧ (match specReg 0x42 with
      | some r => r.wr.isSome
      | none => false) = true) ∧
    (∃ t, Issues sF f3 (specShape 0x70 false true) t ∧ (match specReg 0x70 with
      | some r => r.wr.isNone
      | none => false) = true) ∧
    ∃ t, Issues sF f3 (specShape 0x15 true true) t ∧ ¬(0x11 ≤ 0x15 ∧ 0x15 ≤ 0x14) :=
  ⟨meets (by decide +kernel), meets (by decide +kernel), meets (by decide +kernel), meets (by decide +kernel)⟩

theorem witness_StatusWriteDelay :
    let k (n : Nat) : Core := { Core.reset with statusQueue := [⟨3, n⟩] }
    (k 0).statusQueue = [⟨3, 0⟩] ∧ (StatusWrite.mk 3 0).left = 0 ∧ (k 1).statusQueue = [⟨3, 1⟩] ∧
    (StatusWrite.mk 3 1).left ≠ 0 := by decide

theorem witness_SystemCalls :
    (∃ t, Issues sA (.app 0) { plain .short with held := fun p => p = .A, noSlot := true } t) ∧
    (∃ t, Issues sA (.app 0) { plain .short with held := fun p => p = .A, level := 1 } t) ∧
    (∃ t, Issues sF f3 (plain .short) t) ∧
    (∃ t, Rejects sF f3 { plain .short with bad := some 1 } t (exc 0x01 1)) ∧
    (∃ t, Rejects (inSlotOf true false) f3 { plain .long with bad := some 1 } t (exc 0x01 1)) ∧
    (∃ t, Issues (onF fun k => { k with g := k.g.set 1 0x3E }) f3 { plain .long with level := 3 } t ∧
      classLevel ((((onF fun k => { k with g := k.g.set 1 0x3E }).core f3).reg 1).toNat % 64) ≠ none) ∧
    (∃ t, Issues sF f3 { plain .long with level := 3 } t ∧ classLevel (((sF.core f3).reg 0).toNat % 64) = none) ∧
    (sF.core f3).run = .running ∧ (State.reset.core f3).run ≠ .running :=
  ⟨issues (by decide +kernel), issues (by decide +kernel), issues (by decide +kernel), rejects (by decide +kernel),
    rejects (by decide +kernel), meets (by decide +kernel), meets (by decide +kernel), by decide +kernel, by decide +kernel⟩

/-- A core at PL1 with EML 0 takes a level-1 class; one with EML 2 escalates a level-2 class; EML 7 stops. -/
theorem witness_exceptions :
    (classLevel 0x08 = some 1 ∧ ((onF fun k => { k with status := 0x001 }).core f3).flushStatus.eml < 1) ∧
    (classLevel 0x3E = some 7 ∧ ((onF fun k => { k with status := 0x603 }).core f3).flushStatus.eml < 7) ∧
    (classLevel 0x02 = some 2 ∧ 2 ≤ ((onF fun k => { k with status := 0x201 }).core f3).flushStatus.eml ∧
      ((onF fun k => { k with status := 0x201 }).core f3).flushStatus.eml < 7) ∧
    (classLevel 0x3E = some 7 ∧ 7 ≤ (sF.core f3).flushStatus.eml ∧ (sF.core f3).flushStatus.eml = 7 ∧ f3 ≠ .medulla) := by
  decide +kernel

/-- A core at PL1 whose saved image is est. -/
def returning (st est : Word) : State := onF fun k => { k with status := st, save := k.save.set 0 ⟨0x1020018300, est, 0, 0, 0, 0⟩ }

theorem witness_ReturnFromException :
    (∃ t, Issues (returning 0x000 0) f3 { plain .short with noSlot := true } t ∧ ((t.core f3).flushStatus).pl = 0) ∧
    (∃ t, Issues (returning 0x301 0x002) f3 { plain .short with noSlot := true } t ∧
      (t.core f3).flushStatus.pl ≠ 0 ∧ (t.core f3).flushStatus.pl < fld (t.core f3).flushStatus.save[0].est 1 0) ∧
    (∃ t, Issues (returning 0x301 0x401) f3 { plain .short with noSlot := true } t ∧
      fld (t.core f3).flushStatus.save[0].est 1 0 ≤ (t.core f3).flushStatus.pl ∧
      topLevel (t.core f3).flushStatus.pl < fld (t.core f3).flushStatus.save[0].est 10 8) ∧
    ∃ t, Issues (returning 0x301 0x301) f3 { plain .short with noSlot := true } t ∧ (t.core f3).flushStatus.pl ≠ 0 ∧
      fld (t.core f3).flushStatus.save[0].est 1 0 ≤ (t.core f3).flushStatus.pl ∧
      fld (t.core f3).flushStatus.save[0].est 10 8 ≤ topLevel (t.core f3).flushStatus.pl :=
  ⟨meets (by decide +kernel), meets (by decide +kernel), meets (by decide +kernel), meets (by decide +kernel)⟩

theorem witness_BarriersAndMaintenance :
    (∃ t, Issues sA (.app 0) (plain .long) t ∧ (t.core (.app 0)).storeBuffer = []) ∧
    (∃ t, Issues (onA fun k => { k with storeBuffer := [⟨0, 0, 0, .writeBack, false, false, 0, 0⟩] }) (.app 0) (plain .long) t ∧
      (t.core (.app 0)).storeBuffer ≠ []) ∧
    ∃ t, Issues sM .medulla { plain .long with held := fun p => p ≠ .F, level := 1 } t ∧
      ((t.core .medulla).reg 1).toNat < memTop t ∧ ((t.core .medulla).reg 1).toNat < 0x800000000 ∧
      isCompl t ((t.core .medulla).reg 1).toNat = false ∧ (t.core .medulla).storeBuffer = [] ∧
      cacheLine t 32 (dataLine t (((t.core .medulla).reg 1).toNat / 8)) = none ∧
      setPeers t 32 (dataLine t (((t.core .medulla).reg 1).toNat / 8)) .l1d = [] :=
  ⟨meets (by decide +kernel), meets (by decide +kernel), meets (by decide +kernel)⟩

theorem witness_TlbMaintenance :
    (∃ t, Issues sA (.app 0) { plain .long with held := fun p => p = .A, level := 1 } t ∧
      (t.core (.app 0)).storeBuffer = [] ∧ syncReady t (.app 0) = true) ∧
    (∃ t, Issues sA (.app 0) { plain .long with held := fun p => p = .A, level := 2 } t ∧
      (t.core (.app 0)).storeBuffer = []) ∧
    (let s := { sA with sys := { sA.sys with tlbOps := [(0, ⟨true, 2, none, 5, 0⟩, [15, 33])] } };
      (0 : Fin 16) ≠ 15 ∧ s.sys.tlbOps = [((0 : Fin 16).val, ⟨true, 2, none, 5, 0⟩, [15, 33])] ∧
      (15 : Fin 16).val ∈ [15, 33] ∧ (s.core (.app 15)).storeBuffer = [] ∧ (s.core (.app 15)).waiting = none) :=
  ⟨meets (by decide +kernel), meets (by decide +kernel), by decide +kernel⟩

/-- Frond core 3 in tick group 1, whose outputs are number 0 and, of group 2, number 1. -/
def sOut : State :=
  { regSet sF (aGrpCfg 1) 0x8 with outs := [⟨0, 1, 0, 5, 6, 7, 8⟩, ⟨0, 2, 1, 5, 6, 7, 8⟩] }

theorem witness_FrameInstructions :
    (∃ t, Issues sOut f3 { plain .long with held := fun p => p = .F } t ∧
      t.outs[((t.core f3).reg 0).toNat % 512]? = some ⟨0, 1, 0, 5, 6, 7, 8⟩ ∧ groupOf t (3 : Fin 16).val = some 1 ∧
      t.outs[((t.core f3).reg 4).toNat % 512]? = none) ∧
    (∃ t, Issues (regFld sOut (aFrondStat 3) 47 46 1) f3 { plain .long with held := fun p => p = .F } t ∧
      frondState t (3 : Fin 16).val ≠ 2 ∧
      ∀ j : Fin 16, j ≠ 3 → (t.core (.frond j)).waiting ≠ some .barrier) ∧
    (sOut.core f3).abandoned = [] ∧ ∃ t, Issues sOut f3 { plain .short with held := fun p => p = .F, noSlot := true } t ∧
      ∀ j : Fin 16, j ≠ 3 → (t.core (.frond j)).waiting ≠ some .barrier :=
  ⟨meets (by decide +kernel), meets (by decide +kernel), by decide +kernel, meets (by decide +kernel)⟩

/-! ## Witnesses: register commands (O49 to O51) -/

/-- The released module with registers set. -/
def D (l : List (Nat × Word)) : State := l.foldl (fun s e => regSet s e.1 e.2) sD

/-- The released module with one domain enabled in a range of frequencies. -/
def withClock (s : State) (d : Nat) (w : Word) : State :=
  { s with struct := { s.struct with image := { s.struct.image with clock := (List.replicate 64 (0 : Word)).set d w } } }

/-- Application core 0 holds source 5 active. -/
def sAct : State := regSet (sA.modCore (.app 0) fun k => { k with active := [5] }) (aSrcState 5) 2

theorem witness_ControllerCommands :
    (canAccess sD .debug = true ∧ regBase ≤ regBase + 5 ∧ regBase + 5 < 0x810000000 ∧ inAperture (regBase + 5) = false ∧
      verdict (bridged sD) .debug (regBase + 5) true = .bad 2 (regBase + 5)) ∧
    (admits sD .debug (aTmrCmp 0) = true ∧ admits sD .debug (aTmrCmp 7) = true) ∧
    (canAccess sA (.core (.app 0)) = true ∧ verdict (bridged sA) (.core (.app 0)) aTbLo false = .ok) ∧
    (admits sD .debug aIntSwi = true ∧ fld (7 : Word) 2 0 = 7 ∧ fld (6 : Word) 2 0 ≠ 7) ∧
    (admits sD .debug aIntEoi = true ∧ fld (511 : Word) 8 0 = 511 ∧ 320 ≤ fld (320 : Word) 8 0 ∧ fld (510 : Word) 8 0 < 511) ∧
    ((5 : Nat) ≠ 63 ∧ admits sAct (.core (.app 0)) aIntEoi = true ∧ fld (5 : Word) 8 0 = 5 ∧ srcAct sAct 5 = true ∧
      regF sAct (aSrcState 5) 33 28 = rqNum (.core (.app 0))) ∧
    (admits sD .debug (aSrcState 0) = true ∧ isLevelSource 0 = false ∧ admits sD .debug (aSrcState 319) = true ∧
      isLevelSource 319 = false) ∧
    (admits sD .debug (aRoute 192) = true ∧ bit (regGet (bridged sD) (aRoute 192)) 8 = true) ∧
    (admits sD .debug (aRoute 0) = true ∧ coreEnabled (bridged sD) (fld (0 : Word) 14 9) = false) ∧
    (bit (regGet (bridged sD) (aRoute 0)) 8 = false ∧ coreEnabled (bridged sD) (fld (0x4000 : Word) 14 9) = true ∧
      fld (0x4000 : Word) 2 1 = 0) ∧
    (fld (0x4006 : Word) 2 1 ≠ 0 ∧ bit (0x4006 : Word) 35 = false ∧ coreEnabled (bridged sD) (fld (0x4006 : Word) 14 9) = true) ∧
    (admits sD .debug (aTsPop 0) = true ∧ admits sD .debug (aTsPop 3) = true ∧ bit (1 : Word) 0 = true) ∧
    (admits sD .debug (aWdogCtl 35) = true ∧ bit (regGet (bridged sD) (aWdogCtl 35)) 46 = false ∧
      bit (regGet (bridged sD) (aWdogCtl 35)) 47 = false ∧ bit (0x80000000EA60 : Word) 46 = false ∧
      bit (0x80000000EA60 : Word) 47 = true ∧
      fld (setFld (regGet (bridged sD) (aWdogCtl 35)) 31 0 (fld (0x80000000EA60 : Word) 31 0)) 15 0 = 60000) ∧
    (bit (regGet (bridged (D [(aWdogCtl 0, 0xC00000000001)])) (aWdogCtl 0)) 46 = true ∧
      bit (regGet (bridged (D [(aWdogCtl 0, 0xC00000000001)])) (aWdogCtl 0)) 47 = true ∧
      admits (D [(aWdogCtl 0, 0xC00000000001)]) .debug (aWdogCtl 0) = true) ∧
    (admits sD .debug (aWdogKick 0) = true ∧ kickAdmits (bridged sD) .debug 0 = false) ∧
    (admits sA (.core (.app 0)) (aWdogKick 0) = true ∧ kickAdmits (bridged sA) (.core (.app 0)) 0 = true ∧
      (0xA5C2 : Word) ≠ 0xA5C3 ∧ regF (bridged sA) (aWdogCtl 0) 33 32 < 2) ∧
    (let s := regSet sA (aWdogCtl 0) (mk 33 32 2);
      admits s (.core (.app 0)) (aWdogKick 0) = true ∧ kickAdmits (bridged s) (.core (.app 0)) 0 = true ∧
      2 ≤ regF (bridged s) (aWdogCtl 0) 33 32) := by decide +kernel

/-- Frond core 0 leads a lockstep pair of tick group 0. -/
def sPair : State := D [(aGrpCfg 0, 0x10003)]

/-- A Sorus bank granted to the sense writer and to the ring. -/
def sBank : State := D [(aSorBankCfg 0, 0x1800000000)]

theorem witness_ClusterCommands :
    (admits sPair .debug (aFrondCtl 1) = true ∧ isChecker (bridged sPair) 1 = true) ∧
    (admits sPair .debug (aFrondCtl 0) = true ∧ isChecker (bridged sPair) 0 = false ∧ bit (0 : Word) 46 = false ∧
      bit (0 : Word) 47 = false) ∧
    (let s := D [(aFrondStat 5, 0x800000000000)];
      admits s .debug (aFrondCtl 5) = true ∧ isChecker (bridged s) 5 = false ∧
      frondState (plainWrite (bridged s) (aFrondCtl 5) 0x800000000000) 5 ≠ 0 ∧
      frondState (plainWrite (bridged s) (aFrondCtl 5) 0x400000000000) 5 = 2) ∧
    (let s := sD.modCore (.frond 15) fun k => { k with run := .parked };
      admits s .debug (aFrondCtl 15) = true ∧ frondState (plainWrite (bridged s) (aFrondCtl 15) 0x800000000000) 15 = 0 ∧
      ((plainWrite (bridged s) (aFrondCtl 15) 0x800000000000).core (.frond 15)).run = .parked) ∧
    (let s := D [(aGrpStat 3, 0x320)];
      admits s .debug (aGrpCtl 3) = true ∧ regB (bridged s) (aGrpStat 3) 5 = true ∧
      causePermits (regF (bridged s) (aGrpStat 3) 11 8) = true ∧ regB (bridged s) (aGrpStat 0) 5 = false) ∧
    (let s := { sD with struct := { sD.struct with image := { sD.struct.image with tick := [0x0186A0001388] } } };
      admits s .debug aTickPeriod = true ∧ tickMin s ≤ fld (0x1388 : Word) 23 0 ∧ fld (0x0186A0 : Word) 23 0 ≤ tickMax s ∧
      fld (0x1387 : Word) 23 0 < tickMin s ∧ tickMax s < fld (0x0186A1 : Word) 23 0) ∧
    (admits sD .debug (aSenseCfg 31) = true ∧ regB (bridged sD) (aSenseCfg 31) 36 = false ∧ fld (0 : Word) 43 40 = 0) ∧
    (admits sD .debug (aExcCfg 7) = true ∧ fld (0x1E00001194 : Word) 47 46 ≤ 2 ∧ fld (0x1E00001194 : Word) 12 0 = 4500 ∧
      fld (0x1E00001194 : Word) 39 32 = 30) ∧
    (let s := (List.range 7).foldl (fun s d => regSet s (aExcCfg d) 0x0F00000000) sD;
      otherLimits (bridged s) 7 + 15 = 120 ∧ 120 < otherLimits (bridged s) 7 + fld (0x1E00000000 : Word) 39 32 ∧
      regF (bridged s) (aExcCfg 7) 39 32 < fld (0x1E00000000 : Word) 39 32 ∧ admits s .debug (aExcCfg 7) = true) ∧
    (admits sBank .debug aSenseCtl = true ∧ fld (0x888820000000 : Word) 39 36 = 8 ∧ bit (0x888820000000 : Word) 47 = true ∧
      senseBankAt (bridged sBank) (fld (0x880820000000 : Word) 35 0) = true ∧
      fld (0x880820000000 : Word) 35 0 % (32 * 2 ^ fld (0x880820000000 : Word) 39 36) = 0 ∧
      ¬(fld (0x880820000001 : Word) 35 0 % (32 * 2 ^ fld (0x880820000001 : Word) 39 36) = 0)) ∧
    (admits sBank .debug aTouchCtl = true ∧ senseBankAt (bridged sBank) (fld (0x800820001000 : Word) 35 0) = true ∧
      fld (0x800820001000 : Word) 35 0 % 4096 = 0 ∧ ¬(fld (0x800820000800 : Word) 35 0 % 4096 = 0)) ∧
    (admits sD .debug aRingCtl = true ∧ 8 ≤ fld (0x11200001 : Word) 32 25 ∧ 1 ≤ fld (0x11200001 : Word) 24 21 ∧
      1 ≤ fld (0x11200001 : Word) 15 0 ∧ bit (0x11200001 : Word) 46 = false ∧ bit (0x11200001 : Word) 47 = false ∧
      rqLevel sD .debug = 3 ∧ ({ sD with sys := { sD.sys with bypass := false } }).sys.bypass = false) ∧
    (let s := sA.modCore (.app 0) fun k => { k with status := 0x002 };
      admits s (.core (.app 0)) aRingCtl = true ∧ rqLevel s (.core (.app 0)) ≠ 3) ∧
    (admits sD .debug aRingLayout = true ∧ fld (0x7D07CF00F000 : Word) 47 36 < fld (0x7D07D1001000 : Word) 35 24 ∧
      fld (0x7D07D0001000 : Word) 47 36 + fld (0x7D07D0001000 : Word) 35 24 = 4000 ∧ fld (0x7D07D0000000 : Word) 15 12 = 0) ∧
    (admits sBank .debug aRingRxBase = true ∧ fld (0 : Word) 35 0 = 0 ∧ fld (0x820000000 : Word) 35 0 % 0x4000 = 0 ∧
      bankGrants (bridged sBank) ((fld (0x820000000 : Word) 35 0 - 0x820000000) / 0x8000) .ring = true ∧
      fld (0x820002000 : Word) 35 0 % 0x4000 ≠ 0) := by decide +kernel

/-- The released module with 0x8000 words of DRAM and pinna instance i in a state. -/
def sPin (i st : Nat) : State := setPinState (regSet sD aMemTop 0x8000) i st

/-- Pinna instance 63 granted class 1 and RX, with limits of one queue and 16 descriptors, holding local queue 3. -/
def sQueue (st : Nat) : State :=
  let s := { sPin 63 st with struct := { sD.struct with image := { sD.struct.image with
    pinna := (List.replicate 64 (0 : Word)).set 63 0xFFF } } }
  let s := modInst s 63 fun x => { x with limit := 0x020010000000 }
  regSet (regSet s (aQCfg 7) (mk 47 47 1 ||| mk 45 44 1 ||| mk 43 38 63 ||| mk 37 30 3)) (aQRing 7) 4

/-- Instance 0 saved, with its record's place at word 0x1000 of DRAM and a job waiting. -/
def sJob (st job : Nat) (hdr : Word) : State :=
  let s := modInst (regSet (sPin 0 st) (aInstSave 0) 0x1000) 0 fun x => { x with job := job }
  dramPut s 0x1000 (containerOf hdr false 0x1000)

theorem witness_DeviceCommands_instances :
    (admits (sQueue 0) .debug (aInstCtl 63) = true ∧ pinState (bridged (sQueue 0)) 63 = 0 ∧
      bit (pinEntry (bridged (sQueue 0)) 63) 0 = true ∧ (sQueue 0).sys.recovery = false) ∧
    (admits (sPin 0 0) .debug (aInstCtl 0) = true ∧ pinState (bridged (sPin 0 0)) 0 = 0 ∧
      bit (pinEntry (bridged (sPin 0 0)) 0) 0 = false) ∧
    (∀ st ∈ [1, 2, 3, 5], admits (sPin 0 st) .debug (aInstCtl 0) = true ∧ pinState (bridged (sPin 0 st)) 0 = st ∧
      st ≠ 0 ∧ st ≠ 4) ∧
    (admits (sPin 0 4) .debug (aInstCtl 0) = true ∧ pinState (bridged (sPin 0 4)) 0 = 4) ∧
    (let t := regFld (bridged (sPin 0 3)) (aInstStat 0) 23 0 (satN 24 (regF (bridged (sPin 0 3)) (aInstStat 0) 23 0 + 1));
      recordPlace t (regF t (aInstSave 0) 35 0) (saveRecord t 0).length = true) ∧
    (let t := regFld (bridged (setPinState sD 0 3)) (aInstStat 0) 23 0 (satN 24 (regF (bridged (setPinState sD 0 3)) (aInstStat 0) 23 0 + 1));
      pinState (bridged (setPinState sD 0 3)) 0 = 3 ∧ admits (setPinState sD 0 3) .debug (aInstCtl 0) = true ∧
      recordPlace t (regF t (aInstSave 0) 35 0) (saveRecord t 0).length = false) := by
  decide +kernel

/-- A whole operation that has ended, in a state of which p holds. -/
def ended {α : Type} (r : Whole α) (p : α → State → Bool := fun _ _ => true) : Bool :=
  match r with
  | .done x s => p x s
  | .held _ => false

/-- Every home slice is held by a clock fault. -/
def noHomes (s : State) : State := { s with sys := { s.sys with held := [16, 17, 18, 19] } }

theorem witness_DeviceCommands_jobs :
    (∀ j ∈ [0x10, 0x20, 0x40], let x := pinInst (sJob 3 j 0) 0
      x.recvWords.length ≤ x.recvDone ∧ x.job = j) ∧
    (let t := sJob 3 0x10 0;
      ended (bridgePuts t (regF t (aInstSave 0) 35 0) [0x481600010009, 0, 0, 0, 0, 0, 0, 0, 0x7111133E]) = true ∧
      ended (bridgePuts (noHomes t) (regF t (aInstSave 0) 35 0) [0x481600010009, 0, 0, 0, 0, 0, 0, 0, 0x7111133E]) = false) ∧
    (let t := sJob 3 0x20 0;
      recordPlace t (regF t (aInstSave 0) 35 0) (9 + 8 * (queuesOf t 0).length) = true ∧
      recordPlace (regSet t aMemTop 0) (regF t (aInstSave 0) 35 0) (9 + 8 * (queuesOf t 0).length) = false ∧
      ended (bridgeWords t (regF t (aInstSave 0) 35 0) (9 + 8 * (queuesOf t 0).length))
        (fun ws _ => decide (∀ w ∈ ws, w.2 = 0)) = true) ∧
    (let t := sJob 3 0x20 0;
      ended (bridgePut t (regF t (aInstSave 0) 35 0) 0 true none) (fun _ u =>
        ended (bridgeWords u (regF u (aInstSave 0) 35 0) (9 + 8 * (queuesOf u 0).length))
          (fun ws _ => decide (∃ w ∈ ws, w.2 ≠ 0))) = true) := by decide +kernel

/-- The record that SAVE writes of an instance that holds no queue: its header of 9 words, and its CRC. -/
theorem test_save_record : saveRecord (sJob 3 0x10 0) 0 = [0x481600010009, 0, 0, 0, 0, 0, 0, 0, 0x7111133E] := by
  decide +kernel

/-- RESTORE finds its header, and a record that passes, one that does not and one too long for its place. -/
theorem witness_DeviceCommands_restore :
    ended (bridgeWord (sJob 0 0x40 9) 0x1000) (fun w v => recordPlace v 0x1000 (fld w.1 15 0)) = true ∧
    ended (bridgeWord (sJob 0 0x40 0xFFFF) 0x1000) (fun w v => !recordPlace v 0x1000 (fld w.1 15 0)) = true ∧
    (let t := sJob 0 0x40 9;
      recordPlace t (regF t (aInstSave 0) 35 0) 1 = true ∧ recordPlace (regSet t aMemTop 0) 0x1000 1 = false ∧
      ended (bridgeWords t 0x1000 9) (fun ws z => decide (recordErr z 0 ws ≠ 0)) = true ∧
      recordErr t 0 [(0x481600010009, 0), (0, 0), (0, 0), (0, 0), (0, 0), (0, 0), (0, 0), (0, 0), (0x7111133E, 0)] = 0) := by
  decide +kernel

theorem witness_DeviceCommands_queues :
    (pinState (bridged (sQueue 1)) 63 ≠ 0 ∧ admits (sQueue 1) .debug (aPage 63 + 0x100 + 4 * (255 % 256)) = true ∧
      queueOf (bridged (sQueue 1)) 63 (255 % 256) = none ∧ pinState (bridged (sQueue 0)) 63 = 0) ∧
    (admits (sQueue 1) .debug (aPage 63 + 0x100 + 4 * (3 % 256)) = true ∧
      queueOf (bridged (sQueue 1)) 63 (3 % 256) = some 7 ∧
      (fld (16 : Word) 15 0 + 65536 - (pinQ (bridged (sQueue 1)) 7).head) % 65536 = 2 ^ qLog (bridged (sQueue 1)) 7 ∧
      2 ^ qLog (bridged (sQueue 1)) 7 < (fld (17 : Word) 15 0 + 65536 - (pinQ (bridged (sQueue 1)) 7).head) % 65536) ∧
    admits (sQueue 1) .debug (aPage 63 + 0x102 + 4 * (3 % 256)) = true ∧
    (let u := bridged (sQueue 0);
      let v : Word := mk 47 47 1 ||| mk 46 46 1 ||| mk 45 44 3 ||| mk 43 38 63 ||| mk 37 30 255;
      admits (sQueue 0) .debug (aQCfg 255) = true ∧ qEn u 255 = false ∧ bit (0 : Word) 47 = false ∧ bit v 47 = true ∧
      classGranted u (fld v 43 38) (fld v 45 44) = true ∧
      ((queuesOf u (fld v 43 38)).filter (· ≠ 255)).length + 1 ≤ maxQ u (fld v 43 38) ∧
      (∀ r ∈ (queuesOf u (fld v 43 38)).filter (· ≠ 255), qLocal u r ≠ fld v 37 30) ∧
      2 ^ qLog u 255 ≤ maxDesc u (fld v 43 38) ∧ qLog u 255 ≤ 12 ∧ (fld v 45 44 = 3 → bit v 46 = true)) ∧
    (let u := bridged (sQueue 0);
      classGranted u (fld (0x800000000000 : Word) 43 38) (fld (0x800000000000 : Word) 45 44) = false) := by decide +kernel

/-- Ethernet port 1 enabled with a largest frame of 9216 bytes. -/
def sEth : State := D [(aEth 1 0, 0x800000002400)]

theorem witness_DeviceCommands_io :
    (let w := setBit (regGet sEth (aEth 1 0)) 43 true;
      admits sEth .debug (aEth 1 0) = true ∧ fld w 46 45 ≠ 3 ∧ 64 ≤ fld w 13 0 ∧ fld w 13 0 ≤ 9216 ∧ bit w 47 = true) ∧
    (admits sD .debug (aEth 0 9) = true ∧ sD.io.mdioBusy.getD 0 false = false) ∧
    (let s := { sD with io := { sD.io with mdioBusy := [false, true] } };
      admits s .debug (aEth 1 9) = true ∧ s.io.mdioBusy.getD 1 false = true) ∧
    (admits sD .debug (aCan 0 0) = true ∧ admits sD .debug (aCan 7 0) = true ∧ admits sD .debug (aUart 0 1) = true ∧
      admits sD .debug (aUart 3 1) = true) ∧
    (canAccess sD .debug = true ∧ verdict (bridged sD) .debug (aUart 3 1) false = .ok ∧ uartRx (bridged sD) 3 = [] ∧
      uartRx (bridged (setRx sD 3 [5])) 3 = 5 :: [] ∧ verdict (bridged (setRx sD 3 [5])) .debug (aUart 3 1) false = .ok) ∧
    (admits sD .debug (aPcie 0x42) = true ∧ regB (bridged sD) (aPcie 0x41) 47 = false ∧
      regF (bridged sD) (aPcie 0x40) 47 40 = regF (bridged sD) (aPcie 0) 15 8) ∧
    (let u := bridged (D [(aPcie 0x40, 0x050000000000), (aPcie 0, 0x0405), (aPcie 0x41, 0x800000000000)]);
      regB u (aPcie 0x41) 47 = true ∧ regF u (aPcie 0) 15 8 < regF u (aPcie 0x40) 47 40 ∧
      regF u (aPcie 0x40) 47 40 ≤ regF u (aPcie 0) 7 0) ∧
    (let u := bridged (D [(aPcie 0x40, 0x060000000000), (aPcie 0, 0x0405)]);
      regB u (aPcie 0x41) 47 = false ∧ ¬(regF u (aPcie 0x40) 47 40 = regF u (aPcie 0) 15 8 ∨
        (regF u (aPcie 0) 15 8 < regF u (aPcie 0x40) 47 40 ∧ regF u (aPcie 0x40) 47 40 ≤ regF u (aPcie 0) 7 0))) ∧
    (let w := setBit (regGet (D [(aUsbEp 17 0, 0x4000000)]) (aUsbEp 17 0)) 43 true;
      admits (D [(aUsbEp 17 0, 0x4000000)]) .debug (aUsbEp 17 0) = true ∧ 8 ≤ fld w 26 16 ∧ fld w 26 16 = 1024) ∧
    (admits sD .debug (aUsbEp 0 2) = true ∧
      (fld (1 : Word) 15 0 + 65536 - regF (bridged sD) (aUsbEp 0 3) 15 0) % 65536 ≤ 2 ^ regF (bridged sD) (aUsbEp 0 1) 47 44 ∧
      2 ^ regF (bridged sD) (aUsbEp 0 1) 47 44 < (fld (2 : Word) 15 0 + 65536 - regF (bridged sD) (aUsbEp 0 3) 15 0) % 65536) := by
  decide +kernel

theorem witness_DeviceCommands_display_dma :
    admits sD .debug (aDisp 1) = true ∧
    (admits (D [(aDispOut 1 0, 0x800000000000)]) .debug (aDispOut 1 0) = true ∧
      regB (bridged (D [(aDispOut 1 0, 0x800000000000)])) (aDispOut 1 0) 47 = true ∧
      regF (bridged (D [(aDispOut 1 0, 0x800000000000)])) (aDispOut 1 4) 45 44 ≠ 3 ∧
      (let u := bridged (D [(aDispOut 1 0, 0x800000000000), (aDispOut 1 4, 0x300000000000)]);
        regB u (aDispOut 1 0) 47 = true ∧ regF u (aDispOut 1 4) 45 44 = 3)) ∧
    (let v : Word := mk 47 47 1 ||| mk 46 46 1 ||| mk 45 43 4 ||| mk 36 24 4500 ||| 600000;
      regB (bridged sD) (aDispOut 0 0) 47 = false ∧ 1 ≤ fld v 45 43 ∧ fld v 45 43 ≤ 4 ∧ (bit v 46 = true ∨ fld v 45 43 ≠ 3) ∧
      fld v 42 41 ≠ 3 ∧ 80 ≤ fld v 36 24 ∧ fld v 36 24 = 4500 ∧ bit v 47 = true ∧
      timingBad (bridged sD) 0 (fld v 23 0) = false ∧ timingBad (bridged sD) 0 (fld (600001 : Word) 23 0) = true) ∧
    (let s := D [(aDispOut 1 5, 0x400000000000)];
      admits s .debug (aDispOut 1 5) = true ∧ regB (bridged s) (aDispOut 1 5) 46 = true ∧
      regB (bridged sD) (aDispOut 0 5) 46 = false) ∧
    (let s := D [(aDma 7 3, 0x800000000000)];
      admits s .debug (aDma 7 2) = true ∧ regB (bridged s) (aDma 7 3) 47 = true) ∧
    (let u := bridged (D [(aMemTop, 0x8000)]);
      let t := dmaLine (plainWrite u (aDma 0 2) (setBit 3 47 true)) 0;
      regB u (aDma 0 3) 47 = false ∧ bit (3 : Word) 46 = false ∧
      ∀ k < fld (3 : Word) 23 0, dmaPlace t (regF t (aDma 0 0) 35 0 + k) false = true ∧
        dmaPlace t (regF t (aDma 0 1) 35 0 + k) true = true) := by decide +kernel

/-- A module with mailbox port 0 served, idle, posted, or with a result of SEQ 9. -/
def sMbx (posted ready : Bool) : State :=
  let s := { sD with struct := { sD.struct with image := { sD.struct.image with sec0 := 0xF } } }
  modPort (s.modCore .medulla fun k => { k with run := .running }) 0 fun x =>
    { x with posted := posted, ready := ready, stored := [0x0900000000] }

theorem witness_DeviceCommands_power_mailbox :
    (let t := regFld (bridged sD) aPwrVote 15 0 (fld (0 : Word) 15 0);
      admits sD .debug aPwrVote = true ∧ regF t aPwrVote 43 42 = 0 ∧ sD.power.startNext = false ∧
      bit (0 : Word) 46 = false ∧ bit (0 : Word) 45 = false ∧ rqLevel sD .debug = 3) ∧
    (let s := D [(aPwrVote, 0x040000000000)];
      admits s .debug aPwrVote = true ∧ regF (regFld (bridged s) aPwrVote 15 0 (fld (0 : Word) 15 0)) aPwrVote 43 42 ≠ 0) ∧
    (let s := withClock sD 63 (mk 47 46 3 ||| mk 45 24 100 ||| 200);
      admits s .debug (aClkFreq 63) = true ∧ bit (clockWord (bridged s) 63) 47 = true ∧ bit (clockWord (bridged s) 63) 46 = true ∧
      fld (clockWord (bridged s) 63) 45 24 ≤ fld (100 : Word) 23 0 ∧ fld (200 : Word) 23 0 ≤ fld (clockWord (bridged s) 63) 23 0 ∧
      fld (99 : Word) 23 0 < fld (clockWord (bridged s) 63) 45 24 ∧ fld (clockWord (bridged s) 63) 23 0 < fld (201 : Word) 23 0 ∧
      bit (clockWord (bridged s) 0) 46 = false ∧ bit (clockWord (bridged s) 0) 47 = false ∧ ((63 : Nat) < 20 ∨ 24 < (63 : Nat))) ∧
    (let s := D [(aPwrPolicy 0, 2)];
      admits s .debug (aPwrPolicy 0) = true ∧ fld (0x20000000000 : Word) 41 40 ≤ Nat.min (if runOnly 0 then 0 else 2) (regF (bridged s) (aPwrPolicy 0) 1 0) ∧
      fld (0x20000000000 : Word) 41 40 ≠ 3 ∧ admits s .debug (aPwrPolicy 63) = true ∧
      Nat.min (if runOnly 63 then 0 else 2) (regF (bridged s) (aPwrPolicy 63) 1 0) < fld (0x10000000000 : Word) 41 40) ∧
    (admits sD .debug (aMbx 0 0) = true ∧ served (bridged sD) 0 = false) ∧
    (admits (sMbx true false) .debug (aMbx 0 0) = true ∧ (port (bridged (sMbx true false)) 0).posted = true ∧
      (port (bridged (sMbx false true)) 0).ready = true) ∧
    (let s := sMbx false false;
      admits s .debug (aMbx 0 0) = true ∧ served (bridged s) 0 = true ∧ (port (bridged s) 0).posted = false ∧
      (port (bridged s) 0).ready = false) ∧
    (admits (sMbx false true) .debug (aMbx 0 0x20) = true ∧ admits (regSet (sMbx false true) (aPcie 0) 0x020000000000) .pcieHost (aMbx 1 0x20) = true ∧
      resultSeq (port (bridged (sMbx false true)) 0) = fld (0x090000000000 : Word) 47 40) ∧
    (let s := sD.modCore (.app 15) fun k => { k with run := .running };
      s.sys.held.contains 15 = false ∧ ({ s with sys := { s.sys with held := [15] } }).sys.held.contains 15 = true ∧
      admits s .debug (aRstCore 15) = true ∧ coreState (plainWrite (bridged s) (aRstCore 15) 0x800000000000) 15 ≠ 0 ∧
      admits s .debug (aRstCore 0) = true ∧ coreState (plainWrite (bridged s) (aRstCore 0) 0x800000000000) 0 = 0) ∧
    admits sD .debug aDbgHold = true := by decide +kernel

/-! ## Witnesses: events of the controller, the fabric and the memories (O52 to O55) -/

/-- Frond core 3 at PL1 with its mask at 0, presented edge source 5 at level 3 and priority 7. -/
def sPresent : State :=
  regSet (regSet ((onF fun k => { k with status := 0x001 })) (aRoute 5) (mk 14 9 19 ||| mk 7 5 7 ||| mk 2 1 3 ||| 1)) (aSrcState 5) 1

/-- A module whose Medulla core runs, with watchdogs 0, 31 and 35 counting from time 0 and a millisecond past. -/
def sDog (stage : Nat) : State :=
  let w : Word := mk 47 47 1 ||| mk 33 32 stage ||| mk 31 16 0 ||| 1
  { D [(aWdogCtl 0, w), (aWdogCtl 31, w), (aWdogCtl 35, w), (aGrpCfg 3, 0x8000)] with ref := 1000000 }

/-- A module in which the record of checkstopped Frond core 3 waits, and one in which it is logged. -/
def sStopped : State :=
  let s := (onF fun k => { k with run := .checkstopped }).modCore .medulla fun k => { k with run := .running }
  { s with mdl := { s.mdl with checkstops := [(19, 4, 5, 6, 7)], resettable := [19] } }

/-- The pad of a capture unit's function 7 is assigned by the image. -/
def padded (s : State) : State :=
  { s with struct := { s.struct with image := { s.struct.image with pads := [mk 35 28 7, mk 35 28 4] } } }

/-- Three structure registers are found wrong, one repaired within 24 h and one before. -/
def sMismatch : State := { sD with tb := 86400000000001, struct := { sD.struct with
  mismatched := [9, 8, 2 ^ 36 + 1], repairs := [(9, 1), (8, 0)] } }

theorem witness_ControllerEvents :
    (isLevelSource 64 = true ∧ isLevelSource 0 = false ∧ (64 : Nat) ≠ 63 ∧ isLevelSource 319 = false ∧ unitRuns sD 62 = true ∧
      sourcePadded sD 64 = true ∧ sourcePadded sD 319 = true ∧ sourcePadded sD 190 = false ∧
      unitRuns { sD with sys := { sD.sys with held := [62] } } 62 = false) ∧
    (isReservedSource 0 = false ∧ isReservedSource 310 = false ∧ Memory.wf sD = true ∧ srcLine sD 0 = false ∧
      srcLine (setEdgeInput sD 0 true) 0 = true) ∧
    (presentedNow sPresent f3 = some ⟨5, 7, 3, none, none⟩ ∧ selectSource sPresent (coreNum f3) = some ⟨5, 7, 3, none, none⟩ ∧
      (5 : Nat) ≠ 63 ∧ (3 : Nat) = (2 : Fin 3).val + 1 ∧ (sPresent.core f3).atBoundary = true ∧
      (sPresent.core f3).takesInterrupt ⟨5, 7, 3, none, none⟩ = true ∧ (sPresent.core f3).waiting = none ∧
      (sPresent.core f3).statusQueue = [] ∧ unitRuns sPresent 62 = true ∧ coreClocked sPresent f3 = true) ∧
    (let s := sPresent.modCore f3 fun k => { k with status := 0x071 };
      presentedNow s f3 = some ⟨5, 7, 3, none, none⟩ ∧
      { s.core f3 with status := (s.core f3).nextStatus }.takesInterrupt ⟨5, 7, 3, none, none⟩ = false) ∧
    (let s := { D [(aTmrCtl 7, 0xC00000000005), (aTmrCmp 7, 10)] with tb := 10 };
      s.timeCounts = true ∧ bit (regGet s (aTmrCtl 7)) 47 = true ∧ (s.tbl - regGet s (aTmrCmp 7)).toNat < 2 ^ 47) ∧
    (let s := padded (D [(aTsStat 3, 0x6000)]);
      regF s (aTsStat 3) 14 13 = 3 ∧ funcPlaced s (4 + 3) = true ∧ s.timeCounts = true ∧ funcPlaced s (4 + 0) = true ∧
      regF (D [(aTsStat 0, 0x2000)]) (aTsStat 0) 14 13 = 1 ∧ regF (D [(aTsStat 0, 0x4000)]) (aTsStat 0) 14 13 = 2) ∧
    (∀ w ∈ [0, 31, 35], wdogCounts (sDog 0) w = true ∧ fld (regGet (sDog 0) (aWdogCtl w)) 33 32 = 0 ∧
      wdogStart (sDog 0) w + fld (regGet (sDog 0) (aWdogCtl w)) 15 0 * 1000000 = (sDog 0).ref) ∧
    (∀ w ∈ [0, 31, 35], wdogCounts (sDog 1) w = true ∧ fld (regGet (sDog 1) (aWdogCtl w)) 33 32 = 1 ∧
      wdogStart (sDog 1) w + (fld (regGet (sDog 1) (aWdogCtl w)) 15 0 + fld (regGet (sDog 1) (aWdogCtl w)) 31 16) * 1000000 ≤
        (sDog 1).ref) ∧
    groupOf (logFault (regFld (sDog 1) (aWdogCtl 31) 33 32 2) 0x10 31 0 0 0) (31 - 16) = some 3 ∧
    ((∀ c, Requester.debug ≠ .core c) ∧ canAccess sD .debug = true ∧ regBase ≤ regBase ∧ regBase < 0x810000000) ∧
    ((sMbx false false).core .medulla).run = .running ∧
    ((∀ f ∈ [1, 2, 3, 4, 5], (sMbx false false).sys.mode ≠ .hold f) ∧ (sMbx false false).sys.mode = .running) ∧
    (sStopped.mdl.checkstops.find? (fun r => r.1 = coreNum f3) = some (19, 4, 5, 6, 7) ∧
      (sStopped.core .medulla).run = .running) ∧
    (sStopped.mdl.resettable.contains (coreNum f3) = true ∧ (sStopped.core f3).run = .checkstopped ∧
      debugHolds sStopped (coreNum f3) = false) ∧
    (let s := sMismatch;
      s.struct.mismatched.contains 9 = true ∧ s.struct.mismatched.contains 8 = true ∧
      s.struct.mismatched.contains (2 ^ 36 + 1) = true ∧ s.struct.pendingRepair.contains 9 = false ∧
      (∃ r ∈ s.struct.repairs, r.1 = 9 ∧ s.now ≤ r.2 + 86400000000000) ∧
      ∀ r ∈ s.struct.repairs, r.1 = 8 ∨ r.1 = 2 ^ 36 + 1 → r.2 + 86400000000000 < s.now) :=
  ⟨by decide +kernel, by decide +kernel, by decide +kernel, by decide +kernel, by decide +kernel, by decide +kernel,
    by decide +kernel, by decide +kernel, by decide +kernel, ⟨by simp, by decide +kernel⟩, by decide +kernel,
    by decide +kernel, by decide +kernel, by decide +kernel, by decide +kernel⟩

/-- A load of the Medulla core that its block does not answer. -/
theorem witness_ControllerEvents_timeout : ∃ t, Issues sM .medulla (plain .long) t ∧ (t.core .medulla).storeBuffer = [] ∧
    inAperture regBase = false := meets (by decide +kernel)

/-- A core with one status write inside its delay. -/
theorem witness_ControllerEvents_status :
    ((onF fun k => { k with statusQueue := [⟨3, 0⟩] }).core f3).statusQueue = [⟨3, 0⟩] ∧
    ((onF fun k => { k with statusQueue := [⟨3, 1⟩] }).core f3).statusQueue = [⟨3, 1⟩] := by decide +kernel

/-- DRAM up to word 0x8000, a message in flight, and the L3 holding line 5. -/
def sCoh (ms : List Msg) : State :=
  let s := regSet sD aMemTop 0x8000
  { s with coh := { s.coh with net := ms, l3 := [⟨5, false, false, false, List.replicate 8 (7, false)⟩] } }

/-- The same with a directory, transactions and waiting requests. -/
def sDir (dir : List DirEntry) (txns : List Txn) (waitq : List Msg) : State :=
  let s := sCoh []
  { s with coh := { s.coh with dir := dir, txns := txns, waitq := waitq } }

/-- Busy entries of one directory set. -/
def fullSet (k : Nat) : DirEntry := ⟨(k + 1) % 16 * 1114112 + (k + 1) / 16 * 285212672 + 5, false, false, true, 0, none⟩

/-- Nothing waits at the slices and no set overflows. -/
def alone (s : State) : Bool := s.coh.waitq.isEmpty && s.coh.dir.all fun x => x.overflow = none

/-- A request passed 16 times, and two of other classes. -/
def waiters (skips : Nat) : List Msg := [mkMsg .RdS 0 5, { mkMsg .RdU 1 5 with skips := skips }, mkMsg .RdS 16 5]

theorem witness_CoherenceRequests :
    (∀ t ∈ [MsgType.RdS, .RdU, .Upg, .RdUZ, .RdNC, .WrNC, .WrThru, .AtomF, .Clean, .Flush],
      (takeMsg (sCoh [mkMsg t 32 5]) t 32 5).isSome = true ∧ (takeMsg (sCoh [mkMsg t 0 5]) t 0 5).isSome = true) ∧
    (∀ t ∈ [MsgType.RdIO, .WrInv, .WrStash], takeMsg (sCoh []) t 33 5 = none ∧ laneOpen (sCoh []) (mkMsg t 33 5) = true ∧
      takeMsg (sCoh []) t 33 0xFFF = none ∧ laneOpen (sCoh []) (mkMsg t 33 0xFFF) = true) ∧
    (8 * 5 + 7 < memTop (sCoh []) ∧ dataLine (sCoh []) 5 = 5 ∧ 8 * 0xFFF + 7 < memTop (sCoh []) ∧
      dataLine (sCoh []) 0xFFF = 0xFFF ∧ 16 ≤ 16 ∧ 15 < 16) ∧
    (nextWaiting (waiters 16) = some (mkMsg .RdU 1 5 |> fun m => { m with skips := 16 }) ∧
      nextWaiting (waiters 15) = some (mkMsg .RdS 16 5) ∧ (∃ x ∈ waiters 16, 16 ≤ x.skips) ∧ ∀ x ∈ waiters 15, x.skips < 16) ∧
    deadAgent (regSet (sCoh []) aCohDead 0x100000000) 32 = true ∧
    (let s := sDir [] [⟨mkMsg .RdS 1 5, [], false, none, false, false, true, false, false, true⟩] [];
      deadAgent s 0 = false ∧ txnFind s 5 ≠ none ∧ alone s = true) ∧
    (let s := sDir ((List.range 16).map fullSet) [] [];
      deadAgent s 15 = false ∧ deadAgent s 32 = false ∧ txnFind s 5 = none ∧ dirFind s 5 = none ∧ dirRoom s 5 = .full ∧
      alone s = true ∧ (mkMsg .RdS 15 5).recalling = false) ∧
    (deadAgent (sCoh []) 0 = false ∧ txnFind (sCoh []) 5 = none ∧ dirFind (sCoh []) 5 = none ∧ dirRoom (sCoh []) 5 = .free ∧
      alone (sCoh []) = true ∧ (l3Find (sCoh []) 5).isSome = true ∧ l3Find (sCoh []) 6 = none ∧ txnFind (sCoh []) 6 = none ∧
      dirFind (sCoh []) 6 = none ∧ dirRoom (sCoh []) 6 = .free) ∧
    (let s := sDir [⟨5, true, false, false, vecSet 0 32 true, none⟩] [] [];
      deadAgent s 33 = false ∧ deadAgent s 32 = false ∧ txnFind s 5 = none ∧ alone s = true ∧
      dirFind s 5 = some ⟨5, true, false, false, vecSet 0 32 true, none⟩) ∧
    (let s := sDir [⟨5, false, false, false, vecSet 0 33 true, none⟩] [] [];
      deadAgent s 33 = false ∧ txnFind s 5 = none ∧ alone s = true ∧
      dirFind s 5 = some ⟨5, false, false, false, vecSet 0 33 true, none⟩) := by
  decide +kernel

/-- The same with line 5 in a cache of agent ag, and a transaction open on it. -/
def sOpen (ag : Nat) (st : LineState) (ms : List Msg) (sn : List Snoop) (stash granted : Bool) : State :=
  let s := sCoh ms
  { s with coh := { s.coh with
      caches := [⟨ag, 5, st, false, false, false, List.replicate 8 (9, false)⟩]
      dir := [⟨5, true, false, true, vecSet 0 ag true, none⟩]
      txns := [⟨{ mkMsg .RdU 1 5 with tgt := ag }, sn, true, none, false, false, granted, false, stash, false⟩] } }

/-- An invalidating snoop of agent 32 under tag 7, with what it has seen of the Put. -/
def snoopOf (awaitPut putSeen : Bool) : Snoop := ⟨32, .SnpInv, 7, 0, 10000, awaitPut, putSeen, none⟩

theorem witness_CoherenceAnswers :
    (∀ t ∈ [MsgType.SnpS, .SnpInv, .SnpData, .SnpClean, .SnpStash],
      (takeMsg (sCoh [mkMsg t 32 5]) t 32 5).isSome = true ∧ answersSnoops (sCoh [mkMsg t 32 5]) 32 = true ∧
      answersSnoops { sCoh [mkMsg t 32 5] with sys := { sD.sys with held := [25] } } 32 = false ∧
      cacheLine (sCoh []) 32 5 = none ∧ (cacheLine (sOpen 32 .M [] [] false false) 32 5).isSome = true) ∧
    (∀ st ∈ [LineState.M, .E, .S, .SM, .MI, .EI, .SI], (CacheLine.mk 0 5 st false false false []).st = st) ∧
    (coreOfAgent 15 = some (.app 15) ∧ regF (sCoh []) (aPwrPolicy 15) 47 46 < 2 ∧ ((sCoh []).core (.app 15)).run = .held ∧
      2 ≤ regF (regFld (sCoh []) (aPwrPolicy 15) 47 46 2) (aPwrPolicy 15) 47 46 ∧
      (let s := (sCoh []).modCore (.app 0) fun k => { k with run := .running };
        (s.core (.app 0)).run ≠ .held ∧ (s.core (.app 0)).run ≠ .checkstopped ∧ coreOfAgent 0 = some (.app 0)) ∧
      ∀ e ∈ (sCoh []).coh.caches, e.agent ≠ 15) := by decide +kernel

theorem witness_CoherenceAnswers_tags :
    (∀ t ∈ [MsgType.RspAck, .RspData, .RspDecline, .RspEIF], (takeMsg (sCoh [mkMsg t 32 5]) t 32 5).isSome = true ∧
      txnFind (sCoh []) 5 = none ∧
      (let s := sOpen 32 .M [mkMsg t 32 5] [snoopOf false false] false false;
        (takeMsg s t 32 5).isSome = true ∧ ∃ x ∈ s.coh.txns, txnFind s 5 = some x ∧
          ∀ y ∈ x.snoops, y.agent = 32 → y.tag ≠ (mkMsg t 32 5).txn)) ∧
    (∀ ty ∈ [MsgType.RspAck, .RspDecline, .RspData, .RspEIF],
      let s := sOpen 32 .M [{ mkMsg ty 32 5 with txn := 7 }] [snoopOf false false] false false
      (takeMsg s ty 32 5).isSome = true ∧ ∃ t ∈ s.coh.txns, txnFind s 5 = some t ∧ t.stashing = false ∧
        ∃ x ∈ t.snoops, x.agent = 32 ∧ x.tag = 7 ∧ x.awaitPut = false ∧
          ∀ y ∈ t.snoops, y.answers { mkMsg ty 32 5 with txn := 7 } = true → y.putSeen = false) ∧
    (let s := sOpen 32 .M [{ mkMsg .RspEIF 32 5 with txn := 7 }] [snoopOf false true] false false;
      (takeMsg s .RspEIF 32 5).isSome = true ∧ ∃ t ∈ s.coh.txns, txnFind s 5 = some t ∧
        ∃ x ∈ t.snoops, x.agent = 32 ∧ x.tag = 7 ∧ x.putSeen = true ∧ x.awaitPut = false) ∧
    (∀ ty ∈ [MsgType.RspAck, .RspDecline],
      let s := sOpen 32 .M [{ mkMsg ty 32 5 with txn := 7 }] [snoopOf false false] true false
      (takeMsg s ty 32 5).isSome = true ∧ ∃ t ∈ s.coh.txns, txnFind s 5 = some t ∧ t.stashing = true ∧
        ∃ x ∈ t.snoops, x.agent = 32 ∧ x.tag = 7) := by decide +kernel

theorem witness_CoherenceAnswers_grants :
    (let s := sOpen 1 .M [mkMsg .CmpAck 1 5] [] false true;
      (takeMsg s .CmpAck 1 5).isSome = true ∧ (∃ t ∈ s.coh.txns, txnFind s 5 = some t ∧ t.granted = true ∧ t.req.agent = 1) ∧
      (dirFind (txnDel s 5) 5).isSome = true) ∧
    (coreOfAgent 33 = none ∧ (takeMsg (sCoh [mkMsg .Data 33 5]) .Data 33 5).isSome = true ∧
      (takeMsg (sCoh [mkMsg .Cmp 33 5]) .Cmp 33 5).isSome = true) ∧
    (∀ r ∈ [MsgType.AtomF, .WrNC, .WrThru, .Clean, .Flush],
      ((takeMsg (sCoh [{ mkMsg .Cmp 0 5 with req := r }]) .Cmp 0 5).map fun m => m.1.req) = some r) ∧
    (atomicWaits { Core.reset with waiting := some (.atomicDone ⟨[], 2, .drop, [], false, none, false, false⟩ 40) } = true ∧ atomicWaits Core.reset = false) ∧
    (∀ r ∈ [MsgType.RdS, .RdNC, .RdUZ],
      ((takeMsg (sCoh [{ mkMsg .Data 0 5 with req := r }]) .Data 0 5).map fun m => m.1.req) = some r) := by decide +kernel

theorem witness_CoherenceAnswers_puts :
    ((takeMsg (sOpen 0 .SM [mkMsg .GrantU 0 5] [] false true) .GrantU 0 5).isSome = true ∧
      (takeMsg (sOpen 0 .MI [mkMsg .PutAck 0 5] [] false true) .PutAck 0 5).isSome = true ∧ LineState.MI.evicting = true) ∧
    (let s := { sCoh [mkMsg .Retry 33 5] with coh := { (sCoh []).coh with net := [mkMsg .Retry 33 5], refused := [mkMsg .RdIO 33 5] } };
      (takeMsg s .Retry 33 5).isSome = true ∧
      (s.coh.refused.find? fun x => x.agent = 33 && x.line = 5 && x.txn = (mkMsg .Retry 33 5).txn) = some (mkMsg .RdIO 33 5)) ∧
    (({ sCoh [] with coh := { (sCoh []).coh with retries := [mkMsg .RdIO 33 5] } }.coh.retries.find?
        fun m => m.agent = 33 && m.line = 5) = some (mkMsg .RdIO 33 5)) ∧
    (∀ t ∈ [MsgType.PutM, .PutE, .PutS], (takeMsg (sCoh [mkMsg t 32 5]) t 32 5).isSome = true ∧ dirFind (sCoh []) 5 = none ∧
      (let s := sCoh [mkMsg t 32 5];
        let s := { s with coh := { s.coh with dir := [⟨5, true, false, false, vecSet 0 32 true, none⟩] } };
        ((∃ e ∈ s.coh.dir, dirFind s 5 = some e ∧ e.vec.getLsbD 32 = true ∧ e.vec.getLsbD 31 = false) ∧ txnFind s 5 = none)) ∧
      (let s := sOpen 32 .M [mkMsg t 32 5] [snoopOf true false] false false;
        ∃ x ∈ s.coh.txns, txnFind s 5 = some x ∧ ∃ y ∈ x.snoops, y.agent = 32 ∧ y.awaitPut = true)) ∧
    (let s := sOpen 32 .M [] [snoopOf false false] false false;
      (∃ t ∈ s.coh.txns, txnFind s 5 = some t ∧ (t.snoops.find? fun x => x.agent = 32) = some (snoopOf false false)) ∧
      s.now < 0 + 10000 ∧ 0 + 10000 ≤ { s with tb := 10000 }.now ∧ homeHeld s 5 = false) := by
  decide +kernel

/-- A module whose controllers read, with one queued write-back. -/
def sMem : State :=
  { D [(aMemCtl, 0x8080), (aMemTop, 0x8000)] with
    memctl := { MemCtl.reset with writeBacks := [(5, [])], unreadable := false } }

/-- The same with every controller's domain held by a clock fault. -/
def sMemHeld : State := { sMem with sys := { sMem.sys with held := [24, 26, 27, 28, 29, 30, 31, 32, 33] } }

/-- A transaction of line 5 that waits for DRAM. -/
def sNeeds (s : State) : State :=
  { s with coh := { s.coh with txns := [⟨mkMsg .RdS 1 5, [], false, none, false, true, false, false, false, true⟩] } }

/-- The low word of a device-relaxed double-word. -/
def sbDev (pa : Nat) : SbEntry := ⟨pa, 1, 1, .deviceRelaxed, false, true, 0, 0⟩

theorem witness_MemoryEvents :
    (let s := sNeeds (sCoh []);
      let q := if ((frondReads s).any fun x => x.2 = 5) = true then count s (48 + (placeOf s 40).1) 0x52 else s;
      (∃ t ∈ s.coh.txns, txnFind s 5 = some t ∧ t.needDram = true) ∧ dramWaits { s with memctl := { s.memctl with unreadable := false } } 5 = false ∧
      isTwin (dramRead q 5 [] []).2 40 = false ∧
      l3Find (lineMoved (dramRead q 5 [] []).2 5 false) 5 ≠ none ∧
      l3Find (lineMoved (dramRead { q with coh := { q.coh with l3 := [] } } 5 [] []).2 5 false) 5 = none) ∧
    (dramWaits (sNeeds sMemHeld) 5 = true) ∧
    ((sMem.memctl.writeBacks.find? fun e =>
        (placeOf sMem (8 * e.1)).1 = 7 && !(clockStopped sMem (26 + 7) || rowCopying sMem e.1 || refreshFirst sMem e.1)) = some (5, []) ∧
      sMem.memctl.unreadable = false ∧ clockStopped sMem (26 + 7) = false ∧ clockStopped sMemHeld (26 + 7) = true ∧
      7 ∈ channelsIn sMem ∧ 6 ∉ channelsIn sMem ∧ sMem.memctl.refreshDue.getD 7 0 ≤ sMem.now) ∧
    (regB sMem aMemCtl 15 = true ∧ slotWaits sMem 0 = false ∧ isTwin sMem (8 * 0) = false ∧
      8 * scrubSkip (dramRead sMem 0 [] []).2 (0 + 1) 65 < memTop (dramRead sMem 0 [] []).2 ∧
      (let s := regFld sMem aMemScrub 32 0 0xFFF;
        slotWaits s 0xFFF = false ∧ isTwin s (8 * 0xFFF) = false ∧
        memTop (dramRead s 0xFFF [] []).2 ≤ 8 * scrubSkip (dramRead s 0xFFF [] []).2 (0xFFF + 1) 65)) ∧
    { sMem with memctl := { sMem.memctl with copies := [(7, 7)] } }.memctl.copies.contains (7, 7) = true ∧
    (∀ ty ∈ [MemType.uncached, .writeThrough, .writeBack],
      let s := (sCoh []).modCore (.app 15) fun k => { k with storeBuffer := [⟨40, 1, 1, ty, false, false, 0, 0⟩] }
      (s.core (.app 15)).storeBuffer = ⟨40, 1, 1, ty, false, false, 0, 0⟩ :: [] ∧ clockStopped s 15 = false ∧
      lineOwned s 15 (dataLine s (40 / 8)) = false ∧ lineEvicting s 15 (dataLine s (40 / 8)) = false ∧
      lineEvicting ((sOpen 15 .MI [] [] false false).modCore (.app 15) fun k => { k with storeBuffer := [⟨40, 1, 1, ty, false, false, 0, 0⟩] }) 15
        (dataLine s (40 / 8)) = true ∧
      lineOwned ((sOpen 15 .E [] [] false false).modCore (.app 15) fun k => { k with storeBuffer := [⟨40, 1, 1, ty, false, false, 0, 0⟩] }) 15
        (dataLine s (40 / 8)) = true) ∧
    (∀ pa ∈ [0x808000000, regBase],
      let s := sD.modCore (.app 0) fun k => { k with storeBuffer := [sbDev pa, sbDev (pa + 1)] }
      (s.core (.app 0)).storeBuffer = sbDev pa :: [sbDev (pa + 1)] ∧ (sbDev pa).sent = false ∧ clockStopped s 0 = false ∧
      (sbDev pa).low = true ∧ inAperture pa = decide (pa ≠ regBase)) ∧
    (let s := { sD with sorusCtl := { sD.sorusCtl with writeBacks := [(0x820000000 + 47 * 0x8000, ⟨5, false, .good⟩)] } };
      s.sorusCtl.writeBacks.find? (fun e => keyBank e.1 = keyBank (0x820000000 + 47 * 0x8000)) =
        some (0x820000000 + 47 * 0x8000, ⟨5, false, .good⟩) ∧ clockStopped s 24 = false ∧
      clockStopped { s with sys := sMemHeld.sys } 24 = true) := by decide +kernel

/-! ## Witnesses: events of the cluster, the ring, the units, power and the mailboxes (O56 to O60) -/

/-- The tick runs in master-alone state at a tick that is due, with tick groups 0 to 3 of one core each. -/
def sTick : State :=
  let s := D [(aTickStat, 2), (aTickCount, 1), (aGrpCfg 0, 1), (aGrpCfg 1, 0x40030), (aGrpCfg 3, 0x8000)]
  let s := { s with tick := { s.tick with running := true, next := 100, curNs := 1000 }, tb := 100 }
  (s.modCore (.frond 4) fun k => { k with run := .running })

/-- The ring state of a node that is up. -/
def sRing (st : Nat) : State := { setRingState sTick st with sys := { sTick.sys with bypass := false } }

theorem witness_ClusterEvents_tick :
    (sTick.tick.running = true ∧ sTick.tick.next ≤ sTick.now ∧ sTick.timeCounts = true ∧ ringState sTick ≠ 3) ∧
    (∀ g ∈ [0, 3], regGet sTick aTickCount ≠ 0 ∧ sTick.tick.started.contains g = false ∧
      regF sTick (aGrpCfg g) 39 24 ≤ (sTick.tbl - regGet sTick aTickLast).toNat) ∧
    ((sTick.core (frondId 4)).frame.resyncPending = false ∧
      ((sTick.modCore (frondId 4) fun k => { k with frame := { k.frame with resyncPending := true } }).core
        (frondId 4)).frame.resyncPending = true) ∧
    ((∀ st ∈ [RunState.held, .checkstopped], ((sTick.modCore (frondId 4) fun k => { k with run := st }).core (frondId 4)).run = st) ∧
      (sTick.core (frondId 4)).run = .running) ∧
    (regB sTick (aGrpStat 0) 5 = false ∧ ((1 : Nat) = 1 ∨ (3 ≤ 1 ∧ 1 ≤ 6)) ∧ (3 ≤ 6 ∧ 6 ≤ 6) ∧ ((2 : Nat) ≠ 1 ∧ (2 < 3 ∨ 6 < 2))) ∧
    (ringState (sRing 4) = 4 ∧ (sRing 4).tick.running = true ∧ (sRing 4).ring.header = false ∧
      (sRing 4).tick.next ≤ (sRing 4).now + 40) ∧
    (isPair sTick 2 = true ∧ (sTick.core (frondId 4)).run = .running ∧ (sTick.core (frondId 4)).frame.fendDone = false ∧
      (sTick.core (frondId 4)).frame.stopped = false ∧
      (let u := assertEdge (regAddSat (regAddSat sTick (aPairStat 2) 23 8 1) (aPairStat 2) 1 0 1) 22;
        frondState u 4 ≠ 1 ∧ groupOf u 4 = some 1 ∧ frondState (regFld u (aFrondStat 4) 47 46 1) 4 = 1)) ∧
    (let s := regFld sTick (aPairStat 2) 1 0 3;
      isPair s 2 = true ∧ regF s (aPairStat 2) 1 0 = 3 ∧ regB s (aPairStat 2) 2 = false ∧ groupOf s 4 = some 1) := by
  decide +kernel

theorem witness_ClusterEvents_counters_sense :
    (sTick.cnt.windowEnd = none ∧ { sTick with cnt := { sTick.cnt with windowEnd := some [] } }.cnt.windowEnd = some []) ∧
    (let s := { regSet sTick aMemTop 0x8000 with cnt := { sTick.cnt with record := [5, 6], recordAt := 0x100 } };
      s.cnt.record ≠ [] ∧ unitRuns s 60 = true ∧ ended (bridgePuts s (0x100 + 8) []) (fun _ s1 =>
        ended (bridgePuts s1 (0x100 + 1) [6, 7]) (fun _ s2 => ended (bridgePut s2 0x100 5 false none))) = true ∧
      ended (bridgePuts (noHomes s) (0x100 + 8) [6]) = false) ∧
    (sTick.sense.unwritten = false ∧ { sTick with sense := { sTick.sense with unwritten := true } }.sense.unwritten = true ∧ clockStopped sTick 24 = false ∧
      clockStopped { sTick with sys := { sTick.sys with held := [24] } } 24 = true) ∧
    ((modChan sTick 31 fun x => { x with calTicks := some 64 }).sense.chans.getD 31 SenseChan.reset).calTicks = some 64 ∧
    (sTick.sense.chans.getD 31 SenseChan.reset).calTicks ≠ some 64 ∧
    (frontRuns sTick (51 + 31 / 16) = true ∧ frontRuns sTick (51 + 0 / 16) = true ∧
      frontRuns { sTick with sys := { sTick.sys with held := [52] } } (51 + 31 / 16) = false ∧
      { sTick with tick := { sTick.tick with running := false } }.tick.running = false) ∧
    (sTick.sense.chans.length = 32 ∧ (sTick.sense.chans.getD 0 SenseChan.reset).outCount < 3 ∧
      3 ≤ ((modChan sTick 0 fun x => { x with outCount := 3, inCount := 3 }).sense.chans.getD 0 SenseChan.reset).outCount ∧
      3 ≤ ((modChan sTick 0 fun x => { x with outCount := 3, inCount := 3 }).sense.chans.getD 0 SenseChan.reset).inCount) ∧
    (let s (n : Nat) := modDac sTick 7 fun x => { x with applied := 0x400F00000000, bad := n, ok := n };
      fld ((s 3).sense.dacs.getD 7 DacState.reset).applied 47 46 ≠ 0 ∧ 3 ≤ ((s 3).sense.dacs.getD 7 DacState.reset).bad ∧
      clockStopped (s 3) (51 + 7 / 4) = false ∧ clockStopped (s 3) (51 + 0 / 4) = false ∧
      ((s 2).sense.dacs.getD 7 DacState.reset).bad < 3 ∧ 3 ≤ ((s 3).sense.dacs.getD 7 DacState.reset).ok) ∧
    (let s := regSet sTick aTouchCfg 0x000186A00001;
      s.tick.running = true ∧ unitRuns s 53 = true ∧ regGet s aTickCount ≠ 0 ∧ regGet s aTickCount ≠ s.touch.lastTick ∧
      regB s aTouchStat 1 = false ∧ regB (regFld s aTouchStat 1 1 1) aTouchStat 1 = true ∧
      regB (regSet s aTouchCtl 0x800000000000) aTouchCtl 47 = true) ∧
    (let s := regSet sTick aTouchCfg 0x000286A00001;
      (regGet (regSet s aTickCount 4) aTickCount).toNat % regF s aTouchCfg 47 32 = 0) ∧
    (let s := { regFld sTick aTouchStat 1 1 1 with touch := { Touch.reset with cfg := 0 } };
      regB s aTouchStat 1 = true ∧ frontRuns s 53 = true ∧ scanSteps s * fld s.touch.cfg 31 23 * 1000 ≤ (s.tbl - s.touch.startTb).toNat) := by
  decide +kernel

/-- A frame of master 7 with no sections and no cells, its lanes skew ns apart. -/
def frame (ok : Bool) (skew : Nat) : RingFrame :=
  let fr : RingFrame := ⟨2, 7, 1, 0, true, false, false, false, false, false, false, 0, 1000, 0, 0, 0, 0, [], [], [], skew⟩
  { fr with headerCheck := if ok then checkOf 0 (headerWords fr) else stompOf 0 (headerWords fr) }

theorem witness_RingEvents :
    (ringState (sRing 6) = 6 ∧ (sRing 6).sys.bypass = false ∧ (sRing 6).tick.running = true ∧ (sRing 6).ring.emitted = false ∧
      8 ≤ ((sRing 6).tbl - regGet (sRing 6) aTickLast).toNat) ∧
    (let s := regSet (sRing 2) (aRingPort 1) 0xB0;
      s.sys.bypass = false ∧ 2 ≤ ringState s ∧ linkUp s 1 = true ∧ portHears s 1 = true ∧ liveLanes s 1 = 2 ∧
      (received s 1 (frame true 17)).isNone = true ∧ received s 1 (frame true 16) = some (frame true 16) ∧
      headerIn (frame false 0) = none ∧ headerIn (frame true 16) = some (frame true 16) ∧
      ringState (bwAdd (noteBad s 1 (frame true 0)) 27 (frameBlocks (frame true 0))) < 6 ∧
      received { s with tick := { s.tick with running := false } } 1 (frame true 0) = some (frame true 0)) ∧
    (let s := { regSet (sRing 7) (aRingPort 0) 0x80 with tb := 0 };
      linkUp s 0 = true ∧ portHears s 0 = true ∧ liveLanes s 0 ≠ 2 ∧ 3 ≤ ringState s ∧
      s.now + blockNs (frame true 17) * frameBlocks (frame true 17) + 40 ≤ s.tick.next ∧
      received s 0 (frame true 17) = some (frame true 17) ∧
      (received { s with tb := 60 } 0 (frame true 0)).isNone = true ∧
      ringState (bwAdd (noteBad s 0 (frame true 0)) 25 (frameBlocks (frame true 0))) = 7) ∧
    (sectionGood 5 (sealSection 5 ⟨[1, 2], 0, 0⟩) = true ∧ sectionGood 5 ⟨[1, 2], 0, 0⟩ = false) ∧
    (let l : List Block := [⟨1, 0x123456789ABC⟩, ⟨1, 0⟩];
      (∀ b ∈ l, b.sync = 1) ∧ (⟨0, l, laneParity l⟩ : LaneIn).bip = laneParity l) ∧
    ((⟨3, 0⟩ : Block).sync = 3 ∧ (⟨0, 0⟩ : Block).sync = 0) ∧
    (modRing (sRing 4) fun r => { r with stuck := true }).ring.stuck = true := by decide +kernel

theorem witness_RingEvents_links :
    (let s := regSet (sRing 4) (aRingPort 1) 0xB0;
      linkUp s 1 = true ∧ portHears s 1 = true ∧ portSends s 1 = true ∧ regB s (aRingPort 1) 4 = true ∧ regB s (aRingPort 1) 5 = true ∧
      regB (laneErrors s 1 0 3) (aRingPort 1) 5 = true) ∧
    ((ringPort (modRingPort (sRing 4) 1 fun x => { x with dlyOpen := [9] }) 1).dlyOpen.contains (9 : BitVec 16) = true ∧
      (ringPort (sRing 4) 1).dlyOpen.contains (9 : BitVec 16) = false ∧ portHears (sRing 4) 1 = true ∧
      ([100] : List Nat).sum % ([100] : List Nat).length = 0) ∧
    (2 ≤ ringState (sRing 7) ∧ ringState (sRing 7) = 7 ∧ ringState (sRing 4) ≠ 7 ∧ electing (sRing 4) = false) ∧
    (let s := regSet (regSet (sRing 5) aRingCtl (mk 33 33 1)) aRingCfg (mk 47 36 9);
      electing s = true ∧ 8 < nodeNum s ∧ nodeNum s ≤ 9 ∧ s.ring.claimed = false ∧ s.ring.lowerClaim = false) ∧
    (let s := modRing (regFld (regSet (sRing 4) aRingCfg (mk 35 35 1)) aRingStat 32 32 1) fun r => { r with joinedFrames := 16 };
      regB s aRingCfg 35 = true ∧ ringState s = 4 ∧ 16 ≤ s.ring.joinedFrames ∧ regB s aRingStat 32 = true) ∧
    ((sRing 4).tick.next ≤ (sRing 4).now + 40 ∧ (sRing 4).ring.eastSeen = 0 ∧ (sRing 4).ring.lateEast = false ∧
      (sRing 4).ring.westSeen = 0 ∧ (sRing 4).ring.lateWest = false ∧ copyDue (sRing 4) false = true ∧
      copyDue (sRing 4) true = true) ∧
    (let c : SentCopy := ⟨1, frame true 0, 0, 3, 0, 0, 0, 0, []⟩;
      let s := modRing (sRing 6) fun r => { r with outFrames := [c] };
      2 ≤ ringState s ∧ (∃ c ∈ s.ring.outFrames, c.frame.west = false) ∧ copyDue s true = false) ∧
    ((sRing 4).ring.done = none ∧ linkUp (sRing 4) 0 = false ∧ linkUp (regFld (sRing 4) (aRingPort 0) 7 7 1) 0 = true) ∧
    (let s := regSet (sRing 2) aRingCfg (mk 33 30 15);
      ringState s ≠ 0 ∧ regF s aRingCfg (31 + 2 * 1) (30 + 2 * 1) = 3 ∧ regF s (aRingPort 1) 3 2 = 0 ∧ 2 ≤ ringState s ∧
      portHears s 1 = true ∧ portSends s 1 = true) ∧
    (ringState (sRing 1) = 1 ∧ Memory.wf (sRing 1) = true ∧ (sRing 1).ring.ports.length = 2 ∧
      (ringPort (sRing 1) (1 - 1)).training = false ∧
      (ringPort (modRingPort (sRing 1) 0 fun x => { x with training := true }) (1 - 1)).training = true) ∧
    (let s := regFld (regFld (sRing 4) aRingCtl 15 0 1) (aRingPort 1) 5 5 1;
      let t := modRing s fun r => { r with laneHistory := [(3, 100)] };
      let n (s : State) : Nat := (s.ring.laneHistory.filter fun e => e.1 = 3 && s.now ≤ e.2 + 1000000000).length;
      regF t aRingCtl 15 0 ≤ n t ∧ regB t (aRingPort 1) 5 = true ∧ n s < regF s aRingCtl 15 0) ∧
    (regB (sRing 4) (aRingPort 1) 1 = false ∧ regB (regFld (sRing 4) (aRingPort 1) 1 1 1) (aRingPort 1) 1 = true) := by
  decide +kernel


/-- A completed area to write, as the ring keeps it. -/
theorem witness_RingEvents_area :
    (modRing (sRing 4) fun r => { r with done := some ⟨0x820000000, 0x100, [1], 3, false, false, true, false, 5⟩ }).ring.done =
      some ⟨0x820000000, 0x100, [1], 3, false, false, true, false, 5⟩ := by decide +kernel

/-- The state with words in DRAM from a on. -/
def posted (s : State) (a : Nat) (l : List Word) : State :=
  (l.zip (upto l.length)).foldl (fun s e => dramPut s (a + e.2) (containerOf e.1 false (a + e.2))) s

/-- Queue 7 of instance 63 in state Run, of a class, TX or RX, with its ring at word 0x100, one descriptor posted (60 bytes
at word 0x200 unless len says otherwise, D2 zero) and d more in a transfer. -/
def sDesc (cls : Nat) (rx : Bool) (len : Nat) (fl : List Flight) : State :=
  let s := regSet (sQueue 1) (aQCfg 7) (mk 47 47 1 ||| mk 46 46 rx.toNat ||| mk 45 44 cls ||| mk 43 38 63 ||| mk 37 30 3 ||| mk 29 22 1)
  let s := regSet s (aQRing 7) 0x104
  let s := posted s 0x100 [0x200, mk 47 47 1 ||| mk 23 0 len]
  modQ s 7 fun x => { x with tail := 1, flights := fl }

/-- A destination in Off that accepts migration from instance 3 of node 2, and a source that sends three words. -/
def sMig (st : Nat) : State :=
  let s := regSet (sPin 5 st) (aInstMig 5) (mk 47 36 2 ||| mk 35 30 3 ||| mk 29 29 1)
  modInst s 5 fun x => { x with sendBuf := [1, 2, 3], recvWords := [20], sendFrames := 4, claimFrames := 4, claiming := true }

theorem witness_UnitEvents_migration :
    (unitRuns (sMig 0) 59 = true ∧ pinState (sMig 0) 5 = 0 ∧ regB (sMig 0) (aInstMig 5) 29 = true ∧ regF (sMig 0) (aInstMig 5) 47 36 = 2 ∧
      regF (sMig 0) (aInstMig 5) 35 30 = 3 ∧ 1 = (pinInst (sMig 0) 5).recvWords.length ∧
      regB (sMig 0) (aInstStat 5) 42 = false ∧
      recordPlace (sMig 0) (regF (sMig 0) (aInstSave 5) 35 0)
        (Nat.max (fld (((pinInst (sMig 0) 5).recvWords ++ [7]).getD 0 0) 15 0) ((pinInst (sMig 0) 5).recvWords ++ [7]).length) = true) ∧
    ((pinInst (sMig 3) 5).sendAcked < 3 ∧ 3 ≤ (pinInst (sMig 3) 5).sendBuf.length ∧ (pinInst (sMig 3) 5).sendAcked < 1) ∧
    (let s := modInst (sMig 4) 5 fun x => { x with recvWords := [0, mk 47 36 2 ||| mk 35 30 3 ||| mk 23 0 9] };
      claimOpen s 2 3 5 9 = true) ∧
    (pinState (sMig 3) 5 = 3 ∧ (pinInst (sMig 3) 5).sendBuf ≠ [] ∧ 4 ≤ (pinInst (sMig 3) 5).sendFrames ∧
      (pinInst (sMig 3) 5).sendTries ≠ 8 ∧ (pinInst (modInst (sMig 3) 5 fun x => { x with sendTries := 8 }) 5).sendTries = 8) ∧
    ((pinInst (sMig 4) 5).claiming = true ∧ pinState (sMig 4) 5 = 4 ∧ 4 ≤ (pinInst (sMig 4) 5).claimFrames ∧
      (pinInst (sMig 4) 5).claimTries ≠ 8 ∧ (pinInst (modInst (sMig 4) 5 fun x => { x with claimTries := 8 }) 5).claimTries = 8) := by
  decide +kernel

/-- A transfer of 64 bytes on queue 7. -/
def flight : Flight := ⟨63, true, List.replicate 64 5, none, 0⟩

/-- Ethernet port 1 up, with a frame to send on queue 7. -/
def sEthTx : State := regSet (sDesc 0 false 60 []) (aEth 1 0) (mk 47 47 1 ||| mk 41 41 1 ||| 9216)

/-- The rest of a frame of queue 7 still has to leave by port 1, the first part of which has left. -/
def cutting (s : State) : State :=
  { modQ s 7 fun x => { x with flights := [flight] } with
    tb := 100000, io := { s.io with ethCut := [⟨1, 7, List.replicate 64 1⟩], ethStart := [0, 0] } }

/-- The word at an address of DRAM is poisoned. -/
def spoiled (s : State) (a : Nat) : State := dramPut s a (containerOf 0 true a)

/-- Queue 7 takes the sense stream, whose slots stand in Sorus bank 0. -/
def sSlotQ : State :=
  let s := sDesc 3 true 216 []
  let s := { s with sense := { s.sense with ctl := 0x800820000000 } }
  regSet (modQ s 7 fun x => { x with copied := false }) (aSorBankCfg 0) 0x400000000

theorem witness_UnitEvents_queues :
    (let s := sDesc 0 false 64 [flight];
      let a := descAddr s 7 (pinQ s 7).head;
      let d3 : Word := mk 47 40 0 ||| mk 23 0 64;
      (pinQ s 7).ending = [] ∧ (pinQ s 7).flights = flight :: [] ∧ (s.io.ethCut.any fun k => k.q = 7) = false ∧
      flight.tx = true ∧ flight.aux = none ∧
      ended (descAt (jobBegun s (jobQueue 7)) 63 7 a) (fun d u => decide (d.2 = 0) &&
        ended (pinPuts u 63 7 a [(3, d3), (1, setBit (d.1.getD 1 0) 47 false)]) &&
        !ended (pinPuts (noHomes u) 63 7 a [(3, d3), (1, setBit (d.1.getD 1 0) 47 false)])) = true ∧
      ended (descAt (jobBegun (regSet s aMemTop 0) (jobQueue 7)) 63 7 a) (fun d _ => decide (d.2 = 1)) = true ∧
      ended (descAt (jobBegun (spoiled s 0x100) (jobQueue 7)) 63 7 a) (fun d _ => decide (d.2 = 2)) = true) ∧
    (let s := modQ (sDesc 0 false 64 []) 7 fun x => { x with ending := [(0x100, flight)] };
      (pinQ s 7).ending = (0x100, flight) :: [] ∧ (s.io.ethCut.any fun k => k.q = 7) = false) ∧
    (let s := cutting sEthTx;
      (s.io.ethCut.any fun k => k.q = 7) = true ∧ unitDown s 7 = false ∧ unitDown (regSet s (aEth 1 0) 0) 7 = true) ∧
    (let s := sSlotQ;
      unitRuns s 59 = true ∧ qEn s 7 = true ∧ qRx s 7 = true ∧ qClass s 7 = 3 ∧ (pinQ s 7).copied = false ∧
      s.sense.unwritten = false ∧ bit s.sense.ctl 47 = true ∧ rxState (pinState s (qInst s 7)) = true ∧ qRuns s 7 = true ∧
      qPosted s 7 = true ∧ qPosted (modQ s 7 fun x => { x with tail := 0 }) 7 = false ∧
      ended (readDesc (jobBegun s (jobStream 7)) (qInst s 7) 7 (pinQ s 7).head) (fun d s1 => decide (d.2 = 0) && decide (108 ≤ fld (d.1.getD 1 0) 23 0) &&
        decide ((pinQ s1 7).slots + 1 ≠ fld (d.1.getD 1 0) 23 0 / 108) && ended (slotReads s1 (slotBase s1) 18 []) (fun r s2 =>
          decide (r.2 = 0) && ended (pinWrites s2 (qInst s 7) 7 (d.1.getD 0 0 + w48 (18 * (pinQ s1 7).slots)) 108 0 r.1)
            (fun e _ => decide (e.1 = 0)))) = true) ∧
    (let s := regSet (sDesc 0 false 60 []) (aEth 1 0) (mk 47 47 1 ||| mk 41 41 1 ||| 9216);
      bit (regGet s (aEth 1 0)) 47 = true ∧ bit (regGet s (aEth 1 0)) 41 = true ∧ qClass s 7 = 0 ∧ qUnit s 7 = 1 ∧
      qRx s 7 = false ∧ qRuns s 7 = true ∧ qPosted s 7 = true ∧ unitSending s 0 1 = false ∧ unitRuns s (40 + 2 * 1) = true ∧
      unitRuns s 59 = true ∧ ended (txFetch s 7) (fun x u => decide (x.2.2 = 0) && launchPassed u x.1 &&
        gateLets u 1 (ethClass u 1 x.2.1) 60 && creditLets u 1 (ethClass u 1 x.2.1) && (cutOf u 1).isNone &&
        !unitSending u 0 1) = true) ∧
    (∀ e ∈ [(2 ^ 48 - 999999, true), (1, false)],
      ended (txFetch (posted { sEthTx with tb := 2 } 0x102 [w48 e.1]) 7) (fun x u => decide (x.2.2 = 0 ∧ x.1 = w48 e.1) &&
        launchPassed u x.1 && (decide (1000000 < (u.tbl - x.1).toNat) == e.2)) = true) ∧
    ended (txFetch (posted sEthTx 0x102 [5]) 7) (fun x u => decide (x.2.2 = 0) && !launchPassed u x.1) = true ∧
    (let s := regSet (sDesc 0 true 60 []) (aEth 1 0) (mk 47 47 1 ||| mk 41 41 1 ||| 9216);
      let bytes : List Byte := List.replicate 9212 0;
      unitRuns s (41 + 2 * 1) = true ∧ bytes.length + 4 ≤ fld (regGet s (aEth 1 0)) 13 0 ∧ fld (regGet s (aEth 1 0)) 13 0 < (0 :: bytes).length + 4 ∧
      rxQueue (count s 59 0x71) 0 1 (fun q => destMac bytes &&& regGet s (aQMask q) = regGet s (aQFilt q) &&& regGet s (aQMask q)) =
        some 7) ∧
    (let s := { D [(aEth 1 3, 1000), (aEth 1 0, mk 47 47 1)] with io := { sD.io with swapPending := [false, true], mdioBusy := [true, false] } };
      unitRuns s (40 + 2 * 1) = true ∧ regF s (aEth 1 3) 31 0 ≠ 0 ∧ cyclePos s 1 = some 0 ∧
      cyclePos { s with io := { s.io with gclStart := [0, 1] } } 1 = none ∧ s.io.swapPending.getD 1 false = true ∧
      s.io.mdioBusy.getD 0 false = true ∧
      (let u := { s with struct := { s.struct with image := { s.struct.image with pads := [mk 35 28 0x30, mk 35 28 0x31] } } };
        funcPlaced u (0x30 + 2 * 0) = true ∧ funcPlaced u (0x31 + 2 * 0) = true ∧ u.io.mdioBusy.getD 0 false = true)) := by decide +kernel

/-- A transmit gate that closes class 0 for the second half of its cycle, class 0 preemptable or not. -/
def sGate (pre : Bool) : State :=
  let s := regSet (regSet sEthTx (aEth 1 3) 4000) (aEth 1 0) (mk 47 47 1 ||| mk 41 41 1 ||| mk 40 33 pre.toNat ||| 9216)
  regSet (regSet s (gclAddr 1 0 0) (mk 47 40 0xFF ||| 2000)) (gclAddr 1 0 1) (mk 47 40 0xFE ||| 2000)

/-- A preempted frame goes on where its gate is open and the wire is free; a gate that closes cuts a preemptable frame; and
a class below its credit waits. -/
theorem witness_UnitEvents_preemption :
    (let s := cutting sEthTx;
      cutOf s 1 = some ⟨1, 7, List.replicate 64 1⟩ ∧ wireFree s 1 = true ∧ gateLets s 1 (sendingClass s 1 7) 64 = true ∧
      wireFree { s with io := { s.io with ethStart := [0, s.now + 1] } } 1 = false) ∧
    ((gateOpen (sGate true) 1 0).isSome = true ∧ preemptable (sGate true) 1 0 = true ∧ preemptable (sGate false) 1 0 = false ∧
      frameNs (sGate true) 1 60 ≤ ((gateOpen (sGate true) 1 0).getD 0) ∧ (gateCut (sGate true) 1 0 1500).isSome = true ∧
      gateLets (sGate false) 1 0 1500 = false) ∧
    (let s := regSet sEthTx (aEth 1 4) (mk 47 24 1000);
      let u := setCredit s 1 4 ⟨-1, s.now, false⟩;
      idleSlope s 1 4 ≠ 0 ∧ creditNow u 1 4 < 0 ∧ idleSlope sEthTx 1 4 = 0) := by decide +kernel

/-- CAN controller 1 and UART 3 enabled and placed on pads. -/
def sSerial (cls : Nat) (rx : Bool) : State :=
  let s := sDesc cls rx 8 []
  let s := { s with struct := { s.struct with image := { s.struct.image with
    pads := [mk 35 28 0x12, mk 35 28 0x13, mk 35 28 0x29, mk 35 28 0x2A] } } }
  regSet (regSet s (aCan 1 0) (mk 47 47 1)) (aUart 3 0) (mk 47 47 1)

theorem witness_UnitEvents_serial :
    (canLive (sSerial 2 true) 1 = true ∧ ([1, 2, 3, 4, 5, 6, 7, 8] : List Byte).length ≤ 8 ∧
      rxQueue (sSerial 2 true) 2 1 (fun q => canWord 5 false false false &&& regGet (sSerial 2 true) (aQMask q) =
        regGet (sSerial 2 true) (aQFilt q) &&& regGet (sSerial 2 true) (aQMask q)) = some 7) ∧
    (let s := sSerial 2 false;
      canLive s 1 = true ∧ regB s (aCan 1 0) 44 = false ∧ unitSending s 2 1 = false ∧ unitRuns s 59 = true ∧
      ended (canFirst s 1 none (upto 256)) (fun x _ => decide (x.map (·.1) = some 7)) = true ∧
      ended (canFirst s 1 none (upto 7)) (fun x _ => x.isNone) = true ∧
      ended (canFirst s 1 (some (3, 1, [])) (upto 256)) (fun x _ => x.isSome) = true) ∧
    unitRuns sD 54 = true ∧
    (regB (D [(aCan 7 0, mk 46 46 1 ||| mk 41 40 2)]) (aCan 7 0) 46 = true ∧
      regF (D [(aCan 7 0, mk 46 46 1 ||| mk 41 40 2)]) (aCan 7 0) 41 40 = 2) ∧
    (uartLive (sSerial 2 true) 3 = true ∧ uartTx (sSerial 2 true) 3 = [] ∧ regB (sSerial 2 true) (aUart 3 0) 41 = false ∧
      uartLive (regSet (sSerial 2 true) (aUart 3 0) (mk 47 47 1 ||| mk 41 41 1)) 3 = true ∧
      regB (regSet (sSerial 2 true) (aUart 3 0) (mk 47 47 1 ||| mk 41 41 1)) (aUart 3 0) 41 = true ∧ uartTx (setTx (sSerial 2 true) 3 [5]) 3 = 5 :: []) := by decide +kernel

/-- Signals placed on pads. -/
def placed (s : State) (l : List Nat) : State :=
  { s with struct := { s.struct with image := { s.struct.image with pads := l.map fun f => mk 35 28 f } } }

/-- The PCIe link up, as an endpoint or as a root port with a window on all of DRAM. -/
def sPcie (root : Bool) : State :=
  let s := D [(aMemTop, 0x8000), (aPcie 0, mk 41 41 1 ||| mk 46 46 root.toNat ||| mk 47 47 1 ||| mk 45 44 2 ||| mk 43 42 3)]
  { s with struct := { s.struct with image := { s.struct.image with sec0 := 2 } } }

theorem witness_UnitEvents_pcie_usb :
    (let ctl := regGet (sPcie true) (aPcie 0);
      pcieRuns (sPcie true) = true ∧ bit ctl 47 = true ∧ bit ctl 41 = true ∧ 4 ≤ 2 ^ fld ctl 45 44 ∧ 3 ≤ fld ctl 43 42) ∧
    bit (regGet sD (aPcie 0)) 47 = false ∧ (regB (sPcie true) (aPcie 0) 46 = true ∧ funcPlaced sD 0x38 = false) ∧
    (pcieRuns (sPcie false) = true ∧ (sPcie false).io.pcieIn = [] ∧
      ended (winRead (jobBegun { sPcie true with io := { (sPcie true).io with pcieIn := [⟨0x100, 0, false, 8, []⟩] } } jobPcie) 0x100 0 8) = true ∧
      ended (winRead (jobBegun (noHomes { sPcie true with io := { (sPcie true).io with pcieIn := [⟨0x100, 0, false, 8, []⟩] } }) jobPcie)
        0x100 0 8) = false ∧ regInfo (aMbx 1 0) ≠ none ∧ bit (sPcie false).struct.image.sec0 1 = true) ∧
    (∀ root ∈ [true, false], let s := sPcie root
      regB s (aPcie 0) 41 = true ∧ domainStopped s 45 = false ∧ s.power.quiescent = false) ∧
    (let u := bwAdd (count (sPcie true) 60 0x80) 32 0;
      regB u (aPcie 0) 46 = true ∧ rpInFind u 0 4096 = none ∧ ended (winRead u 0x100 0 8) = true ∧
      (rpInFind (regSet (regSet u (aPcie 0x30) (mk 47 47 1 ||| mk 46 42 16)) (aPcie 0x31) 0) 0 4096).isSome = true) ∧
    (let u := bwAdd (count (sPcie false) 60 0x80) 32 0;
      regB u (aPcie 0) 46 = false ∧ bit (sPcie false).struct.image.sec0 1 = true ∧ 61440 + 4096 ≤ 65536) ∧
    (let s := sA.modCore (.app 15) fun k => { k with waiting := some (.aperture ⟨[], 2, .store, [], false, none, false, false⟩ []) };
      apertureWaits s (.app 15) = true) ∧
    (pcieRuns sD = true ∧ regB (D [(aPcie 0x41, 0x800000000000)]) (aPcie 0x41) 47 = true ∧ (4 : BitVec 3).toNat ≤ 4) ∧
    (usbLive (placed (D [(aUsb 0, 0xA00000000000)]) [0x3C]) = true ∧ ([1, 2, 3, 4, 5, 6, 7, 8] : List Byte).length = 8 ∧ (2 : BitVec 2).toNat ≤ 2) ∧
    (usbPlace sD 0x200 1 = false ∧ ¬(2 ^ 36 ≤ (0x200 : Word).toNat)) := by decide +kernel

/-- USB endpoint e with a descriptor of no bytes at word 0x100. -/
def sUsb (e : Nat) : State :=
  posted (placed (D [(aMemTop, 0x8000), (aUsb 0, 0xA00000000000), (aUsbEp e 0, 0x800000000000), (aUsbEp e 1, 0x100), (aUsbEp e 2, 1)]) [0x3C])
    0x100 [0x200, 0x800000000000]

theorem witness_UnitEvents_usb :
    ∀ e ∈ [16, 17], let s := sUsb e
      let head := regF s (aUsbEp e 3) 15 0
      let ring := regF s (aUsbEp e 1) 35 0 + 4 * (head % 2 ^ regF s (aUsbEp e 1) 47 44)
      regB s (aUsb 0) 47 = true ∧ regB s (aUsbEp e 0) 47 = true ∧ regB s (aUsbEp e 3) 47 = false ∧ unitRuns s 47 = true ∧
      head ≠ regF s (aUsbEp e 2) 15 0 ∧ usbPlace s ring 4 = true ∧ usbLive s = true ∧ regB s (aUsbEp e 0) 44 = false ∧
      ended (bridgeWords s ring 2) (fun ws u => decide (ws = [(0x200, 0), (0x800000000000, 0)]) &&
        ended (usbMove u e 0x200 0 []) (fun x v => (x.2.2.isSome == decide (e = 16)) &&
          ended (usbFinish v e ring 0x800000000000 x.1 x.2.1)) &&
        ended (usbFinish u e ring 0x800000000000 7 0)) = true ∧
      s.io.usbFail.contains e = false ∧ usbPosted s e = true ∧ usbPosted (regFld s (aUsbEp e 0) 47 47 0) e = false ∧
      usbPlace (regSet s aMemTop 0) ring 4 = false := by decide +kernel

/-- A record of which one word has come and is not yet stored. -/
theorem witness_UnitEvents_records :
    ∀ n ∈ [9, 1], let h : Word := w48 n
      let s := modInst (sMig 0) 5 fun x => { x with recvWords := [h], recvDone := 0 }
      (pinInst s 5).recvDone < (pinInst s 5).recvWords.length ∧
      (fld ((pinInst s 5).recvWords.getD 0 0) 15 0 ≤ (pinInst s 5).recvWords.length ↔ n = 1) ∧
      ended (bridgePuts s (regF s (aInstSave 5) 35 0 + 0) [h]) = true ∧
      ended (bridgePuts (noHomes s) (regF s (aInstSave 5) 35 0 + 0) [h]) = false := by decide +kernel

theorem witness_UnitEvents_display_dma :
    (let s := D [(aDispOut 1 0, 0x800000000000), (aDispOut 1 4, 0x500000000000), (aDispOut 1 5, 0x400000000000)];
      dispRuns s 1 = true ∧ unitRuns s 50 = true ∧ unitRuns s (48 + 1) = true ∧
      unitRuns { s with sys := { s.sys with held := [50] } } 50 = false ∧ s.disp.commitPending.getD 1 false = false ∧
      ({ s with disp := { s.disp with commitPending := [true, true] } }).disp.commitPending.getD 1 false = true ∧
      regF s (aDispOut 1 4) 45 44 = 1 ∧ regB s (aDispOut 1 5) 46 = true ∧ (4 : BitVec 3).toNat ≤ 4 ∧
      s.disp.xferDue.getD 1 false = false ∧
      ({ s with disp := { s.disp with xferDue := [false, true] } }).disp.xferDue.getD 1 false = true ∧
      activeAt s 1 0 0 = false ∧ dispRuns sD 1 = false ∧
      pixelMissing { s with disp := { s.disp with missing := [(1, 5, 4)] } } 1 2 0 5 = true) ∧
    regB sD (aDma 7 3) 47 = false ∧
    (let s := modDma (D [(aDma 7 3, 0x800000000000)]) 7 fun c => { c with err := 2 };
      regB s (aDma 7 3) 47 = true ∧ unitRuns s 63 = true ∧ (dmaChan s 7).err ≠ 0 ∧
      (dmaChan (modDma s 7 fun _ => ⟨0x100, 0x200, 0, true, 0⟩) 7).words ≤ dmaMoved (modDma s 7 fun _ => ⟨0x100, 0x200, 0, true, 0⟩) 7) ∧
    (let s := modDma (D [(aMemTop, 0x8000), (aDma 7 3, 0x800000000000)]) 7 fun _ => ⟨0x100, 0x200, 2, false, 0⟩;
      regB s (aDma 7 3) 47 = true ∧ (dmaChan s 7).err = 0 ∧ (dmaChan s 7).paced = false ∧
      ended (dmaMove s 7 ((dmaChan s 7).words - dmaMoved s 7)) = true) := by decide +kernel

/-- A vote runs in which domain 40 takes part, with limits of 10 µs. -/
def sVote : State :=
  let s := D [(aPwrVote, 0x040000000000), (aPwrCtl, 10)]
  { s with power := { s.power with participants := [40], voteTb := 0 }, tb := 10000 }

theorem witness_PowerAndStartEvents_power :
    (regF sVote aPwrVote 43 42 = 1 ∧ sVote.power.participants.contains 40 = true ∧ sVote.power.agreed.contains 40 = false ∧
      canAgree sVote 40 = true ∧ pinnaBusy sVote = false ∧ sVote.power.force = false ∧ sVote.power.quiescentVote = false ∧
      goalOf sVote 40 ≠ 2 ∧ sVote.power.voteTb + regF sVote aPwrCtl 15 0 * 1000 ≤ sVote.now) ∧
    refusesFor (regSet sVote (aEth 0 0) (mk 41 41 1)) 40 2 = true ∧
    (let s := withClock (regSet (regSet (D [(aPwrPolicy 0, mk 47 46 1)]) (aRoute 5) (mk 7 5 7 ||| mk 2 1 1 ||| 1)) (aSrcState 5) 1) 0 0;
      s.power.quiescent = false ∧ domState s 0 = 1 ∧ wakeInterrupt s 0 = true ∧
      (let u := { regSet s aPwrVote 0x080000000000 with power := { s.power with participants := [0] } };
        domState u 0 = 1 ∧ wakeInterrupt u 0 = true ∧ regF u aPwrVote 43 42 = 2 ∧ 0 ∈ u.power.participants)) ∧
    (let s := { D [(aPwrWakeCfg, 0xFFF000000000)] with power := { sD.power with quiescent := true } };
      regB s aPwrWakeCfg 36 = true ∧ wakePadded s 0 = false ∧ wakePadded (placed s [0x11]) 0 = true ∧
      regB s aPwrWakeCfg 47 = true ∧ wakePadded s 11 = true ∧ s.power.quiescent = true ∧ nodeNum s = 0 ∧
      ¬(5 = nodeNum s ∨ 5 = 0xFFF)) ∧
    (regB (D [(aPwrWakeCfg, 0xFFF000000000)]) aPwrWakeCfg 47 = true ∧ sD.power.quiescent = false ∧ regF sD aPwrVote 43 42 = 0) ∧
    (let s := placed (regSet sVote aPwrWakeCfg 0xFFF000000000) [0x34];
      regB s aPwrWakeCfg 45 = true ∧ wakePadded s 9 = true ∧ s.power.quiescent = false ∧ regF s aPwrVote 43 42 = 1 ∧
      (wakeDomains 9).find? (fun d => s.power.participants.contains d) = some 40) ∧
    (let s := { D [(aPwrWakeCfg, 0x100000000005)] with power := { sD.power with quiescent := true, touchSums := some [10] } };
      s.power.quiescent = true ∧ regB s aPwrWakeCfg 44 = true ∧ regB s aTouchCtl 47 = false ∧ s.power.touchSums = some [10] ∧
      s.power.touchRef + regF s aPwrWakeCfg 35 26 * 1000000 ≤ s.ref ∧
      (let u := regFld s aPwrWakeCfg 35 26 1;
        u.ref < u.power.touchRef + regF u aPwrWakeCfg 35 26 * 1000000) ∧
      ∃ p ∈ [10].zip [16], p.1 + regF s aPwrWakeCfg 15 0 < p.2 ∨ p.2 + regF s aPwrWakeCfg 15 0 < p.1) ∧
    (let s := { sD with power := { sD.power with quiescent := true, wakePending := true } };
      s.power.quiescent = true ∧ s.power.wakePending = true ∧ s.power.touchSums = none) := by decide +kernel

theorem witness_PowerAndStartEvents_module :
    (sD.sys.mode ≠ .off ∧ maxReading [] < 480 ∧ maxReading [] < regF (D [(aThermCfg, 400)]) aThermCfg 11 0 - 8 ∧
      500 ≤ maxReading [500] ∧ regB sD aThermStat 3 = false) ∧
    (∀ d ∈ [0, 57], let s := withClock sD d 0x800000000000
      s.sys.mode = .running ∧ s.sys.held.contains d = false ∧ domainEnabled s d = true) ∧
    ({ State.reset with sys := { Sys.reset with mode := .off } }.sys.mode = .off) ∧
    ((2000 : Nat) < 2001 ∧ (2000 : Nat) ≤ 2000 ∧ (1000 : Nat) ≤ 1000 ∧ sD.sys.mode ≠ .refLost ∧ tripped sD = false) ∧
    debugServed sD = true ∧
    { sD with sys := { sD.sys with mode := .refLost } }.sys.mode = .refLost ∧
    State.reset.sys.mode = .inReset 1 ∧
    (let s := withClock { sD with sys := { sD.sys with mode := .started } } 0 0x800000000000;
      s.sys.mode = .started ∧ domainEnabled s 0 = true ∧ s.sys.recovery = false) := by decide +kernel

/-- The Medulla core serves port 0, on which a command of OP op stands posted at a level with SEQ 1. -/
def sTurn (op lvl : Nat) (last : Option Nat) : State :=
  let s := sMbx true false
  let s := modPort s 0 fun x => { x with level := lvl, cmd := mk 47 40 1 ||| mk 39 32 op, lastSeq := last }
  { s with mdl := { s.mdl with fwRunning := 0 } }

/-- An update session of port 1. -/
def session : Session := ⟨1, 0, false, 1, 1, [], 0⟩

theorem witness_MailboxEvents :
    (∀ o ∈ [(1, 1), (2, 2), (3, 2), (4, 2), (5, 2), (6, 2), (7, 2), (8, 3), (9, 1), (10, 2), (11, 1), (12, 3), (13, 2)],
      let s := sTurn o.1 o.2 none
      turnPort s = some 0 ∧ fld (port s 0).cmd 39 32 = o.1 ∧ (port s 0).lastSeq ≠ some (fld (port s 0).cmd 47 40) ∧
      o.2 ≤ (port s 0).level ∧ reducedMailbox s = false ∧ tripped s = false) ∧
    (let s := sTurn 1 1 (some 1);
      turnPort s = some 0 ∧ fld (port s 0).cmd 39 32 = 1 ∧ (port s 0).lastSeq = some (fld (port s 0).cmd 47 40)) ∧
    (let s := sTurn 2 1 none;
      turnPort s = some 0 ∧ fld (port s 0).cmd 39 32 = 2 ∧ (port s 0).lastSeq ≠ some (fld (port s 0).cmd 47 40) ∧
      (port s 0).level < 2 ∧ reducedMailbox s = false) ∧
    (let s := { sTurn 5 2 none with mdl := { (sTurn 5 2 none).mdl with session := some session }, tb := 60000000000 };
      s.mdl.session = some session ∧ session.port = 1 ∧ session.port ≠ 0 ∧ session.lastTb + 60000000000 ≤ s.now ∧
      sD.now < session.lastTb + 60000000000) ∧
    ((sTurn 6 2 none).mdl.session = none ∧ (arg (sTurn 6 2 none) 0 0).toNat ≤ 1 ∧
      (sTurn 6 2 none).mdl.verified.contains (arg (sTurn 6 2 none) 0 0).toNat = false ∧
      regB (sTurn 7 2 none) aBootStat (if (arg (sTurn 7 2 none) 0 0).toNat = 0 then 5 else 3) = false) ∧
    (let s := { sTurn 9 1 none with mdl := { (sTurn 9 1 none).mdl with vlog := [⟨1, 2, 3, 4⟩] } };
      (arg s 0 0).toNat = 0 ∧ (arg s 0 1).toNat = 0 ∧ s.mdl.vlog[0]? = some ⟨1, 2, 3, 4⟩) ∧
    (let s := { sMbx false true with tb := 60000000000 };
      (port s 0).ready = true ∧ (port s 0).resultTb + resultTimeoutS s 0 * 1000000000 ≤ s.now) ∧
    ({ sTurn 6 2 none with mdl := { (sTurn 6 2 none).mdl with verified := [0] } }.mdl.verified.contains (arg (sTurn 6 2 none) 0 0).toNat = true) ∧
    ((sMbx false false).core .medulla).run = .running ∧ coreClocked (sMbx false false) .medulla = true := by decide +kernel

/-! ## Witnesses of single clauses (O46, O49 to O55) -/

/-- An abandoned access in flight, a Medulla core without its clock, and a core that waits. -/
theorem witness_stopped_cores :
    ((onF fun k => { k with abandoned := [.access ⟨[], 2, .store, [], false, none, false, false⟩] }).core f3).abandoned ≠ [] ∧
    (sA.core (.app 0)).abandoned = [] ∧ (sM.core .medulla).abandoned = [] ∧
    ((sM.core .medulla).run = .running ∧ coreClocked sM .medulla = true ∧ medullaActs sM = true) ∧
    (let s := { sM with sys := { sM.sys with held := [coreDomain sM .medulla] } };
      coreClocked s .medulla = false ∧ medullaActs s = false) ∧
    (let k := (onF fun k => { k with statusQueue := [⟨3, 0⟩], waiting := some .barrier }).core f3;
      k.statusQueue = [⟨3, 0⟩] ∧ k.waiting ≠ none) := by decide +kernel

/-- The Medulla core with an address in its stack pointer. -/
def sMAt (v : Word) : State := sM.modCore .medulla fun k => { k with g := k.g.set 31 v }

/-- A double-word load and store, a POP and a PUSH of the Medulla core that their block does not answer. -/
theorem witness_ControllerEvents_forms :
    (∃ t, Issues sM .medulla { plain .long with bad := badElem true 2 .dword 0 false } t ∧ (t.core .medulla).storeBuffer = []) ∧
    (∃ t, Issues sM .medulla { plain .long with bad := badElem false 30 .dword 0 false } t ∧ (t.core .medulla).storeBuffer = []) ∧
    (aTmrCmp 0 % 2 = 0 ∧ aTmrCmp 0 + 1 < 0x810000000 ∧ inAperture (aTmrCmp 0 + 1) = false) ∧
    (∃ t, Issues (sMAt (w48 (aTmrCmp 0))) .medulla (plain .short) t ∧ (t.core .medulla).reg 31 = w48 (aTmrCmp 0)) ∧
    (((sMAt (w48 (aTmrCmp 0))).core .medulla).reg 31 = w48 (aTmrCmp 0) ∧ ((sM.core .medulla).reg 31 ≠ w48 (aTmrCmp 0)) ∧
      (sM.core .medulla).reg 31 - 1 ≠ w48 (aTmrCmp 0)) ∧
    ∃ t, Issues (sMAt (w48 (aTmrCmp 0) + 1)) .medulla (plain .short) t ∧
      ((sMAt (w48 (aTmrCmp 0) + 1)).core .medulla).reg 31 - 1 = w48 (aTmrCmp 0) ∧ (t.core .medulla).reg 31 - 1 = w48 (aTmrCmp 0) :=
  ⟨meets (by decide +kernel), meets (by decide +kernel), by decide +kernel, meets (by decide +kernel), by decide +kernel,
    meets (by decide +kernel)⟩

/-- Register writes of the Ethernet ports and the display at the edges of their clauses. -/
theorem witness_DeviceCommands_units :
    (admits sD .debug (aEth 1 2) = true ∧ ((5 : Word) - sD.tbl).toNat < 2 ^ 47 ∧ ¬(((2 ^ 47 : Word) - sD.tbl).toNat < 2 ^ 47)) ∧
    (let s := regFld sD (aPwrPolicy 40) 45 45 1;
      admits s .debug (aEth 0 9) = true ∧ unitRuns (bridged s) (40 + 2 * 0) = false ∧ unitRuns (bridged sD) (40 + 2 * 0) = true) ∧
    (let s := D [(aDispOut 1 0, 0x800000000000)];
      admits s .debug (aDispOut 1 5) = true ∧ bit (0x040000000000 : Word) 42 = true ∧
      regB (bridged s) (aDispOut 1 0) 47 = true ∧ inBlank (bridged (regSet s (aDispOut 1 2) (mk 47 36 4))) 1 = false) := by
  decide +kernel

/-- Stores to Sorus memory in a store buffer, with the clock of Sorus memory and without. -/
theorem witness_MemoryEvents_sorus :
    let s := sD.modCore (.app 0) fun k => { k with storeBuffer := [sbDev 0x820000000], run := .running }
    ((s.core (.app 0)).storeBuffer = sbDev 0x820000000 :: [] ∧ (s.core (.app 0)).run ≠ .held ∧ inSorus 0x820000000 = true ∧
      clockStopped s 24 = false ∧ clockStopped { s with sys := { s.sys with held := [24] } } 24 = true) ∧
    (clockStopped sD 63 = false ∧ clockStopped { sD with sys := { sD.sys with held := [63] } } 63 = true) := by decide +kernel

/-- A Put that comes after the agent's snoop was sent, in a stash or not. -/
theorem witness_CoherenceAnswers_crossing :
    ∀ ty ∈ [MsgType.PutM, .PutE, .PutS], ∀ stash ∈ [true, false],
      let s := sOpen 32 .M [{ mkMsg ty 32 5 with txn := 7 }] [snoopOf false false] stash false
      (takeMsg s ty 32 5).isSome = true ∧ ∃ t ∈ s.coh.txns, txnFind s 5 = some t ∧ (∃ y ∈ t.snoops, y.agent = 32) ∧
        t.stashing = stash ∧ ∀ y ∈ t.snoops, y.agent = 32 → y.awaitPut = false := by decide +kernel

/-- A DAC at and past its limit, and astray or not. -/
theorem witness_ClusterEvents_dac :
    (let cfg : Word := mk 39 32 10 ||| 1000;
      fld cfg 39 32 < 11 ∧ 9 < fld cfg 39 32 ∧
      fld cfg 12 0 + 25 < 50 * ((1021 - fld cfg 12 0) + (fld cfg 12 0 - 1021)) ∧
      50 * ((1019 - fld cfg 12 0) + (fld cfg 12 0 - 1019)) + 25 < fld cfg 12 0 ∧
      dacLimited cfg false 11 = true ∧ dacAstray cfg false 1021 = true ∧ dacLimited cfg true 9 = false ∧
      dacAstray cfg true 1019 = false) ∧
    (((sMbx false false).core .medulla).run = .running ∧ (sD.core .medulla).run ≠ .running ∧ regB sD (aGrpStat 0) 5 = false) ∧
    (unitRuns { sTick with sys := { sTick.sys with held := [60] } } 60 = false) ∧
    (let s := regSet sTick aTouchCtl 0x800000000000;
      regB s aTouchStat 1 = false ∧ regB s aTouchCtl 47 = true ∧ regB s aTouchCtl 45 = false ∧
      regB (regSet sTick aTouchCtl 0xA00000000000) aTouchCtl 45 = true ∧ regB sTick aTouchCtl 47 = false) := by decide +kernel

/-! ## Ill-formed commands, one for each check of WellFormed -/

/-- A frame of no values that is well formed. -/
def goodFrame : RingFrame := 
  ⟨0, 1, 0, 0, false, false, false, false, false, false, false, 0, 50000, 0, 0, 1, 0, [], [], [none], 0⟩
def goodCell : Cell := ⟨true, 4, 1, 0, 0, [1], 0⟩

theorem test_wf_address : (Instr.registerWrite .debug (2 ^ 36) 0).wellFormed = false := by decide
theorem test_wf_repair_address : (Instr.structureRepair (2 ^ 37)).wellFormed = false := by decide
theorem test_wf_samples : (Instr.frameTick []).wellFormed = false := by decide
theorem test_wf_safe_cause : (Instr.safeStateEntry 0 2).wellFormed = false := by decide
theorem test_wf_reset_cause : (Instr.moduleReset 0 ⟨[], [], ⟨[], []⟩⟩).wellFormed = false := by decide
theorem test_wf_start_bank : (Instr.moduleReset 1 ⟨[], [(48, 0, 0)], ⟨[], []⟩⟩).wellFormed = false := by decide
theorem test_wf_start_channels : (Instr.moduleReset 1 ⟨[0, 0, 0, 0, 0, 0, 0, 0, 0], [], ⟨[], []⟩⟩).wellFormed = false := by decide
theorem test_wf_start_areas : (Instr.moduleReset 1 ⟨[], [], ⟨[5], []⟩⟩).wellFormed = false := by decide
theorem test_wf_update_areas : (Instr.updEnd ⟨0, ⟨[], [(5, 0, 0)]⟩, false⟩).wellFormed = false := by decide
theorem test_wf_exit_codes : (Instr.quiescentExit false [2]).wellFormed = false := by decide
theorem test_wf_undefined_short : (Instr.undefinedEncoding f3 .short (2 ^ 24)).wellFormed = false := by decide
theorem test_wf_short_single : (Instr.fadd f3 .short .s32 1 1 1).wellFormed = false := by decide
theorem test_wf_tlb_entry : (Instr.machineCheck (.tlb 0 0 48)).wellFormed = false := by decide
theorem test_wf_cached_word : (Instr.machineCheck (.cached 0 0 16 0)).wellFormed = false := by decide
theorem test_wf_l3_line : (Instr.machineCheck (.l3 (2 ^ 33) 0 0)).wellFormed = false := by decide
theorem test_wf_stage : (Instr.stageTimeout 10).wellFormed = false := by decide
theorem test_wf_short_addi : (Instr.addi f3 .short 1 1 64).wellFormed = false := by decide
theorem test_wf_long_addi : (Instr.addi f3 .long 1 1 64).wellFormed = true := by decide
theorem test_wf_short_movi : (Instr.movi f3 .short 1 0x800).wellFormed = false := by decide
theorem test_wf_short_call : (Instr.call f3 .short 0x800 .short).wellFormed = false := by decide
theorem test_wf_short_branch : (Instr.ltz f3 .short 1 64 false false).wellFormed = false := by decide
theorem test_wf_device : (Instr.deviceAccessTimeout .debug ⟨2 ^ 48, false, .word .long, 0⟩).wellFormed = false := by decide
theorem test_wf_line : (Instr.rdS 0 .demand (2 ^ 33)).wellFormed = false := by decide
theorem test_wf_bridge_data : (Instr.wrInv 0 0 []).wellFormed = false := by decide
theorem test_wf_stash_target : (Instr.wrStash 0 0 [0, 0, 0, 0, 0, 0, 0, 0] 34).wellFormed = false := by decide
theorem test_wf_flips : (Instr.dramReadComplete 0 (List.replicate 17 0) []).wellFormed = false := by decide
theorem test_wf_scrub : (Instr.patrolScrub [] (List.replicate 17 0)).wellFormed = false := by decide
theorem test_wf_scan : (Instr.touchFrameWrite [] [] [] []).wellFormed = false := by decide
theorem test_wf_frame : (Instr.ringFrame .east goodFrame).wellFormed = true := by decide
theorem test_wf_frame_sections : (Instr.ringFrame .east { goodFrame with values := 1 }).wellFormed = false := by decide
theorem test_wf_frame_node : (Instr.ringFrame .east { goodFrame with master := 4096 }).wellFormed = false := by decide
theorem test_wf_section : (Section.mk (List.replicate 31 0) 0 0).wellFormed = false := by decide
theorem test_wf_cell : goodCell.wellFormed = true := by decide
theorem test_wf_cell_words : ({ goodCell with words := List.replicate 16 0 } : Cell).wellFormed = false := by decide
theorem test_wf_link : (Instr.link 0 ⟨0, [], 0⟩ ⟨0, [], 0⟩ false 2048 0).wellFormed = false := by decide
theorem test_wf_wake_source : (Instr.wakeSource ⟨0, 4096⟩).wellFormed = false := by decide
theorem test_wf_frame_slot : (Instr.ringFrame .east { goodFrame with retrans := [some ⟨[], 0, 0⟩] }).wellFormed = false := by decide
theorem test_wf_claim : (Instr.claim 0 4096 false).wellFormed = false := by decide
theorem test_wf_migration : (Instr.migrationData 1 0 0 0 (List.replicate 15 0)).wellFormed = false := by decide
theorem test_wf_epoch : (Instr.migrationClaim 1 0 0 (2 ^ 24)).wellFormed = false := by decide
theorem test_wf_queue : (Instr.pqTailWrite .debug 0 256 0).wellFormed = false := by decide
theorem test_wf_can : (Instr.canFrameReceive 0 0 false false false (List.replicate 9 0)).wellFormed = false := by decide
theorem test_wf_bar : (Instr.pcieInboundRequest true 0 false 4097 []).wellFormed = false := by decide
theorem test_wf_setup : (Instr.usbSetup []).wellFormed = false := by decide
theorem test_wf_xfer : (Instr.xferComplete 0 0 [0, 0, 0, 0]).wellFormed = false := by decide
theorem test_wf_refuse : (Instr.refuse 0 7).wellFormed = false := by decide
theorem test_wf_wake : (Instr.touchWakeScan []).wellFormed = false := by decide
theorem test_wf_thermal : (Instr.thermalMonitorRead [] 0).wellFormed = false := by decide

/-! ## Values that the manual's worked examples give -/

/-- What a register of a core holds after a command. -/
def regAfter (o : Host.Outcome State Fault Refusal) (c : CoreId) (r : Reg) : Option Word := match o with
  | .next t => some ((t.core c).g.get r)
  | _ => none

/-- Frond core 3 with values in registers g1 to g5. -/
def withRegs (a b d e f : Word) : State :=
  onF fun k => { k with g := ((((k.g.set 1 a).set 2 b).set 3 d).set 4 e).set 5 f }

/-- R151: bytes 0x31 to 0x39 through CRCB from 0xFFFFFFFF with the Castagnoli polynomial leave 0xE3069283 after the
final inversion. -/
theorem test_crc_check_value :
    ([0x31, 0x32, 0x33, 0x34, 0x35, 0x36, 0x37, 0x38, 0x39] : List Word).foldl
      (fun a b => crcStep 0x01201EDC6F41 8 a b) 0xFFFFFFFF ^^^ 0xFFFFFFFF = 0xE3069283 := by decide +kernel

/-- Chapter 3's example: the side load of two load pins. -/
theorem test_bank_address : eaBank 0x1000 0x0040 = 0x10000040 := by decide
theorem test_convert_half0 : regAfter (execFcvtF48H0 f3 2 1 (withRegs 0x00F000012C00 0 0 0 0)) f3 2 = some 0x40F2C0000000 := by
  decide +kernel
theorem test_convert_half1 : regAfter (execFcvtF48H1 f3 3 1 (withRegs 0x00F000012C00 0 0 0 0)) f3 3 = some 0x40EE00000000 := by
  decide +kernel
theorem test_fadd : regAfter (execFadd f3 .short .f48 4 2 3 (withRegs 0 0x40F2C0000000 0x40EE00000000 0 0)) f3 4 =
    some 0x4100E0000000 := by decide +kernel
theorem test_fmul : regAfter (execFmul f3 .short .f48 4 4 5 (withRegs 0 0 0 0x4100E0000000 0x3FC000000000)) f3 4 =
    some 0x40D0E0000000 := by decide +kernel

/-- Chapter 4's example: a read of plo before the due cycle gives the previous product, and one after it the new one. -/
def sDrum : State := onF fun k => { k with g := (k.g.set 2 15000).set 3 12, mul := { k.mul with acc := 90000 } }
theorem test_product_before_due : (match execMul f3 .short 2 3 sDrum with
    | .next t => regAfter (execMfplo f3 .short 8 t) f3 8
    | _ => none) = some 90000 := by decide +kernel
theorem test_product_after_due : (match execMul f3 .short 2 3 sDrum with
    | .next t => match execMultiplyUnitDue f3 t with
      | .next u => regAfter (execMfplo f3 .short 6 u) f3 6
      | _ => none
    | _ => none) = some 180000 := by decide +kernel

/-- Chapter 6's example: a branch 40 half-words ahead with an annulled slot. -/
theorem test_branch_not_taken : (match execLtz f3 .short 3 40 true false (withRegs 0 0 1 0 0) with
    | .next t => regAfter (execMovi f3 .short 20 1 t) f3 20
    | _ => none) = some 0 := by decide +kernel
theorem test_branch_taken : (match execLtz f3 .short 3 40 true false (withRegs 0 0 (-1) 0 0) with
    | .next t => match execMovi f3 .short 20 1 t with
      | .next u => some ((u.core f3).g.get 20, (u.core f3).pc)
      | _ => none
    | _ => none) = some (1, 0x1020018200 + 40) := by decide +kernel

/-- Chapter 8's example: a data page fault of a user task. -/
def taskCore : Core := { up.core (.app 5) with
  run := .running, pc := 0x402A10, status := 0, save := #v[⟨0, 0, 0, 0, 0xF00000, 0⟩, ⟨0, 0, 0, 0, 0xF40000, 0⟩, ⟨0, 0, 0, 0, 0, 0⟩] }
def tookFault : Core := match taskCore.take (exc 0x11 0 0x318000) 3 0x402A10 with
  | .entered k => k
  | _ => taskCore
theorem test_fault_entry : (tookFault.save[0], tookFault.status, tookFault.pc) =
    (⟨0x402A10, 0, 0x3011, 0x318000, 0xF00000, 0⟩, 0x301, 0xF00088) := by decide +kernel

/-- Chapter 9's example: CAN controller 1 interrupts application core 2. -/
def sCan : State :=
  regSet (up.modCore (.app 2) fun k => { k with
      run := .running, pc := 0x200, status := 0, save := #v[⟨0, 0, 0, 0, 0xF00000, 0⟩, ⟨0, 0, 0, 0, 0, 0⟩, ⟨0, 0, 0, 0, 0, 0⟩] })
    (aRoute 137) (mk 14 9 2 ||| mk 7 5 5 ||| mk 2 1 1 ||| 1)
theorem test_interrupt : (match execInterruptSourceAssert 137 true sCan with
    | .next t => match execInterruptEntry (.app 2) t with
      | .next u => some ((u.core (.app 2)).save[0].ecause, (u.core (.app 2)).status, (u.core (.app 2)).pc)
      | _ => none
    | _ => none) = some (0x89000020, 0x351, 0xF00100) := by decide +kernel

/-- Chapter 10's example: the 11 reads of a two-stage walk, and its result. -/
def walkTables : List (Nat × Word) :=
  [(0x2000000, 0x002001000001), (0x2001000, 0x0150000000CF), (0x15040000, 0x000041000001), (0x15041120, 0x000042000001),
   (0x15042345, 0x000983000057)]
def sWalk : State :=
  let s := regSet up aMemTop 0x80000000
  let s := walkTables.foldl (fun s e => dramPut s e.1 (containerOf e.2 false e.1)) s
  s.modCore (.app 3) fun k => { k with
    run := .running, pc := 0x200, status := 0x1001, ptb1 := 0x40000001, ptb2 := 0x002000000001, asid := 0x42, vmid := 5 }
theorem test_two_stage_walk :
    (match walkAll sWalk (sWalk.core (.app 3)) 3 (regimeOf (sWalk.core (.app 3))) 0x000120345678 2 with
    | .ok x _ => some (x.pa, x.type, (tlbEntryOf (sWalk.core (.app 3)) (regimeOf (sWalk.core (.app 3))) 0x000120345678 x).big)
    | _ => none) = some (0x15983678, .writeBack, false) := by decide +kernel
theorem test_two_stage_fetch :
    (match walkAll sWalk (sWalk.core (.app 3)) 3 (regimeOf (sWalk.core (.app 3))) 0x000120345678 0 with
    | .fault x _ _ => some (x.cls, x.detail)
    | _ => none) = some (0x12, 0x3C00) := by decide +kernel

/-- Chapter 11's example: the home slice and the predictor index of a line. -/
theorem test_home_slice : sliceOf 0x00400942 = 11 := by decide +kernel
theorem test_predictor_index : ctrIndex 0x00400942 = 0x144 := by decide +kernel

/-- Chapter 14's example: a drive in a twinned region. -/
theorem test_address_tags : (addrTag 0x10000000, addrTag 0x10800000) = (true, false) := by decide +kernel

def sTwinned : State :=
  let s := regSet (regSet up aMemTop 0x80000000) aMemCtl 0xFF
  { s with struct := { s.struct with image := { s.struct.image with regions := [(0x010000001000, 1)] } } }
theorem test_twin_places : (placeOf sTwinned 0x10000000, complAddr sTwinned 0x10000000, placeOf sTwinned 0x10800000) =
    ((0, 0, 0x2000), 0x10800000, (0, 4, 0x2100)) := by decide +kernel

/-- Chapter 15's example: W of a frame of 96 values, 16 of them twinned, 64 cells and 4 retransmit slots. -/
theorem test_frame_blocks :
    frameBlocks { goodFrame with values := 96, twins := 16, rtx := 4, cells := List.replicate 64 goodCell } = 1440 := by
  decide +kernel
theorem test_value_position : (valuePos { goodFrame with values := 96, twins := 16 } 5,
    valuePos { goodFrame with values := 96, twins := 16 } 40) = (10, 56) := by decide

/-- Chapter 16's example: the slot of tick 1000 and its status word A. -/
def sSlot : State := regSet { up with sense := { up.sense with ctl := 0x806820040000 } } aTickCount 1000
theorem test_slot_address : slotBase sSlot = 0x820040500 := by decide +kernel
theorem test_slot_status : (slotWords sSlot)[16]? = some 0x03E800000000 := by decide +kernel

/-- Chapter 18's example: the duty of an output halfway between two bands. -/
theorem test_tone_duty : toneMix 32 0x800 0xFFF = 0xBFF := by decide

/-- Chapter 23's example: register addresses, and the record of a refused write. -/
theorem test_register_addresses : (aSrcState 137, aWdogCtl 18, aMemCe 5, aPmcCnt 50 1) =
    (0x800020289, 0x800030124, 0x800050151, 0x800130292) := by decide
theorem test_violation_record :
    ((violation (up.modCore (.app 4) fun k => { k with status := 1 }) 1 4 1 true 0x800040000).mdl.vlog.head?.map
      fun r => (r.w1, r.w2)) = some (0x011180000001, 0x000800040000) := by decide +kernel

/-- The digest of "abc" that FIPS 180-4 gives as its example (R65). -/
theorem test_sha384 : sha384 [0x61, 0x62, 0x63] = 0xcb00753f45a35e8bb5a03d699ac65007272c32ab0eded1631a8b605a43ff5bed8086072ba1e7cc2358baeca134c825a7#384 := by
  decide +kernel

/-- The base point lies on the curve (R65). -/
theorem test_base_point : onCurve curveG = true := by decide +kernel

end Sys2Proof.Tests
end

section
/-! Bits of a word: what reading a field gives after a field is written (R6). -/

namespace Sys2Proof.Machine

open Sys2Proof

theorem testBit_fld (w : Word) (hi lo n : Nat) :
    (fld w hi lo).testBit n = (decide (n < hi + 1 - lo) && w.getLsbD (lo + n)) := by
  simp [fld, Nat.testBit_mod_two_pow, Nat.testBit_shiftRight, BitVec.testBit_toNat]

theorem fld_lt (w : Word) (hi lo : Nat) : fld w hi lo < 2 ^ (hi + 1 - lo) := Nat.mod_lt _ (Nat.two_pow_pos _)

theorem getLsbD_mask {hi lo n : Nat} (h : lo ≤ hi) (hn : n < 48) :
    (mask hi lo).getLsbD n = (decide (lo ≤ n) && decide (n ≤ hi)) := by
  have hlo : 2 ^ lo = (2 ^ lo - 1) + 1 := by have := Nat.two_pow_pos lo; omega
  have hlt : 2 ^ lo - 1 < 2 ^ (hi + 1) := by
    have := Nat.pow_lt_pow_right (a := 2) (by omega) (show lo < hi + 1 by omega)
    omega
  have hb : (2 ^ (hi + 1) - 2 ^ lo).testBit n = (decide (n < hi + 1) && !decide (n < lo)) := by
    rw [hlo, Nat.testBit_two_pow_sub_succ hlt, Nat.testBit_two_pow_sub_one]
  rw [mask, BitVec.getLsbD_ofNat, hb, Bool.eq_iff_iff]
  simp only [Bool.and_eq_true, Bool.not_eq_true', decide_eq_true_eq, decide_eq_false_iff_not]
  omega

theorem getLsbD_setFld (w : Word) {hi lo n : Nat} (v : Nat) (h : lo ≤ hi) (hn : n < 48) :
    (setFld w hi lo v).getLsbD n = if lo ≤ n ∧ n ≤ hi then v.testBit (n - lo) else w.getLsbD n := by
  have hv : (BitVec.ofNat 48 ((v % 2 ^ (hi + 1 - lo)) <<< lo)).getLsbD n =
      (decide (lo ≤ n) && (decide (n ≤ hi) && v.testBit (n - lo))) := by
    rw [BitVec.getLsbD_ofNat, Nat.testBit_shiftLeft, Nat.testBit_mod_two_pow]
    by_cases h1 : lo ≤ n
    · have : (n - lo < hi + 1 - lo) = (n ≤ hi) := propext (by omega)
      simp [hn, h1, this]
    · simp [h1]
  rw [setFld, BitVec.getLsbD_or, BitVec.getLsbD_and, BitVec.getLsbD_not, getLsbD_mask h hn, hv]
  by_cases h1 : lo ≤ n <;> by_cases h2 : n ≤ hi <;> simp [hn, h1, h2]

/-- A field reads as what was written to it, modulo its size. -/
theorem fld_setFld_same (w : Word) {hi lo : Nat} (v : Nat) (h : lo ≤ hi) (hw : hi < 48) :
    fld (setFld w hi lo v) hi lo = v % 2 ^ (hi + 1 - lo) := by
  refine Nat.eq_of_testBit_eq fun n => ?_
  rw [testBit_fld, Nat.testBit_mod_two_pow]
  by_cases hn : n < hi + 1 - lo
  · rw [getLsbD_setFld w v h (by omega), if_pos (by omega), Nat.add_sub_cancel_left]
  · simp [hn]

/-- A field that the written one does not meet reads as before. -/
theorem fld_setFld_disjoint (w : Word) {hi lo hi' lo' : Nat} (v : Nat) (h : lo ≤ hi) (hw : hi' < 48)
    (hd : hi < lo' ∨ hi' < lo) : fld (setFld w hi lo v) hi' lo' = fld w hi' lo' := by
  refine Nat.eq_of_testBit_eq fun n => ?_
  rw [testBit_fld, testBit_fld]
  by_cases hn : n < hi' + 1 - lo'
  · rw [getLsbD_setFld w v h (by omega), if_neg (by omega)]
  · simp [hn]

end Sys2Proof.Machine
end

section
/-! What the shared operations of the cluster, the interrupt controller and the bridge's jobs leave alone. -/

namespace Sys2Proof.Machine

open Sys2Proof

/-- What every step of a fold keeps, the fold keeps. -/
theorem foldl_keeps {α β : Type} {p : State → β} {f : State → α → State} (h : ∀ s a, p (f s a) = p s)
    (l : List α) (s : State) : p (l.foldl f s) = p s := by
  induction l generalizing s with
  | nil => rfl
  | cons a l ih => exact (ih (f s a)).trans (h s a)

@[simp] theorem regAddSat_tick (s : State) (a hi lo n : Nat) : (regAddSat s a hi lo n).tick = s.tick := regFld_tick ..

@[simp] theorem represent_tick (s : State) (t : Nat) : (represent s t).tick = s.tick := by
  unfold represent; split <;> rfl
@[simp] theorem represent_touch (s : State) (t : Nat) : (represent s t).touch = s.touch := by
  unfold represent; split <;> rfl

@[simp] theorem assertEdge_tick (s : State) (n : Nat) : (assertEdge s n).tick = s.tick := by
  unfold assertEdge
  split
  · rfl
  · split <;> simp

@[simp] theorem setLine_touch (s : State) (n : Nat) (on : Bool) : (setLine s n on).touch = s.touch := by
  unfold setLine
  split
  · rfl
  · split
    · rw [represent_touch, regFld_touch, regFld_touch]
      split <;> simp
    · simp

@[simp] theorem setUnitState_outs (s : State) (i st : Nat) : (setUnitState s i st).outs = s.outs :=
  foldl_keeps (p := State.outs) (fun _ _ => regFld_outs ..) _ s
@[simp] theorem setUnitState_tick (s : State) (i st : Nat) : (setUnitState s i st).tick = s.tick :=
  foldl_keeps (p := State.tick) (fun _ _ => regFld_tick ..) _ s

@[simp] theorem joinUnit_outs (s : State) (i : Nat) : (joinUnit s i).outs = s.outs := by
  unfold joinUnit; split <;> simp
@[simp] theorem joinUnit_tick (s : State) (i : Nat) : (joinUnit s i).tick = s.tick := by
  unfold joinUnit; split <;> simp

/-- Reading the element that was replaced gives what replaced it. -/
theorem getD_modAt_same {α : Type} (l : List α) {i : Nat} (f : α → α) (d : α) (h : i < l.length) :
    (modAt l i f).getD i d = f (l.getD i d) := by
  simp [modAt, List.getD_eq_getElem?_getD, h]

/-! ## Jobs behind the bridge (R393) -/

theorem bridgeJob_done {α : Type} {s t : State} {job : Nat} {f : State → Whole α} {a : α}
    (h : f (jobBegun s job) = .done a t) : bridgeJob s job f = .done a (jobEnded s job t) := by
  unfold jobBegun at h
  simp only [bridgeJob, h]
  rfl

theorem bridgeJob_held {α : Type} {s t : State} {job : Nat} {f : State → Whole α}
    (h : f (jobBegun s job) = .held t) : bridgeJob s job f = .held (jobOpen s t) := by
  unfold jobBegun at h
  simp only [bridgeJob, h]
  rfl

end Sys2Proof.Machine
end

section
/-! The frame tick and the frame (chapter 12): what the events of the Frond cluster do. -/

namespace Sys2Proof.Machine

open Sys2Proof

theorem exec_frameTick_due {s : State} (raw : List RawSample) (hr : s.tick.running = true) (hd : s.tick.next ≤ s.now)
    (hc : s.timeCounts = true) :
    exec (.frameTick raw) s =
      (let t := tickActions { s with tick := { s.tick with started := [] } } raw
       let t := { t with tick := { t.tick with mismatch := [] } }
       .next (settleSyncs (if t.tick.next = s.tick.next then
        { t with tick := { t.tick with next := s.tick.next + t.tick.curNs } } else t))) := by
  simp [exec, execFrameTick, frameTick, hr, hd, hc]

/-- A node that does not align counts its ticks (R463, R555). -/
theorem nextTickCount_of_not_aligning {s : State} (h : ringState s ≠ 3) : nextTickCount s = regGet s aTickCount + 1 := by
  simp [nextTickCount, h]

theorem freshOutputs_fresh {s : State} {g : Nat} {o : Output} (h : o ∈ (freshOutputs s g).outs) (hg : o.group = g) :
    o.back = o.front ∧ o.published = o.front := by
  obtain ⟨p, -, rfl⟩ := List.mem_map.1 h
  by_cases hp : p.group = g
  · simp [hp]
  · rw [if_neg hp] at hg
    exact absurd hg hp

/-- The group at its frame start, before its cores begin: it has started, its cores have joined, and its outputs are
fresh (R464, R467, R481). -/
def groupStarted (s : State) (g : Nat) : State :=
  let u : State := { s with tick := { s.tick with started := g :: s.tick.started } }
  regFld (freshOutputs ((groupUnits u g).foldl joinUnit u) g) (aGrpStat g) 31 16 0

theorem groupStarted_started (s : State) (g : Nat) : (groupStarted s g).tick.started = g :: s.tick.started := by
  simp only [groupStarted, regFld_tick, freshOutputs]
  rw [foldl_keeps (p := State.tick) joinUnit_tick]

theorem groupStarted_fresh {s : State} {g : Nat} {o : Output} (h : o ∈ (groupStarted s g).outs) (hg : o.group = g) :
    o.back = o.front ∧ o.published = o.front := by
  simp only [groupStarted, regFld_outs] at h
  exact freshOutputs_fresh h hg

theorem exec_frameStart_due {s : State} {g : Fin 4} (hr : s.tick.running = true) (hn : regGet s aTickCount ≠ 0)
    (hs : s.tick.started.contains g.val = false)
    (hp : regF s (aGrpCfg g) 39 24 ≤ (s.tbl - regGet s aTickLast).toNat) :
    exec (.frameStart g) s = .next ((joinedIn (groupStarted s g) g).foldl beginFrame (groupStarted s g)) :=
  if_pos (by simp only [hr, hn, hs, hp, ne_eq, not_false_eq_true, decide_true, Bool.not_false, Bool.and_self])

theorem beginFrame_tick (s : State) (i : Nat) : (beginFrame s i).tick = s.tick := rfl
theorem beginFrame_outs (s : State) (i : Nat) : (beginFrame s i).outs = s.outs := rfl

/-- A held or checkstopped core keeps everything but what it notes of its frame (R271, R469). -/
theorem beginFrame_of_stopped {s : State} {i : Nat}
    (h : (s.core (frondId i)).run = .held ∨ (s.core (frondId i)).run = .checkstopped) :
    (beginFrame s i).core (frondId i) = { s.core (frondId i) with frame := { (s.core (frondId i)).frame with
      fendDone := false, barriers := 0, stopped := false, firstDone := false, written := [] } } := by
  simp [beginFrame, h]

/-- The registers with which a core begins its frame: its own, or after a lockstep mismatch those of reset (R490). -/
def frameRegs (k : Core) : Core :=
  if k.frame.resyncPending then
    { k with g := Core.reset.g, b := Core.reset.b, mul := Core.reset.mul, fcs := Core.reset.fcs, lctl := 0,
             ls := Core.reset.ls, le := Core.reset.le, lc := Core.reset.lc }
  else k

theorem frameRegs_of_in_step {k : Core} (h : k.frame.resyncPending = false) : frameRegs k = k := by
  simp [frameRegs, h]

theorem frameRegs_of_resync {k : Core} (h : k.frame.resyncPending = true) :
    (frameRegs k).g = Core.reset.g ∧ (frameRegs k).mul = Core.reset.mul := by
  simp [frameRegs, h]

@[simp] theorem frameRegs_fentry (k : Core) : (frameRegs k).fentry = k.fentry := by
  unfold frameRegs; split <;> rfl

/-- Any other core starts at FENTRY (R471). -/
theorem beginFrame_of_going {s : State} {i : Nat} (h1 : (s.core (frondId i)).run ≠ .held)
    (h2 : (s.core (frondId i)).run ≠ .checkstopped) :
    (beginFrame s i).core (frondId i) =
      (let k := s.core (frondId i)
       { frameRegs k with
         pc := k.fentry &&& 0x1FFFFFFFFF, status := w48 (fld k.fstat 11 0), lctl := setFld (frameRegs k).lctl 1 0 0
         rsp := k.rslo, fstat := setBit (setFld k.fstat 47 36 (fld (regGet s aTickCount) 11 0)) 33 k.frame.resyncPending
         run := .running, statusQueue := [], slot := none, waiting := none
         frame := { k.frame with fendDone := false, barriers := 0, stopped := false, resyncPending := false,
                                 firstDone := false, written := [] } }) := by
  simp only [beginFrame, core_modCore_same, h1, h2, decide_false, Bool.or_self, Bool.false_eq_true, if_false, frameRegs]
  cases (s.core (frondId i)).frame.resyncPending <;> rfl

theorem beginFrame_frame (s : State) (i : Nat) : let f := ((beginFrame s i).core (frondId i)).frame
    f.fendDone = false ∧ f.barriers = 0 ∧ f.stopped = false := by
  by_cases h : (s.core (frondId i)).run = .held ∨ (s.core (frondId i)).run = .checkstopped
  · simp [beginFrame_of_stopped h]
  · obtain ⟨h1, h2⟩ := not_or.1 h
    simp [beginFrame_of_going h1 h2]

/-- The tick number that fstat takes survives the flag written beside it (R503). -/
theorem fld_fstat_tick (w n : Word) (b : Bool) :
    fld (setBit (setFld w 47 36 (fld n 11 0)) 33 b) 47 36 = fld n 11 0 := by
  rw [setBit, fld_setFld_disjoint _ _ (by omega) (by omega) (by omega), fld_setFld_same _ _ (by omega) (by omega)]
  exact Nat.mod_eq_of_lt (fld_lt n 11 0)

theorem beginFrame_starts {s : State} {i : Nat} (h1 : (s.core (frondId i)).run ≠ .held)
    (h2 : (s.core (frondId i)).run ≠ .checkstopped) :
    let k := s.core (frondId i)
    let k' := (beginFrame s i).core (frondId i)
    k'.pc = k.fentry &&& 0x1FFFFFFFFF ∧ k'.status = w48 (fld k.fstat 11 0) ∧ k'.rsp = k.rslo ∧ fld k'.lctl 1 0 = 0 ∧
      k'.run = .running ∧ k'.fentry = k.fentry ∧ fld k'.fstat 47 36 = fld (regGet s aTickCount) 11 0 ∧
      (k.frame.resyncPending = false → k'.g = k.g ∧ k'.mul = k.mul) ∧
      (k.frame.resyncPending = true → k'.g = Core.reset.g ∧ k'.mul = Core.reset.mul) := by
  have hl (w : Word) : fld (setFld w 1 0 0) 1 0 = 0 := fld_setFld_same w 0 (by omega) (by omega)
  rw [beginFrame_of_going h1 h2]
  refine ⟨rfl, rfl, rfl, hl _, rfl, frameRegs_fentry _, fld_fstat_tick .., fun h => ?_, frameRegs_of_resync⟩
  simp [frameRegs_of_in_step h]

/-! ## The safe state (R484) -/

theorem exec_safeStateEntry_cause {s : State} {g : Fin 4} {cause : Nat} (h : cause = 1 ∨ (3 ≤ cause ∧ cause ≤ 6)) :
    exec (.safeStateEntry g cause) s = .next (safeGroup s g cause) := by
  simp [exec, execSafeStateEntry, h]

theorem exec_safeStateEntry_other {s : State} {g : Fin 4} {cause : Nat} (h1 : cause ≠ 1) (h2 : cause < 3 ∨ 6 < cause) :
    exec (.safeStateEntry g cause) s = .next s := by
  have h : ¬(3 ≤ cause ∧ cause ≤ 6) := by omega
  simp [exec, execSafeStateEntry, h1, h]

/-- A group that is not yet in the safe state enters it with its cause, its safe values and its source. -/
theorem safeEnter_of_not_safe {s : State} {g : Nat} (h : regB s (aGrpStat g) 5 = false) (cause : Nat) :
    safeEnter s g cause = assertEdge (setFronts (regSet s (aGrpStat g)
      (setBit (setFld (setBit (regGet s (aGrpStat g)) 5 true) 11 8 cause) 4 false)) g (·.safe)) (16 + g) := by
  have h' : bit (regGet s (aGrpStat g)) 5 = false := h
  simp [safeEnter, h']

theorem safeGroup_of_not_safe {s : State} {g : Nat} (h : regB s (aGrpStat g) 5 = false) (cause : Nat) :
    ((s.core .medulla).run = .running → safeGroup s g cause =
      logFault (safeEnter s g cause) 0x11 g (16 + g) 0 (w48 cause)) ∧
    ((s.core .medulla).run ≠ .running → safeGroup s g cause = safeEnter s g cause) := by
  constructor
  · intro hm; simp [safeGroup, hm, h]
  · intro hm; simp [safeGroup, hm]

theorem exec_tickHoldover_joined {s : State} (hs : ringState s = 4) (hr : s.tick.running = true)
    (hh : s.ring.header = false) (hn : s.tick.next ≤ s.now + 40) :
    exec .tickHoldover s = .next (assertEdge (regFld (setRingState (modRing s fun r => { r with holdoverFrames := 0 }) 5)
      aTickStat 1 0 3) 33) := by
  simp [exec, execTickHoldover, hs, hr, hh, hn]

/-! ## Lockstep pairs (R488 to R491) -/

/-- The pair's counts after a mismatch, and source 20 + p raised (R489). -/
def mismatchNoted (s : State) (p : Nat) : State :=
  assertEdge (regAddSat (regAddSat s (aPairStat p) 23 8 1) (aPairStat p) 1 0 1) (20 + p)

@[simp] theorem mismatchNoted_tick (s : State) (p : Nat) : (mismatchNoted s p).tick = s.tick := by simp [mismatchNoted]

theorem exec_lockstepMismatch_init {s : State} {p : Fin 8} (hp : isPair s p = true)
    (hr : (s.core (frondId (2 * p))).run = .running) (hf : (s.core (frondId (2 * p))).frame.fendDone = false)
    (hs : (s.core (frondId (2 * p))).frame.stopped = false) (hi : frondState (mismatchNoted s p) (2 * p) = 1) :
    exec (.lockstepMismatch p) s = .next ((setUnitState (mismatchNoted s p) (2 * p) 0).modCore (frondId (2 * p)) fun k =>
      { k with run := .parked, waiting := none, slot := none, frame := FrameState.reset }) := by
  unfold mismatchNoted at hi
  simp [exec, execLockstepMismatch, hp, hr, hf, hs, hi, mismatchNoted]

/-- The pair stopped for the rest of the frame; it takes its reset values at the next one (R489, R490). -/
def pairStopped (s : State) (p : Nat) : State :=
  (mismatchNoted s p).modCore (frondId (2 * p)) fun k =>
    { k with waiting := none, slot := none, frame := { k.frame with stopped := true, resyncPending := true } }

theorem exec_lockstepMismatch_frame {s : State} {p : Fin 8} (hp : isPair s p = true)
    (hr : (s.core (frondId (2 * p))).run = .running) (hf : (s.core (frondId (2 * p))).frame.fendDone = false)
    (hs : (s.core (frondId (2 * p))).frame.stopped = false) (hi : frondState (mismatchNoted s p) (2 * p) ≠ 1) :
    ∃ l, exec (.lockstepMismatch p) s = .next { pairStopped s p with tick := { s.tick with mismatch := l } } ∧
      ∀ g, groupOf (mismatchNoted s p) (2 * p) = some g → l = g :: s.tick.mismatch := by
  have hv : exec (.lockstepMismatch p) s = match groupOf (mismatchNoted s p) (2 * p) with
      | some g => .next { pairStopped s p with tick := { (pairStopped s p).tick with
          mismatch := g :: (pairStopped s p).tick.mismatch } }
      | none => .next (pairStopped s p) := by
    unfold mismatchNoted at hi
    simp only [exec, execLockstepMismatch, hp, hr, hf, hs, hi, decide_true, Bool.not_false, Bool.and_self, if_true, if_false]
    rfl
  have ht : (pairStopped s p).tick = s.tick := by simp [pairStopped]
  rw [hv]
  cases hg : groupOf (mismatchNoted s p) (2 * p) with
  | none => exact ⟨s.tick.mismatch, by rw [← ht], by simp⟩
  | some g => exact ⟨g :: s.tick.mismatch, by rw [ht], by simp⟩

theorem pairStopped_core (s : State) (p : Nat) : let k' := (pairStopped s p).core (frondId (2 * p))
    k'.frame.stopped = true ∧ k'.frame.resyncPending = true ∧ k'.waiting = none := by
  simp [pairStopped]

/-- Both cores of a pair held, and the retirement recorded (R491). -/
def pairRetired (s : State) (p : Nat) : State :=
  let hold (u : State) (j : Nat) : State :=
    u.modCore (frondId j) fun k => { k with run := .held, waiting := none, slot := none }
  let u := hold (hold (regFld (setUnitState s (2 * p) 3) (aPairStat p) 2 2 1) (2 * p)) (2 * p + 1)
  recordRetirement u ⟨7, p, 0, 0, 0, u.mdl.sfmt, 0⟩ 0 (20 + p)

theorem exec_lockstepPairRetirement_third {s : State} {p : Fin 8} {g : Nat} (hp : isPair s p = true)
    (hc : regF s (aPairStat p) 1 0 = 3) (hr : regB s (aPairStat p) 2 = false)
    (hg : groupOf (pairRetired s p) (2 * p) = some g) :
    exec (.lockstepPairRetirement p) s = .next (safeGroup (openBarriers (pairRetired s p)) g 3) := by
  have h : exec (.lockstepPairRetirement p) s = match groupOf (pairRetired s p) (2 * p) with
      | some g => .next (safeGroup (openBarriers (pairRetired s p)) g 3)
      | none => .next (pairRetired s p) := if_pos (by simp [hp, hc, hr])
  rw [h, hg]

end Sys2Proof.Machine
end

section
/-! The counter windows and the counter record (chapter 20). -/

namespace Sys2Proof.Machine

open Sys2Proof

theorem exec_bandwidthWindowEnd_none {s : State} (h : s.cnt.windowEnd = none) :
    exec .bandwidthWindowEnd s = .next s := by
  simp [exec, execBandwidthWindowEnd, h]

/-- Without its clock the collector does nothing (R57, R710). -/
theorem exec_bandwidthWindowEnd_stopped {s : State} (h : unitRuns s 60 = false) :
    exec .bandwidthWindowEnd s = .next s := by
  simp only [exec, execBandwidthWindowEnd]
  cases s.cnt.windowEnd <;> simp [h]

theorem exec_bandwidthWindowEnd_some {s : State} {l : List Nat} (hl : s.cnt.windowEnd = some l)
    (hr : unitRuns s 60 = true) :
    exec .bandwidthWindowEnd s =
      (let t := (upto 34).foldl (fun u p => regSet u (aPmcBw p) (w48 (l.getD p 0))) s
       .next { t with cnt := { t.cnt with windowEnd := none } }) := by
  simp [exec, execBandwidthWindowEnd, hl, hr]

theorem exec_counterRecordWrite_stopped {s : State} (h : unitRuns s 60 = false) :
    exec .counterRecordWrite s = .next s :=
  if_pos (by simp [h])

/-- The writes of the record: words 8 to 511, then 1 to 7, then 0 (R718). -/
def recordPuts (s : State) (a : Nat) (full : List Word) : Whole Unit :=
  (bridgePuts s (a + 8) (full.drop 8)).andThen fun _ s =>
    (bridgePuts s (a + 1) ((full.drop 1).take 7)).andThen fun _ s => bridgePut s a (full.getD 0 0) false none

theorem recordPuts_done {s s1 s2 s3 : State} {a : Nat} {full : List Word}
    (h1 : bridgePuts s (a + 8) (full.drop 8) = .done () s1)
    (h2 : bridgePuts s1 (a + 1) ((full.drop 1).take 7) = .done () s2)
    (h3 : bridgePut s2 a (full.getD 0 0) false none = .done () s3) : recordPuts s a full = .done () s3 := by
  simp only [recordPuts, Whole.andThen, h1, h2, h3]

theorem recordPuts_held {s s1 : State} {a : Nat} {full : List Word}
    (h : bridgePuts s (a + 8) (full.drop 8) = .held s1) : recordPuts s a full = .held s1 := by
  simp only [recordPuts, Whole.andThen, h]

theorem exec_counterRecordWrite_due {s : State} (hr : s.cnt.record ≠ []) (hu : unitRuns s 60 = true) :
    exec .counterRecordWrite s =
      match bridgeJob s jobRecord fun u => recordPuts u s.cnt.recordAt (s.cnt.record ++ [w48 (crc32c s.cnt.record)]) with
      | .held s => .next s
      | .done _ s => .next { s with cnt := { s.cnt with record := [] } } :=
  if_neg (by simp [hr, hu])

theorem exec_counterRecordWrite_done {s t : State} (hr : s.cnt.record ≠ []) (hu : unitRuns s 60 = true)
    (h : recordPuts (jobBegun s jobRecord) s.cnt.recordAt (s.cnt.record ++ [w48 (crc32c s.cnt.record)]) = .done () t) :
    exec .counterRecordWrite s = .next { jobEnded s jobRecord t with cnt := { t.cnt with record := [] } } := by
  rw [exec_counterRecordWrite_due hr hu, bridgeJob_done h]
  rfl

theorem exec_counterRecordWrite_held {s t : State} (hr : s.cnt.record ≠ []) (hu : unitRuns s 60 = true)
    (h : recordPuts (jobBegun s jobRecord) s.cnt.recordAt (s.cnt.record ++ [w48 (crc32c s.cnt.record)]) = .held t) :
    exec .counterRecordWrite s = .next (jobOpen s t) := by
  rw [exec_counterRecordWrite_due hr hu, bridgeJob_held h]

end Sys2Proof.Machine
end

section
/-! The sense and touch front ends (chapter 15). -/

namespace Sys2Proof.Machine

open Sys2Proof

theorem exec_senseWrite_due {s : State} (hu : s.sense.unwritten = true) (hc : clockStopped s 24 = false) :
    exec .senseWrite s =
      (let t := sorusEngineWrites s .sense (slotBase s) (slotWords s)
       .next (retryFrond { t with sense := { t.sense with unwritten := false } })) := by
  simp [exec, execSenseWrite, senseWrite, hu, hc]

/-- With nothing to write, or without the clock of Sorus memory, only the waiting loads are looked at again. -/
theorem exec_senseWrite_idle {s : State} (h : s.sense.unwritten = false ∨ clockStopped s 24 = true) :
    exec .senseWrite s = .next (retryFrond s) := by
  have hn : ¬(s.sense.unwritten && !clockStopped s 24) = true := by rcases h with h | h <;> simp [h]
  rw [exec, execSenseWrite, senseWrite, if_neg hn]

theorem exec_offsetCalibrationEnd_due {s : State} {c : Fin 32}
    (h : (s.sense.chans.getD c SenseChan.reset).calTicks = some 64) (hf : frontRuns s (51 + c / 16) = true) :
    exec (.offsetCalibrationEnd c) s = .next (modChan (regFld (regFld s (aSenseCal c) 47 24
      (uns 24 (((s.sense.chans.getD c SenseChan.reset).calSum + 32) / 64))) (aSenseCfg c) 36 36 0) c
      fun x => { x with calTicks := none, calSum := 0 }) :=
  if_pos (by simp [-List.getD_eq_getElem?_getD, h, hf])

theorem exec_offsetCalibrationEnd_early {s : State} {c : Fin 32}
    (h : (s.sense.chans.getD c SenseChan.reset).calTicks ≠ some 64) : exec (.offsetCalibrationEnd c) s = .next s :=
  if_neg (by simp [-List.getD_eq_getElem?_getD, h])

/-- What a tick that finds a channel's input out of range, or within it, makes of the channel (R578). -/
def inputJudged (out : Bool) (x : SenseChan) : SenseChan :=
  if out then { x with outCount := Nat.min 4 (x.outCount + 1), inCount := 0, fault := x.fault || 3 ≤ x.outCount }
  else { x with outCount := 0, inCount := Nat.min 4 (x.inCount + 1), fault := x.fault && !(3 ≤ x.inCount) }

theorem exec_inputFault_runs {s : State} {c : Fin 32} (out : Bool) (h : frontRuns s (51 + c / 16) = true) :
    exec (.inputFault c out) s = .next (modChan s c (inputJudged out)) :=
  if_neg (by simp [h])

theorem exec_inputFault_stopped {s : State} {c : Fin 32} (out : Bool) (h : frontRuns s (51 + c / 16) = false) :
    exec (.inputFault c out) s = .next s :=
  if_pos (by simp [h])

theorem chan_modChan_same {s : State} {c : Nat} (h : c < s.sense.chans.length) (f : SenseChan → SenseChan) :
    (modChan s c f).sense.chans.getD c SenseChan.reset = f (s.sense.chans.getD c SenseChan.reset) :=
  getD_modAt_same _ f _ h

theorem inputJudged_out (x : SenseChan) :
    (3 ≤ x.outCount → (inputJudged true x).fault = true) ∧
    (x.outCount < 3 → (inputJudged true x).fault = x.fault) ∧ (inputJudged true x).inCount = 0 := by
  refine ⟨fun h => ?_, fun h => ?_, rfl⟩
  · simp [inputJudged, h]
  · simp [inputJudged, Nat.not_le.2 h]

theorem inputJudged_in (x : SenseChan) :
    (3 ≤ x.inCount → (inputJudged false x).fault = false) ∧
    (x.inCount < 3 → (inputJudged false x).fault = x.fault) ∧ (inputJudged false x).outCount = 0 := by
  refine ⟨fun h => ?_, fun h => ?_, rfl⟩
  · simp [inputJudged, h]
  · simp [inputJudged, h]

/-! ## DACs (R580) -/

/-- DAC d after a tick that found i mA and v mV: its counts of bad and good ticks, its status word and its source. -/
def dacReported (s : State) (d : Nat) (limited : Bool) (i v bad ok : Nat) (fault : Bool) : State :=
  setLine (regSet (modDac s d fun x => { x with bad := bad, ok := ok }) (aExcStat d)
    (mk 47 47 fault.toNat ||| mk 46 46 limited.toNat |||
      mk 39 32 (Nat.min i (fld (s.sense.dacs.getD d DacState.reset).applied 39 32)) ||| mk 12 0 (satN 13 v))) (288 + d) fault

theorem exec_dacFault_stopped {s : State} (d : Fin 8) (lim off : Bool) (i v : Nat) (h : s.tick.running = false) :
    exec (.dacFault d lim off i v) s = .next s :=
  if_pos (by simp [h])

section
variable {s : State} {d : Fin 8} {lim off : Bool} {i v : Nat} (hr : s.tick.running = true)
  (hm : fld (s.sense.dacs.getD d DacState.reset).applied 47 46 ≠ 0) (hc : clockStopped s (51 + d / 4) = false)
include hr hm hc

/-- A tick past the limit or astray counts as bad; the fourth in a row sets FAULT. -/
theorem exec_dacFault_bad (h : dacLimited (s.sense.dacs.getD d DacState.reset).applied lim i = true ∨
      dacAstray (s.sense.dacs.getD d DacState.reset).applied off v = true) :
    let x := s.sense.dacs.getD d DacState.reset
    exec (.dacFault d lim off i v) s = .next (dacReported s d (dacLimited x.applied lim i) i v
      (Nat.min 4 (x.bad + 1)) 0 (if Nat.min 4 (x.bad + 1) = 4 then true else regB s (aExcStat d) 47)) := by
  simp only [exec, execDacFault, hr, hm, hc, h, dacReported, Bool.not_true, Bool.not_false, Bool.false_eq_true, if_false,
    if_true, ne_eq, not_false_eq_true, decide_true, Bool.true_and, Bool.or_eq_true]
  rfl

/-- A tick within the limit and on its voltage counts as good; the fourth in a row clears FAULT. -/
theorem exec_dacFault_good (hl : dacLimited (s.sense.dacs.getD d DacState.reset).applied lim i = false)
    (ho : dacAstray (s.sense.dacs.getD d DacState.reset).applied off v = false) :
    let x := s.sense.dacs.getD d DacState.reset
    exec (.dacFault d lim off i v) s = .next (dacReported s d false i v 0 (Nat.min 4 (x.ok + 1))
      (if Nat.min 4 (x.ok + 1) = 4 then false else regB s (aExcStat d) 47)) := by
  simp only [exec, execDacFault, hr, hm, hc, hl, ho, dacReported, Bool.not_true, Bool.not_false, Bool.false_eq_true,
    if_false, if_true, ne_eq, not_false_eq_true, decide_true, Bool.true_and, Bool.or_self]
  rfl

theorem exec_dacFault_fourth_bad (h : dacLimited (s.sense.dacs.getD d DacState.reset).applied lim i = true ∨
      dacAstray (s.sense.dacs.getD d DacState.reset).applied off v = true)
    (hb : 3 ≤ (s.sense.dacs.getD d DacState.reset).bad) :
    exec (.dacFault d lim off i v) s = .next (dacReported s d
      (dacLimited (s.sense.dacs.getD d DacState.reset).applied lim i) i v 4 0 true) := by
  have h4 : Nat.min 4 ((s.sense.dacs.getD d DacState.reset).bad + 1) = 4 := Nat.min_eq_left (by omega)
  rw [exec_dacFault_bad hr hm hc h, h4, if_pos rfl]

theorem exec_dacFault_earlier_bad (h : dacLimited (s.sense.dacs.getD d DacState.reset).applied lim i = true ∨
      dacAstray (s.sense.dacs.getD d DacState.reset).applied off v = true)
    (hb : (s.sense.dacs.getD d DacState.reset).bad < 3) :
    exec (.dacFault d lim off i v) s = .next (dacReported s d
      (dacLimited (s.sense.dacs.getD d DacState.reset).applied lim i) i v ((s.sense.dacs.getD d DacState.reset).bad + 1) 0
      (regB s (aExcStat d) 47)) := by
  have h4 : Nat.min 4 ((s.sense.dacs.getD d DacState.reset).bad + 1) = (s.sense.dacs.getD d DacState.reset).bad + 1 :=
    Nat.min_eq_right (by omega)
  rw [exec_dacFault_bad hr hm hc h, h4, if_neg (by omega)]

theorem exec_dacFault_fourth_good (hl : dacLimited (s.sense.dacs.getD d DacState.reset).applied lim i = false)
    (ho : dacAstray (s.sense.dacs.getD d DacState.reset).applied off v = false)
    (hk : 3 ≤ (s.sense.dacs.getD d DacState.reset).ok) :
    exec (.dacFault d lim off i v) s = .next (dacReported s d false i v 0 4 false) := by
  have h4 : Nat.min 4 ((s.sense.dacs.getD d DacState.reset).ok + 1) = 4 := Nat.min_eq_left (by omega)
  rw [exec_dacFault_good hr hm hc hl ho, h4, if_pos rfl]

end

theorem dacLimited_above {cfg : Word} {i : Nat} (b : Bool) (h : fld cfg 39 32 < i) : dacLimited cfg b i = true := by
  simp [dacLimited, h]

theorem dacLimited_below {cfg : Word} {i : Nat} (b : Bool) (h : i < fld cfg 39 32) : dacLimited cfg b i = false := by
  simp [dacLimited, Nat.le_of_lt h, Nat.ne_of_lt h]

theorem dacAstray_above {cfg : Word} {v : Nat} (b : Bool)
    (h : fld cfg 12 0 + 25 < 50 * ((v - fld cfg 12 0) + (fld cfg 12 0 - v))) : dacAstray cfg b v = true := by
  simp [dacAstray, h]

theorem dacAstray_below {cfg : Word} {v : Nat} (b : Bool)
    (h : 50 * ((v - fld cfg 12 0) + (fld cfg 12 0 - v)) + 25 < fld cfg 12 0) : dacAstray cfg b v = false := by
  simp only [dacAstray, Bool.or_eq_false_iff, Bool.and_eq_false_iff, decide_eq_false_iff_not]
  omega

/-! ## Touch scans (R588 to R591) -/

/-- The touch engine has seen this tick. -/
def scanSeen (s : State) : State := { s with touch := { s.touch with lastTick := regGet s aTickCount } }

/-- A scan has begun under the written TOUCH_CTL and TOUCH_CFG (R588, R589). -/
def scanBegun (s : State) : State :=
  let f := regF s aTouchStat 39 24
  let u := scanSeen s
  regFld { u with touch := { u.touch with
    ctl := regGet s aTouchCtl, cfg := regGet s aTouchCfg, startTb := s.tbl, lastEn := true, fset := f
    freshTx := if s.touch.lastEn = true ∧ s.touch.baseline ≠ [] then changedTx s.touch.fset f else upto 48 } }
    aTouchStat 1 1 1

section
variable {s : State} (hr : s.tick.running = true) (hu : unitRuns s 53 = true) (hn : regGet s aTickCount ≠ 0)
  (hl : regGet s aTickCount ≠ s.touch.lastTick) (hm : (regGet s aTickCount).toNat % fld s.touch.cfg 47 32 = 0)
include hr hu hn hl hm

/-- A scan is due at this tick (R588). -/
theorem scan_due : (frontRuns s 53 && decide (regGet s aTickCount ≠ 0) &&
    decide (regGet s aTickCount ≠ s.touch.lastTick) &&
    decide ((regGet s aTickCount).toNat % fld s.touch.cfg 47 32 = 0)) = true := by
  simp only [frontRuns, hr, hu, hn, hl, hm, ne_eq, not_false_eq_true, decide_true, Bool.and_self]

theorem exec_scanStart_skips (h : regB s aTouchStat 1 = true) :
    exec .scanStart s = .next (regAddSat (scanSeen s) aTouchStat 47 40 1) :=
  (if_pos (scan_due hr hu hn hl hm)).trans (if_pos h)

theorem exec_scanStart_disabled (h : regB s aTouchStat 1 = false) (hc : regB s aTouchCtl 47 = false) :
    exec .scanStart s = .next { scanSeen s with touch := { (scanSeen s).touch with lastEn := false } } :=
  (if_pos (scan_due hr hu hn hl hm)).trans
    ((if_neg (Bool.not_eq_true _ ▸ h)).trans (if_neg (Bool.not_eq_true _ ▸ hc)))

theorem exec_scanStart_begins (h : regB s aTouchStat 1 = false) (hc : regB s aTouchCtl 47 = true) :
    exec .scanStart s = .next (if regB s aTouchCtl 45 then scanBegun s
      else touchLine (regFld { scanBegun s with touch := { (scanBegun s).touch with filmClear := 0 } }
        aTouchStat 3 3 0)) := by
  have hf (f : Nat) : (if (s.touch.lastEn && !s.touch.baseline.isEmpty) = true then changedTx s.touch.fset f else upto 48) =
      if s.touch.lastEn = true ∧ s.touch.baseline ≠ [] then changedTx s.touch.fset f else upto 48 := by simp
  simp only [scanBegun, ← hf]
  exact (if_pos (scan_due hr hu hn hl hm)).trans ((if_neg (Bool.not_eq_true _ ▸ h)).trans (if_pos hc))

end

theorem exec_touchFrameWrite_due {s : State} (meas rx tx : List Int) (noise : List Nat) (hs : regB s aTouchStat 1 = true)
    (hf : frontRuns s 53 = true)
    (hd : scanSteps s * fld s.touch.cfg 31 23 * 1000 ≤ (s.tbl - s.touch.startTb).toNat) :
    ∃ t, exec (.touchFrameWrite meas rx tx noise) s = .next t ∧ t.touch.scan = s.touch.scan + 1 ∧
      t.touch.freshTx = [] ∧
      t.touch.baseline = nextBaseline s meas (scanResult s meas rx tx) (nextFilm s (scanResult s meas rx tx).film).1 := by
  have hg : (regB s aTouchStat 1 && decide (scanSteps s * fld s.touch.cfg 31 23 * 1000 ≤
      (s.tbl - s.touch.startTb).toNat) && frontRuns s 53) = true := by
    simp only [hs, hd, hf, decide_true, Bool.and_self]
  rcases hn : nextFilm s (scanResult s meas rx tx).film with ⟨film, clear⟩
  simp only [exec, execTouchFrameWrite, hn, hg, if_true]
  refine ⟨_, rfl, ?_⟩
  simp [touchLine]

end Sys2Proof.Machine
end

section
/-! The events of the cluster, the counters and the front ends together. -/

namespace Sys2Proof.Machine

open Sys2Proof

/-- Settles O56: each event by the lemma on its command above. -/
theorem clusterEvents : Obligations.ClusterEvents := by
  unfold Obligations.ClusterEvents
  intro s
  refine ⟨fun raw hr hd hc => exec_frameTick_due raw hr hd hc, ⟨rfl, nextTickCount_of_not_aligning⟩, ?frameStart,
    ?beginFrame, fun g cause => ⟨exec_safeStateEntry_cause, exec_safeStateEntry_other, ?safe⟩,
    fun hs hr hh hn => exec_tickHoldover_joined hs hr hh hn, ?mismatch,
    fun p hp hc hr g hg => exec_lockstepPairRetirement_third hp hc hr hg, exec_bandwidthWindowEnd_none,
    fun h => ⟨exec_bandwidthWindowEnd_stopped h, exec_counterRecordWrite_stopped h⟩,
    fun l hl hr => ⟨_, exec_bandwidthWindowEnd_some hl hr, rfl, rfl⟩, ?record,
    exec_senseWrite_due, exec_senseWrite_idle,
    fun c => ⟨exec_offsetCalibrationEnd_due, exec_offsetCalibrationEnd_early⟩, ?inputFault, ?dacFault,
    fun cfg b i v => ⟨dacLimited_above b, dacLimited_below b, dacAstray_above b, dacAstray_below b⟩,
    fun c out => exec_inputFault_stopped out, exec_dacFault_stopped, ?scan, exec_touchFrameWrite_due⟩
  case frameStart =>
    intro g hr hn hs hp
    refine ⟨_, exec_frameStart_due hr hn hs hp, ?_, ?_⟩
    · rw [foldl_keeps (p := State.tick) beginFrame_tick]
      exact groupStarted_started s g
    · rw [foldl_keeps (p := State.outs) beginFrame_outs]
      exact fun o => groupStarted_fresh
  case beginFrame =>
    intro i
    obtain ⟨hd, hb, hs⟩ := beginFrame_frame s i
    refine ⟨hd, hb, hs, fun h => ?_, beginFrame_starts⟩
    rw [beginFrame_of_stopped h]
  case safe =>
    intro h
    rw [← safeEnter_of_not_safe h]
    exact safeGroup_of_not_safe h cause
  case mismatch =>
    intro p i k hp hr hf hs u
    refine ⟨exec_lockstepMismatch_init hp hr hf hs, fun hi => ?_⟩
    obtain ⟨l, he, hl⟩ := exec_lockstepMismatch_frame hp hr hf hs hi
    obtain ⟨h1, h2, h3⟩ := pairStopped_core s p
    exact ⟨_, he, h1, h2, h3, hl⟩
  case record =>
    intro hr hu
    exact ⟨fun s1 s2 s3 h1 h2 h3 => exec_counterRecordWrite_done hr hu (recordPuts_done h1 h2 h3),
      fun s1 h => exec_counterRecordWrite_held hr hu (recordPuts_held h)⟩
  case inputFault =>
    intro c hl hf
    have hc : c.val < s.sense.chans.length := by rw [hl]; exact c.isLt
    refine ⟨⟨_, exec_inputFault_runs true hf, ?_⟩, ⟨_, exec_inputFault_runs false hf, ?_⟩⟩
    · rw [chan_modChan_same hc]
      exact inputJudged_out _
    · rw [chan_modChan_same hc]
      exact inputJudged_in _
  case dacFault =>
    intro d lim off i v x hr hm hc
    refine ⟨exec_dacFault_fourth_bad hr hm hc, exec_dacFault_earlier_bad hr hm hc, fun hl ho hk => ?_⟩
    simp only [hl]
    exact exec_dacFault_fourth_good hr hm hc hl ho hk
  case scan =>
    intro hr hu hn hl hm
    refine ⟨exec_scanStart_skips hr hu hn hl hm, exec_scanStart_disabled hr hu hn hl hm, fun h hc hw => ?_,
      fun h hc hw => ?_⟩
    · have hb := exec_scanStart_begins hr hu hn hl hm h hc
      rwa [if_pos hw] at hb
    · have hb := exec_scanStart_begins hr hu hn hl hm h hc
      rwa [if_neg (Bool.not_eq_true _ ▸ hw)] at hb

end Sys2Proof.Machine
end

section
/-! The integer, immediate, bit-field and unary instructions (R108 to R114): what they write, and what a bit field that does
not fit leaves. -/

namespace Sys2Proof.Machine

open Sys2Proof

/-! ## Instructions that write one register -/

/-- An instruction whose whole effect is one register write computes that value. -/
theorem computes_of_regInstr {i : Instr} {c : CoreId} {d : Shape} {gd : Reg} {v w : Core → Word}
    (hi : ∀ s, exec i s = .next (regInstr s c d gd w)) (hv : ∀ k, w k = v k) : Computes i c d gd v := by
  intro s t h
  rw [hi, regInstr_of_issues h, hv]

/-- An operation of two registers computes its result (R108). -/
theorem computes_of_aluOp {i : Instr} {c : CoreId} {f : Form} {gd ga gb : Reg} {op : Word → Word → Word}
    {v : Core → Word} (hi : ∀ s, exec i s = .next (aluOp s c f gd ga gb op))
    (hv : ∀ k : Core, op (k.reg ga) (k.reg gb) = v k) : Computes i c (plain f) gd v :=
  computes_of_regInstr hi hv

/-- A unary operation, or one with an immediate, computes its result (R109, R112, R113). -/
theorem computes_of_unOp {i : Instr} {c : CoreId} {f : Form} {gd ga : Reg} {op : Word → Word} {v : Core → Word}
    (hi : ∀ s, exec i s = .next (unOp s c f gd ga op)) (hv : ∀ k : Core, op (k.reg ga) = v k) :
    Computes i c (plain f) gd v :=
  computes_of_regInstr hi hv

/-- A bit-field instruction whose field R114 permits computes its result. -/
theorem computes_of_bfOp {i : Instr} {c : CoreId} {gd : Reg} {pos len : BitVec 6} {v w : Core → Word}
    (hi : ∀ s, exec i s = .next (bfOp s c gd pos len w)) (h1 : 1 ≤ len.toNat) (h2 : pos.toNat + len.toNat ≤ 48)
    (hv : ∀ k, w k = v k) : Computes i c (plain .long) gd v := by
  have hok : bfOk pos.toNat len.toNat = true := by
    simp only [bfOk, Bool.and_eq_true, decide_eq_true_eq]
    omega
  refine computes_of_regInstr (w := w) (fun s => ?_) hv
  rw [hi, bfOp, hok]
  rfl

/-! ## Values of the operations of two registers (R108 to R111) -/

theorem shAmt_eq (b : Word) : shAmt b = b.toNat % 64 := by simp [shAmt, fld]

theorem rolW_eq_rotateLeft (a : Word) (n : Nat) : rolW a n = a.rotateLeft (n % 48) := by
  simp [rolW, BitVec.rotateLeft, BitVec.rotateLeftAux]

theorem w01_decide (p : Prop) [Decidable p] : w01 (decide p) = if p then 1 else 0 := by simp [w01]

theorem minS_eq (a b : Word) : minS a b = BitVec.ofInt 48 (min a.toInt b.toInt) := by
  unfold minS
  split
  · next h => rw [min_eq_left h, BitVec.ofInt_toInt]
  · next h => rw [min_eq_right (by omega), BitVec.ofInt_toInt]

theorem maxS_eq (a b : Word) : maxS a b = BitVec.ofInt 48 (max a.toInt b.toInt) := by
  unfold maxS
  split
  · next h => rw [max_eq_right h, BitVec.ofInt_toInt]
  · next h => rw [max_eq_left (by omega), BitVec.ofInt_toInt]

theorem minU_eq (a b : Word) : minU a b = w48 (min a.toNat b.toNat) := by
  unfold minU
  split
  · next h => simp [min_eq_left h]
  · next h => simp [min_eq_right (Nat.le_of_not_le h)]

theorem maxU_eq (a b : Word) : maxU a b = w48 (max a.toNat b.toNat) := by
  unfold maxU
  split
  · next h => simp [max_eq_right h]
  · next h => simp [max_eq_left (Nat.le_of_not_le h)]

/-- The carry is the bit above the word of the exact sum. -/
theorem carryW_eq (a b : Word) : carryW a b = w48 ((a.toNat + b.toNat) / 2 ^ 48) := by
  have ha := a.isLt
  have hb := b.isLt
  unfold carryW w01
  by_cases h : 2 ^ 48 ≤ a.toNat + b.toNat
  · have : (a.toNat + b.toNat) / 2 ^ 48 = 1 := by omega
    simp only [h, this, decide_true, if_true]
    rfl
  · have : (a.toNat + b.toNat) / 2 ^ 48 = 0 := by omega
    simp only [h, this, decide_false, Bool.false_eq_true, if_false]
    rfl

theorem absdW_eq (a b : Word) : absdW a b = w48 (a.toInt - b.toInt).natAbs := by
  rw [absdW, w48, ← BitVec.ofInt_natCast]
  congr 1
  split <;> omega

/-- Saturation to n bits is the nearest number of the range. -/
theorem clampS_eq (n : Nat) (v : Int) : clampS n v = max (-2 ^ (n - 1)) (min (2 ^ (n - 1) - 1) v) := by
  have : (0 : Int) < 2 ^ (n - 1) := by positivity
  unfold clampS
  split
  · omega
  · split <;> omega

theorem adds_eq (a b : Word) :
    adds a b = BitVec.ofInt 48 (max (-2 ^ 47) (min (2 ^ 47 - 1) (a.toInt + b.toInt))) := by
  rw [adds, satW, clampS_eq]

theorem subs_eq (a b : Word) :
    subs a b = BitVec.ofInt 48 (max (-2 ^ 47) (min (2 ^ 47 - 1) (a.toInt - b.toInt))) := by
  rw [subs, satW, clampS_eq]

theorem divuW_eq (a b : Word) : divuW a b = if b = 0 then 0xFFFFFFFFFFFF else a / b := by
  rw [divuW, BitVec.udiv_def]

/-- What the signed quotient leaves is the remainder toward zero (R110). -/
theorem remW_eq (a b : Word) : remW a b = if b = 0 then a else BitVec.ofInt 48 (a.toInt.tmod b.toInt) := by
  unfold remW divW
  split
  · rfl
  · have h : a = b * BitVec.ofInt 48 (a.toInt.tdiv b.toInt) + BitVec.ofInt 48 (a.toInt.tmod b.toInt) := by
      conv_lhs => rw [← BitVec.ofInt_toInt (x := a), ← Int.mul_tdiv_add_tmod a.toInt b.toInt]
      rw [BitVec.ofInt_add, BitVec.ofInt_mul, BitVec.ofInt_toInt]
    exact sub_eq_of_eq_add' h

theorem remuW_eq (a b : Word) : remuW a b = if b = 0 then a else a % b := by
  rw [remuW, divuW_eq]
  split
  · rfl
  · have h : a = b * (a / b) + a % b := by
      refine BitVec.eq_of_toNat_eq ?_
      rw [BitVec.toNat_add, BitVec.toNat_mul, BitVec.toNat_udiv, BitVec.toNat_umod, Nat.mod_add_mod, Nat.div_add_mod,
        Nat.mod_eq_of_lt a.isLt]
    exact sub_eq_of_eq_add' h

theorem hadds_eq (x y : BitVec 24) :
    hadds x y = BitVec.ofInt 24 (max (-2 ^ 23) (min (2 ^ 23 - 1) (x.toInt + y.toInt))) := by
  rw [hadds, satH, clampS_eq]

theorem hsubs_eq (x y : BitVec 24) :
    hsubs x y = BitVec.ofInt 24 (max (-2 ^ 23) (min (2 ^ 23 - 1) (x.toInt - y.toInt))) := by
  rw [hsubs, satH, clampS_eq]

/-- Settles O8, by the value of each operation. -/
theorem integerResults : Obligations.IntegerResults := by
  unfold Obligations.IntegerResults
  intro c f gd ga gb
  have amt (k : Core) : shAmt (k.reg gb) = (k.reg gb).toNat % 64 := shAmt_eq _
  refine ⟨computes_of_aluOp (fun _ => rfl) fun _ => rfl, computes_of_aluOp (fun _ => rfl) fun _ => rfl,
    computes_of_aluOp (fun _ => rfl) fun _ => rfl, computes_of_aluOp (fun _ => rfl) fun _ => rfl,
    computes_of_aluOp (fun _ => rfl) fun _ => rfl, computes_of_aluOp (fun _ => rfl) fun _ => rfl,
    computes_of_aluOp (fun _ => rfl) fun k => ?sll, computes_of_aluOp (fun _ => rfl) fun k => ?srl,
    computes_of_aluOp (fun _ => rfl) fun k => ?sra, computes_of_aluOp (fun _ => rfl) fun k => ?rol,
    computes_of_aluOp (fun _ => rfl) fun _ => w01_decide _, computes_of_aluOp (fun _ => rfl) fun _ => w01_decide _,
    computes_of_aluOp (fun _ => rfl) fun _ => w01_decide _, computes_of_aluOp (fun _ => rfl) fun _ => ?sne,
    computes_of_aluOp (fun _ => rfl) fun _ => w01_decide _, computes_of_aluOp (fun _ => rfl) fun _ => w01_decide _,
    computes_of_aluOp (fun _ => rfl) fun _ => minS_eq _ _, computes_of_aluOp (fun _ => rfl) fun _ => maxS_eq _ _,
    computes_of_aluOp (fun _ => rfl) fun _ => minU_eq _ _, computes_of_aluOp (fun _ => rfl) fun _ => maxU_eq _ _,
    computes_of_aluOp (fun _ => rfl) fun _ => carryW_eq _ _, computes_of_aluOp (fun _ => rfl) fun _ => absdW_eq _ _,
    computes_of_aluOp (fun _ => rfl) fun _ => adds_eq _ _, computes_of_aluOp (fun _ => rfl) fun _ => subs_eq _ _⟩
  case sll => rw [amt, sllW]
  case srl => rw [amt, srlW]
  case sra => rw [amt, sraW]
  case rol => rw [amt, rolW_eq_rotateLeft]
  case sne => exact (w01_decide _).trans (ite_not ..)

/-- Settles O9, by the values of the quotients and remainders. -/
theorem divisionResults : Obligations.DivisionResults := by
  unfold Obligations.DivisionResults
  intro c gd ga gb
  exact ⟨computes_of_aluOp (fun _ => rfl) fun _ => rfl, computes_of_aluOp (fun _ => rfl) fun _ => divuW_eq _ _,
    computes_of_aluOp (fun _ => rfl) fun _ => remW_eq _ _, computes_of_aluOp (fun _ => rfl) fun _ => remuW_eq _ _⟩

/-- Settles O10: the operations are applied to each half alone. -/
theorem halfResults : Obligations.HalfResults := by
  unfold Obligations.HalfResults
  intro c gd ga gb lo hi sat
  refine ⟨computes_of_aluOp (fun _ => rfl) fun _ => rfl, computes_of_aluOp (fun _ => rfl) fun _ => rfl,
    computes_of_aluOp (fun _ => rfl) fun k => ?_, computes_of_aluOp (fun _ => rfl) fun k => ?_⟩
  · rw [halves, hadds_eq, hadds_eq]
    rfl
  · rw [halves, hsubs_eq, hsubs_eq]
    rfl

end Sys2Proof.Machine
end

section
/-! Immediates, bit fields and unary operations (R109, R112 to R114). -/

namespace Sys2Proof.Machine

open Sys2Proof

/-! ## Bit fields (R113, R114) -/

theorem fld_eq_extractLsb' (a : Word) (pos : Nat) {len : Nat} (h : 1 ≤ len) :
    fld a (pos + len - 1) pos = (a.extractLsb' pos len).toNat := by
  rw [fld, BitVec.extractLsb'_toNat, show pos + len - 1 + 1 - pos = len by omega]

theorem extu_eq (a : Word) (pos : Nat) {len : Nat} (h1 : 1 ≤ len) :
    extu a pos len = (a.extractLsb' pos len).zeroExtend 48 := by
  rw [extu, fld_eq_extractLsb' a pos h1]
  exact BitVec.ofNat_toNat ..

/-- A field of n bits read as a signed number is the signed value of its bits. -/
theorem sgn_toNat {n : Nat} (x : BitVec n) (h : 1 ≤ n) : sgn n x.toNat = x.toInt := by
  have h2 : 2 ^ n = 2 * 2 ^ (n - 1) := by rw [← pow_succ', Nat.sub_add_cancel h]
  have hm : (x.toNat : Int) % 2 ^ n = x.toNat := Int.emod_eq_of_lt (Int.natCast_nonneg _) (by exact_mod_cast x.isLt)
  rw [sgn, BitVec.toInt_eq_toNat_cond, Nat.mod_eq_of_lt x.isLt, hm]
  by_cases hx : x.toNat < 2 ^ (n - 1)
  · rw [if_pos hx, if_pos (by omega)]
  · rw [if_neg hx, if_neg (by omega)]
    push_cast
    rfl

theorem exts_eq (a : Word) (pos : Nat) {len : Nat} (h1 : 1 ≤ len) :
    exts a pos len = (a.extractLsb' pos len).signExtend 48 := by
  rw [exts, fld_eq_extractLsb' a pos h1, sgn_toNat _ h1, BitVec.signExtend]

/-- A deposit replaces exactly its field. -/
theorem getLsbD_depW (d a : Word) {pos len i : Nat} (h1 : 1 ≤ len) (hi : i < 48) :
    (depW d a pos len).getLsbD i =
      if pos ≤ i ∧ i < pos + len then a.getLsbD (i - pos) else d.getLsbD i := by
  rw [depW, getLsbD_setFld _ _ (by omega) hi]
  by_cases h : pos ≤ i ∧ i < pos + len
  · rw [if_pos (by omega), if_pos h, testBit_fld, decide_eq_true (by omega), Nat.zero_add, Bool.true_and]
  · rw [if_neg (by omega), if_neg h]

theorem getLsbD_depz (a : Word) {pos len i : Nat} (h1 : 1 ≤ len) (hi : i < 48) :
    (depz a pos len).getLsbD i = if pos ≤ i ∧ i < pos + len then a.getLsbD (i - pos) else false := by
  rw [depz, getLsbD_depW 0 a h1 hi]
  simp only [BitVec.ofNat_eq_ofNat, BitVec.getLsbD_zero]

/-! ## Unary operations (R112) -/

theorem absW_eq (a : Word) : absW a = w48 a.toInt.natAbs := by
  rw [w48, ← BitVec.ofInt_natCast, absW]
  split
  · next h =>
    rw [Int.ofNat_natAbs_of_nonpos (by omega), BitVec.ofInt_neg, BitVec.ofInt_toInt]
    exact zero_sub a
  · next h => rw [Int.natAbs_of_nonneg (by omega), BitVec.ofInt_toInt]

/-- Counting leading zeros of the low n bits stops at the highest one bit. -/
theorem clzFrom_spec (a : Word) (n : Nat) :
    clzFrom a n ≤ n ∧ (∀ i, n - clzFrom a n ≤ i → i < n → a.getLsbD i = false) ∧
      (clzFrom a n < n → a.getLsbD (n - 1 - clzFrom a n) = true) := by
  induction n with
  | zero => exact ⟨Nat.le_refl 0, fun i _ h => absurd h (Nat.not_lt_zero i), fun h => absurd h (Nat.lt_irrefl 0)⟩
  | succ n ih =>
    obtain ⟨hle, hz, ho⟩ := ih
    by_cases hb : a.getLsbD n = true
    · have h0 : clzFrom a (n + 1) = 0 := if_pos hb
      rw [h0]
      exact ⟨Nat.zero_le _, fun i h1 h2 => by omega, fun _ => hb⟩
    · have h1 : clzFrom a (n + 1) = 1 + clzFrom a n := if_neg hb
      rw [h1]
      refine ⟨by omega, fun i h2 h3 => ?_, fun h => ?_⟩
      · rcases Nat.lt_succ_iff_lt_or_eq.1 h3 with h | rfl
        · exact hz i (by omega) h
        · exact Bool.eq_false_of_not_eq_true hb
      · rw [show n + 1 - 1 - (1 + clzFrom a n) = n - 1 - clzFrom a n by omega]
        exact ho (by omega)

/-- Counting trailing zeros of n bits from bit i on stops at the lowest one bit. -/
theorem ctzFrom_spec (a : Word) (i n : Nat) :
    ctzFrom a i n ≤ n ∧ (∀ j, i ≤ j → j < i + ctzFrom a i n → a.getLsbD j = false) ∧
      (ctzFrom a i n < n → a.getLsbD (i + ctzFrom a i n) = true) := by
  induction n generalizing i with
  | zero => exact ⟨Nat.le_refl 0, fun j h1 h2 => absurd h2 (Nat.not_lt.2 h1), fun h => absurd h (Nat.lt_irrefl 0)⟩
  | succ n ih =>
    obtain ⟨hle, hz, ho⟩ := ih (i + 1)
    by_cases hb : a.getLsbD i = true
    · have h0 : ctzFrom a i (n + 1) = 0 := if_pos hb
      rw [h0]
      exact ⟨Nat.zero_le _, fun j h1 h2 => by omega, fun _ => hb⟩
    · have h1 : ctzFrom a i (n + 1) = 1 + ctzFrom a (i + 1) n := if_neg hb
      rw [h1]
      refine ⟨by omega, fun j h2 h3 => ?_, fun h => ?_⟩
      · rcases Nat.eq_or_lt_of_le h2 with rfl | h
        · exact Bool.eq_false_of_not_eq_true hb
        · exact hz j h (by omega)
      · rw [← Nat.add_assoc]
        exact ho (by omega)

theorem popFrom_eq_countP (a : Word) (i n : Nat) :
    popFrom a i n = (List.range n).countP fun j => a.getLsbD (i + j) := by
  induction n generalizing i with
  | zero => rfl
  | succ n ih =>
    rw [popFrom, ih, List.range_succ_eq_map, List.countP_cons, List.countP_map, Nat.add_comm]
    congr 1
    · refine List.countP_congr fun j _ => ?_
      rw [Function.comp_apply, Nat.succ_eq_add_one, show i + (j + 1) = i + 1 + j by omega]
    · rw [bit, Nat.add_zero]
      cases a.getLsbD i <;> rfl

theorem popcW_eq (a : Word) : popcW a = w48 ((List.range 48).countP fun i => a.getLsbD i) := by
  rw [popcW, popFrom_eq_countP]
  simp only [Nat.zero_add]

theorem half_zero (a : Word) : half a 0 = a.setWidth 24 := (BitVec.setWidth_eq_extractLsb' (by omega)).symm

theorem byteOf_zero (a : Word) : byteOf a 0 = a.setWidth 8 := (BitVec.setWidth_eq_extractLsb' (by omega)).symm

theorem zxh_eq (a : Word) : zxh a = a &&& 0xFFFFFF := by
  refine BitVec.eq_of_toNat_eq ?_
  rw [zxh, half_zero]
  have : a.toNat &&& 0xFFFFFF = a.toNat % 2 ^ 24 := Nat.and_two_pow_sub_one_eq_mod a.toNat 24
  simp [this]
  omega

theorem zxb_eq (a : Word) : zxb a = a &&& 0xFF := by
  refine BitVec.eq_of_toNat_eq ?_
  rw [zxb, byteOf_zero]
  have : a.toNat &&& 0xFF = a.toNat % 2 ^ 8 := Nat.and_two_pow_sub_one_eq_mod a.toNat 8
  simp [this]
  omega

/-- Swapping the halves is a rotation by one half. -/
theorem swph_eq (a : Word) : swph a = a.rotateLeft 24 := by
  refine BitVec.eq_of_getLsbD_eq fun i hi => ?_
  rw [swph, ofHalves, half, half, BitVec.getLsbD_append, BitVec.getLsbD_rotateLeft]
  by_cases h : i < 24
  · simp [h]
  · have : i - 24 < 24 := by omega
    simp [h, hi, this]

/-! ## Refused bit fields (R114, R276) -/

theorem bfOp_of_misfit {s t : State} {c : CoreId} {pos len : BitVec 6} (h : Issues s c (plain .long) t)
    (hm : len.toNat = 0 ∨ 47 < pos.toNat ∨ 48 < pos.toNat + len.toNat) (gd : Reg) (op : Core → Word) :
    bfOp s c gd pos len op = faultAt t c (exc 0x01 1) := by
  have hbad : bfOk pos.toNat len.toNat = false := by
    simp only [bfOk, Bool.and_eq_false_iff, decide_eq_false_iff_not]
    omega
  rw [bfOp, hbad]
  exact runInstr_of_rejects (h.rejects_bad 1) _

theorem shiftRight_one_eq (a : Word) : a >>> 1 = w48 (a.toNat / 2) := by
  refine BitVec.eq_of_toNat_eq ?_
  have := a.isLt
  simp [Nat.shiftRight_eq_div_pow]
  omega

/-- Settles O14, by the rules of a register write. -/
theorem registerZero : Obligations.RegisterZero := by
  unfold Obligations.RegisterZero
  intro k r v
  exact ⟨reg_zero k, setReg_zero k v, reg_setReg_same k v, fun _ => reg_setReg_other k v⟩

/-- Settles O11, by the value of each operation and the bits of a deposit. -/
theorem immediateResults : Obligations.ImmediateResults := by
  unfold Obligations.ImmediateResults
  intro c f gd ga
  refine ⟨fun imm => ⟨?addi, ?andi, ?ori, ?xori⟩, fun amt => ⟨?slli, ?srli, ?srai, ?roli⟩, fun imm => ⟨?movi, ?addpc⟩,
    fun imm => ?ldih, fun pos len h1 h2 => ⟨?extu, ?exts, ?dep, ?depz⟩⟩
  case addi => exact computes_of_unOp (fun _ => rfl) fun _ => rfl
  case andi => exact computes_of_unOp (fun _ => rfl) fun _ => rfl
  case ori => exact computes_of_unOp (fun _ => rfl) fun _ => rfl
  case xori => exact computes_of_unOp (fun _ => rfl) fun _ => rfl
  case slli => exact computes_of_unOp (fun _ => rfl) fun _ => rfl
  case srli => exact computes_of_unOp (fun _ => rfl) fun _ => rfl
  case srai => exact computes_of_unOp (fun _ => rfl) fun _ => rfl
  case roli => exact computes_of_unOp (fun _ => rfl) fun _ => rolW_eq_rotateLeft _ _
  case movi => exact computes_of_regInstr (fun _ => rfl) fun _ => rfl
  case addpc => exact computes_of_regInstr (fun _ => rfl) fun k => by rw [shiftRight_one_eq]
  case ldih => exact computes_of_regInstr (fun _ => rfl) fun _ => rfl
  case extu => exact computes_of_bfOp (fun _ => rfl) h1 h2 fun _ => extu_eq _ _ h1
  case exts => exact computes_of_bfOp (fun _ => rfl) h1 h2 fun _ => exts_eq _ _ h1
  case dep =>
    intro s t h
    have hc := computes_of_bfOp (i := .dep c gd ga pos len) (fun _ => rfl) h1 h2 (fun _ => rfl) s t h
    exact ⟨_, hc, fun i hi => getLsbD_depW _ _ h1 hi⟩
  case depz =>
    intro s t h
    have hc := computes_of_bfOp (i := .depz c gd ga pos len) (fun _ => rfl) h1 h2 (fun _ => rfl) s t h
    exact ⟨_, hc, fun i hi => getLsbD_depz _ h1 hi⟩

/-- Settles O13, by the value of each operation. -/
theorem unaryResults : Obligations.UnaryResults := by
  unfold Obligations.UnaryResults
  intro c f gd ga
  refine ⟨computes_of_unOp (fun _ => rfl) fun _ => rfl, computes_of_unOp (fun _ => rfl) fun _ => zero_sub _,
    computes_of_unOp (fun _ => rfl) fun _ => rfl, computes_of_unOp (fun _ => rfl) fun _ => absW_eq _, ?clz, ?ctz,
    computes_of_unOp (fun _ => rfl) fun _ => popcW_eq _, computes_of_unOp (fun _ => rfl) fun _ => ?sxh,
    computes_of_unOp (fun _ => rfl) fun _ => ?sxb, computes_of_unOp (fun _ => rfl) fun _ => zxh_eq _,
    computes_of_unOp (fun _ => rfl) fun _ => zxb_eq _, computes_of_unOp (fun _ => rfl) fun _ => swph_eq _⟩
  case clz =>
    have hc : Computes (.clz c f gd ga) c (plain f) gd fun k => w48 (clzFrom (k.reg ga) 48) :=
      computes_of_unOp (fun _ => rfl) fun _ => rfl
    intro s t h
    obtain ⟨hle, hz, ho⟩ := clzFrom_spec ((t.core c).reg ga) 48
    rw [show 48 - 1 = 47 from rfl] at ho
    exact ⟨_, hle, hc s t h, hz, ho⟩
  case ctz =>
    have hc : Computes (.ctz c f gd ga) c (plain f) gd fun k => w48 (ctzFrom (k.reg ga) 0 48) :=
      computes_of_unOp (fun _ => rfl) fun _ => rfl
    intro s t h
    obtain ⟨hle, hz, ho⟩ := ctzFrom_spec ((t.core c).reg ga) 0 48
    rw [Nat.zero_add] at hz ho
    exact ⟨_, hle, hc s t h, fun i hi => hz i (Nat.zero_le i) hi, ho⟩
  case sxh => rw [sxh, half_zero]
  case sxb => rw [sxb, byteOf_zero]

end Sys2Proof.Machine
end

section
/-! What an exception leaves of the general registers (R266 to R277): nothing but the undoing of a branch writes one, not
even a checkstop with its module fault. -/

namespace Sys2Proof.Machine

open Sys2Proof

/-- The general registers of every core. -/
def State.gens (s : State) : Vector (Vector Word 32) 33 := s.cores.map (·.g)

theorem State.gens_core (s : State) (c : CoreId) : s.gens[c.agent] = (s.core c).g := by
  simp [State.gens, State.core]

theorem reg_of_gens {s t : State} (h : t.gens = s.gens) (c : CoreId) (r : Reg) : (t.core c).reg r = (s.core c).reg r := by
  rw [Core.reg, Core.reg, ← State.gens_core, ← State.gens_core, h]

theorem gens_of_cores {s t : State} (h : t.cores = s.cores) : t.gens = s.gens := by rw [State.gens, State.gens, h]

theorem setCore_gens {s : State} {c : CoreId} {k : Core} (h : k.g = (s.core c).g) : (s.setCore c k).gens = s.gens := by
  refine Vector.ext fun i hi => ?_
  by_cases hc : c.agent.val = i
  · subst hc
    simpa [State.gens, State.setCore, State.core] using h
  · simp [State.gens, State.setCore, Vector.getElem_set_ne _ _ hc]

@[simp] theorem regSet_gens (s : State) (a : Nat) (v : Word) : (regSet s a v).gens = s.gens := gens_of_cores (regSet_cores ..)
@[simp] theorem regFld_gens (s : State) (a hi lo v : Nat) : (regFld s a hi lo v).gens = s.gens :=
  gens_of_cores (regFld_cores ..)
@[simp] theorem regAddSat_gens (s : State) (a hi lo n : Nat) : (regAddSat s a hi lo n).gens = s.gens := regFld_gens ..

@[simp] theorem represent_gens (s : State) (t : Nat) : (represent s t).gens = s.gens := by
  unfold represent
  split
  · exact setCore_gens rfl
  · rfl

@[simp] theorem assertEdge_gens (s : State) (n : Nat) : (assertEdge s n).gens = s.gens := by
  unfold assertEdge
  split
  · rfl
  · split <;> simp

@[simp] theorem logFault_gens (s : State) (code unit src : Nat) (w2 w3 : Word) :
    (logFault s code unit src w2 w3).gens = s.gens := by
  simp only [logFault, logStat, assertEdge_gens, regFld_gens]
  split
  · rw [regAddSat_gens]
    rfl
  · rfl

@[simp] theorem setFronts_gens (s : State) (g : Nat) (f : Output → Word) : (setFronts s g f).gens = s.gens := rfl

@[simp] theorem safeEnter_gens (s : State) (g cause : Nat) : (safeEnter s g cause).gens = s.gens := by
  simp only [safeEnter]
  split <;> simp

@[simp] theorem safeGroup_gens (s : State) (g cause : Nat) : (safeGroup s g cause).gens = s.gens := by
  simp only [safeGroup]
  split <;> simp

@[simp] theorem closeRing_gens (s : State) : (closeRing s).gens = s.gens := by
  unfold closeRing
  extract_lets old s1 _ _ s2
  have h1 : s1.gens = s.gens := by
    unfold s1
    rw [foldl_keeps (p := State.gens) fun s p => by rw [regFld_gens, regFld_gens], regSet_gens, regFld_gens]
  clear_value s1
  have h2 : s2.gens = s.gens := h1
  split
  · rw [assertEdge_gens, h2]
  · exact h2

@[simp] theorem copyLogs_gens (s : State) : (copyLogs s).gens = s.gens := rfl

/-- Holding the clusters stops their cores and keeps their registers. -/
@[simp] theorem holdClusters_gens (s : State) : (holdClusters s).gens = s.gens := by
  simp only [holdClusters, regFld_gens]
  refine Vector.ext fun i hi => ?_
  simp only [State.gens, Vector.getElem_map, Vector.getElem_mapIdx]
  split <;> rfl

@[simp] theorem dacsOff_gens (s : State) : (dacsOff s).gens = s.gens := rfl

@[simp] theorem enterHold_gens (s : State) (f : Nat) : (enterHold s f).gens = s.gens :=
  (closeRing_gens _).trans (holdClusters_gens s)

@[simp] theorem enterReset_gens (s : State) (cause fault : Nat) : (enterReset s cause fault).gens = s.gens :=
  (dacsOff_gens _).trans (by simp)

/-- A module fault writes no general register. -/
@[simp] theorem moduleFault_gens (s : State) (f : Nat) : (moduleFault s f).gens = s.gens := by
  unfold moduleFault
  extract_lets s1 s2 s3
  have h1 : s1.gens = s.gens := foldl_keeps (p := State.gens) (fun s g => by split <;> simp) _ s
  have h2 : s2.gens = s.gens := (closeRing_gens s1).trans h1
  clear_value s1 s2
  have h3 : s3.gens = s.gens := by
    unfold s3
    split
    · rw [copyLogs_gens, logFault_gens, h2]
    · exact h2
  clear_value s3
  split
  · exact h3
  · split
    · exact h3
    · split
      · rw [enterHold_gens, h3]
      · split
        · exact (dacsOff_gens _).trans ((holdClusters_gens s3).trans h3)
        · rw [enterReset_gens, h3]

@[simp] theorem checkstop_gens (s : State) (c : CoreId) (pc ecause eaddr : Word) :
    (checkstop s c pc ecause eaddr).gens = s.gens := by
  have h : (s.modCore c fun k => { k with run := .checkstopped, waiting := none }).gens = s.gens := setCore_gens rfl
  cases c with
  | app i => exact h
  | frond i => exact h
  | medulla => exact (moduleFault_gens _ 5).trans h

theorem coreCount_cores (s : State) (c : CoreId) (a f : Nat) : (coreCount s c a f).cores = s.cores := by
  unfold coreCount
  split
  · split <;> rfl
  · split <;> rfl
  · rfl

theorem enter_g (k : Core) (lvl : Nat) (cause : Word) (cls : Nat) (addr resume : Word) (iml : Option Nat) :
    (k.enter lvl cause cls addr resume iml).g = k.g := rfl

theorem flushStatus_g (k : Core) : k.flushStatus.g = k.g := rfl

/-- Entry to an exception level saves and replaces no general register (R273, R275). -/
theorem take_entered_g {k k' : Core} {e : Exc} {lvl : Nat} {resume : Word} (h : k.take e lvl resume = .entered k') :
    k'.g = k.g := by
  unfold Core.take at h
  split at h
  · split at h
    · cases h
    · injection h with h
      rw [← h, enter_g]
  · injection h with h
    rw [← h, enter_g]

@[simp] theorem raiseAt_gens (s : State) (c : CoreId) (e : Exc) (resume : Word) :
    (raiseAt s c e resume).gens = s.gens := by
  simp only [raiseAt]
  split
  · next k' h =>
    rw [represent_gens, gens_of_cores (coreCount_cores ..)]
    have hg : k'.g = (s.core c).g := (take_entered_g h).trans (flushStatus_g _)
    exact setCore_gens hg
  · rw [checkstop_gens]
    exact setCore_gens rfl

/-- An exception outside a delay slot leaves every general register (R230, R273). -/
theorem faultAt_gens {s : State} {c : CoreId} (h : (s.core c).slot = none) (e : Exc) : (faultAt s c e).gens = s.gens := by
  have hu : (s.core c).undoBranch = s.core c := by rw [Core.undoBranch, h]
  rw [faultAt, raiseAt_gens]
  have hg : (s.core c).undoBranch.g = (s.core c).g := by rw [hu]
  exact setCore_gens hg

/-- Settles O12: the field fails the check of its encoding, and the exception writes no general register. -/
theorem bitFieldRefused : Obligations.BitFieldRefused := by
  unfold Obligations.BitFieldRefused
  intro s t c gd ga pos len h hm
  have refused {i : Instr} {op : Core → Word} (hi : exec i s = .next (bfOp s c gd pos len op)) :
      exec i s = .next (faultAt t c (exc 0x01 1)) := by rw [hi, bfOp_of_misfit h hm]
  exact ⟨refused rfl, refused rfl, refused rfl, refused rfl, fun hs r => reg_of_gens (faultAt_gens hs _) c r⟩

end Sys2Proof.Machine
end

section
/-! The floating-point instructions (R125 to R135): how each completes, and the values of its operation that the statements
give apart from the model's own functions. -/

namespace Sys2Proof.Machine

open Sys2Proof

/-! ## Instructions that write an encoding and set flags -/

/-- An instruction whose whole effect is one encoding and its flags computes them (R87, R125, R127). -/
theorem computesFp_of_fpOp {i : Instr} {c : CoreId} {d : Shape} {gd : Reg} {v w : Core → Nat × Nat}
    (hi : ∀ s, exec i s = .next (fpOp s c d gd w)) (hv : ∀ k, w k = v k) : ComputesFp i c d gd v := by
  intro s t h
  have hw : w = v := funext hv
  rw [hi, fpOp, runInstr_of_issues h, hw]
  rfl

/-- An illegal operand stops a floating-point instruction before its effect (R94, R132, R276). -/
theorem fpOp_of_bad {s t : State} {c : CoreId} {d : Shape} {n : Nat} (h : Issues s c d t) (gd : Reg)
    (op : Core → Nat × Nat) : fpOp s c { d with bad := some n } gd op = faultAt t c (exc 0x01 n) :=
  runInstr_of_rejects (h.rejects_bad n) _

/-- Settles O16: each instruction is its operation of the decoded operands, and binary32 has no short form. -/
theorem floatArithmetic : Obligations.FloatArithmetic := by
  unfold Obligations.FloatArithmetic
  intro c f p gd ga gb gc val
  refine ⟨computesFp_of_fpOp (fun _ => rfl) fun _ => rfl, computesFp_of_fpOp (fun _ => rfl) fun _ => rfl,
    computesFp_of_fpOp (fun _ => rfl) fun _ => rfl, computesFp_of_fpOp (fun _ => rfl) fun _ => rfl,
    computesFp_of_fpOp (fun _ => rfl) fun _ => rfl, computesFp_of_fpOp (fun _ => rfl) fun _ => rfl,
    computesFp_of_fpOp (fun _ => rfl) fun _ => rfl, computesFp_of_fpOp (fun _ => rfl) fun _ => rfl, ?short⟩
  case short =>
    intro s t h i hi
    have refused {op : Core → Nat × Nat} (he : exec i s = .next (fpOp s c (shortShape .short .s32) gd op)) :
        exec i s = .next (faultAt t c (exc 0x01 1)) := he.trans (congrArg _ (fpOp_of_bad h gd op))
    simp only [List.mem_cons, List.not_mem_nil, or_false] at hi
    rcases hi with rfl | rfl | rfl | rfl
    · exact refused rfl
    · exact refused rfl
    · exact refused rfl
    · exact refused rfl

/-! ## NaN (R129) -/

theorem isNaN_iff {v : FVal} : v.isNaN = true ↔ ∃ s, v = .nan s := by
  cases v <;> simp [FVal.isNaN]

/-- With a NaN among two operands the answer is the default NaN, and NV for a signalling one. -/
def AnswersNaN (f : Fmt) (a b : FVal) (r : Nat × Nat) : Prop :=
  (a.isNaN = true ∨ b.isNaN = true) → r = (f.nan, nvOf [a, b])

theorem addV_nan (f : Fmt) (rm : Nat) (a b : FVal) : AnswersNaN f a b (addV f rm a b) := by
  rintro (h | h) <;> obtain ⟨s, rfl⟩ := isNaN_iff.1 h
  · rfl
  · cases a <;> rfl

theorem mulV_nan (f : Fmt) (rm : Nat) (a b : FVal) : AnswersNaN f a b (mulV f rm a b) := by
  rintro (h | h) <;> obtain ⟨s, rfl⟩ := isNaN_iff.1 h
  · rfl
  · cases a <;> rfl

theorem divV_nan (f : Fmt) (rm : Nat) (a b : FVal) : AnswersNaN f a b (divV f rm a b) := by
  rintro (h | h) <;> obtain ⟨s, rfl⟩ := isNaN_iff.1 h
  · rfl
  · cases a <;> rfl

theorem nvOf_signalling {l : List FVal} (h : .nan true ∈ l) : nvOf l = flNV :=
  if_pos (List.any_eq_true.2 ⟨_, h, decide_eq_true rfl⟩)

/-- A product of zero and infinity is invalid whatever is added to it. -/
theorem fmaV_inf_zero (f : Fmt) (rm : Nat) (x n : Bool) (e : Int) (c : FVal) :
    fmaV f rm (.inf x) (.fin n 0 e) c = (f.nan, flNV) ∧ fmaV f rm (.fin n 0 e) (.inf x) c = (f.nan, flNV) := ⟨rfl, rfl⟩

/-- A fused operation with a NaN operand answers the default NaN. -/
theorem fmaV_nan (f : Fmt) (rm : Nat) (a b c : FVal) (h : a.isNaN = true ∨ b.isNaN = true ∨ c.isNaN = true) :
    (fmaV f rm a b c).1 = f.nan := by
  rcases h with h | h | h <;> obtain ⟨s, rfl⟩ := isNaN_iff.1 h
  · rfl
  · cases a with
    | nan _ => rfl
    | inf _ => rfl
    | fin _ m _ => cases m <;> rfl
  · cases a with
    | nan _ => rfl
    | inf x =>
      cases b with
      | nan _ => rfl
      | inf _ => rfl
      | fin _ m _ => cases m <;> rfl
    | fin _ m _ =>
      cases b with
      | nan _ => cases m <;> rfl
      | inf _ => cases m <;> rfl
      | fin _ _ _ => cases m <;> rfl

/-- Settles O18: a NaN operand decides the answer before the values are looked at. -/
theorem floatNaN : Obligations.FloatNaN := by
  unfold Obligations.FloatNaN
  intro f rm a b c x
  refine ⟨fun op hop h => ?_, rfl, rfl, fun m e hm => ?_, fun n e => fmaV_inf_zero f rm x n e c, fmaV_nan f rm a b c⟩
  · have hr : op f rm a b = (f.nan, nvOf [a, b]) := by
      simp only [List.mem_cons, List.not_mem_nil, or_false] at hop
      rcases hop with rfl | rfl | rfl
      · exact addV_nan f rm a b h
      · exact mulV_nan f rm a b h
      · exact divV_nan f rm a b h
    rw [hr]
    refine ⟨rfl, fun hs => nvOf_signalling ?_⟩
    rcases hs with rfl | rfl <;> simp
  · simp [sqrtV, hm]

/-! ## Comparisons, class and sign (R130, R131) -/

theorem toNat_decide (p : Prop) [Decidable p] : (decide p).toNat = if p then 1 else 0 := by
  by_cases h : p <;> simp [h]

/-- The comparisons answer 0 for a NaN, and else whether the order of the values is the one asked for. -/
theorem fcmp_eq (f : Fmt) (x y : Nat) : fcmp f 0 x y =
    if (unpack f x).isNaN || (unpack f y).isNaN then (0, nvOf [unpack f x, unpack f y])
    else (if cmpV (unpack f x) (unpack f y) = 0 then 1 else 0, 0) := by
  simp only [fcmp, toNat_decide, if_true]

theorem fcmp_lt (f : Fmt) (x y : Nat) : fcmp f 1 x y =
    if (unpack f x).isNaN || (unpack f y).isNaN then (0, flNV)
    else (if cmpV (unpack f x) (unpack f y) < 0 then 1 else 0, 0) := by
  simp only [fcmp, toNat_decide, if_true, one_ne_zero, if_false]

theorem fcmp_le (f : Fmt) (x y : Nat) : fcmp f 2 x y =
    if (unpack f x).isNaN || (unpack f y).isNaN then (0, flNV)
    else (if cmpV (unpack f x) (unpack f y) ≤ 0 then 1 else 0, 0) := by
  simp only [fcmp, toNat_decide, OfNat.ofNat_ne_zero, OfNat.ofNat_ne_one, if_false]

/-- Exactly one class bit is set. -/
theorem fclass_eq_two_pow (f : Fmt) (x : Nat) : ∃ n < 10, fclass f x = 2 ^ n := by
  unfold fclass
  split
  · exact ⟨8, by omega, rfl⟩
  · exact ⟨9, by omega, rfl⟩
  · exact ⟨0, by omega, rfl⟩
  · exact ⟨7, by omega, rfl⟩
  · next n m _ _ =>
    split
    · cases n
      · exact ⟨4, by omega, rfl⟩
      · exact ⟨3, by omega, rfl⟩
    · split
      · cases n
        · exact ⟨5, by omega, rfl⟩
        · exact ⟨2, by omega, rfl⟩
      · cases n
        · exact ⟨6, by omega, rfl⟩
        · exact ⟨1, by omega, rfl⟩

theorem nvOf_single (v : FVal) : w48 (nvOf [v]) = if v = .nan true then w48 flNV else 0 := by
  by_cases h : v = .nan true <;> simp [nvOf, h]

theorem fin_lt (p : Prec) (w : Word) : fin p w < 2 * 2 ^ ((fmtOf p).width - 1) := by
  cases p <;> exact Nat.mod_lt _ (by decide)

theorem add_two_pow_eq_xor {x n : Nat} (h : x < 2 ^ n) : x + 2 ^ n = x ^^^ 2 ^ n := by
  have hor := Nat.two_pow_add_eq_or_of_lt h 1
  rw [Nat.mul_one] at hor
  rw [Nat.add_comm, hor]
  refine Nat.eq_of_testBit_eq fun i => ?_
  rw [Nat.testBit_or, Nat.testBit_xor, Nat.testBit_two_pow]
  by_cases hi : n = i
  · subst hi
    simp [Nat.testBit_lt_two_pow h]
  · simp [hi]

/-- Inverting the top bit of a number of n + 1 bits. -/
theorem xor_two_pow {x n : Nat} (h : x < 2 * 2 ^ n) : x ^^^ 2 ^ n = if x < 2 ^ n then x + 2 ^ n else x - 2 ^ n := by
  split
  · next hx => exact (add_two_pow_eq_xor hx).symm
  · next hx =>
    have hy : x - 2 ^ n < 2 ^ n := by omega
    have he : x = (x - 2 ^ n) ^^^ 2 ^ n := by rw [← add_two_pow_eq_xor hy]; omega
    conv_lhs => rw [he, Nat.xor_assoc, Nat.xor_self, Nat.xor_zero]

theorem mod_two_pow_of_lt_double {x n : Nat} (h : x < 2 * 2 ^ n) : x % 2 ^ n = if x < 2 ^ n then x else x - 2 ^ n := by
  split
  · next hx => exact Nat.mod_eq_of_lt hx
  · next hx => rw [Nat.mod_eq_sub_mod (by omega), Nat.mod_eq_of_lt (by omega)]

/-- Settles O19, by the values of the comparisons, of the class and of the sign operations. -/
theorem floatCompare : Obligations.FloatCompare := by
  unfold Obligations.FloatCompare
  intro c f p gd ga gb enc val sign
  refine ⟨computesFp_of_fpOp (fun _ => rfl) fun _ => rfl, computesFp_of_fpOp (fun _ => rfl) fun _ => rfl,
    computesFp_of_fpOp (fun _ => rfl) fun _ => fcmp_eq .., computesFp_of_fpOp (fun _ => rfl) fun _ => fcmp_lt ..,
    computesFp_of_fpOp (fun _ => rfl) fun _ => fcmp_le .., ?fclass, computesFp_of_fpOp (fun _ => rfl) fun k => ?fneg,
    computesFp_of_fpOp (fun _ => rfl) fun k => ?fabs⟩
  case fclass =>
    have hc : ComputesFp (.fclass c p gd ga) c (fpShape .long) gd fun k => (fclass (fmtOf p) (enc k ga), nvOf [val k ga]) :=
      computesFp_of_fpOp (fun _ => rfl) fun _ => rfl
    intro s t h
    obtain ⟨n, hn, he⟩ := fclass_eq_two_pow (fmtOf p) (enc (t.core c) ga)
    refine ⟨n, hn, (hc s t h).trans ?_⟩
    simp only [State.modCore, nvOf_single, he]
    rfl
  case fneg => exact congrArg (·, 0) (xor_two_pow (fin_lt p _))
  case fabs => exact congrArg (·, 0) (mod_two_pow_of_lt_double (fin_lt p _))

/-! ## Conversions (R94, R133 to R135) -/

theorem ofIntV_natCast (f : Fmt) (rm n : Nat) : ofIntV f rm (n : Int) = pack f rm false n 0 := by
  rw [ofIntV, decide_eq_false (by omega), Int.natAbs_natCast]

theorem pairOk_source {r : Reg} (h : r.val % 2 = 0) : pairOk r false = true := by simp [pairOk, h]

theorem pairOk_dest {r : Reg} (h : r.val % 2 = 0) (h30 : r ≠ 30) : pairOk r true = true := by
  have : r.val ≠ 30 := fun e => h30 (Fin.ext e)
  simp [pairOk, h, this]

theorem pairOk_odd {r : Reg} (d : Bool) (h : r.val % 2 = 1) : pairOk r d = false := by simp [pairOk, h]

theorem pairOk_dest_30 : pairOk 30 true = false := rfl

theorem fld_low16 (w : Word) : fld w 15 0 = w.toNat % 2 ^ 16 := rfl

/-- A binary32 operand is bits 31:0 of its register (R87). -/
theorem fin_s32 (w : Word) : fin .s32 w = w.toNat % 2 ^ 32 := rfl

/-- The binary64 image that a pair holds, as a value of F48 (R94, R133, R135). -/
def f48OfPair (ga : Reg) (k : Core) : Nat × Nat :=
  convV fmtF48 (rmOf k.fcs) (unpack fmtD64 ((k.reg ga).toNat + fld (k.reg (pairHi ga)) 15 0 * 2 ^ 48))

theorem exec_fcvtF48D64_of_pair {c : CoreId} {gd ga : Reg} (h : ga.val % 2 = 0) (s : State) :
    exec (.fcvtF48D64 c gd ga) s = .next (fpOp s c (fpShape .long) gd (f48OfPair ga)) := by
  have hb : (if pairOk ga false then none else some 4 : Option Nat) = none := if_pos (pairOk_source h)
  rw [exec, execFcvtF48D64, hb]
  rfl

/-- Settles O20: each conversion is one rounding, and a pair that is none is illegal. -/
theorem floatConversions : Obligations.FloatConversions := by
  unfold Obligations.FloatConversions
  intro c gd ga
  refine ⟨computesFp_of_fpOp (fun _ => rfl) fun _ => rfl, computesFp_of_fpOp (fun _ => rfl) fun _ => ofIntV_natCast ..,
    computesFp_of_fpOp (fun _ => rfl) fun _ => rfl, computesFp_of_fpOp (fun _ => rfl) fun _ => rfl,
    computesFp_of_fpOp (fun _ => rfl) fun _ => rfl, computesFp_of_fpOp (fun _ => rfl) fun _ => ?fromSingle,
    computesFp_of_fpOp (fun _ => rfl) fun _ => rfl, computesFp_of_fpOp (fun _ => rfl) fun _ => rfl,
    computesFp_of_fpOp (fun _ => rfl) fun _ => rfl, computesFp_of_fpOp (fun _ => rfl) fun _ => ?intOfSingle,
    computesFp_of_fpOp (fun _ => rfl) fun _ => rfl, fun h => ?fromPair, fun h h30 s t hs => ?toPair,
    fun s t hs h => ?oddSource, fun s t hs h => ?badDest⟩
  case fromSingle => simp only [fin_s32]
  case intOfSingle => simp only [fin_s32, intResult]
  case fromPair => exact computesFp_of_fpOp (exec_fcvtF48D64_of_pair h) fun _ => by rw [f48OfPair, fld_low16]
  case toPair =>
    have hb : (if pairOk gd true then none else some 4 : Option Nat) = none := if_pos (pairOk_dest h h30)
    refine congrArg _ ((runInstr_of_issues (hs.of_bad_none hb) _).trans ?_)
    rfl
  case oddSource =>
    have hb : (if pairOk ga false then none else some 4 : Option Nat) = some 4 := if_neg (by simp [pairOk_odd _ h])
    rw [exec, execFcvtF48D64, hb, runInstr_of_rejects (hs.rejects_bad 4)]
  case badDest =>
    have hp : pairOk gd true = false := by
      rcases h with h | rfl
      · exact pairOk_odd _ h
      · exact pairOk_dest_30
    have hb : (if pairOk gd true then none else some 4 : Option Nat) = some 4 := if_neg (by simp [hp])
    rw [exec, execFcvtD64F48, hb, runInstr_of_rejects (hs.rejects_bad 4)]

end Sys2Proof.Machine
end

section
/-! Rounding into a format (R89, R125, R128). Values are counted in units of 2^(-4000). The multiples of the last place that
`pack` rounds to are the only finite encodings about the rounded magnitude: every other one is smaller than all of them. -/

namespace Sys2Proof.Machine

open Sys2Proof

/-! ## Exact values -/

/-- 2^q in units of 2^(-4000). -/
def units (q : Int) : Nat := 2 ^ (q + 4000).toNat

theorem units_pos (q : Int) : 0 < units q := Nat.two_pow_pos _

theorem units_add {q : Int} (h : -4000 ≤ q) (d : Nat) : units (q + d) = 2 ^ d * units q := by
  rw [units, units, ← Nat.pow_add]
  congr 1
  omega

/-- A greater exponent, as the smaller one scaled. -/
theorem units_of_le {p q : Int} (h : -4000 ≤ p) (hq : p ≤ q) : units q = 2 ^ (q - p).toNat * units p := by
  rw [← units_add h]
  congr 1
  omega

theorem units_mono {p q : Int} (h : p ≤ q) : units p ≤ units q := Nat.pow_le_pow_right (by omega) (by omega)

/-- The magnitude of a finite value, in units of 2^(-4000). -/
def finMag : FVal → Option Nat
  | .fin _ m e => some (m * units e)
  | _ => none

/-- The weight of the last fraction bit under the exponent field k + 1 (under 0 as under 1), in units of 2^(-4000). -/
def Fmt.place (f : Fmt) (k : Nat) : Nat := units (f.qmin + k)

/-- What the three formats have in common: an exponent field of at least two bits, and no place below the unit. -/
structure Fmt.Fits (f : Fmt) : Prop where
  emax_ge : 2 ≤ f.emax
  emax_lt : f.emax < 2 ^ f.eb
  qmin_ge : -4000 ≤ f.qmin

theorem fits_of_format {f : Fmt} (h : f = fmtF48 ∨ f = fmtS32 ∨ f = fmtD64) : f.Fits := by
  rcases h with rfl | rfl | rfl
  · exact ⟨by decide, by decide, by decide⟩
  · exact ⟨by decide, by decide, by decide⟩
  · exact ⟨by decide, by decide, by decide⟩

theorem Fmt.place_pos (f : Fmt) (k : Nat) : 0 < f.place k := units_pos _

theorem Fmt.place_mono (f : Fmt) {j k : Nat} (h : j ≤ k) : f.place j ≤ f.place k := units_mono (by omega)

theorem Fmt.Fits.place_add {f : Fmt} (hf : f.Fits) (k d : Nat) : f.place (k + d) = 2 ^ d * f.place k := by
  rw [Fmt.place, Fmt.place, Nat.cast_add, ← Int.add_assoc, units_add (by have := hf.qmin_ge; omega)]

/-! ## Decoding -/

/-- The magnitude of an encoding by its exponent field and its fraction (R89). -/
theorem finMag_unpack (f : Fmt) (y : Nat) : finMag (unpack f y) =
    if (y >>> f.fb) % 2 ^ f.eb = f.emax then none
    else if (y >>> f.fb) % 2 ^ f.eb = 0 then some (y % 2 ^ f.fb * f.place 0)
    else some ((y % 2 ^ f.fb + 2 ^ f.fb) * f.place ((y >>> f.fb) % 2 ^ f.eb - 1)) := by
  simp only [unpack]
  split
  · split <;> rfl
  · split
    · simp [finMag, Fmt.place]
    · next h =>
      rw [finMag, Fmt.place]
      congr 3
      omega

/-- The fields of an encoding. -/
theorem finMag_unpack_fields {f : Fmt} {k n : Nat} (hk : k < 2 ^ f.eb) (hn : n < 2 ^ f.fb) :
    finMag (unpack f (k * 2 ^ f.fb + n)) =
      if k = f.emax then none
      else if k = 0 then some (n * f.place 0) else some ((n + 2 ^ f.fb) * f.place (k - 1)) := by
  have h1 : (k * 2 ^ f.fb + n) >>> f.fb = k := by
    rw [Nat.shiftRight_eq_div_pow, Nat.mul_comm, Nat.mul_add_div (Nat.two_pow_pos _), Nat.div_eq_of_lt hn, Nat.add_zero]
  have h2 : (k * 2 ^ f.fb + n) % 2 ^ f.fb = n := by
    rw [Nat.mul_comm, Nat.mul_add_mod, Nat.mod_eq_of_lt hn]
  rw [finMag_unpack, h1, h2, Nat.mod_eq_of_lt hk]

/-- A finite encoding is subnormal, or has the hidden bit and an exponent field below the greatest. -/
theorem finMag_cases {f : Fmt} {y z : Nat} (h : finMag (unpack f y) = some z) :
    (∃ n < 2 ^ f.fb, z = n * f.place 0) ∨
    ∃ n k, n < 2 ^ f.fb ∧ k + 2 ≤ f.emax ∧ z = (n + 2 ^ f.fb) * f.place k := by
  have hn : y % 2 ^ f.fb < 2 ^ f.fb := Nat.mod_lt _ (Nat.two_pow_pos _)
  have he : f.emax + 1 = 2 ^ f.eb := Nat.sub_add_cancel Nat.one_le_two_pow
  have hk : (y >>> f.fb) % 2 ^ f.eb < 2 ^ f.eb := Nat.mod_lt _ (Nat.two_pow_pos _)
  rw [finMag_unpack] at h
  split at h
  · cases h
  · split at h
    · exact .inl ⟨_, hn, (Option.some.inj h).symm⟩
    · exact .inr ⟨_, _, hn, by omega, (Option.some.inj h).symm⟩

/-- A finite encoding is a multiple of the place k, or smaller than the least normal value of that place. -/
theorem place_dvd_or_lt {f : Fmt} (hf : f.Fits) {y z : Nat} (h : finMag (unpack f y) = some z) (k : Nat) :
    f.place k ∣ z ∨ (1 ≤ k ∧ z < 2 ^ f.fb * f.place k) := by
  rcases finMag_cases h with ⟨n, hn, rfl⟩ | ⟨n, j, hn, -, rfl⟩
  · rcases Nat.eq_zero_or_pos k with rfl | hk
    · exact .inl (Nat.dvd_mul_left _ _)
    · exact .inr ⟨hk, Nat.mul_lt_mul_of_lt_of_le hn (f.place_mono (Nat.zero_le k)) (f.place_pos k)⟩
  · rcases Nat.lt_or_ge j k with hj | hj
    · refine .inr ⟨by omega, ?_⟩
      calc (n + 2 ^ f.fb) * f.place j < 2 ^ f.fb * 2 * f.place j :=
            Nat.mul_lt_mul_of_pos_right (by omega) (f.place_pos j)
        _ = 2 ^ f.fb * f.place (j + 1) := by rw [hf.place_add j 1, Nat.mul_assoc, Nat.pow_one]
        _ ≤ 2 ^ f.fb * f.place k := Nat.mul_le_mul_left _ (f.place_mono hj)
    · refine .inl (Nat.dvd_mul_left_of_dvd ?_ _)
      rw [show j = k + (j - k) by omega, hf.place_add]
      exact Nat.dvd_mul_left _ _

/-- The greatest finite magnitude. -/
def Fmt.maxMag (f : Fmt) : Nat := (2 ^ f.fb - 1 + 2 ^ f.fb) * f.place (f.emax - 2)

theorem finMag_le_maxMag {f : Fmt} (hf : f.Fits) {y z : Nat} (h : finMag (unpack f y) = some z) : z ≤ f.maxMag := by
  have := hf.emax_ge
  rcases finMag_cases h with ⟨n, hn, rfl⟩ | ⟨n, k, hn, hk, rfl⟩
  · exact Nat.mul_le_mul (by omega) (f.place_mono (by omega))
  · exact Nat.mul_le_mul (by omega) (f.place_mono (by omega))

theorem finMag_maxFinite {f : Fmt} (hf : f.Fits) : finMag (unpack f (f.maxFinite false)) = some f.maxMag := by
  have h2 := hf.emax_ge
  have hlt := hf.emax_lt
  have hp := Nat.two_pow_pos f.fb
  have he : f.maxFinite false = (f.emax - 1) * 2 ^ f.fb + (2 ^ f.fb - 1) := by
    have hs : f.emax * 2 ^ f.fb = (f.emax - 1) * 2 ^ f.fb + 2 ^ f.fb := by
      rw [← Nat.succ_mul]
      congr 1
      omega
    simp only [Fmt.maxFinite, Fmt.inf, Bool.toNat_false, Nat.zero_mul, Nat.zero_add, hs]
    omega
  rw [he, finMag_unpack_fields (by omega) (by omega), if_neg (by omega), if_neg (by omega), Fmt.maxMag]
  rfl

theorem finMag_inf {f : Fmt} (hf : f.Fits) : finMag (unpack f (f.inf false)) = none := by
  have he : f.inf false = f.emax * 2 ^ f.fb + 0 := by simp [Fmt.inf]
  rw [he, finMag_unpack_fields hf.emax_lt (Nat.two_pow_pos _), if_pos rfl]

/-- The encoding of n places k: the carry out of the fraction steps the exponent field. -/
theorem finMag_encoding {f : Fmt} (hf : f.Fits) {k n : Nat} (hn : n ≤ 2 * 2 ^ f.fb) (hk : k = 0 ∨ 2 ^ f.fb ≤ n)
    (hlt : k * 2 ^ f.fb + n < f.emax * 2 ^ f.fb) :
    finMag (unpack f (k * 2 ^ f.fb + n)) = some (n * f.place k) := by
  have h2 := hf.emax_lt
  have hp := Nat.two_pow_pos f.fb
  rcases Nat.lt_or_ge n (2 ^ f.fb) with h | h
  · obtain rfl : k = 0 := by omega
    rw [finMag_unpack_fields (by omega) h, if_neg (by have := hf.emax_ge; omega), if_pos rfl]
  · rcases Nat.lt_or_eq_of_le hn with hn | rfl
    · have hk1 : k + 1 < f.emax := Nat.lt_of_mul_lt_mul_right (a := 2 ^ f.fb) (by rw [Nat.succ_mul]; omega)
      have he : k * 2 ^ f.fb + n = (k + 1) * 2 ^ f.fb + (n - 2 ^ f.fb) := by rw [Nat.succ_mul]; omega
      rw [he, finMag_unpack_fields (by omega) (by omega), if_neg (by omega), if_neg (by omega), Nat.sub_add_cancel h,
        Nat.add_sub_cancel]
    · have he : k * 2 ^ f.fb + 2 * 2 ^ f.fb = (k + 2) * 2 ^ f.fb + 0 := by rw [Nat.add_mul, Nat.add_zero]
      have hk2 : k + 2 < f.emax := by
        rw [← Nat.add_mul] at hlt
        exact Nat.lt_of_mul_lt_mul_right hlt
      rw [he, finMag_unpack_fields (by omega) hp, if_neg (by omega), if_neg (by omega), show k + 2 - 1 = k + 1 by omega,
        hf.place_add k 1, Nat.zero_add, Nat.pow_one, ← Nat.mul_assoc, Nat.mul_comm 2]

/-! ## Rounding -/

section
variable {m : Nat} {e q : Int}

/-- An exponent at or above the place: the magnitude is a multiple of it. -/
theorem roundTo_exact (hq : -4000 ≤ q) (rm : Nat) (neg : Bool) (h : q ≤ e) :
    (roundTo rm neg m e false q).1 = m * units e / units q ∧ m * units e % units q = 0 := by
  have hx : m * units e = m * 2 ^ (e - q).toNat * units q := by rw [units_of_le hq h, Nat.mul_assoc]
  rw [roundTo, if_pos h, hx, Nat.mul_div_cancel _ (units_pos q), Nat.mul_mod_left]
  exact ⟨rfl, rfl⟩

/-- Below the place, the bits shifted out are the rest of the division by it. -/
theorem div_mod_place (he : -4000 ≤ e) (h : e < q) : m * units e / units q = m / 2 ^ (q - e).toNat ∧
    m * units e % units q = m % 2 ^ (q - e).toNat * units e := by
  rw [units_of_le he (Int.le_of_lt h)]
  exact ⟨Nat.mul_div_mul_right _ _ (units_pos e), Nat.mul_mod_mul_right ..⟩

/-- Rounding mode 1 takes the multiple at or below the magnitude (R125). -/
theorem roundTo_toward_zero (he : -4000 ≤ e) (hq : -4000 ≤ q) (neg : Bool) :
    (roundTo 1 neg m e false q).1 = m * units e / units q := by
  rcases Int.lt_or_le e q with h | h
  · rw [roundTo, if_neg (by omega), (div_mod_place he h).1]
    rfl
  · exact (roundTo_exact hq 1 neg h).1

/-- Rounding mode 0 takes the multiple below the magnitude or the one above, whichever is not further (R125). -/
theorem roundTo_nearest (he : -4000 ≤ e) (hq : -4000 ≤ q) (neg : Bool) :
    ((roundTo 0 neg m e false q).1 = m * units e / units q ∧ 2 * (m * units e % units q) ≤ units q) ∨
    ((roundTo 0 neg m e false q).1 = m * units e / units q + 1 ∧ units q ≤ 2 * (m * units e % units q)) := by
  rcases Int.lt_or_le e q with h | h
  · obtain ⟨hd, hm⟩ := div_mod_place (m := m) he h
    have h2 : 2 ^ (q - e).toNat = 2 * 2 ^ ((q - e).toNat - 1) := by rw [← Nat.pow_succ']; congr 1; omega
    have hu : units q = 2 * (2 ^ ((q - e).toNat - 1) * units e) := by
      rw [units_of_le he (Int.le_of_lt h), h2, Nat.mul_assoc]
    rw [roundTo, if_neg (by omega), hd, hm, hu]
    by_cases hr : roundUp 0 neg (decide (m / 2 ^ (q - e).toNat % 2 = 1)) (m % 2 ^ (q - e).toNat)
        (2 ^ ((q - e).toNat - 1)) false = true
    · refine .inr ⟨if_pos hr, Nat.mul_le_mul_left 2 (Nat.mul_le_mul_right _ ?_)⟩
      simp only [roundUp, if_true, Bool.or_eq_true, Bool.and_eq_true, decide_eq_true_eq] at hr
      omega
    · refine .inl ⟨if_neg hr, Nat.mul_le_mul_left 2 (Nat.mul_le_mul_right _ ?_)⟩
      simp only [roundUp, if_true, Bool.or_eq_true, Bool.and_eq_true, decide_eq_true_eq] at hr
      omega
  · obtain ⟨h1, h2⟩ := roundTo_exact (m := m) hq 0 neg h
    exact .inl ⟨h1, by omega⟩

end

/-! ## Packing -/

/-- The exponent of the place that a magnitude rounds to: f.fb below its top bit, and none below the subnormals' (R89). -/
def Fmt.quantum (f : Fmt) (m : Nat) (e : Int) : Int :=
  if f.qmin ≤ e + (m.log2 : Int) - f.fb then e + (m.log2 : Int) - f.fb else f.qmin

/-- The exponent field, less one, of that place. -/
def Fmt.placeOf (f : Fmt) (m : Nat) (e : Int) : Nat := (f.quantum m e - f.qmin).toNat

/-- The multiple of the place that a positive magnitude rounds to. -/
def Fmt.multiple (f : Fmt) (rm m : Nat) (e : Int) : Nat := (roundTo rm false m e false (f.quantum m e)).1

theorem Fmt.qmin_le_quantum (f : Fmt) (m : Nat) (e : Int) : f.qmin ≤ f.quantum m e := by
  unfold Fmt.quantum
  split <;> omega

theorem units_quantum (f : Fmt) (m : Nat) (e : Int) : units (f.quantum m e) = f.place (f.placeOf m e) := by
  rw [Fmt.place, Fmt.placeOf, Int.toNat_of_nonneg (by have := f.qmin_le_quantum m e; omega), add_sub_cancel]

theorem pack_zero (f : Fmt) (rm : Nat) (e : Int) : (pack f rm false 0 e).1 = 0 := by simp [pack, Fmt.zero]

/-- A positive magnitude whose multiple stays below the greatest exponent field packs to its encoding; another one overflows
to infinity, or in the modes that round a positive value down to the greatest finite value (R128). -/
theorem pack_eq (f : Fmt) (rm : Nat) {m : Nat} (hm : m ≠ 0) (e : Int) : (pack f rm false m e).1 =
    if f.emax * 2 ^ f.fb ≤ f.placeOf m e * 2 ^ f.fb + f.multiple rm m e then
      if rm = 1 ∨ rm = 2 then f.maxFinite false else f.inf false
    else f.placeOf m e * 2 ^ f.fb + f.multiple rm m e := by
  have hz : ¬(m = 0 && !false) = true := by simp [hm]
  unfold pack
  rw [if_neg hz]
  change (if _ ≤ f.placeOf m e * 2 ^ f.fb + f.multiple rm m e then _ else _ : Nat × Nat).1 = _
  split
  · by_cases h1 : rm = 1
    · simp [h1]
    · by_cases h2 : rm = 2
      · simp [h2]
      · simp [h1, h2]
  · simp only [Fmt.zero, Bool.toNat_false, Nat.zero_mul, Nat.zero_add]
    rfl

/-! ## The rounded value among the finite encodings -/

section
variable {f : Fmt} (hf : f.Fits) {m : Nat} {e : Int} (he : -4000 ≤ e)
include hf he

/-- The magnitude has at most f.fb + 1 bits above its place. -/
theorem div_place_lt (m : Nat) : m * units e / f.place (f.placeOf m e) < 2 * 2 ^ f.fb := by
  have hq : e + m.log2 + 1 ≤ f.quantum m e + f.fb + 1 := by unfold Fmt.quantum; split <;> omega
  refine Nat.div_lt_of_lt_mul ?_
  calc m * units e < 2 ^ (m.log2 + 1) * units e := Nat.mul_lt_mul_of_pos_right Nat.lt_log2_self (units_pos e)
    _ = units (e + m.log2 + 1) := by rw [← units_add he, Nat.cast_add, ← Int.add_assoc]; rfl
    _ ≤ units (f.quantum m e + (f.fb + 1 : Nat)) := units_mono (by omega)
    _ = f.place (f.placeOf m e) * (2 * 2 ^ f.fb) := by
      rw [units_add (by have := f.qmin_le_quantum m e; have := hf.qmin_ge; omega), units_quantum, Nat.pow_succ',
        Nat.mul_comm]

/-- Above the subnormals it has that many. -/
theorem le_div_place (hm : m ≠ 0) (hk : f.placeOf m e ≠ 0) : 2 ^ f.fb ≤ m * units e / f.place (f.placeOf m e) := by
  have hq : f.quantum m e + f.fb = e + m.log2 := by
    unfold Fmt.placeOf Fmt.quantum at hk
    unfold Fmt.quantum
    split at hk <;> omega
  refine (Nat.le_div_iff_mul_le (f.place_pos _)).2 ?_
  calc 2 ^ f.fb * f.place (f.placeOf m e) = units (e + m.log2) := by
        rw [← units_quantum, ← units_add (by have := f.qmin_le_quantum m e; have := hf.qmin_ge; omega), hq]
    _ = 2 ^ m.log2 * units e := units_add he _
    _ ≤ m * units e := Nat.mul_le_mul_right _ (Nat.log2_self_le hm)

/-- No finite encoding lies strictly between the multiples of the place about the magnitude. -/
theorem finMag_outside (hm : m ≠ 0) {y z : Nat} (h : finMag (unpack f y) = some z) :
    z ≤ m * units e / f.place (f.placeOf m e) * f.place (f.placeOf m e) ∨
      (m * units e / f.place (f.placeOf m e) + 1) * f.place (f.placeOf m e) ≤ z := by
  rcases place_dvd_or_lt hf h (f.placeOf m e) with ⟨j, rfl⟩ | ⟨hk, hz⟩
  · rcases Nat.lt_or_ge (m * units e / f.place (f.placeOf m e)) j with hj | hj
    · exact .inr (by rw [Nat.mul_comm _ j]; exact Nat.mul_le_mul_right _ hj)
    · exact .inl (by rw [Nat.mul_comm _ j]; exact Nat.mul_le_mul_right _ hj)
  · exact .inl (Nat.le_trans (Nat.le_of_lt hz) (Nat.mul_le_mul_right _ (le_div_place hf he hm (by omega))))

theorem multiple_toward_zero (m : Nat) : f.multiple 1 m e = m * units e / f.place (f.placeOf m e) := by
  rw [Fmt.multiple, roundTo_toward_zero he (by have := f.qmin_le_quantum m e; have := hf.qmin_ge; omega), units_quantum]

theorem multiple_nearest (m : Nat) :
    (f.multiple 0 m e = m * units e / f.place (f.placeOf m e) ∧
      2 * (m * units e % f.place (f.placeOf m e)) ≤ f.place (f.placeOf m e)) ∨
    (f.multiple 0 m e = m * units e / f.place (f.placeOf m e) + 1 ∧
      f.place (f.placeOf m e) ≤ 2 * (m * units e % f.place (f.placeOf m e))) := by
  rw [Fmt.multiple, ← units_quantum]
  exact roundTo_nearest he (by have := f.qmin_le_quantum m e; have := hf.qmin_ge; omega) false

/-- What a magnitude that does not overflow packs to decodes to its multiple of the place. -/
theorem finMag_multiple (hm : m ≠ 0) {rm : Nat} (hr : f.multiple rm m e = m * units e / f.place (f.placeOf m e) ∨
      f.multiple rm m e = m * units e / f.place (f.placeOf m e) + 1)
    (hlt : f.placeOf m e * 2 ^ f.fb + f.multiple rm m e < f.emax * 2 ^ f.fb) :
    finMag (unpack f (f.placeOf m e * 2 ^ f.fb + f.multiple rm m e)) =
      some (f.multiple rm m e * f.place (f.placeOf m e)) := by
  have h1 := div_place_lt hf he m
  refine finMag_encoding hf (by omega) ?_ hlt
  by_cases hk : f.placeOf m e = 0
  · exact .inl hk
  · have h2 := le_div_place hf he hm hk
    exact .inr (by omega)

/-- To nearest: what a finite result decodes to is no further away than any finite encoding. -/
theorem pack_nearest_closest (hm : m ≠ 0) {r y z : Nat} (hr : finMag (unpack f (pack f 0 false m e).1) = some r)
    (hz : finMag (unpack f y) = some z) :
    Int.natAbs (r - (m * units e : Nat) : Int) ≤ Int.natAbs (z - (m * units e : Nat) : Int) := by
  rw [pack_eq f 0 hm] at hr
  split at hr
  · rw [if_neg (by omega), finMag_inf hf] at hr
    cases hr
  · next hlt =>
    have hdm := Nat.div_add_mod' (m * units e) (f.place (f.placeOf m e))
    have hmod := Nat.mod_lt (m * units e) (f.place_pos (f.placeOf m e))
    have ho := finMag_outside hf he hm hz
    rw [Nat.succ_mul] at ho
    have hc := multiple_nearest hf he m
    rw [finMag_multiple hf he hm (hc.imp And.left And.left) (Nat.lt_of_not_le hlt)] at hr
    have hrr := Option.some.inj hr
    rcases hc with ⟨h1, h2⟩ | ⟨h1, h2⟩
    · rw [h1] at hrr
      omega
    · rw [h1, Nat.succ_mul] at hrr
      omega

/-- A magnitude that overflows toward zero is above the greatest finite one. -/
theorem maxMag_le_of_overflow (hm : m ≠ 0)
    (h : f.emax * 2 ^ f.fb ≤ f.placeOf m e * 2 ^ f.fb + f.multiple 1 m e) :
    f.maxMag ≤ m * units e := by
  have h2 := hf.emax_ge
  have hp := Nat.two_pow_pos f.fb
  have hlt := div_place_lt hf he m
  rw [multiple_toward_zero hf he m] at h
  have hk : f.emax < f.placeOf m e + 2 := Nat.lt_of_mul_lt_mul_right (a := 2 ^ f.fb) (by rw [Nat.add_mul]; omega)
  calc f.maxMag ≤ (2 * 2 ^ f.fb) * f.place (f.emax - 2) := Nat.mul_le_mul_right _ (by omega)
    _ = 2 ^ f.fb * f.place (f.emax - 2 + 1) := by rw [hf.place_add, Nat.pow_one, Nat.mul_comm 2, Nat.mul_assoc]
    _ ≤ m * units e / f.place (f.placeOf m e) * f.place (f.placeOf m e) :=
      Nat.mul_le_mul (le_div_place hf he hm (by omega)) (f.place_mono (by omega))
    _ ≤ m * units e := Nat.div_mul_le_self _ _

/-- Toward zero: the result decodes to the greatest finite magnitude that does not exceed the exact one. -/
theorem pack_toward_zero_greatest (hm : m ≠ 0) {r : Nat}
    (hr : finMag (unpack f (pack f 1 false m e).1) = some r) :
    r ≤ m * units e ∧ ∀ y z, finMag (unpack f y) = some z → z ≤ m * units e → z ≤ r := by
  rw [pack_eq f 1 hm] at hr
  split at hr
  · next h =>
    rw [if_pos (.inl rfl), finMag_maxFinite hf] at hr
    obtain rfl := Option.some.inj hr
    exact ⟨maxMag_le_of_overflow hf he hm h, fun y z hz _ => finMag_le_maxMag hf hz⟩
  · next h =>
    have hm1 := multiple_toward_zero hf he m
    rw [finMag_multiple hf he hm (.inl hm1) (Nat.lt_of_not_le h), hm1] at hr
    obtain rfl := Option.some.inj hr
    refine ⟨Nat.div_mul_le_self _ _, fun y z hz hle => ?_⟩
    rcases finMag_outside hf he hm hz with ho | ho
    · exact ho
    · have hdm := Nat.div_add_mod' (m * units e) (f.place (f.placeOf m e))
      have hmod := Nat.mod_lt (m * units e) (f.place_pos (f.placeOf m e))
      rw [Nat.succ_mul] at ho
      omega

end

/-- Settles O17: no finite encoding lies between the multiples of the place about the magnitude. -/
theorem floatNearest : Obligations.FloatNearest := by
  unfold Obligations.FloatNearest
  intro f m e hfmt he mag x
  have hf := fits_of_format hfmt
  have hmag (v : FVal) : mag v = finMag v := by cases v <;> rfl
  simp only [hmag]
  by_cases hm : m = 0
  · subst hm
    have h0 : finMag (unpack f 0) = some 0 := by
      have := finMag_encoding hf (k := 0) (n := 0) (by omega) (.inl rfl)
        (by have := Nat.mul_pos (Nat.lt_of_lt_of_le Nat.two_pos hf.emax_ge) (Nat.two_pow_pos f.fb); omega)
      simpa using this
    have hx : x = 0 := Nat.zero_mul _
    simp only [pack_zero, h0, hx, Option.some.injEq, forall_eq']
    exact ⟨fun y z _ => by simp, Nat.le_refl 0, fun y z _ h => h⟩
  · exact ⟨fun r hr y z hz => pack_nearest_closest hf he hm hr hz, fun r hr => pack_toward_zero_greatest hf he hm hr⟩

end Sys2Proof.Machine
end

section
/-! The Sorus memory of a Frond core alone (R94, R115 to R120, R505, R515): an access of its own core to good words of it
meets no window, fault or wait, so it comes to its words and its end. -/

namespace Sys2Proof.Machine

open Sys2Proof

/-! ## A word of a core's own Sorus memory -/

theorem maskedWrite_all (old v : Word) : maskedWrite old v 0xFFFFFFFFFFFF = v := by
  have hm : (0xFFFFFFFFFFFF : Word) = BitVec.allOnes 48 := by decide
  rw [maskedWrite, hm, BitVec.not_allOnes, BitVec.and_zero, BitVec.and_allOnes, BitVec.zero_or]

/-- Where a word of core i's own memory stands. -/
def privPlace (i : Fin 16) (a : Nat) : SorusPlace := .priv i.val (a % 0x4000)

section
variable {t : State} {i : Fin 16} {a : Nat} (h : PrivWord t i a)
include h

theorem PrivWord.place : sorusPlace a = some (privPlace i a) := by
  have h1 := h.lo
  have h2 := h.hi
  have hi := i.isLt
  rw [sorusPlace, if_pos (by simp only [Bool.and_eq_true, decide_eq_true_eq]; omega),
    show (a - 0x810000000) / 0x4000 = i.val by omega]
  rfl

theorem PrivWord.key : placeKey (privPlace i a) = a := by
  have h1 := h.lo
  have h2 := h.hi
  rw [privPlace, placeKey]
  omega

theorem PrivWord.region : regionOf t a = .sorus := by
  have h1 := h.lo
  have h2 := h.hi
  have hi := i.isLt
  rw [regionOf, if_neg (by omega), if_neg (by omega), if_pos (by omega)]

theorem PrivWord.permits (w : Bool) : sorusPermits t (.frond i.val) (privPlace i a) w = true := by
  have ho : (outputAt t (placeKey (privPlace i a))).isSome = false := by rw [h.key, h.noOutput]; rfl
  unfold sorusPermits
  rw [ho, Bool.and_false]
  simp [privPlace, upperHalf]

/-- The core's own windows let it through (R492, R493). -/
theorem PrivWord.inWindows (rd wr : Bool) : frondPermits t i.val a rd wr = true := by
  have h1 := h.lo
  have hlow : ¬ a < 0x800000000 := by omega
  have ho : outputAt t (placeKey (privPlace i a)) = none := by rw [h.key]; exact h.noOutput
  have hown : ownPrivate i.val a = true := by simp [ownPrivate, h.place, privPlace]
  simp [frondPermits, h.place, ho, hown, hlow]

theorem PrivWord.way (op : RefOp) : wayOf t (.frond i) op a = .sorus (privPlace i a) := by
  simp only [wayOf, h.region, h.place]
  exact if_pos (h.permits op.writes)

/-- It holds no twin (R518, R526), so reading it delivers what is stored and changes nothing. -/
theorem PrivWord.readKey : sorusReadKey t a = (⟨privGet t a, false, false⟩, t) := by
  have h1 := h.lo
  have h2 := h.hi
  obtain ⟨hp, hc⟩ := h.good
  have hb : ¬ keyBank a < 32 := by
    have := i.isLt
    rw [keyBank, if_neg (by omega)]
    omega
  have hd : sorusDecode t a = (privGet t a, false, t) := by simp [sorusDecode, hc, hp, privGet]
  simp [sorusReadKey, hb, hd]

/-- Nothing but the stored word, the counters and the memory of other words has to stay for it to stay such a word. -/
theorem PrivWord.of_same {u : State} (hregs : u.regs = t.regs) (houts : u.outs = t.outs) (hsense : u.sense = t.sense)
    (htouch : u.touch = t.touch) (hring : u.ring = t.ring) (hpower : u.power = t.power) (hsys : u.sys = t.sys)
    (hcores : u.cores = t.cores) (hraw : sorusRaw u a = sorusRaw t a) : PrivWord u i a where
  lo := h.lo
  hi := h.hi
  noOutput := by rw [outputAt, houts]; exact h.noOutput
  good := by rw [hraw]; exact h.good
  sampled := by
    have : slotBase u = slotBase t := by simp only [slotBase, regGet, hregs, hsense]; rfl
    rw [sampleUnwritten, hsense, this]
    exact h.sampled
  received := by rw [areaUnwritten, hring]; exact h.received
  noReport := by rw [htouch]; exact h.noReport
  clocked := by
    have : domState u 24 = domState t 24 := by simp only [domState, regF, regGet, hregs]; rfl
    rw [clockStopped, hpower, hsys, this]
    exact h.clocked
  alone := by rw [State.core, hcores]; exact h.alone

theorem PrivWord.privRead : PrivWord (privRead t) i a := h.of_same rfl rfl rfl rfl rfl rfl rfl rfl rfl

/-- A store leaves every other word what it was. -/
theorem PrivWord.privPut {b : Nat} (hb : a ≠ b) (v : Word) : PrivWord (privPut t b v) i a :=
  h.of_same rfl rfl rfl rfl rfl rfl rfl rfl (sorusRaw_sorusPut_other _ _ hb)

theorem PrivWord.load : sorusLoad t (privPlace i a) = (⟨privGet t a, false, false⟩, Machine.privRead t) := by
  have hr := h.privRead
  have ho : outputAt (count t 62 0xA0) a = none := hr.noOutput
  rw [sorusLoad, h.key]
  simp only [ho]
  exact hr.readKey

theorem PrivWord.writeWord (v : Word) : sorusWriteWord (count t 62 0xA0) a v false = Machine.privPut t a v := by
  have h1 := h.lo
  have h2 := h.hi
  have hb : ¬ keyBank a < 32 := by
    have := i.isLt
    rw [keyBank, if_neg (by omega)]
    omega
  simp [sorusWriteWord, bankTwin, hb, Machine.privPut]

/-- A store of some bits keeps the others (R120, R515). -/
theorem PrivWord.store (v m : Word) :
    sorusStore t (privPlace i a) v m = .done (Machine.privPut t a (maskedWrite (privGet t a) v m)) := by
  have hr : sorusReadKey (count t 62 0xA0) a = (⟨privGet t a, false, false⟩, count t 62 0xA0) := h.privRead.readKey
  simp only [sorusStore, h.key, hr]
  by_cases hm : m = 0xFFFFFFFFFFFF
  · rw [hm, maskedWrite_all, ← h.writeWord v]
    rfl
  · rw [← h.writeWord]
    exact if_neg (by simpa using fun _ => hm)

end

/-! ## An access of own words -/

/-- A Frond core issues physical addresses (R262, R431); this is the answer for a Sorus word. -/
def privXlate (r : Ref) : Xlate := ⟨r.va.toNat, .uncached, none, none, []⟩

section
variable {t : State} {i : Fin 16}

/-- A reference to an own word meets nothing to wait for. -/
theorem PrivWord.ready {r : Ref} (h : PrivWord t i r.va.toNat) (a : Access) :
    needOf t (.frond i) a r (privXlate r) = .ready := by
  have hw : wayOf t (.frond i) r.op (privXlate r).pa = .sorus (privPlace i r.va.toNat) := h.way r.op
  have hf : followsOlder (t.core (.frond i)) r (privXlate r).pa = false := by simp [followsOlder, h.alone]
  simp [needOf, posted, hf, hw, h.clocked, h.key, h.sampled, h.received]

theorem PrivWord.translated {r : Ref} (h : PrivWord t i r.va.toNat) :
    translate t (.frond i) r.va r.kind = .ok t (privXlate r) := by
  simp only [translate, h.region]
  rfl

/-- What a reference to an own word does (R119, R120). -/
theorem PrivWord.doRef_read {r : Ref} (h : PrivWord t i r.va.toNat) (a : Access) (hr : r.op = .read) :
    doRef t (.frond i) a r (privXlate r) = .ok (Machine.privRead t) ⟨privGet t r.va.toNat, false, false, r.va.toNat⟩ := by
  have hw : wayOf t (.frond i) .read (privXlate r).pa = .sorus (privPlace i r.va.toNat) := h.way .read
  simp only [doRef, posted, hr, hw, doSorus, h.load]
  rfl

theorem PrivWord.doRef_write {r : Ref} (h : PrivWord t i r.va.toNat) (a : Access) {v m : Word} (hr : r.op = .write v m) :
    doRef t (.frond i) a r (privXlate r) =
      .ok (Machine.privPut t r.va.toNat (maskedWrite (privGet t r.va.toNat) v m)) (gotWord 0) := by
  have hw : wayOf t (.frond i) (.write v m) (privXlate r).pa = .sorus (privPlace i r.va.toNat) := h.way _
  have hn : ∀ w, reportStore (Machine.privPut t r.va.toNat w) r.va.toNat = Machine.privPut t r.va.toNat w := fun w =>
    if_neg h.noReport
  simp only [doRef, posted, hr, hw, doSorus, h.store, h.key, hn]

variable {a : Access} (h : ∀ r ∈ a.refs, PrivWord t i r.va.toNat)
include h

/-- The core's windows refuse no reference to an own word. -/
theorem windowRefused_priv : windowRefused t (.frond i) a = a.refs.map fun _ => false := by
  have hl : (a.refs.map fun r => !frondPermits t i.val r.va.toNat r.op.reads r.op.writes) = a.refs.map fun _ => false :=
    List.map_congr_left fun r hr => by rw [(h r hr).inWindows]; rfl
  have hany : (a.refs.map fun _ => false).any id = false := by simp
  simp only [windowRefused, hl, hany]
  split <;> rfl

theorem xlateRefs_priv : xlateRefs t (.frond i) (a.refs.zip (a.refs.map fun _ => false)) =
    (a.refs.map fun r => some (.ok (privXlate r)), t, false) := by
  revert h
  induction a.refs with
  | nil => exact fun _ => rfl
  | cons r l ih =>
    intro h
    have hl := ih fun q hq => h q (List.mem_cons_of_mem r hq)
    simp only [List.map_cons, List.zip_cons_cons, xlateRefs, Bool.false_eq_true, if_false,
      (h r List.mem_cons_self).translated, hl]

omit h in
/-- Sorus memory is no device memory, so no reference to it faults for its alignment (R123). -/
theorem alignFault_priv : alignFault a.refs (a.refs.map fun r => some (.ok (privXlate r))) = none := by
  have hd : ((a.refs.map fun r => some (Except.ok (privXlate r))).map deviceRef).any id = false := by
    simp [deviceRef, privXlate, isDevice]
  unfold alignFault
  split
  · rfl
  · simp only [hd, Bool.not_false, if_true]

omit h in
theorem xlateFaults_priv (l : List Ref) : xlateFaults (l.map fun r => some (.ok (privXlate r))) = [] := by
  simp [xlateFaults]

omit h in
theorem xlateOk_priv (l : List Ref) :
    xlateOk (l.map fun r => some (.ok (privXlate r))) = l.map fun r => some (privXlate r) := by
  simp [xlateOk]

omit h in
theorem livePairs_priv (l : List Ref) :
    livePairs l (l.map fun r => some (privXlate r)) = l.map fun r => (r, privXlate r) := by
  induction l with
  | nil => rfl
  | cons r l ih =>
    simp only [livePairs, List.map_cons, List.zip_cons_cons, List.filterMap_cons, Option.map_some] at ih ⊢
    rw [ih]

theorem bankRefused_priv : bankRefused t (.frond i) a (a.refs.map fun r => (r, privXlate r)) = none := by
  simp only [bankRefused]
  split
  · rw [List.findSome?_eq_none_iff]
    intro e he
    obtain ⟨r, hr, rfl⟩ := List.mem_map.1 he
    have hw : wayOf t (.frond i) r.op (privXlate r).pa = .sorus (privPlace i r.va.toNat) := (h r hr).way r.op
    simp only [hw]
  · rfl

theorem firstNeed_priv : firstNeed t (.frond i) a (a.refs.map fun r => (r, privXlate r)) = .ready := by
  have hn : (a.refs.map fun r => (r, privXlate r)).map (fun e => needOf t (.frond i) a e.1 e.2) =
      a.refs.map fun _ => Need.ready := by
    rw [List.map_map]
    exact List.map_congr_left fun r hr => (h r hr).ready a
  have hf : (a.refs.map fun _ => Need.ready).find? (fun n => n ≠ .ready) = none := by simp
  rw [firstNeed, hn, hf]
  rfl

/-- An access of a core to its own words is performed at once. -/
theorem startAccess_priv :
    startAccess t (.frond i) a = commitAccess t (.frond i) a (a.refs.map fun r => some (privXlate r)) := by
  have hany : (a.refs.map fun _ => false).any id = false := by simp
  simp only [startAccess, performAccess, windowRefused_priv h, hany, Bool.and_false, Bool.false_eq_true, if_false,
    xlateRefs_priv h, alignFault_priv, xlateFaults_priv, firstFault, List.foldl_nil, xlateOk_priv, livePairs_priv,
    bankRefused_priv h, firstNeed_priv h, dirtyStep]

/-- None of its words is in the PCIe aperture. -/
theorem aperturePair_priv : aperturePair t (.frond i) a (a.refs.map fun r => some (privXlate r)) = none := by
  unfold aperturePair
  split
  · next r1 r2 x1 x2 hr hx =>
    have hm : r1 ∈ a.refs := by rw [hr]; exact List.mem_cons_self
    have hx1 : privXlate r1 = x1 := by
      rw [hr] at hx
      exact Option.some.inj (List.cons.inj hx).1
    have hw : wayOf t (.frond i) r1.op x1.pa = .sorus (privPlace i r1.va.toNat) := hx1 ▸ (h r1 hm).way r1.op
    split
    · rfl
    · rw [hw]
      split
      · next he _ => cases he
      · rfl
  · rfl

/-- So it comes to what its references do, and its end. -/
theorem startAccess_done {u : State} {gs : List Got}
    (hd : doRefs t (.frond i) a (a.refs.zip (a.refs.map fun r => some (privXlate r))) [] = .inr (u, gs))
    (hr : readFault u (.frond i) a gs = none) : startAccess t (.frond i) a = finishAccess u (.frond i) a gs := by
  simp only [startAccess_priv h, commitAccess, aperturePair_priv h, hd, hr]

end

/-- Good words raise no fault of their own. -/
theorem readFault_good {s : State} {c : CoreId} {a : Access} {gs : List Got} (hf : a.fin ≠ .ret)
    (hg : ∀ g ∈ gs, g.mismatch = false ∧ g.poison = false) : readFault s c a gs = none := by
  have h1 : gs.find? (·.mismatch) = none := List.find?_eq_none.2 fun g h => by simp [(hg g h).1]
  have h2 : gs.find? (·.poison) = none := List.find?_eq_none.2 fun g h => by simp [(hg g h).2]
  unfold readFault
  split
  · next he => exact absurd he hf
  · simp only [h1, h2, Bool.false_eq_true, if_false]

/-! ## Loads -/

section
variable {s t : State} {i : Fin 16} {a : Word}

/-- A load of one own word reads it (R119). -/
theorem startAccess_load (h : PrivWord t i a.toNat) (len : Nat) {sz : Size} (hsz : sz ≠ .dword) {fin : Finish}
    (hf : fin ≠ .ret) : startAccess t (.frond i) (loadAccess len a sz fin) =
      finishAccess (privRead t) (.frond i) (loadAccess len a sz fin) [⟨privGet t a.toNat, false, false, a.toNat⟩] := by
  have hrefs : (loadAccess len a sz fin).refs = [⟨a, 1, .read, sz⟩] := if_neg hsz
  refine startAccess_done (fun r hr => ?_) ?_ (readFault_good hf fun g hg => ?_)
  · rw [hrefs, List.mem_singleton] at hr
    exact hr ▸ h
  · simp only [hrefs, List.map_cons, List.map_nil, List.zip_cons_cons, List.zip_nil_left, doRefs, List.nil_append,
      PrivWord.doRef_read (r := ⟨a, 1, .read, sz⟩) h _ rfl]
  · rw [List.mem_singleton.1 hg]
    exact ⟨rfl, rfl⟩

/-- A double-word load reads the word and the next. -/
theorem startAccess_load_dword (h : PrivWord t i a.toNat) (h' : PrivWord t i (a + 1).toNat) (len : Nat) {fin : Finish}
    (hf : fin ≠ .ret) : startAccess t (.frond i) (loadAccess len a .dword fin) =
      finishAccess (privRead (privRead t)) (.frond i) (loadAccess len a .dword fin)
        [⟨privGet t a.toNat, false, false, a.toNat⟩, ⟨privGet t (a + 1).toNat, false, false, (a + 1).toNat⟩] := by
  have hrefs : (loadAccess len a .dword fin).refs = [⟨a, 1, .read, .dword⟩, ⟨a + 1, 1, .read, .dword⟩] := rfl
  refine startAccess_done (fun r hr => ?_) ?_ (readFault_good hf fun g hg => ?_)
  · rw [hrefs, List.mem_pair] at hr
    rcases hr with rfl | rfl
    · exact h
    · exact h'
  · simp only [hrefs, List.map_cons, List.map_nil, List.zip_cons_cons, List.zip_nil_left, doRefs, List.nil_append,
      PrivWord.doRef_read (r := ⟨a, 1, .read, .dword⟩) h _ rfl,
      PrivWord.doRef_read (r := ⟨a + 1, 1, .read, .dword⟩) h'.privRead _ rfl]
    rfl
  · rcases List.mem_pair.1 hg with rfl | rfl
    · exact ⟨rfl, rfl⟩
    · exact ⟨rfl, rfl⟩

/-! ## Stores -/

/-- A store of one own word replaces the bits of its element (R120). -/
theorem startAccess_store (h : PrivWord t i a.toNat) (len : Nat) (lo hi : Word) {sz : Size} (hsz : sz ≠ .dword) (sel : Nat)
    {fin : Finish} (hf : fin ≠ .ret) : startAccess t (.frond i) (storeAccess len a lo hi sz sel fin) =
      finishAccess (privPut t a.toNat (maskedWrite (privGet t a.toNat) (storeData lo sz sel) (storeMask sz sel)))
        (.frond i) (storeAccess len a lo hi sz sel fin) [gotWord 0] := by
  have hacc : storeAccess len a lo hi sz sel fin =
      ⟨[⟨a, 2, .write (storeData lo sz sel) (storeMask sz sel), sz⟩], len, fin, [], false, none, false, false⟩ := if_neg hsz
  rw [hacc]
  refine startAccess_done (fun r hr => ?_) ?_ (readFault_good hf fun g hg => ?_)
  · rw [List.mem_singleton.1 hr]
    exact h
  · simp only [List.map_cons, List.map_nil, List.zip_cons_cons, List.zip_nil_left, doRefs, List.nil_append,
      PrivWord.doRef_write (r := ⟨a, 2, .write (storeData lo sz sel) (storeMask sz sel), sz⟩) h _ rfl]
  · rw [List.mem_singleton.1 hg]
    exact ⟨rfl, rfl⟩

theorem toNat_add_one_ne (a : Word) : (a + 1).toNat ≠ a.toNat := by
  have := a.isLt
  rw [BitVec.toNat_add]
  simp
  omega

/-- A double-word store replaces the word and the next. -/
theorem startAccess_store_dword (h : PrivWord t i a.toNat) (h' : PrivWord t i (a + 1).toNat) (len : Nat) (lo hi : Word)
    (sel : Nat) {fin : Finish} (hf : fin ≠ .ret) :
    startAccess t (.frond i) (storeAccess len a lo hi .dword sel fin) =
      finishAccess (privPut (privPut t a.toNat lo) (a + 1).toNat hi) (.frond i) (storeAccess len a lo hi .dword sel fin)
        [gotWord 0, gotWord 0] := by
  have hrefs : (storeAccess len a lo hi .dword sel fin).refs =
      [⟨a, 2, .write lo 0xFFFFFFFFFFFF, .dword⟩, ⟨a + 1, 2, .write hi 0xFFFFFFFFFFFF, .dword⟩] := rfl
  refine startAccess_done (fun r hr => ?_) ?_ (readFault_good hf fun g hg => ?_)
  · rw [hrefs, List.mem_pair] at hr
    rcases hr with rfl | rfl
    · exact h
    · exact h'
  · simp only [hrefs, List.map_cons, List.map_nil, List.zip_cons_cons, List.zip_nil_left, doRefs, List.nil_append,
      PrivWord.doRef_write (r := ⟨a, 2, .write lo 0xFFFFFFFFFFFF, .dword⟩) h _ rfl,
      PrivWord.doRef_write (r := ⟨a + 1, 2, .write hi 0xFFFFFFFFFFFF, .dword⟩) (h'.privPut (toNat_add_one_ne a) _) _ rfl,
      maskedWrite_all]
    rfl
  · rcases List.mem_pair.1 hg with rfl | rfl
    · exact ⟨rfl, rfl⟩
    · exact ⟨rfl, rfl⟩

end

end Sys2Proof.Machine
end

section
/-! The load, store, bank and data-stack instructions of a Frond core on its own Sorus memory (R94, R115 to R120). -/

namespace Sys2Proof.Machine

open Sys2Proof

theorem writeReg_writeReg (t : State) (c : CoreId) (r q : Reg) (v w : Word) :
    writeReg (writeReg t c r v) c q w = t.modCore c fun k => (k.setReg r v).setReg q w := by
  simp [writeReg, State.modCore, State.setCore, State.core]

/-- The operands of a memory instruction are legal (R94, R119, R121). -/
theorem badElem_none {load : Bool} {gd : Reg} {sz : Size} {sel : Nat} {sx : Bool} (hsel : selOk sz sel = true)
    (hsx : (if load then sxOk sz sx else !sx) = true) (hp : sz = .dword → pairOk gd load = true) :
    badElem load gd sz sel sx = none := by
  rw [badElem, hsel, hsx]
  by_cases hd : sz = .dword
  · simp [hd, hp hd]
  · simp [hd]

section
variable {s t : State} {i : Fin 16} {f : Form} {gd : Reg} {sz : Size} {sel : Core → Nat} {bad : Option Nat}
  {addr : Core → Word} (hs : Issues s (.frond i) (plain f) t) (hb : bad = none)
include hs hb

/-- A load of an own word writes the element that it selects. -/
theorem loadInstr_priv (sx : Bool) (hsz : sz ≠ .dword) (h : PrivWord t i (addr (t.core (.frond i))).toNat) :
    loadInstr s (.frond i) f gd sz sel sx bad addr = completeInstr (writeReg (privRead t) (.frond i) gd
      (loadElem (privGet t (addr (t.core (.frond i))).toNat) sz (sel (t.core (.frond i))) sx)) (.frond i) (formLen f) := by
  rw [loadInstr, runInstr_of_issues (hs.of_bad_none hb), startAccess_load h _ hsz Finish.noConfusion]
  cases sz with
  | dword => exact absurd rfl hsz
  | word => rfl
  | half => rfl
  | byte => rfl

theorem loadInstr_priv_dword (sx : Bool) (h : PrivWord t i (addr (t.core (.frond i))).toNat)
    (h' : PrivWord t i (addr (t.core (.frond i)) + 1).toNat) :
    loadInstr s (.frond i) f gd .dword sel sx bad addr = completeInstr
      (writeReg (writeReg (privRead (privRead t)) (.frond i) gd (privGet t (addr (t.core (.frond i))).toNat)) (.frond i)
        (pairHi gd) (privGet t (addr (t.core (.frond i)) + 1).toNat)) (.frond i) (formLen f) := by
  rw [loadInstr, runInstr_of_issues (hs.of_bad_none hb), startAccess_load_dword h h' _ Finish.noConfusion,
    writeReg_writeReg]
  rfl

/-- A store to an own word replaces the element that it selects. -/
theorem storeInstr_priv (hsz : sz ≠ .dword) (h : PrivWord t i (addr (t.core (.frond i))).toNat) :
    storeInstr s (.frond i) f gd sz sel bad addr = completeInstr (privPut t (addr (t.core (.frond i))).toNat
      (maskedWrite (privGet t (addr (t.core (.frond i))).toNat)
        (storeData ((t.core (.frond i)).reg gd) sz (sel (t.core (.frond i)))) (storeMask sz (sel (t.core (.frond i))))))
      (.frond i) (formLen f) := by
  rw [storeInstr, runInstr_of_issues (hs.of_bad_none hb)]
  simp only [startAccess_store h _ _ _ hsz _ (fin := .store) Finish.noConfusion]
  cases sz with
  | dword => exact absurd rfl hsz
  | word => rfl
  | half => rfl
  | byte => rfl

theorem storeInstr_priv_dword (h : PrivWord t i (addr (t.core (.frond i))).toNat)
    (h' : PrivWord t i (addr (t.core (.frond i)) + 1).toNat) :
    storeInstr s (.frond i) f gd .dword sel bad addr = completeInstr
      (privPut (privPut t (addr (t.core (.frond i))).toNat ((t.core (.frond i)).reg gd))
        (addr (t.core (.frond i)) + 1).toNat ((t.core (.frond i)).reg (pairHi gd))) (.frond i) (formLen f) := by
  rw [storeInstr, runInstr_of_issues (hs.of_bad_none hb)]
  simp only [startAccess_store_dword h h' _ _ _ _ (fin := .store) Finish.noConfusion]
  rfl

end

section
variable {s t : State} {i : Fin 16} (hs : Issues s (.frond i) (plain .short) t)
include hs

/-- POP reads the top of the data stack and steps dsp up (R116). -/
theorem exec_pop_priv (gd : Reg) (h : PrivWord t i ((t.core (.frond i)).reg 31).toNat) :
    exec (.pop (.frond i) gd) s = .next (completeInstr (writeReg
      (writeReg (privRead t) (.frond i) 31 ((t.core (.frond i)).reg 31 + 1)) (.frond i) gd
      (privGet t ((t.core (.frond i)).reg 31).toNat)) (.frond i) 1) := by
  rw [exec, execPop, runInstr_of_issues hs, startAccess_load h _ (by decide) Finish.noConfusion, writeReg_writeReg]
  rfl

/-- PUSH stores below the data stack and steps dsp down (R116). -/
theorem exec_push_priv (ga : Reg) (h : PrivWord t i ((t.core (.frond i)).reg 31 - 1).toNat) :
    exec (.push (.frond i) ga) s = .next (completeInstr (writeReg
      (privPut t ((t.core (.frond i)).reg 31 - 1).toNat ((t.core (.frond i)).reg ga)) (.frond i) 31
      ((t.core (.frond i)).reg 31 - 1)) (.frond i) 1) := by
  rw [exec, execPush, runInstr_of_issues hs]
  simp only [startAccess_store h _ _ _ (sz := .word) (by decide) _ (fin := .push) Finish.noConfusion]
  rw [show storeMask .word 0 = 0xFFFFFFFFFFFF from rfl, maskedWrite_all]
  rfl

end

/-! ## Elements of a word (R115, R119, R120) -/

theorem selIndex_half (gb : Word) : selIndex gb .half ≤ 1 := by
  rw [selIndex]
  omega

theorem selIndex_byte (gb : Word) : selIndex gb .byte ≤ 5 := by
  rw [selIndex]
  omega

theorem mask_half {sel : Nat} (h : sel ≤ 1) : mask (24 * sel + 23) (24 * sel) = (0xFFFFFF : Word) <<< (24 * sel) := by
  interval_cases sel
  · decide
  · decide

theorem mask_byte {sel : Nat} (h : sel ≤ 5) : mask (8 * sel + 7) (8 * sel) = (0xFF : Word) <<< (8 * sel) := by
  interval_cases sel
  · decide
  · decide
  · decide
  · decide
  · decide
  · decide

/-- Storing an element clears its bits and sets those of the register's low part. -/
theorem maskedWrite_elem (old v e : Word) (n : Nat) : maskedWrite old ((v <<< n) &&& (e <<< n)) (e <<< n) =
    (old &&& ~~~(e <<< n)) ||| ((v &&& e) <<< n) := by
  rw [maskedWrite, BitVec.and_assoc, BitVec.and_self, ← BitVec.shiftLeft_and_distrib]

theorem maskedWrite_half (old v : Word) {sel : Nat} (h : sel ≤ 1) :
    maskedWrite old (storeData v .half sel) (storeMask .half sel) =
      (old &&& ~~~((0xFFFFFF : Word) <<< (24 * sel))) ||| ((v &&& 0xFFFFFF) <<< (24 * sel)) := by
  rw [storeData, storeMask, mask_half h, maskedWrite_elem]

theorem maskedWrite_byte (old v : Word) {sel : Nat} (h : sel ≤ 5) :
    maskedWrite old (storeData v .byte sel) (storeMask .byte sel) =
      (old &&& ~~~((0xFF : Word) <<< (8 * sel))) ||| ((v &&& 0xFF) <<< (8 * sel)) := by
  rw [storeData, storeMask, mask_byte h, maskedWrite_elem]

theorem maskedWrite_word (old v : Word) (sel : Nat) : maskedWrite old (storeData v .word sel) (storeMask .word sel) = v :=
  maskedWrite_all old v

/-- Settles O34: the access reads its words at once, and the element is taken from them. -/
theorem loadsFromSorus : Obligations.LoadsFromSorus := by
  unfold Obligations.LoadsFromSorus
  intro s t i c k elem one two
  have helem (w : Word) (sz : Size) (sel : Nat) (sx : Bool) : loadElem w sz sel sx = elem w sz sel sx := by
    cases sz <;> cases sx <;> rfl
  refine ⟨fun hs => ⟨?lw, ?bank, exec_pop_priv hs⟩, fun hs => ⟨?load, ?loadDword, ?indexed, ?indexedDword⟩⟩
  case lw =>
    intro gd ga imm a h
    exact congrArg _ (loadInstr_priv hs rfl false (by decide) h)
  case bank =>
    intro n j off a h
    exact congrArg _ (loadInstr_priv hs rfl false (by decide) h)
  case load =>
    intro gd ga disp sz sel sx a h hsz
    have hb : badElem true gd sz sel.toNat sx = none := by
      rcases hsz with ⟨rfl, rfl, rfl⟩ | ⟨rfl, hl⟩ | ⟨rfl, hl⟩
      · rfl
      · exact badElem_none (decide_eq_true hl) rfl nofun
      · exact badElem_none (decide_eq_true hl) rfl nofun
    have hd : sz ≠ .dword := by rcases hsz with ⟨rfl, -⟩ | ⟨rfl, -⟩ | ⟨rfl, -⟩ <;> decide
    refine congrArg _ ((loadInstr_priv hs hb sx hd h).trans ?_)
    rw [helem]
    rfl
  case loadDword =>
    intro gd ga disp a h h' hp h30
    have hb : badElem true gd .dword 0 false = none := badElem_none rfl rfl fun _ => pairOk_dest hp h30
    exact congrArg _ (loadInstr_priv_dword hs hb false h h')
  case indexed =>
    intro gd ga gb sz sx a h hsz
    have hb : badElem true gd sz 0 sx = none := by
      rcases hsz with ⟨rfl, rfl⟩ | rfl | rfl
      · rfl
      · rfl
      · rfl
    have hd : sz ≠ .dword := by rcases hsz with ⟨rfl, -⟩ | rfl | rfl <;> decide
    refine congrArg _ ((loadInstr_priv hs hb sx hd h).trans ?_)
    rw [helem]
    rfl
  case indexedDword =>
    intro gd ga gb a h h' hp h30
    have hb : badElem true gd .dword 0 false = none := badElem_none rfl rfl fun _ => pairOk_dest hp h30
    exact congrArg _ (loadInstr_priv_dword hs hb false h h')

/-- Settles O35: the access stores its words at once, the other bits of a word kept. -/
theorem storesToSorus : Obligations.StoresToSorus := by
  unfold Obligations.StoresToSorus
  intro s t i c k merge one two
  have hmerge (o v : Word) {sz : Size} {sel : Nat} (hh : sz = .half → sel ≤ 1) (hb : sz = .byte → sel ≤ 5)
      (hd : sz ≠ .dword) : maskedWrite o (storeData v sz sel) (storeMask sz sel) = merge o v sz sel := by
    cases sz with
    | word => exact maskedWrite_word o v sel
    | half => exact maskedWrite_half o v (hh rfl)
    | byte => exact maskedWrite_byte o v (hb rfl)
    | dword => exact absurd rfl hd
  refine ⟨fun hs => ⟨?sw, ?bank, exec_push_priv hs⟩, fun hs => ⟨?store, ?storeDword, ?indexed, ?indexedDword⟩⟩
  case sw =>
    intro gd ga imm a h
    refine congrArg _ ((storeInstr_priv hs rfl (by decide) h).trans ?_)
    rw [maskedWrite_word]
    rfl
  case bank =>
    intro n j off a h
    refine congrArg _ ((storeInstr_priv hs rfl (by decide) h).trans ?_)
    rw [maskedWrite_word]
    rfl
  case store =>
    intro gd ga disp sz sel a h hsz
    have hb : badElem false gd sz sel.toNat false = none := by
      rcases hsz with ⟨rfl, rfl⟩ | ⟨rfl, hl⟩ | ⟨rfl, hl⟩
      · rfl
      · exact badElem_none (decide_eq_true hl) rfl nofun
      · exact badElem_none (decide_eq_true hl) rfl nofun
    have hd : sz ≠ .dword := by rcases hsz with ⟨rfl, -⟩ | ⟨rfl, -⟩ | ⟨rfl, -⟩ <;> decide
    refine congrArg _ ((storeInstr_priv hs hb hd h).trans ?_)
    rw [hmerge _ _ (by rintro rfl; simpa using hsz) (by rintro rfl; simpa using hsz) hd]
    rfl
  case storeDword =>
    intro gd ga disp a h h' hp
    have hb : badElem false gd .dword 0 false = none := badElem_none rfl rfl fun _ => pairOk_source hp
    exact congrArg _ (storeInstr_priv_dword hs hb h h')
  case indexed =>
    intro gd ga gb sz a h hd
    have hb : badElem false gd sz 0 false = none := badElem_none (by cases sz <;> rfl) rfl fun he => absurd he hd
    refine congrArg _ ((storeInstr_priv hs hb hd h).trans ?_)
    rw [hmerge _ _ (by rintro rfl; exact selIndex_half _) (by rintro rfl; exact selIndex_byte _) hd]
    rfl
  case indexedDword =>
    intro gd ga gb a h h' hp
    have hb : badElem false gd .dword 0 false = none := badElem_none rfl rfl fun _ => pairOk_source hp
    exact congrArg _ (storeInstr_priv_dword hs hb h h')

end Sys2Proof.Machine
end

section
/-! What the completion of an instruction does (R96, R156, R157, R226, R241, R712): it counts, trains the predictors of its
core, and takes the core on to the next instruction. -/

namespace Sys2Proof.Machine

open Sys2Proof

/-! ## States that differ in their counts alone -/

/-- t is s but for the performance counters and the count of free values drawn. -/
def CountsOnly (s t : State) : Prop := { s with cnt := t.cnt, free := t.free } = t

theorem CountsOnly.refl (s : State) : CountsOnly s s := rfl

theorem CountsOnly.trans {s t u : State} (h : CountsOnly s t) (h' : CountsOnly t u) : CountsOnly s u := by
  unfold CountsOnly at h h' ⊢
  rw [← h', ← h]

theorem CountsOnly.modCore {s t : State} (h : CountsOnly s t) (c : CoreId) (f : Core → Core) :
    CountsOnly (s.modCore c f) (t.modCore c f) := by
  unfold CountsOnly at h ⊢
  rw [← h]
  rfl

theorem CountsOnly.core {s t : State} (h : CountsOnly s t) (c : CoreId) : t.core c = s.core c := by
  rw [CountsOnly] at h
  rw [← h]
  rfl

theorem CountsOnly.foldl {α : Type} {f : State → α → State} (h : ∀ s a, CountsOnly s (f s a)) (l : List α)
    (s : State) :
    CountsOnly s (l.foldl f s) := by
  induction l generalizing s with
  | nil => exact .refl s
  | cons a l ih => exact (h s a).trans (ih (f s a))

theorem countsOnly_coreCount (s : State) (c : CoreId) (a f : Nat) : CountsOnly s (coreCount s c a f) := by
  unfold coreCount
  split
  · split <;> rfl
  · split <;> rfl
  · rfl

theorem countsOnly_tally (s : State) (c : CoreId) (a f n : Nat) : CountsOnly s (tally s c a f n) := by
  unfold tally
  split
  · split <;> rfl
  · split
    · rfl
    · refine .foldl ?_ _ s
      exact fun _ _ => rfl
  · rfl

theorem countsOnly_noteWrong (s : State) (c : CoreId) : CountsOnly s (noteWrong s c) := by
  have h : CountsOnly s s.takeFree.2 := rfl
  exact h.trans ((countsOnly_tally _ c 0x14 0 1).trans (countsOnly_tally _ c 0x11 0 _))

theorem countsOnly_retireEvents (s : State) (c : CoreId) :
    CountsOnly (s.modCore c fun k => { k with events := [] }) (retireEvents s c) :=
  .foldl (fun s e => countsOnly_coreCount s c e 0) _ _

theorem modCore_self (s : State) (c : CoreId) : (s.modCore c fun k => k) = s := by
  simp [State.modCore, State.setCore, State.core]

theorem modCore_modCore (s : State) (c : CoreId) (f g : Core → Core) :
    (s.modCore c f).modCore c g = s.modCore c fun k => g (f k) := by
  simp [State.modCore, State.setCore, State.core]

/-- A branch pair trains the predictors of its core at most (R241). -/
theorem countsOnly_commitBranch (s : State) (c : CoreId) (b : Slot) :
    ∃ p, CountsOnly (s.modCore c fun k => { k with predict := p }) (commitBranch s c b) := by
  have same : (s.modCore c fun k => { k with predict := (s.core c).predict }) = s := modCore_self s c
  cases c with
  | app i =>
    have h1 := countsOnly_tally s (.app i) 0x13 0 1
    simp only [commitBranch]
    split
    · exact ⟨(s.core (.app i)).predict, by rw [same]; exact h1⟩
    · refine ⟨(s.core (.app i)).predict.train b, ?_⟩
      have h2 : CountsOnly s (if ((tally s (.app i) 0x13 0 1).core (.app i)).predict.wrong b = true
          then noteWrong (tally s (.app i) 0x13 0 1) (.app i) else tally s (.app i) 0x13 0 1) := by
        split
        · exact h1.trans (countsOnly_noteWrong _ _)
        · exact h1
      exact h2.modCore (.app i) fun k => { k with predict := k.predict.train b }
  | frond i => exact ⟨(s.core (.frond i)).predict, by rw [same]; rfl⟩
  | medulla => exact ⟨(s.core .medulla).predict, by rw [same]; rfl⟩

/-! ## The core after completion -/

/-- A core whose instruction has committed: its events have counted, its predictors have become p, it waits for nothing, and
the first instruction of its frame is done (R241, R472, R712). -/
def Core.committed (k : Core) (p : Predictors) : Core :=
  { k with events := [], predict := p, waiting := none, frame := { k.frame with firstDone := true } }

/-- Where a core goes on: from a slot to the target of its taken branch, else through the end test (R156, R226). -/
def Core.advanced (k : Core) (c : CoreId) (len : Nat) : Core :=
  let r := endTest k (pcOf c (k.pc + w48 len)) k.depth
  match k.slot with
  | some b => if b.taken then { k with slot := none, pc := b.target } else { r.1 with slot := none, pc := pcOf c r.2 }
  | none => { r.1 with pc := pcOf c r.2 }

/-- Completion counts, commits the instruction, and takes its core on. -/
theorem countsOnly_completeInstr (s : State) (c : CoreId) (len : Nat) :
    ∃ p, CountsOnly (s.modCore c fun k => (k.committed p).advanced c len) (completeInstr s c len) := by
  have h1 := countsOnly_retireEvents s c
  unfold completeInstr
  extract_lets s1 s2
  have h2 : ∃ p, CountsOnly (s.modCore c fun k => { k with events := [], predict := p }) s2 := by
    unfold s2
    split
    · next b _ =>
      have ht := h1.trans (countsOnly_tally s1 c 0x10 0x30 (if b.annulled then 1 else 2))
      obtain ⟨p, hp⟩ := countsOnly_commitBranch (tally s1 c 0x10 0x30 (if b.annulled then 1 else 2)) c b
      refine ⟨p, .trans ?_ hp⟩
      have := ht.modCore c fun k => { k with predict := p }
      rwa [modCore_modCore] at this
    · exact ⟨(s.core c).predict, h1.trans (countsOnly_tally ..)⟩
  obtain ⟨p, hp⟩ := h2
  have := hp.modCore c fun k =>
    ({ k with waiting := none, frame := { k.frame with firstDone := true } } : Core).advanced c len
  rw [modCore_modCore] at this
  exact ⟨p, this⟩

/-- So a core ends as its instruction left it, committed and taken on. -/
theorem core_completeInstr (s : State) (c : CoreId) (len : Nat) :
    ∃ p, (completeInstr s c len).core c = ((s.core c).committed p).advanced c len := by
  obtain ⟨p, h⟩ := countsOnly_completeInstr s c len
  exact ⟨p, by rw [h.core, core_modCore_same]⟩

/-- The end test changes the loop count and depth at most (R156). -/
theorem endTest_frame (k : Core) (n : Word) (d : Nat) :
    ∃ x lctl, (endTest k n d).1 = { k with lc := x, lctl := lctl } := by
  induction d generalizing k with
  | zero => exact ⟨k.lc, k.lctl, rfl⟩
  | succ d ih =>
    unfold endTest
    split
    · split
      · exact ⟨_, k.lctl, rfl⟩
      · obtain ⟨x, lctl, h⟩ := ih { k with lc := k.lc.set (lvl d) 0, lctl := setFld k.lctl 1 0 d }
        exact ⟨x, lctl, h⟩
    · exact ⟨k.lc, k.lctl, rfl⟩

/-- Going on changes the PC, the slot and the loop registers that the end test counts. -/
theorem advanced_frame (k : Core) (c : CoreId) (len : Nat) :
    ∃ pc slot x lctl, k.advanced c len = { k with pc := pc, slot := slot, lc := x, lctl := lctl } := by
  obtain ⟨x, lctl, h⟩ := endTest_frame k (pcOf c (k.pc + w48 len)) k.depth
  simp only [Core.advanced, h]
  split
  · split
    · exact ⟨_, _, k.lc, k.lctl, rfl⟩
    · exact ⟨_, _, x, lctl, rfl⟩
  · exact ⟨_, k.slot, x, lctl, rfl⟩

/-- A change of one core and of the counts is undone by putting that core and the counts back. -/
theorem onlyCore_of_countsOnly {s t : State} {c : CoreId} {f : Core → Core} (h : CountsOnly (s.modCore c f) t) :
    OnlyCore s t c := by
  rw [CountsOnly] at h
  rw [OnlyCore, ← h]
  simp [State.modCore, State.setCore, State.core]

/-- Settles O15: completion is one change of the core and of the counts, and of the core it changes what completion does. -/
theorem registerFrame : Obligations.RegisterFrame := by
  unfold Obligations.RegisterFrame
  intro t c gd v len u
  obtain ⟨p, h⟩ := countsOnly_completeInstr (writeReg t c gd v) c len
  have hu : u.core c = (((t.core c).setReg gd v).committed p).advanced c len := by
    unfold u
    rw [h.core, core_modCore_same, writeReg, core_modCore_same]
  obtain ⟨pc, slot, x, lctl, hk⟩ := advanced_frame (((t.core c).setReg gd v).committed p) c len
  rw [hk] at hu
  refine ⟨?_, ⟨fun r hr => ?_, ?_⟩, fun hgd => ?_⟩
  · rw [writeReg, modCore_modCore] at h
    exact onlyCore_of_countsOnly h
  · rw [hu]
    exact reg_setReg_other (t.core c) v hr
  · rw [hu, Core.setReg]
    split
    · rfl
    · rfl
  · rw [hu]
    exact reg_setReg_same (t.core c) v hgd

end Sys2Proof.Machine
end

section
/-! Hardware loops (R152 to R156): LOOP and LPOP on the loop registers, and the end test of the innermost level. -/

namespace Sys2Proof.Machine

open Sys2Proof

/-! ## The end test (R156) -/

theorem pcOf_pcOf (c : CoreId) (v : Word) : pcOf c (pcOf c v) = pcOf c v := by
  cases c with
  | app i => rfl
  | frond i => exact (BitVec.and_assoc ..).trans (congrArg (v &&& ·) BitVec.and_self)
  | medulla => exact (BitVec.and_assoc ..).trans (congrArg (v &&& ·) BitVec.and_self)

theorem endTest_elsewhere {k : Core} {n : Word} {d : Nat} (h : n ≠ k.le[lvl d]) : endTest k n (d + 1) = (k, n) := by
  simp only [endTest, decide_eq_false h, Bool.false_and, Bool.false_eq_true, if_false]

theorem endTest_again {k : Core} {n : Word} {d : Nat} (h : n = k.le[lvl d]) (ho : k.own d = k.pl)
    (hc : 1 < (k.lc[lvl d]).toNat) :
    endTest k n (d + 1) = ({ k with lc := k.lc.set (lvl d) (k.lc[lvl d] - 1) }, k.ls[lvl d]) := by
  simp only [endTest, ← h, ho, decide_true, Bool.and_self, if_true, hc]

/-- The last pass closes the level, and the next level out is tested. -/
theorem endTest_last {k : Core} {n : Word} {d : Nat} (h : n = k.le[lvl d]) (ho : k.own d = k.pl)
    (hc : (k.lc[lvl d]).toNat ≤ 1) :
    endTest k n (d + 1) = endTest { k with lc := k.lc.set (lvl d) 0, lctl := setFld k.lctl 1 0 d } n d := by
  simp only [endTest, ← h, ho, decide_true, Bool.and_self, if_true, Nat.not_lt.2 hc, if_false]

/-- Outside a delay slot an instruction goes where the end test of its next PC says. -/
theorem advanced_of_no_slot {k : Core} (h : k.slot = none) (c : CoreId) (len : Nat) : k.advanced c len =
    let r := endTest k (pcOf c (k.pc + w48 len)) k.depth
    { r.1 with pc := pcOf c r.2 } := by
  simp only [Core.advanced, h]

/-- Settles O31: the end test starts at the innermost open level. -/
theorem loopEndTest : Obligations.LoopEndTest := by
  unfold Obligations.LoopEndTest
  intro s c len k n x u hslot
  obtain ⟨p, hp⟩ := core_completeInstr s c len
  have hu : u = let r := endTest (k.committed p) x n; { r.1 with pc := pcOf c r.2 } :=
    hp.trans (advanced_of_no_slot (k := k.committed p) hslot c len)
  have hx : pcOf c x = x := pcOf_pcOf c _
  have hn (h : n ≠ 0) : n = n - 1 + 1 := by omega
  refine ⟨fun h0 => ?closed, fun h0 hle => ?elsewhere, fun h0 hle ho hc => ?again, fun h1 hle ho hc => ?last⟩
  case closed =>
    have hr : endTest (k.committed p) x n = (k.committed p, x) := by rw [h0]; rfl
    rw [hu, hr]
    exact ⟨hx, rfl⟩
  case elsewhere =>
    have hr : endTest (k.committed p) x n = (k.committed p, x) := by rw [hn h0]; exact endTest_elsewhere hle
    rw [hu, hr]
    exact ⟨hx, rfl, rfl⟩
  case again =>
    have hr := endTest_again (k := k.committed p) hle ho hc
    rw [← hn h0] at hr
    rw [hu, hr]
    exact ⟨rfl, rfl, rfl⟩
  case last =>
    have hr := endTest_last (k := k.committed p) (d := 0) hle ho hc
    rw [hu, h1, hr]
    exact ⟨hx, rfl, rfl⟩

/-! ## LOOP and LPOP (R154, R155) -/

/-- What LPOP does to its core. -/
def Core.popLoop (k : Core) : Core :=
  if k.depth = 0 then k
  else if k.own (k.depth - 1) ≤ k.pl then
    { k with lc := k.lc.set (lvl (k.depth - 1)) 0, lctl := setFld k.lctl 1 0 (k.depth - 1) }
  else k

theorem exec_lpop_of_issues {s t : State} {c : CoreId} (h : Issues s c (transfer .long) t) :
    exec (.lpop c) s = .next (completeInstr (t.modCore c Core.popLoop) c 2) :=
  congrArg Host.Outcome.next (runInstr_of_issues h _)

theorem popLoop_own {k : Core} (h : k.depth ≠ 0) (ho : k.own (k.depth - 1) ≤ k.pl) : k.popLoop =
    { k with lc := k.lc.set (lvl (k.depth - 1)) 0, lctl := setFld k.lctl 1 0 (k.depth - 1) } := by
  rw [Core.popLoop, if_neg h, if_pos ho]

theorem popLoop_kept {k : Core} (h : k.depth = 0 ∨ k.pl < k.own (k.depth - 1)) : k.popLoop = k := by
  rw [Core.popLoop]
  split
  · rfl
  · next h0 => rw [if_neg (by rcases h with h | h; exacts [absurd h h0, Nat.not_le.2 h])]

theorem modCore_of_fixed {s : State} {c : CoreId} {f : Core → Core} (h : f (s.core c) = s.core c) : s.modCore c f = s := by
  rw [State.modCore, h]
  exact modCore_self s c

/-- LOOP opens no fourth level, skips the body of a zero count, and else opens the next level (R154, R155). -/
theorem exec_loop_of_issues {s t : State} {c : CoreId} (h : Issues s c (transfer .long) t) (ga : Reg) {off : BitVec 31}
    (ho : 3 ≤ off.toInt) : exec (.loop c ga off) s = .next (
      let k := t.core c
      let n := k.depth
      let e := k.pc + off.signExtend 48
      if n = 3 then faultAt t c (exc 0x04 0)
      else if k.reg ga = 0 then completeAt t c e
      else completeInstr (t.setCore c { k with
        ls := k.ls.set (lvl n) (k.pc + 2), le := k.le.set (lvl n) e, lc := k.lc.set (lvl n) (k.reg ga),
        lctl := setFld (setFld k.lctl (9 + 2 * n) (8 + 2 * n) k.pl) 1 0 (n + 1) }) c 2) := by
  have hb : (if off.toInt < 3 then some 1 else none) = (none : Option Nat) := if_neg (by omega)
  rw [exec, execLoop, runInstr_of_issues (h.of_bad_none hb)]
  dsimp only
  split
  · rfl
  · split
    · rfl
    · rfl

/-- Settles O30: LOOP and LPOP by the number of open levels and the owner of the innermost. -/
theorem loopResults : Obligations.LoopResults := by
  unfold Obligations.LoopResults
  intro s t c ga off h k n e
  refine ⟨fun ho => ?short, fun ho => ?loop, fun h0 ho => ?pop, fun h0 => ?keep⟩
  case short => rw [exec, execLoop, if_pos ho, runInstr_of_rejects (h.rejects_bad 1)]
  case loop =>
    rw [exec_loop_of_issues h ga ho]
    exact ⟨fun h3 => congrArg _ (if_pos h3), fun h3 hz => congrArg _ ((if_neg h3).trans (if_pos hz)),
      fun h3 hz => congrArg _ ((if_neg h3).trans (if_neg hz))⟩
  case pop =>
    rw [exec_lpop_of_issues h, State.modCore, popLoop_own h0 ho]
    rfl
  case keep => rw [exec_lpop_of_issues h, modCore_of_fixed (popLoop_kept h0)]

end Sys2Proof.Machine
end

section
/-! The multiply unit (R138 to R148): what its instructions issue, its reads, the writes that fall due, and EXTA. -/

namespace Sys2Proof.Machine

open Sys2Proof

/-! ## Writes (R139, R144, R147) -/

/-- An instruction that issues a write of the accumulator changes the unit by that write. -/
theorem changesMul_of_mulInstr {i : Instr} {c : CoreId} {f : Form} {op : Core → BitVec 120 × Bool} {h : Core → MulUnit}
    (hi : ∀ s, exec i s = .next (mulInstr s c f op)) (hv : ∀ k, k.mul.issue (.setAcc (op k).1 (op k).2) = h k) :
    ChangesMul i c f h := by
  intro s t hs
  rw [hi, mulInstr, runInstr_of_issues hs]
  simp only [hv]
  rfl

/-- Settles O21: each instruction issues its write behind those before it. -/
theorem multiplyWrites : Obligations.MultiplyWrites := by
  unfold Obligations.MultiplyWrites
  intro c f ga gb issue accum last sp up hp
  have set {i : Instr} {f : Form} {p : Word → Word → Int} (hi : ∀ s, exec i s = .next (mulSet s c f ga gb p)) :
      ChangesMul i c f fun k => issue k (BitVec.ofInt 120 (p (k.reg ga) (k.reg gb))) false :=
    changesMul_of_mulInstr hi fun _ => rfl
  have add {i : Instr} {f : Form} {p : Word → Word → Int} (hi : ∀ s, exec i s = .next (mulAdd s c f ga gb p)) :
      ChangesMul i c f fun k => accum k (p (k.reg ga) (k.reg gb)) :=
    changesMul_of_mulInstr hi fun _ => rfl
  have move {i : Instr} {put : BitVec 120 → Word → BitVec 120} (hi : ∀ s, exec i s = .next (mulMove s c ga put)) :
      ChangesMul i c .long fun k => issue k (put (last k) (k.reg ga)) false :=
    changesMul_of_mulInstr hi fun _ => rfl
  have low (v : Word) : v.extractLsb' 0 24 = v.setWidth 24 := (BitVec.setWidth_eq_extractLsb' (by omega)).symm
  refine ⟨set (p := prodS) fun _ => rfl, set (p := prodU) fun _ => rfl, set (p := mulhSum) fun _ => rfl,
    add (p := prodS) fun _ => rfl, add (p := prodU) fun _ => rfl, add (p := fun a b => -prodS a b) fun _ => rfl,
    add (p := mulhSum) fun _ => rfl, move (put := accSetLo) fun _ => rfl, move (put := accSetHi) fun _ => rfl, ?_,
    changesMul_of_mulInstr (op := fun _ => (0, false)) (fun _ => rfl) fun _ => rfl⟩
  have h := move (i := .mtpgd c ga) (put := accSetGd) fun _ => rfl
  simp only [accSetGd, low] at h
  exact h

/-! ## Reads and due writes (R141, R271) -/

/-- Application core 0 has checkstopped with a write of its multiply unit in flight. -/
def stoppedWithWrite : State :=
  State.reset.modCore (.app 0) fun k => { k with run := .checkstopped, mul := ⟨0, 0, [.setAcc 1 false]⟩ }

theorem exec_multiplyUnitDue_of_checkstopped {s : State} {c : CoreId} (h : (s.core c).run = .checkstopped) :
    exec (.multiplyUnitDue c) s = .next s := by
  have hk : (match (s.core c).mul.queue with
      | [] => s.core c
      | e :: t => if (s.core c).run = .checkstopped then s.core c
          else { s.core c with mul := { (s.core c).mul.apply e with queue := t } }) = s.core c := by
    split
    · rfl
    · exact if_pos h
  refine congrArg Host.Outcome.next (modCore_of_fixed ?_)
  exact hk

/-- Refutes O22: a core that checkstops holds its registers (R271), so no write falls due in it, while the statement has
MULTIPLY_UNIT_DUE perform the oldest write of every core. -/
theorem not_multiplyReads : ¬ Obligations.MultiplyReads := by
  unfold Obligations.MultiplyReads
  intro h
  obtain ⟨-, -, -, hdue, -⟩ := h (.app 0) .long 0 stoppedWithWrite
  have hq : (stoppedWithWrite.core (.app 0)).mul = ⟨0, 0, [.setAcc 1 false]⟩ := by
    rw [stoppedWithWrite, core_modCore_same]
  have hr : (stoppedWithWrite.core (.app 0)).run = .checkstopped := by
    rw [stoppedWithWrite, core_modCore_same]
  have hs := hdue (.setAcc 1 false) [] (by rw [hq])
  rw [exec_multiplyUnitDue_of_checkstopped hr, Host.Outcome.next.injEq] at hs
  have hm := congrArg (fun s => (s.core (.app 0)).mul.queue) hs
  rw [core_modCore_same, hq] at hm
  exact absurd hm (by simp)

/-! ## EXTA (R146) -/

/-- The shifted accumulator is its quotient by the power of two, or the next integer where the remainder and RND say so. -/
theorem extaShift_cases (acc : BitVec 120) {s : Nat} (hs : s < 120) : ∃ q r : Int,
    acc.toInt = q * 2 ^ s + r ∧ 0 ≤ r ∧ r < 2 ^ s ∧ extaShift acc s 0 = q ∧
    extaShift acc s 1 = (if 2 ^ s ≤ 2 * r then q + 1 else q) ∧
    extaShift acc s 2 = (if 2 ^ s < 2 * r then q + 1 else if 2 * r = 2 ^ s ∧ q % 2 = 1 then q + 1 else q) := by
  have hp : (0 : Int) < 2 ^ s := by positivity
  have h0 : s = 0 → acc.toInt % 2 ^ s = 0 := by rintro rfl; simp
  refine ⟨acc.toInt / 2 ^ s, acc.toInt % 2 ^ s, ?_, Int.emod_nonneg _ hp.ne', Int.emod_lt_of_pos _ hp, ?_, ?_, ?_⟩
  · rw [Int.mul_comm]
    exact (Int.mul_ediv_add_emod _ _).symm
  all_goals
    simp only [extaShift, if_neg (show ¬ 120 ≤ s by omega)]
    by_cases hz : s = 0
    · simp [hz]
    · simp [hz]

/-- Rounding toward minus infinity. -/
theorem extaShift_down (acc : BitVec 120) {s : Nat} (hs : s < 120) {v : Int} (hv : extaShift acc s 0 = v) :
    v * 2 ^ s ≤ acc.toInt ∧ acc.toInt < (v + 1) * 2 ^ s := by
  obtain ⟨q, r, ha, h0, h1, hq, -, -⟩ := extaShift_cases acc hs
  obtain rfl : q = v := hq.symm.trans hv
  constructor
  · linarith
  · linarith

/-- Rounding half up. -/
theorem extaShift_halfUp (acc : BitVec 120) {s : Nat} (hs : s < 120) {v : Int} (hv : extaShift acc s 1 = v) :
    (2 * v - 1) * 2 ^ s ≤ 2 * acc.toInt ∧ 2 * acc.toInt < (2 * v + 1) * 2 ^ s := by
  obtain ⟨q, r, ha, h0, h1, -, hq, -⟩ := extaShift_cases acc hs
  rw [hv] at hq
  split at hq
  · subst hq
    constructor
    · linarith
    · linarith
  · subst hq
    constructor
    · linarith
    · linarith

/-- Rounding half to even. -/
theorem extaShift_halfEven (acc : BitVec 120) {s : Nat} (hs : s < 120) {v : Int} (hv : extaShift acc s 2 = v) :
    (2 * v - 1) * 2 ^ s ≤ 2 * acc.toInt ∧ 2 * acc.toInt ≤ (2 * v + 1) * 2 ^ s ∧
    (2 * acc.toInt = (2 * v - 1) * 2 ^ s ∨ 2 * acc.toInt = (2 * v + 1) * 2 ^ s → v % 2 = 0) := by
  obtain ⟨q, r, ha, h0, h1, -, -, hq⟩ := extaShift_cases acc hs
  rw [hv] at hq
  split at hq
  · subst hq
    refine ⟨by linarith, by linarith, fun h => ?_⟩
    rcases h with h | h
    · linarith
    · linarith
  · split at hq
    · next hodd =>
      subst hq
      exact ⟨by linarith, by linarith, fun _ => by omega⟩
    · next hlt hodd =>
      subst hq
      refine ⟨by linarith, by linarith, fun h => ?_⟩
      have hr : 2 * r = 2 ^ s := by
        rcases h with h | h
        · linarith
        · linarith
      omega

/-- What EXTA delivers: saturated where SAT asks for it, and whether it was outside 48 bits. -/
theorem extaW_eq (m : MulUnit) (gb : Word) : let v := extaShift m.acc (fld gb 6 0) (fld m.pst 5 4)
    extaW m gb = (if bit m.pst 3 then BitVec.ofInt 48 (max (-2 ^ 47) (min (2 ^ 47 - 1) v)) else BitVec.ofInt 48 v,
      bit m.pst 3 && (decide (v < -2 ^ 47) || decide (2 ^ 47 ≤ v))) := by
  intro v
  have hout : (decide (v < -2 ^ 47) || decide (2 ^ 47 ≤ v)) = extaOut v := rfl
  have hsat : BitVec.ofInt 48 (max (-2 ^ 47) (min (2 ^ 47 - 1) v)) = satW v := by rw [satW, clampS_eq]
  have hin (h : extaOut v = false) : BitVec.ofInt 48 v = satW v := by
    simp only [extaOut, Bool.or_eq_false_iff, decide_eq_false_iff_not] at h
    rw [← hsat]
    congr 1
    omega
  rw [hout, hsat, extaW]
  cases hs : bit m.pst 3 with
  | false => rfl
  | true =>
    cases ho : extaOut v with
    | false => exact congrArg (·, false) (hin ho)
    | true => rfl

/-- A saturation sets SV at once where nothing waits before it, else behind what waits. -/
theorem noteSV_eq (m : MulUnit) : m.noteSV =
    if m.queue = [] then { m with pst := setBit m.pst 2 true } else { m with queue := m.queue ++ [.setSV] } := by
  rw [MulUnit.noteSV]
  by_cases h : m.queue = []
  · rw [if_pos h, if_pos (List.isEmpty_iff.2 h)]
    rfl
  · rw [if_neg h, if_neg (mt List.isEmpty_iff.1 h)]
    rfl

theorem noteSV_acc (m : MulUnit) : m.noteSV.acc = m.acc := by
  rw [noteSV_eq]
  split
  · rfl
  · rfl

/-- Settles O23: the shift by its rounding, the saturation of its result, and SV behind the writes that wait. -/
theorem extractResult : Obligations.ExtractResult := by
  unfold Obligations.ExtractResult
  intro s t c gd gb h k sh a rnd
  have hsh : fld (k.reg gb) 6 0 = sh := rfl
  have hv (n : Nat) (h : rnd = n) : extaShift k.mul.acc sh n = extaShift k.mul.acc sh rnd := by rw [h]
  have hw := extaW_eq k.mul (k.reg gb)
  refine ⟨extaShift k.mul.acc sh rnd, if (extaW k.mul (k.reg gb)).2 then k.mul.noteSV else k.mul,
    fun hs hr => extaShift_down _ hs (hv 0 hr), fun hs hr => extaShift_halfUp _ hs (hv 1 hr),
    fun hs hr => extaShift_halfEven _ hs (hv 2 hr), fun hs => if_pos hs, ?_, ?_, ?_⟩
  · split
    · exact noteSV_acc k.mul
    · rfl
  · rw [hw, noteSV_eq]
    rfl
  · have hr : exec (.exta c gd gb) s = .next (completeInstr (t.modCore c fun k =>
        { k.setReg gd (extaW k.mul (k.reg gb)).1 with
          mul := if (extaW k.mul (k.reg gb)).2 then k.mul.noteSV else k.mul }) c 2) :=
      congrArg Host.Outcome.next (runInstr_of_issues h _)
    have hw1 : (extaW (t.core c).mul ((t.core c).reg gb)).1 = _ := congrArg Prod.fst hw
    rw [hr, State.modCore, State.modCore, hw1]
    rfl

end Sys2Proof.Machine
end

section
/-! CRC steps, parity and bit order (R149 to R151), bit by bit. -/

namespace Sys2Proof.Machine

open Sys2Proof

/-! ## Reversed and joined groups of bits -/

theorem revBits_lt (v k : Nat) : revBits v k < 2 ^ k := by
  induction k generalizing v with
  | zero => simp [revBits]
  | succ k ih =>
    have h := ih (v / 2)
    have h2 : v % 2 ≤ 1 := by omega
    have := Nat.mul_le_mul_right (2 ^ k) h2
    rw [revBits, Nat.pow_succ]
    omega

theorem testBit_revBits (v k i : Nat) : (revBits v k).testBit i = (decide (i < k) && v.testBit (k - 1 - i)) := by
  induction k generalizing v with
  | zero => simp [revBits]
  | succ k ih =>
    rw [revBits, Nat.mul_comm, Nat.testBit_two_pow_mul_add _ (revBits_lt _ k), ih]
    by_cases hi : i < k
    · have hk : k - i = (k - 1 - i) + 1 := by omega
      rw [if_pos hi, Nat.testBit_div_two, Nat.add_sub_cancel, hk]
      simp [hi, Nat.lt_succ_of_lt hi]
    · rw [if_neg hi, show 2 = 2 ^ 1 from rfl, Nat.testBit_mod_two_pow]
      by_cases he : i = k
      · simp [he]
      · simp [show i - k ≠ 0 by omega, show ¬ i < k + 1 by omega]

/-- Numbers r 0 to r (m - 1) side by side, n bits for each. -/
def joined (n : Nat) (r : Nat → Nat) (m : Nat) : Nat := (upto m).foldl (fun x k => x + r k * 2 ^ (n * k)) 0

theorem joined_succ (n : Nat) (r : Nat → Nat) (m : Nat) : joined n r (m + 1) = 2 ^ (n * m) * r m + joined n r m := by
  simp only [joined, upto, List.range_succ, List.foldl_append, List.foldl_cons, List.foldl_nil]
  rw [Nat.mul_comm, Nat.add_comm]

theorem joined_lt {n : Nat} {r : Nat → Nat} (hr : ∀ k, r k < 2 ^ n) (m : Nat) : joined n r m < 2 ^ (n * m) := by
  induction m with
  | zero => simp [joined, upto]
  | succ m ih =>
    have h := Nat.mul_le_mul_left (2 ^ (n * m)) (hr m)
    rw [joined_succ, Nat.mul_succ, Nat.pow_add]
    rw [Nat.mul_succ] at h
    omega

theorem testBit_joined {n : Nat} {r : Nat → Nat} (hr : ∀ k, r k < 2 ^ n) (m j : Nat) :
    (joined n r m).testBit j = (decide (j < n * m) && (r (j / n)).testBit (j % n)) := by
  induction m with
  | zero => simp [joined, upto]
  | succ m ih =>
    rw [joined_succ, Nat.testBit_two_pow_mul_add _ (joined_lt hr m), ih, Nat.mul_succ]
    by_cases h1 : j < n * m
    · simp [h1, Nat.lt_add_right n h1]
    · rw [if_neg h1]
      by_cases h2 : j < n * m + n
      · have hd : j / n = m := Nat.div_eq_of_lt_le (by rw [Nat.mul_comm]; omega) (by rw [Nat.mul_comm, Nat.mul_succ]; omega)
        have hm : j % n = j - n * m := by rw [Nat.mod_eq_sub, hd]
        simp [h2, hd, hm]
      · have hz : (r m).testBit (j - n * m) = false :=
          Nat.testBit_lt_two_pow ((hr m).trans_le (Nat.pow_le_pow_right (by omega) (by omega)))
        simp [h2, hz]

/-! ## CRC (R150, R151) -/

section
variable {w poly crc : Nat}

theorem crcStepBit_lt (h : crc < 2 ^ w) (refl d : Bool) : crcStepBit w poly refl crc d < 2 ^ w := by
  have hs : crc >>> 1 < 2 ^ w := by rw [Nat.shiftRight_one]; omega
  have hc : (crc <<< 1) % 2 ^ w < 2 ^ w := Nat.mod_lt _ (Nat.two_pow_pos w)
  cases refl with
  | true =>
    simp only [crcStepBit, if_true]
    split
    · exact Nat.xor_lt_two_pow hs (revBits_lt _ w)
    · exact hs
  | false =>
    simp only [crcStepBit, Bool.false_eq_true, if_false]
    split
    · exact Nat.xor_lt_two_pow hc (Nat.mod_lt _ (Nat.two_pow_pos w))
    · exact hc

theorem testBit_crcStepBit (d : Bool) {i : Nat} (hi : i < w) : (crcStepBit w poly false crc d).testBit i =
    ((decide (0 < i) && crc.testBit (i - 1)) != ((crc.testBit (w - 1) != d) && poly.testBit i)) := by
  have hc : ((crc <<< 1) % 2 ^ w).testBit i = (decide (0 < i) && crc.testBit (i - 1)) := by
    rw [Nat.testBit_mod_two_pow, Nat.testBit_shiftLeft]
    simp [hi, Nat.one_le_iff_ne_zero, Nat.pos_iff_ne_zero]
  simp only [crcStepBit, Bool.false_eq_true, if_false]
  split
  · next hb => simp [hb, hc, Nat.testBit_xor, Nat.testBit_mod_two_pow, hi]
  · next hb => simp [hb, hc]

theorem testBit_crcStepBit_reflected (h : crc < 2 ^ w) (d : Bool) {i : Nat} (hi : i < w) :
    (crcStepBit w poly true crc d).testBit i =
      ((decide (i + 1 < w) && crc.testBit (i + 1)) != ((crc.testBit 0 != d) && poly.testBit (w - 1 - i))) := by
  have hc : (crc >>> 1).testBit i = (decide (i + 1 < w) && crc.testBit (i + 1)) := by
    rw [Nat.testBit_shiftRight, Nat.add_comm]
    by_cases hw : i + 1 < w
    · simp [hw]
    · simp [hw, Nat.testBit_lt_two_pow (h.trans_le (Nat.pow_le_pow_right (by omega) (Nat.not_lt.1 hw)))]
  simp only [crcStepBit, if_true]
  split
  · next hb =>
    simp [-Nat.testBit_zero, hb, hc, Nat.testBit_xor, testBit_revBits, Nat.testBit_mod_two_pow, hi,
      show w - 1 - i < w by omega]
  · next hb => simp [-Nat.testBit_zero, hb, hc]

end

/-- Settles O24: the three forms are R151's loop over 8, 24 and 48 bits, and its step is a shift and a conditional fold. -/
theorem crcResults : Obligations.CrcResults := by
  unfold Obligations.CrcResults
  intro c p gd ga gb
  exact ⟨computes_of_regInstr (fun _ => rfl) fun _ => rfl, computes_of_regInstr (fun _ => rfl) fun _ => rfl,
    computes_of_regInstr (fun _ => rfl) fun _ => rfl, fun w poly crc d _ _ h => ⟨crcStepBit_lt h false d,
      crcStepBit_lt h true d, fun i hi => testBit_crcStepBit d hi, fun i hi => testBit_crcStepBit_reflected h d hi⟩⟩

/-! ## Parity (R149) -/

theorem parOf_succ (a : Word) (i n : Nat) : parOf a i (n + 1) = (parOf a i n != a.getLsbD (i + n)) := by
  simp only [parOf, popFrom_eq_countP, List.range_succ, List.countP_append, List.countP_singleton]
  cases a.getLsbD (i + n) with
  | false => simp
  | true =>
    rw [if_pos rfl, Bool.eq_iff_iff]
    simp only [decide_eq_true_eq, bne_iff_ne, ne_eq]
    omega

/-- The parity is the exclusive or of the bits in their order. -/
theorem parOf_eq_foldl (a : Word) (i n : Nat) :
    parOf a i n = (List.range n).foldl (fun b j => b != a.getLsbD (i + j)) false := by
  induction n with
  | zero => rfl
  | succ n ih => rw [parOf_succ, ih, List.range_succ, List.foldl_append]; rfl

theorem toNat_lt_two (b : Bool) : b.toNat < 2 ^ 1 := Bool.toNat_lt b

/-- Parities side by side, one bit for each. -/
theorem getLsbD_joined_bits (b : Nat → Bool) (m : Nat) {j : Nat} (hj : j < 48) :
    (w48 (joined 1 (fun k => (b k).toNat) m)).getLsbD j = (decide (j < m) && b j) := by
  have hb : (b j).toNat.testBit 0 = b j := by cases b j <;> rfl
  rw [BitVec.getLsbD_ofNat, testBit_joined fun k => toNat_lt_two (b k), Nat.div_one, Nat.mod_one, hb]
  simp [hj]

theorem parW_eq (a : Word) : parW a = w48 (joined 1 (fun _ => (parOf a 0 48).toNat) 1) := by
  rw [parW]
  cases parOf a 0 48 with
  | false => rfl
  | true => rfl

theorem parhW_eq (a : Word) : parhW a = w48 (joined 1 (fun k => (parOf a (24 * k) 24).toNat) 2) := by
  simp [parhW, joined, upto, List.range_succ, Nat.mul_comm]

/-! ## Bit order (R149) -/

/-- Bit j of a word with each group of n bits reversed is the bit that mirrors it in its group. -/
theorem getLsbD_brevG (a : Word) {n j : Nat} (hn : 0 < n) (hd : n * (48 / n) = 48) (hj : j < 48) :
    (brevG n a).getLsbD j = a.getLsbD (n * (j / n) + (n - 1 - j % n)) := by
  have hb : brevG n a = w48 (joined n (fun k => revBits (fld a (n * k + n - 1) (n * k)) n) (48 / n)) := rfl
  have hm := Nat.mod_lt j hn
  rw [hb, BitVec.getLsbD_ofNat, testBit_joined fun k => revBits_lt _ n, testBit_revBits, testBit_fld]
  simp [hj, hd, hm, show n - 1 - j % n < n * (j / n) + n - 1 + 1 - n * (j / n) by omega]

/-- Settles O25: the parities bit by bit, and the mirrored bits of each group. -/
theorem parityResults : Obligations.ParityResults := by
  unfold Obligations.ParityResults
  intro c gd ga par s t h
  have run (f : Core → Word) : regInstr s c (plain .long) gd f = completeInstr (writeReg t c gd (f (t.core c))) c 2 :=
    regInstr_of_issues h gd f
  have hpar (w : Word) (i n : Nat) : parOf w i n = par w i n := parOf_eq_foldl w i n
  simp only [List.forall_mem_cons, List.not_mem_nil, false_imp_iff, implies_true, and_true]
  refine ⟨⟨_, congrArg _ (run fun k => parW (k.reg ga)), fun j hj => ?par⟩,
    ⟨_, congrArg _ (run fun k => parhW (k.reg ga)), fun j hj => ?parh⟩,
    ⟨_, congrArg _ (run fun k => parbW (k.reg ga)), fun j hj => ?parb⟩,
    ⟨_, congrArg _ (run fun k => brevG 8 (k.reg ga)), fun j hj => ?brev8⟩,
    ⟨_, congrArg _ (run fun k => brevG 24 (k.reg ga)), fun j hj => ?brev24⟩,
    ⟨_, congrArg _ (run fun k => brevG 48 (k.reg ga)), fun j hj => ?brev48⟩⟩
  case par =>
    rw [parW_eq, getLsbD_joined_bits _ 1 hj, hpar]
    simp only [Nat.lt_one_iff]
  case parh => rw [parhW_eq, getLsbD_joined_bits _ 2 hj, hpar]
  case parb =>
    rw [← hpar]
    exact getLsbD_joined_bits (fun k => parOf ((t.core c).reg ga) (8 * k) 8) 6 hj
  case brev8 =>
    rw [getLsbD_brevG _ (by decide) (by decide) hj]
    congr 1
    omega
  case brev24 =>
    rw [getLsbD_brevG _ (by decide) (by decide) hj]
    congr 1
    omega
  case brev48 =>
    rw [getLsbD_brevG _ (by decide) (by decide) hj]
    congr 1
    omega

end Sys2Proof.Machine
end

section
/-! The bounds of the return stack (R162), and what an exception leaves of a core: a module fault holds, stops and represents
cores but writes no register of one, and entry to an exception level leaves the return-stack pointers. -/

namespace Sys2Proof.Machine

open Sys2Proof

/-! ## What a module fault leaves of every core (R295, R738 to R741)

State.gens holds the general registers alone; what follows holds every register. -/

/-- A core without what holding or stopping it, or presenting a source to it, changes. -/
def Core.lasting (k : Core) : Core :=
  { k with run := .held, slot := none, waiting := none, presented := none, src63On := false, src63Ts := 0 }

/-- The cores without it. -/
def State.lasting (s : State) : Vector Core 33 := s.cores.map Core.lasting

theorem core_lasting_of_lasting {s t : State} (h : t.lasting = s.lasting) (c : CoreId) :
    (t.core c).lasting = (s.core c).lasting := by
  have := congrArg (fun v : Vector Core 33 => v[c.agent]) h
  simpa [State.lasting, State.core] using this

theorem lasting_of_cores {s t : State} (h : t.cores = s.cores) : t.lasting = s.lasting := by
  rw [State.lasting, State.lasting, h]

theorem setCore_lasting {s : State} {c : CoreId} {k : Core} (h : k.lasting = (s.core c).lasting) :
    (s.setCore c k).lasting = s.lasting := by
  refine Vector.ext fun i hi => ?_
  by_cases hc : c.agent.val = i
  · subst hc
    simpa [State.lasting, State.setCore, State.core] using h
  · simp [State.lasting, State.setCore, Vector.getElem_set_ne _ _ hc]

@[simp] theorem regSet_lasting (s : State) (a : Nat) (v : Word) : (regSet s a v).lasting = s.lasting :=
  lasting_of_cores (regSet_cores ..)

@[simp] theorem regFld_lasting (s : State) (a hi lo v : Nat) : (regFld s a hi lo v).lasting = s.lasting :=
  lasting_of_cores (regFld_cores ..)

@[simp] theorem represent_lasting (s : State) (t : Nat) : (represent s t).lasting = s.lasting := by
  unfold represent
  split
  · exact setCore_lasting rfl
  · rfl

@[simp] theorem assertEdge_lasting (s : State) (n : Nat) : (assertEdge s n).lasting = s.lasting := by
  unfold assertEdge
  split
  · rfl
  · split <;> simp [regAddSat]

@[simp] theorem logFault_lasting (s : State) (code unit src : Nat) (w2 w3 : Word) :
    (logFault s code unit src w2 w3).lasting = s.lasting := by
  simp only [logFault, logStat, regAddSat, assertEdge_lasting, regFld_lasting]
  split
  · exact regFld_lasting ..
  · rfl

@[simp] theorem safeEnter_lasting (s : State) (g cause : Nat) : (safeEnter s g cause).lasting = s.lasting := by
  simp only [safeEnter]
  split
  · exact regSet_lasting ..
  · exact (assertEdge_lasting ..).trans (regSet_lasting ..)

@[simp] theorem safeGroup_lasting (s : State) (g cause : Nat) : (safeGroup s g cause).lasting = s.lasting := by
  simp only [safeGroup]
  split <;> simp

@[simp] theorem closeRing_lasting (s : State) : (closeRing s).lasting = s.lasting := by
  unfold closeRing
  extract_lets old s1 _ _ s2
  have h1 : s1.lasting = s.lasting := by
    unfold s1
    rw [foldl_keeps (p := State.lasting) fun s p => by rw [regFld_lasting, regFld_lasting], regSet_lasting, regFld_lasting]
  clear_value s1
  split
  · exact (assertEdge_lasting s2 237).trans h1
  · exact h1

@[simp] theorem holdClusters_lasting (s : State) : (holdClusters s).lasting = s.lasting := by
  simp only [holdClusters, regFld_lasting]
  refine Vector.ext fun i hi => ?_
  simp only [State.lasting, Vector.getElem_map, Vector.getElem_mapIdx]
  split <;> rfl

@[simp] theorem dacsOff_lasting (s : State) : (dacsOff s).lasting = s.lasting := rfl

@[simp] theorem enterHold_lasting (s : State) (f : Nat) : (enterHold s f).lasting = s.lasting :=
  (closeRing_lasting _).trans (holdClusters_lasting s)

@[simp] theorem enterReset_lasting (s : State) (cause fault : Nat) : (enterReset s cause fault).lasting = s.lasting :=
  (dacsOff_lasting _).trans (by simp)

/-- The action of a module fault holds clusters and enters a hold or a reset; the registers stay. -/
@[simp] theorem moduleFault_lasting (s : State) (f : Nat) : (moduleFault s f).lasting = s.lasting := by
  unfold moduleFault
  extract_lets s1 s2 s3
  have h1 : s1.lasting = s.lasting := foldl_keeps (p := State.lasting) (fun s g => by split <;> simp) _ s
  have h2 : s2.lasting = s.lasting := (closeRing_lasting s1).trans h1
  clear_value s1 s2
  have h3 : s3.lasting = s.lasting := by
    unfold s3
    split
    · exact (logFault_lasting ..).trans h2
    · exact h2
  clear_value s3
  split
  · exact h3
  · split
    · exact h3
    · split
      · rw [enterHold_lasting, h3]
      · split
        · exact (holdClusters_lasting s3).trans h3
        · rw [enterReset_lasting, h3]

@[simp] theorem checkstop_lasting (s : State) (c : CoreId) (pc ecause eaddr : Word) :
    (checkstop s c pc ecause eaddr).lasting = s.lasting := by
  have h : (s.modCore c fun k => { k with run := .checkstopped, waiting := none }).lasting = s.lasting := setCore_lasting rfl
  cases c with
  | app i => exact h
  | frond i => exact h
  | medulla => exact (moduleFault_lasting _ 5).trans h

/-! ## What an exception leaves of the return stack (R230, R273) -/

theorem rsp_of_lasting {s t : State} (h : t.lasting = s.lasting) (c : CoreId) : (t.core c).rsp = (s.core c).rsp := by
  have hk : (t.core c).lasting.rsp = (s.core c).lasting.rsp := by rw [core_lasting_of_lasting h c]
  exact hk

theorem enter_rsp (k : Core) (lvl : Nat) (cause : Word) (cls : Nat) (addr resume : Word) (iml : Option Nat) :
    (k.enter lvl cause cls addr resume iml).rsp = k.rsp := rfl

theorem take_entered_rsp {k k' : Core} {e : Exc} {lvl : Nat} {resume : Word} (h : k.take e lvl resume = .entered k') :
    k'.rsp = k.rsp := by
  unfold Core.take at h
  split at h
  · split at h
    · cases h
    · injection h with h
      rw [← h, enter_rsp]
  · injection h with h
    rw [← h, enter_rsp]

theorem raiseAt_rsp (s : State) (c : CoreId) (e : Exc) (resume : Word) :
    ((raiseAt s c e resume).core c).rsp = (s.core c).rsp := by
  simp only [raiseAt]
  split
  · next k' h =>
    rw [rsp_of_lasting (represent_lasting ..), (countsOnly_coreCount ..).core, core_setCore_same]
    have hk : k'.rsp = (s.core c).flushStatus.rsp := take_entered_rsp h
    exact hk
  · rw [rsp_of_lasting (checkstop_lasting ..), core_setCore_same]
    rfl

/-- An exception outside a delay slot leaves rsp; in a slot the branch is undone (R230). -/
theorem faultAt_rsp {s : State} {c : CoreId} (h : (s.core c).slot = none) (e : Exc) :
    ((faultAt s c e).core c).rsp = (s.core c).rsp := by
  rw [faultAt, raiseAt_rsp, core_modCore_same, Core.undoBranch, h]

/-! ## The bounds (R162) -/

theorem callTo_full {s t : State} {c : CoreId} {f : Form} (h : Issues s c (transfer f) t)
    (hb : (t.core c).rshi.toNat ≤ (t.core c).rsp.toNat) (target : Core → Word) (kind : Nat) (slot : Form) :
    callTo s c f target kind slot = faultAt t c (exc 0x05 1 (t.core c).rsp) := by
  rw [callTo, runInstr_of_issues h]
  simp only [if_pos hb]
  rfl

theorem exec_ret_empty {s t : State} {c : CoreId} {f : Form} (h : Issues s c (transfer f) t)
    (hb : (t.core c).rsp.toNat ≤ (t.core c).rslo.toNat) :
    exec (.ret c f) s = .next (faultAt t c (exc 0x05 1 ((t.core c).rsp - 1))) := by
  rw [exec, execRet, runInstr_of_issues h]
  simp only [if_pos hb]
  rfl

/-- Settles O33: the bound is checked before the stack is touched, and the exception leaves rsp. -/
theorem returnStackBounds : Obligations.ReturnStackBounds := by
  unfold Obligations.ReturnStackBounds
  intro s t c f off ga slot h k
  exact ⟨fun hb => ⟨congrArg Host.Outcome.next (callTo_full h hb _ 1 slot),
      congrArg Host.Outcome.next (callTo_full h hb _ 4 slot)⟩,
    exec_ret_empty h, fun hs e => faultAt_rsp hs e⟩

end Sys2Proof.Machine
end

section
/-! The return stack and the atomic instructions of a Frond core on its own Sorus memory (R160 to R172). -/

namespace Sys2Proof.Machine

open Sys2Proof

/-! ## References to own words -/

section
variable {t : State} {i : Fin 16} {r : Ref} (h : PrivWord t i r.va.toNat)
include h

/-- An atomic reads the old word and stores the new one (R168). -/
theorem PrivWord.doRef_atomic (a : Access) {op : AtomicOp} {gb gc : Word} {plc : Nat} (hr : r.op = .atomic op gb gc plc) :
    doRef t (.frond i) a r (privXlate r) = .ok
      (Machine.privPut t r.va.toNat (atomicNew op (privGet t r.va.toNat) gb gc)) (gotWord (privGet t r.va.toNat)) := by
  have hw : wayOf t (.frond i) (.atomic op gb gc plc) (privXlate r).pa = .sorus (privPlace i r.va.toNat) := h.way _
  have hp : ∀ v, sorusWriteWord (Machine.privRead t) r.va.toNat v false = Machine.privPut t r.va.toNat v := h.writeWord
  have hn : ∀ w, reportStore (Machine.privPut t r.va.toNat w) r.va.toNat = Machine.privPut t r.va.toNat w := fun w =>
    if_neg h.noReport
  simp only [doRef, posted, hr, hw, doSorus, h.load, wordFault, Bool.false_eq_true, if_false, h.key, hp, hn]

/-- A whole word is stored without a read of the old one, so whatever was stored in own memory before, this one is (R515). -/
theorem PrivWord.doRef_push {u : State} (hu : { t with cnt := u.cnt, sorus := u.sorus, sorusCtl := u.sorusCtl } = u)
    (a : Access) {v : Word} (hr : r.op = .write v 0xFFFFFFFFFFFF) :
    doRef u (.frond i) a r (privXlate r) = .ok (Machine.privPut u r.va.toNat v) (gotWord 0) := by
  have h' : PrivWord { u with sorus := t.sorus } i r.va.toNat := by
    rw [← hu]
    exact h.of_same rfl rfl rfl rfl rfl rfl rfl rfl rfl
  have hw : wayOf u (.frond i) (.write v 0xFFFFFFFFFFFF) (privXlate r).pa = .sorus (privPlace i r.va.toNat) := h'.way _
  have hb : ¬ keyBank r.va.toNat < 32 := by
    have := h.lo
    have := h.hi
    have := i.isLt
    rw [keyBank, if_neg (by omega)]
    omega
  have hs : sorusStore u (privPlace i r.va.toNat) v 0xFFFFFFFFFFFF = .done (Machine.privPut u r.va.toNat v) := by
    have : sorusStore u (privPlace i r.va.toNat) v 0xFFFFFFFFFFFF =
        .done (sorusWriteWord (count u 62 0xA0) (placeKey (privPlace i r.va.toNat)) v false) := rfl
    rw [this, h.key]
    simp [sorusWriteWord, bankTwin, hb, Machine.privPut]
  have hn : reportStore (Machine.privPut u r.va.toNat v) r.va.toNat = Machine.privPut u r.va.toNat v := if_neg h'.noReport
  simp only [doRef, posted, hr, hw, doSorus, hs, h.key, hn]

end

section
variable {t : State} {i : Fin 16}

/-- An access of one own word comes to what its reference does, and its end. -/
theorem startAccess_one_done {r : Ref} (h : PrivWord t i r.va.toNat) {len : Nat} {fin : Finish} {u : State} {g : Got}
    (hd : doRef t (.frond i) ⟨[r], len, fin, [], false, none, false, false⟩ r (privXlate r) = .ok u g)
    (hr : readFault u (.frond i) ⟨[r], len, fin, [], false, none, false, false⟩ [g] = none) :
    startAccess t (.frond i) ⟨[r], len, fin, [], false, none, false, false⟩ =
      finishAccess u (.frond i) ⟨[r], len, fin, [], false, none, false, false⟩ [g] := by
  refine startAccess_done (fun q hq => ?_) ?_ hr
  · rw [List.mem_singleton.1 hq]
    exact h
  · simp only [List.map_cons, List.map_nil, List.zip_cons_cons, List.zip_nil_left, doRefs, List.nil_append, hd]

/-- The same for two references, the second acting on what the first leaves. -/
theorem startAccess_two_done {r q : Ref} (h : PrivWord t i r.va.toNat) (h' : PrivWord t i q.va.toNat) {len : Nat}
    {fin : Finish} {u w : State} {g g' : Got}
    (hd : doRef t (.frond i) ⟨[r, q], len, fin, [], false, none, false, false⟩ r (privXlate r) = .ok u g)
    (hd' : doRef u (.frond i) ⟨[r, q], len, fin, [], false, none, false, false⟩ q (privXlate q) = .ok w g')
    (hr : readFault w (.frond i) ⟨[r, q], len, fin, [], false, none, false, false⟩ [g, g'] = none) :
    startAccess t (.frond i) ⟨[r, q], len, fin, [], false, none, false, false⟩ =
      finishAccess w (.frond i) ⟨[r, q], len, fin, [], false, none, false, false⟩ [g, g'] := by
  refine startAccess_done (fun x hx => ?_) ?_ hr
  · rcases List.mem_pair.1 hx with rfl | rfl
    · exact h
    · exact h'
  · simp only [List.map_cons, List.map_nil, List.zip_cons_cons, List.zip_nil_left, doRefs, List.nil_append, hd, hd']
    rfl

end

/-! ## CALL and RET (R160, R163, R167) -/

theorem gotWord_good {g : Got} {v : Word} (h : g = gotWord v) : g.mismatch = false ∧ g.poison = false := by
  rw [h]
  exact ⟨rfl, rfl⟩

section
variable {s t : State} {i : Fin 16} {f : Form} (hs : Issues s (.frond i) (transfer f) t)
  (hp : PrivWord t i (t.core (.frond i)).rsp.toNat)
  (hg : (t.core (.frond i)).gx = true → PrivWord t i (t.core (.frond i)).rss.toNat)
  (hb : (t.core (.frond i)).rsp < (t.core (.frond i)).rshi)
include hs hp hg hb

theorem callTo_priv (target : Core → Word) (kind : Nat) (slot : Form) : callTo s (.frond i) f target kind slot =
    let k := t.core (.frond i)
    let r := k.returnPc (.frond i) f slot
    (if k.gx then privPut (privPut t k.rsp.toNat r) k.rss.toNat r else privPut t k.rsp.toNat r).modCore (.frond i) fun k =>
      { k.toSlot { k.slotFor (.frond i) (formLen f) true false (target (t.core (.frond i))) kind with retAddr := r } with
        rsp := k.rsp + 1, rss := if k.gx then k.rss + 1 else k.rss } := by
  have hb' : ¬ (t.core (.frond i)).rshi.toNat ≤ (t.core (.frond i)).rsp.toNat := Nat.not_le.2 hb
  rw [callTo, runInstr_of_issues hs]
  simp only [if_neg hb']
  generalize hr : (t.core (.frond i)).returnPc (.frond i) f slot = r
  cases hx : (t.core (.frond i)).gx with
  | false =>
    simp only [Bool.false_eq_true, if_false]
    rw [startAccess_one_done hp (PrivWord.doRef_push (r := stackRef _ 4 (.write r 0xFFFFFFFFFFFF)) hp rfl _ rfl)
      (readFault_good Finish.noConfusion fun g hg => gotWord_good (List.mem_singleton.1 hg))]
    rfl
  | true =>
    simp only [if_true]
    rw [startAccess_two_done hp (hg hx) (PrivWord.doRef_push (r := stackRef _ 4 (.write r 0xFFFFFFFFFFFF)) hp rfl _ rfl)
      (PrivWord.doRef_push (r := stackRef _ 4 (.write r 0xFFFFFFFFFFFF)) (hg hx) rfl _ rfl)
      (readFault_good Finish.noConfusion fun g hg => gotWord_good ((List.mem_pair.1 hg).elim id id))]
    rfl

end

/-- A return whose words are good, and alike where it is guarded, raises no fault (R167). -/
theorem readFault_ret {u : State} {c : CoreId} {a : Access} {gs : List Got} (hf : a.fin = .ret)
    (hx : (u.core c).gx = true → (gs.getD 0 (gotWord 0)).val = (gs.getD 1 (gotWord 0)).val)
    (hg : ∀ g ∈ gs, g.mismatch = false ∧ g.poison = false) : readFault u c a gs = none := by
  have h1 : gs.find? (·.mismatch) = none := List.find?_eq_none.2 fun g h => by simp [(hg g h).1]
  have h2 : gs.find? (·.poison) = none := List.find?_eq_none.2 fun g h => by simp [(hg g h).2]
  have h3 : ((u.core c).gx && decide ((gs.getD 0 (gotWord 0)).val ≠ (gs.getD 1 (gotWord 0)).val)) = false := by
    cases h : (u.core c).gx with
    | false => rfl
    | true => simpa using hx h
  simp only [readFault, hf, h1, h2, h3, Bool.false_eq_true, if_false]

section
variable {s t : State} {i : Fin 16} {f : Form} (hs : Issues s (.frond i) (transfer f) t)
  (hp : PrivWord t i ((t.core (.frond i)).rsp - 1).toNat)
  (hg : (t.core (.frond i)).gx = true → PrivWord t i ((t.core (.frond i)).rss - 1).toNat ∧
    privGet t ((t.core (.frond i)).rss - 1).toNat = privGet t ((t.core (.frond i)).rsp - 1).toNat)
  (hb : (t.core (.frond i)).rslo < (t.core (.frond i)).rsp)
include hs hp hg hb

theorem exec_ret_priv : exec (.ret (.frond i) f) s = .next (
    let k := t.core (.frond i)
    (if k.gx then privRead (privRead t) else privRead t).modCore (.frond i) fun x =>
      { x.toSlot (x.slotFor (.frond i) (formLen f) true false (privGet t (k.rsp - 1).toNat) 2) with
        rsp := x.rsp - 1, rss := if x.gx then x.rss - 1 else x.rss }) := by
  have hb' : ¬ (t.core (.frond i)).rsp.toNat ≤ (t.core (.frond i)).rslo.toNat := Nat.not_le.2 hb
  rw [exec, execRet, runInstr_of_issues hs]
  simp only [if_neg hb']
  cases hx : (t.core (.frond i)).gx with
  | false =>
    simp only [Bool.false_eq_true, if_false]
    rw [startAccess_one_done hp (PrivWord.doRef_read (r := stackRef _ 5 .read) hp _ rfl)
      (readFault_ret rfl (fun hg => absurd (hx.symm.trans hg) Bool.false_ne_true) fun g hm => ?_)]
    · rfl
    · rw [List.mem_singleton.1 hm]
      exact ⟨rfl, rfl⟩
  | true =>
    obtain ⟨hq, he⟩ := hg hx
    simp only [if_true]
    rw [startAccess_two_done hp hq (PrivWord.doRef_read (r := stackRef _ 5 .read) hp _ rfl)
      (PrivWord.doRef_read (r := stackRef _ 5 .read) hq.privRead _ rfl)
      (readFault_ret rfl (fun _ => he.symm) fun g hm => ?_)]
    · rfl
    · rcases List.mem_pair.1 hm with rfl | rfl
      · exact ⟨rfl, rfl⟩
      · exact ⟨rfl, rfl⟩

end

/-- Settles O32: the stack words are own words, so each access comes to its stores or loads and its slot. -/
theorem callsAndReturns : Obligations.CallsAndReturns := by
  unfold Obligations.CallsAndReturns
  intro s t i f c hs k p1 back pushed called
  refine ⟨fun hb hp hg => ⟨fun off slot => ?_, fun ga slot => ?_⟩, fun hb hp hg => ?_⟩
  · exact congrArg Host.Outcome.next (callTo_priv hs hp hg hb (fun k => k.pc + off.signExtend 48) 1 slot)
  · exact congrArg Host.Outcome.next (callTo_priv hs hp hg hb (fun k => k.reg ga) 4 slot)
  · have hcore : (if k.gx then privRead (privRead t) else privRead t).core c = k := by
      split
      · rfl
      · rfl
    rw [exec_ret_priv hs hp hg hb, State.modCore, State.modCore, hcore]

/-! ## Atomic instructions and RSW (R165, R168) -/

section
variable {s t : State} {i : Fin 16}

/-- An atomic of an own word delivers the old word and leaves the new one. -/
theorem atomicInstr_priv (hs : Issues s (.frond i) (plain .long) t) {ga : Reg}
    (h : PrivWord t i ((t.core (.frond i)).reg ga).toNat) (op : AtomicOp) {plc : BitVec 2} (hplc : plc ≠ 3)
    (gd gb gc : Reg) :
    let k := t.core (.frond i)
    let old := privGet t (k.reg ga).toNat
    atomicInstr s (.frond i) op plc gd ga gb gc = completeInstr (writeReg
      (privPut t (k.reg ga).toNat (atomicNew op old (k.reg gb) (k.reg gc))) (.frond i) gd old) (.frond i) 2 := by
  intro k old
  rw [atomicInstr, runInstr_of_issues (hs.of_bad_none (if_neg hplc))]
  exact congrArg (settle (.frond i) 2) (startAccess_one_done
    (r := ⟨k.reg ga, 3, .atomic op (k.reg gb) (k.reg gc) plc.toNat, .word⟩) h (h.doRef_atomic _ rfl)
    (readFault_good Finish.noConfusion fun g hg => gotWord_good (List.mem_singleton.1 hg)))

theorem atomicInstr_placement3 {c : CoreId} (hs : Issues s c (plain .long) t) (op : AtomicOp) (gd ga gb gc : Reg) :
    atomicInstr s c op 3 gd ga gb gc = faultAt t c (exc 0x01 1) :=
  runInstr_of_rejects (hs.rejects_bad 1) _

/-- RSW to an own word stores it whole. -/
theorem exec_rsw_priv (hs : Issues s (.frond i) { plain .long with level := 1 } t) {ga : Reg}
    (h : PrivWord t i ((t.core (.frond i)).reg ga).toNat) (gb : Reg) : exec (.rsw (.frond i) ga gb) s = .next
      (completeInstr (privPut t ((t.core (.frond i)).reg ga).toNat ((t.core (.frond i)).reg gb)) (.frond i) 2) := by
  rw [exec, execRsw, runInstr_of_issues hs]
  exact congrArg (fun b => Host.Outcome.next (settle (.frond i) 2 b)) (startAccess_one_done (fin := .store) h
    (PrivWord.doRef_push
      (r := stackRef ((t.core (.frond i)).reg ga) 6 (.write ((t.core (.frond i)).reg gb) 0xFFFFFFFFFFFF)) h rfl _ rfl)
    (readFault_good Finish.noConfusion fun g hg => gotWord_good (List.mem_singleton.1 hg)))

end

/-- Settles O37: the five operations by what they leave, placement 3 by the check of the encoding, and RSW. -/
theorem atomicsOnSorus : Obligations.AtomicsOnSorus := by
  unfold Obligations.AtomicsOnSorus
  intro s t i gd ga gb gc plc c k a old done
  refine ⟨fun hs h hplc => ?_, fun hs => ?_, fun hs h => exec_rsw_priv hs h gb⟩
  · exact ⟨congrArg Host.Outcome.next (atomicInstr_priv hs h .add hplc gd gb 0),
      congrArg Host.Outcome.next (atomicInstr_priv hs h .swap hplc gd gb 0),
      congrArg Host.Outcome.next (atomicInstr_priv hs h .cas hplc gd gb gc),
      congrArg Host.Outcome.next (atomicInstr_priv hs h .or hplc gd gb 0),
      congrArg Host.Outcome.next (atomicInstr_priv hs h .and hplc gd gb 0)⟩
  · exact ⟨congrArg Host.Outcome.next (atomicInstr_placement3 hs .add gd ga gb 0),
      congrArg Host.Outcome.next (atomicInstr_placement3 hs .cas gd ga gb gc)⟩

end Sys2Proof.Machine
end

section
/-! Special registers (R118, R175 to R180): what MFSR, MTSR, MSSET and MSCLR read and write, and the fields that a write
takes. -/

namespace Sys2Proof.Machine

open Sys2Proof

/-! ## Reads (R175, R179, R220) -/

theorem specShape_form (n : Nat) (rd wr : Bool) : (specShape n rd wr).form = .long := by
  unfold specShape
  split
  · rfl
  · rfl

theorem noteRead_of_ne (s : State) (c : CoreId) {n : Nat} (h : n ≠ 0x50) : noteRead s c n = s := if_neg h

theorem exec_mfsr_of_issues {s t : State} {c : CoreId} {sr : BitVec 8} (h : Issues s c (specShape sr.toNat true false) t)
    (gd : Reg) : exec (.mfsr c gd sr) s = .next (completeInstr
      (writeReg (noteRead t c sr.toNat) c gd (specValue t c sr.toNat)) c 2) := by
  rw [exec, execMfsr, runInstr_of_issues h, specShape_form]
  rfl

/-- A read of status gives the latest write, be it in force or not. -/
theorem latestStatus_append {k : Core} {l : List StatusWrite} {w : StatusWrite} (h : k.statusQueue = l ++ [w]) :
    k.latestStatus = w.value := by
  rw [Core.latestStatus, h, List.getLast?_concat]

theorem latestStatus_nil {k : Core} (h : k.statusQueue = []) : k.latestStatus = k.status := by
  rw [Core.latestStatus, h]
  rfl

section
variable (t : State) (c : CoreId)

theorem specValue_loop (l : Fin 3) : specValue t c (0x08 + 3 * l.val) = (t.core c).ls[l] ∧
    specValue t c (0x09 + 3 * l.val) = (t.core c).le[l] ∧ specValue t c (0x0A + 3 * l.val) = (t.core c).lc[l] :=
  match l with
  | 0 => ⟨rfl, rfl, rfl⟩
  | 1 => ⟨rfl, rfl, rfl⟩
  | 2 => ⟨rfl, rfl, rfl⟩

theorem specValue_bank (n : Fin 4) : specValue t c (0x18 + n.val) = ((t.core c).b[n]).setWidth 48 :=
  match n with
  | 0 => rfl
  | 1 => rfl
  | 2 => rfl
  | 3 => rfl

theorem specValue_save (l : Fin 3) : let v := (t.core c).save[l]
    specValue t c (0x20 + 8 * l.val) = v.epc ∧ specValue t c (0x21 + 8 * l.val) = v.est ∧
    specValue t c (0x22 + 8 * l.val) = v.ecause ∧ specValue t c (0x23 + 8 * l.val) = v.eaddr ∧
    specValue t c (0x24 + 8 * l.val) = v.evec ∧ specValue t c (0x25 + 8 * l.val) = v.escr :=
  match l with
  | 0 => ⟨rfl, rfl, rfl, rfl, rfl, rfl⟩
  | 1 => ⟨rfl, rfl, rfl, rfl, rfl, rfl⟩
  | 2 => ⟨rfl, rfl, rfl, rfl, rfl, rfl⟩

end

/-- Settles O38: MFSR latches with tbl and writes what the table of R180 gives; each register is its field of the core. -/
theorem specialReads : Obligations.SpecialReads := by
  unfold Obligations.SpecialReads
  intro s t c gd sr
  refine ⟨fun h _ => ?_, fun n imm h => congrArg Host.Outcome.next (runInstr_of_issues h _), fun h => latestStatus_nil h,
    fun l w h => latestStatus_append h, rfl, rfl, rfl, rfl, rfl, rfl, specValue_loop t c, rfl, rfl, rfl, rfl, rfl,
    specValue_bank t c, specValue_save t c, rfl, rfl, rfl, rfl, rfl, rfl, rfl, rfl⟩
  rw [exec_mfsr_of_issues h]
  by_cases hr : sr = 0x50
  · rw [if_pos hr, hr]
    rfl
  · rw [if_neg hr, noteRead_of_ne t c fun hn => hr (BitVec.eq_of_toNat_eq hn)]

/-! ## Writes (R144, R158, R175, R180) -/

section
variable {n : Nat} {r : SpecReg} (hr : specReg n = some r) (s : State) (c : CoreId) (v : Word)
include hr

theorem putSpec_readOnly (hw : r.wr = none) : putSpec s c n v = s := by
  obtain ⟨held, rd, wr⟩ := r
  obtain rfl : wr = none := hw
  simp only [putSpec, hr]

theorem putSpec_writable (hw : r.wr ≠ none) : putSpec s c n v =
    let u := s.modCore c fun k => k.putSpec c n v
    if n = 0x42 then represent u (coreNum c) else u := by
  obtain ⟨held, rd, wr⟩ := r
  obtain ⟨l, rfl⟩ := Option.ne_none_iff_exists'.1 hw
  simp only [putSpec, hr]

/-- tbl, which a read latches, is read-only. -/
theorem ne_tbl_of_writable (hw : r.wr ≠ none) : n ≠ 0x50 := by
  rintro rfl
  obtain rfl : _ = r := Option.some.inj hr
  exact hw rfl

end

theorem exec_mtsr_of_issues {s t : State} {c : CoreId} {sr : BitVec 8} (h : Issues s c (specShape sr.toNat false true) t)
    (ga : Reg) : exec (.mtsr c sr ga) s = .next (putSpec (completeInstr t c 2) c sr.toNat ((t.core c).reg ga)) :=
  congrArg Host.Outcome.next (runInstr_of_issues h _)

/-- MSSET and MSCLR deliver the value read and write the base value changed by ga. -/
theorem specModify_of_issues {s t : State} {c : CoreId} {n : Nat} (h : Issues s c (specShape n true true) t)
    (hn : n ≠ 0x50) (gd ga : Reg) (op : Word → Word → Word) : specModify s c gd n ga op =
      putSpec (completeInstr (writeReg t c gd (specValue t c n)) c 2) c n (op (baseValue t c n) ((t.core c).reg ga)) := by
  rw [specModify, runInstr_of_issues h, noteRead_of_ne t c hn]
  rfl

/-! ## The fields that a write takes (R125, R126, R150) -/

/-- A mask that covers a field leaves it. -/
theorem fld_and (v m : Word) {hi lo : Nat} (h : ∀ i, lo ≤ i → i ≤ hi → m.getLsbD i = true) :
    fld (v &&& m) hi lo = fld v hi lo := by
  refine Nat.eq_of_testBit_eq fun i => ?_
  rw [testBit_fld, testBit_fld]
  by_cases hi' : i < hi + 1 - lo
  · rw [BitVec.getLsbD_and, h _ (by omega) (by omega), Bool.and_true]
  · simp [hi']

theorem fld_keepIf_same (bad : Bool) (v old : Word) {hi lo : Nat} (h : lo ≤ hi) (hw : hi < 48) :
    fld (keepIf bad v old hi lo) hi lo = if bad then fld old hi lo else fld v hi lo := by
  rw [keepIf]
  split
  · rw [fld_setFld_same _ _ h hw, Nat.mod_eq_of_lt (fld_lt ..)]
  · rfl

theorem fld_keepIf_disjoint (bad : Bool) (v old : Word) {hi lo hi' lo' : Nat} (h : lo ≤ hi) (hw : hi' < 48)
    (hd : hi < lo' ∨ hi' < lo) : fld (keepIf bad v old hi lo) hi' lo' = fld v hi' lo' := by
  rw [keepIf]
  split
  · exact fld_setFld_disjoint _ _ h hw hd
  · rfl

theorem getLsbD_keepIf_outside (bad : Bool) (v old : Word) {hi lo i : Nat} (h : lo ≤ hi) (hi48 : i < 48) (ho : hi < i) :
    (keepIf bad v old hi lo).getLsbD i = v.getLsbD i := by
  rw [keepIf]
  split
  · rw [getLsbD_setFld _ _ h hi48, if_neg (by omega)]
  · rfl

theorem getLsbD_fcsWritten (old v : Word) {i : Nat} (h3 : 3 ≤ i) (h8 : i < 8) :
    (fcsWritten old v).getLsbD i = v.getLsbD i := by
  rw [fcsWritten, getLsbD_keepIf_outside _ _ _ (by omega) (by omega) (by omega), BitVec.getLsbD_and,
    getLsbD_mask (by omega) (by omega)]
  simp [show i ≤ 7 by omega]

/-- The rounding mode keeps its old value where the new one names none (R125). -/
theorem fld_fcsWritten (old v : Word) : fld (fcsWritten old v) 2 0 = if fld v 2 0 ≤ 4 then fld v 2 0 else fld old 2 0 := by
  have hm : fld (v &&& mask 7 0) 2 0 = fld v 2 0 := fld_and v _ fun i _ h => by
    rw [getLsbD_mask (by omega) (by omega)]
    simp [show i ≤ 7 by omega]
  rw [fcsWritten, fld_keepIf_same _ _ _ (by omega) (by omega), hm]
  by_cases h : fld v 2 0 ≤ 4
  · simp [h, Nat.not_lt.2 h]
  · simp [h, Nat.not_le.1 h]

theorem getLsbD_cpolyMask {i : Nat} (h : i ≤ 37) : (mask 40 40 ||| mask 37 0).getLsbD i = true := by
  rw [BitVec.getLsbD_or, getLsbD_mask (by omega) (by omega), getLsbD_mask (by omega) (by omega)]
  simp [h]

/-- The width of a polynomial keeps its old value where the new one is none (R150). -/
theorem fld_cpolyWritten_width (old v : Word) : fld (cpolyWritten old v) 37 32 =
    if 1 ≤ fld v 37 32 ∧ fld v 37 32 ≤ 32 then fld v 37 32 else fld old 37 32 := by
  have hm : fld (v &&& (mask 40 40 ||| mask 37 0)) 37 32 = fld v 37 32 := fld_and v _ fun i _ h => getLsbD_cpolyMask h
  rw [cpolyWritten, fld_keepIf_same _ _ _ (by omega) (by omega), hm]
  by_cases h : 1 ≤ fld v 37 32 ∧ fld v 37 32 ≤ 32
  · rw [if_pos h, if_neg (by simp; omega)]
  · rw [if_neg h, if_pos (by simp; omega)]

theorem fld_cpolyWritten_poly (old v : Word) : fld (cpolyWritten old v) 31 0 = fld v 31 0 := by
  rw [cpolyWritten, fld_keepIf_disjoint _ _ _ (by omega) (by omega) (by omega)]
  exact fld_and v _ fun i _ h => getLsbD_cpolyMask (by omega)

theorem putSpec_fentry (k : Core) (c : CoreId) (v : Word) : (k.putSpec c 0x60 v).fentry = v &&& 0x1FFFFFFFFF := by
  have hm : mask 36 0 = 0x1FFFFFFFFF := by decide
  rw [← hm]
  rfl

/-- Settles O39: the access completes first and writes then, and a write takes the fields of its register. -/
theorem specialWrites : Obligations.SpecialWrites := by
  unfold Obligations.SpecialWrites
  intro s t c gd ga sr r hr n k put m base
  refine ⟨fun h hw => ?mtsr, fun h hw => ?readOnly, fun h hw => ⟨?msset, ?msclr⟩, fun v => ?fields⟩
  case mtsr => rw [exec_mtsr_of_issues h, putSpec_writable hr _ _ _ hw]
  case readOnly => rw [exec_mtsr_of_issues h, putSpec_readOnly hr _ _ _ hw]
  case msset =>
    rw [exec, execMsset, specModify_of_issues h (ne_tbl_of_writable hr hw), putSpec_writable hr _ _ _ hw]
    rfl
  case msclr =>
    rw [exec, execMsclr, specModify_of_issues h (ne_tbl_of_writable hr hw), putSpec_writable hr _ _ _ hw]
    rfl
  case fields =>
    have hp : (k.putSpec c 0x15 v).cpoly[0] = cpolyWritten k.cpoly[0] v := Vector.getElem_set_self _
    refine ⟨rfl, rfl, rfl, rfl, rfl, rfl, rfl, putSpec_fentry k c v, fun i h8 h3 => getLsbD_fcsWritten k.fcs v h3 h8,
      fld_fcsWritten k.fcs v, ?_, ?_⟩
    · rw [hp]
      exact fld_cpolyWritten_width k.cpoly[0] v
    · rw [hp]
      exact fld_cpolyWritten_poly k.cpoly[0] v

end Sys2Proof.Machine
end

section
/-! Writes of status (R218, R219, R222): how one joins the writes inside their delay, what every instruction that issues
does to these writes, and when one is in force. -/

namespace Sys2Proof.Machine

open Sys2Proof

section
variable (k : Core) (c : CoreId) (v : Word)

/-- A write of status leaves the mode as it stands (R218). -/
theorem putSpec_status_status : (k.putSpec c 0x00 v).status = k.status := rfl

/-- It joins behind the writes before it, limited by the level that writes (R218, R263). -/
theorem putSpec_status_statusQueue : (k.putSpec c 0x00 v).statusQueue =
    k.statusQueue ++ [⟨statusLimited k.pl k.latestStatus v, statusDelay c⟩] := rfl

end

section
variable {k : Core}

/-- Of the writes that an instruction reaches, the last one is in force. -/
theorem nextStatus_of_last_due {l : List StatusWrite} {w : StatusWrite} (h : k.statusQueue = l ++ [w])
    (hw : w.left = 0) : k.nextStatus = w.value := by
  rw [Core.nextStatus, h, List.foldl_concat, if_pos hw]

/-- A write that still has instructions to go does not touch the status of the next one. -/
theorem nextStatus_of_none_due (h : ∀ w ∈ k.statusQueue, w.left ≠ 0) : k.nextStatus = k.status := by
  have keeps : ∀ (l : List StatusWrite) (st : Word), (∀ w ∈ l, w.left ≠ 0) →
      l.foldl (fun st w => if w.left = 0 then w.value else st) st = st := by
    intro l
    induction l with
    | nil => exact fun st _ => rfl
    | cons w l ih =>
      intro st hl
      obtain ⟨hw, hl⟩ := List.forall_mem_cons.1 hl
      rw [List.foldl_cons, if_neg hw, ih st hl]
  exact keeps _ _ h

/-- The writes that an instruction reaches leave the queue. -/
theorem tickStatus_statusQueue_of_all_due (h : ∀ w ∈ k.statusQueue, w.left = 0) : k.tickStatus.statusQueue = [] := by
  have none_left : k.statusQueue.filter (fun w => w.left ≠ 0) = [] :=
    List.filter_eq_nil_iff.2 fun w hw hd => of_decide_eq_true hd (h w hw)
  rw [Core.tickStatus, none_left, List.map_nil]

/-- The others stay in their order, each one nearer. -/
theorem tickStatus_statusQueue_of_none_due (h : ∀ w ∈ k.statusQueue, w.left ≠ 0) :
    k.tickStatus.statusQueue = k.statusQueue.map fun w => { w with left := w.left - 1 } := by
  have all_left : k.statusQueue.filter (fun w => w.left ≠ 0) = k.statusQueue :=
    List.filter_eq_self.2 fun w hw => decide_eq_true (h w hw)
  rw [Core.tickStatus, all_left]

end

/-- Settles O41: the write by the queue that it joins, with the delay of R218 (the Medulla core as a Frond core is
deduced, log 13); the count by whether the one write inside its delay is due. -/
theorem statusWriteDelay : Obligations.StatusWriteDelay := by
  unfold Obligations.StatusWriteDelay
  intro k c v w
  have one {p : StatusWrite → Prop} (hq : k.statusQueue = [w]) (hw : p w) : ∀ x ∈ k.statusQueue, p x :=
    hq ▸ List.forall_mem_singleton.2 hw
  refine ⟨putSpec_status_status k c v, putSpec_status_statusQueue k c v, fun hq hw => ⟨?_, ?_⟩, fun hq hw => ⟨?_, ?_⟩⟩
  · exact nextStatus_of_last_due (l := []) hq hw
  · exact tickStatus_statusQueue_of_all_due (one hq hw)
  · exact nextStatus_of_none_due (one hq hw)
  · rw [tickStatus_statusQueue_of_none_due (one hq hw), hq]
    rfl

end Sys2Proof.Machine
end

section
/-! Branches and jumps (R225 to R237): each leaves its delay slot next, and a fault there undoes it (R230). -/

namespace Sys2Proof.Machine

open Sys2Proof

/-! ## Conditions (R235) -/

section
variable (a b : Word)

theorem condZ_eqz : condZ 0 a = (a == 0) := rfl

theorem condZ_nez : condZ 1 a = (a != 0) := decide_not

theorem condZ_ltz : condZ 2 a = a.msb := BitVec.msb_eq_toInt.symm

theorem condZ_gez : condZ 3 a = !a.msb := by
  rw [BitVec.msb_eq_toInt, ← decide_not]
  exact decide_eq_decide.2 Int.not_lt.symm

theorem condZ_lez : condZ 4 a = (a.msb || a == 0) := by
  have hz : a = 0 ↔ a.toInt = 0 := BitVec.toInt_inj.symm
  have hd : (a == 0) = decide (a.toInt = 0) := decide_eq_decide.2 hz
  rw [BitVec.msb_eq_toInt, hd, ← Bool.decide_or]
  exact decide_eq_decide.2 Int.le_iff_lt_or_eq

theorem condZ_gtz : condZ 5 a = (!a.msb && a != 0) := by
  have h : condZ 5 a = !condZ 4 a := by
    rw [condZ, condZ, ← decide_not]
    exact decide_eq_decide.2 Int.not_le.symm
  rw [h, condZ_lez, Bool.not_or]
  rfl

theorem condR_bne : condR 1 a b = (a != b) := decide_not

theorem condR_bge : condR 3 a b = !a.slt b := by
  rw [BitVec.slt, ← decide_not]
  exact decide_eq_decide.2 Int.not_lt.symm

theorem condR_bgeu : condR 5 a b = !a.ult b := by
  rw [BitVec.ult, ← decide_not]
  exact decide_eq_decide.2 Nat.not_lt.symm

theorem condR_bany : condR 6 a b = ((a &&& b) != 0) := decide_not

end

/-! ## Transfers outside a delay slot (R225 to R227, R234 to R237) -/

/-- A conditional branch that issues leaves its slot, taken when its condition holds (R226, R227). -/
theorem leavesSlot_of_condBranch {i : Instr} {c : CoreId} {f : Form} {take p : Core → Bool} {off : Word} {a h : Bool}
    (hi : ∀ s, exec i s = .next (condBranch s c f take off a h)) (hp : ∀ k, take k = p k) :
    LeavesSlot i c (transfer f) fun k =>
      k.toSlot { k.slotFor c (formLen f) (p k) a (k.pc + off) 0 with cond := true, hint := h } := by
  intro s t hs
  rw [hi, condBranch, runInstr_of_issues hs, funext hp]
  rfl

/-- Settles O26: each branch tests its own condition, which is the one that R235 names. -/
theorem branchResults : Obligations.BranchResults := by
  unfold Obligations.BranchResults
  intro c f ga gb off of2 a h go z r
  have onZero {i : Instr} (n : Nat) {p : Word → Bool} (hi : ∀ s, exec i s = .next (branchZ s c f ga off a h n))
      (hp : ∀ x, condZ n x = p x) : LeavesSlot i c (transfer f) (z fun k => p (k.reg ga)) :=
    leavesSlot_of_condBranch hi fun k => hp (k.reg ga)
  have onTwo {i : Instr} (n : Nat) {p : Word → Word → Bool} (hi : ∀ s, exec i s = .next (branchR s c ga gb of2 a h n))
      (hp : ∀ x y, condR n x y = p x y) : LeavesSlot i c (transfer .long) (r fun k => p (k.reg ga) (k.reg gb)) :=
    leavesSlot_of_condBranch hi fun k => hp (k.reg ga) (k.reg gb)
  exact ⟨onZero 0 (fun _ => rfl) condZ_eqz, onZero 1 (fun _ => rfl) condZ_nez, onZero 2 (fun _ => rfl) condZ_ltz,
    onZero 3 (fun _ => rfl) condZ_gez, onZero 4 (fun _ => rfl) condZ_lez, onZero 5 (fun _ => rfl) condZ_gtz,
    onZero 6 (fun _ => rfl) fun _ => rfl, onZero 7 (fun _ => rfl) fun _ => rfl,
    onTwo 0 (fun _ => rfl) fun _ _ => rfl, onTwo 1 (fun _ => rfl) condR_bne, onTwo 2 (fun _ => rfl) fun _ _ => rfl,
    onTwo 3 (fun _ => rfl) condR_bge, onTwo 4 (fun _ => rfl) fun _ _ => rfl, onTwo 5 (fun _ => rfl) condR_bgeu,
    onTwo 6 (fun _ => rfl) condR_bany, onTwo 7 (fun _ => rfl) fun _ _ => rfl⟩

/-- A counting branch on a register other than g0 writes it and leaves its slot, taken by the new value (R236). -/
theorem leavesSlot_of_countBranch {i : Instr} {c : CoreId} {ga : Reg} {off : BitVec 7} {a h : Bool} {take p : Word → Bool}
    (hi : ∀ s, exec i s = .next (countBranch s c ga off a h take)) (hp : ∀ v, take v = p v) (hg : ga ≠ 0) :
    LeavesSlot i c (transfer .short) fun k =>
      (k.setReg ga (k.reg ga - 1)).toSlot { k.slotFor c 1 (p (k.reg ga - 1)) a (k.pc + off.signExtend 48) 0 with
        cond := true, hint := h, undoReg := some (ga, k.reg ga) } := by
  intro s t hs
  have hs' : Issues s c { transfer .short with bad := if ga = 0 then some 1 else none } t := hs.of_bad_none (if_neg hg)
  rw [hi, countBranch, runInstr_of_issues hs', funext hp]
  rfl

/-- With g0 it is illegal (R236). -/
theorem countBranch_zero {s t : State} {c : CoreId} (hs : Issues s c (transfer .short) t) (off : BitVec 7) (a h : Bool)
    (take : Word → Bool) : countBranch s c 0 off a h take = faultAt t c (exc 0x01 1) :=
  runInstr_of_rejects (hs.rejects_bad 1) _

theorem jumpTo_of_issues {s t : State} {c : CoreId} (hs : Issues s c (transfer .long) t) (target : Core → Word) (kind : Nat) :
    jumpTo s c target kind = t.modCore c fun k => k.toSlot (k.slotFor c 2 true false (target k) kind) :=
  runInstr_of_issues hs _

/-- Settles O27: the counting branches by their register, the jumps by whether they issue. -/
theorem jumpResults : Obligations.JumpResults := by
  unfold Obligations.JumpResults
  intro c ga off o2 a h cnt
  have counts (hg : ga ≠ 0) {i : Instr} {take p : Word → Bool}
      (hi : ∀ s, exec i s = .next (countBranch s c ga off a h take)) (hp : ∀ v, take v = p v) :
      LeavesSlot i c (transfer .short) (cnt p) := leavesSlot_of_countBranch hi hp hg
  refine ⟨fun hg => ⟨?dbnz, ?dbgz⟩, fun s t hs => ?j, fun s t hs => ?jr, fun s t hs => ⟨?dbnz0, ?dbgz0⟩,
    fun s t hs => ⟨?jSlot, ?jrSlot⟩⟩
  case dbnz => exact counts hg (take := fun v => v ≠ 0) (fun _ => rfl) fun _ => decide_not
  case dbgz => exact counts hg (take := fun v => decide (0 < v.toInt)) (fun _ => rfl) fun _ => rfl
  case j => exact congrArg Host.Outcome.next (jumpTo_of_issues hs _ 0)
  case jr => exact congrArg Host.Outcome.next (jumpTo_of_issues hs _ 3)
  case dbnz0 => exact congrArg Host.Outcome.next (countBranch_zero hs off a h _)
  case dbgz0 => exact congrArg Host.Outcome.next (countBranch_zero hs off a h _)
  case jSlot => exact congrArg Host.Outcome.next (runInstr_of_rejects hs _)
  case jrSlot => exact congrArg Host.Outcome.next (runInstr_of_rejects hs _)

/-! ## Faults in a delay slot (R230, R277) -/

section
variable {k : Core} {b : Slot} (h : k.slot = some b)
include h

theorem undoBranch_of_no_reg (hu : b.undoReg = none) : k.undoBranch =
    { k with slot := none, pc := b.branchPc, rsp := b.undoRsp, rss := b.undoRss } := by
  simp only [Core.undoBranch, h, hu]

theorem undoBranch_of_reg {r : Reg} {v : Word} (hu : b.undoReg = some (r, v)) : k.undoBranch =
    { k.setReg r v with slot := none, pc := b.branchPc, rsp := b.undoRsp, rss := b.undoRss } := by
  simp only [Core.undoBranch, h, hu]

theorem undoBranch_pc : k.undoBranch.pc = b.branchPc := by simp only [Core.undoBranch, h]

end

section
variable {s : State} {c : CoreId} {b : Slot} (h : (s.core c).slot = some b)
include h

/-- A fault in a slot is taken with its branch undone, at the PC of the branch. -/
theorem faultAt_of_slot (e : Exc) : faultAt s c e =
    raiseAt (s.modCore c fun k => { k.undoBranch with waiting := none }) c e b.branchPc := by
  simp only [faultAt, core_modCore_same, undoBranch_pc h]

/-- A register that the branch counted has its old value again. -/
theorem reg_faultAt_of_undo {r : Reg} {v : Word} (hu : b.undoReg = some (r, v)) (hr : r ≠ 0) (e : Exc) :
    ((faultAt s c e).core c).reg r = v := by
  rw [faultAt_of_slot h, reg_of_gens (raiseAt_gens ..), core_modCore_same, undoBranch_of_reg h hu]
  exact reg_setReg_same (s.core c) v hr

end

/-- Settles O29: the branch in the slot is undone, by whether it counted a register. -/
theorem slotFaultUndoesBranch : Obligations.SlotFaultUndoesBranch := by
  unfold Obligations.SlotFaultUndoesBranch
  intro s c b e h k
  rw [faultAt_of_slot h, State.modCore, State.modCore]
  cases hu : b.undoReg with
  | none => rw [undoBranch_of_no_reg h hu]
  | some old => rw [undoBranch_of_reg h hu]

/-! ## FEND in an annulled slot (R228, R475) -/

/-- FEND waits for what an abandoned frame left in flight, before any check (R473, R475). -/
theorem exec_fend_of_abandoned {s : State} {c : CoreId} (h : (s.core c).abandoned ≠ []) : exec (.fend c) s = .next s := by
  have hb : (!(s.core c).abandoned.isEmpty) = true := by simpa using h
  exact if_pos hb

/-- A short DBNZ at PC 0 has counted g2 of Frond core 3 from 1 to 0, and its slot is annulled. -/
def countedOut : Slot :=
  { Core.reset.slotFor (.frond 3) 1 false true 0 0 with cond := true, undoReg := some (2, 1) }

/-- Frond core 3 in that slot, while a load of an earlier frame, abandoned, is still in flight. -/
def annulledWithLoad : State :=
  State.reset.modCore (.frond 3) fun k => { k.toSlot countedOut with
    run := .running
    abandoned := [.access ⟨[⟨0x100, 0, .read, .word⟩], 2, .drop, [], false, none, false, false⟩] }

theorem annulledWithLoad_reaches : canIssue annulledWithLoad (.frond 3) = true ∧
    ((issueStatus annulledWithLoad (.frond 3)).core (.frond 3)).slot = some countedOut := by decide +kernel

/-- Refutes O28: FEND waits for the access that an abandoned frame left in flight (R475) before it meets the check of R228,
while the statement has it fault at once in every annulled slot. The fault would give g2 its old value 1 again. -/
theorem not_slotOutcome : ¬ Obligations.SlotOutcome := by
  unfold Obligations.SlotOutcome
  intro h
  obtain ⟨hcan, hslot⟩ := annulledWithLoad_reaches
  have ha : ((issueStatus annulledWithLoad (.frond 3)).core (.frond 3)).inAnnulled = true := by
    rw [Core.inAnnulled, hslot]
    rfl
  obtain ⟨-, -, hannulled⟩ := h annulledWithLoad (.frond 3) countedOut 0 0 0 0
  obtain ⟨-, -, -, -, hforbidden⟩ := hannulled hcan ha
  have hwait : exec (.fend (.frond 3)) annulledWithLoad = .next annulledWithLoad := by
    refine exec_fend_of_abandoned ?_
    rw [annulledWithLoad, core_modCore_same]
    exact List.cons_ne_nil _ _
  have hf := hforbidden (.fend (.frond 3)) (by simp)
  rw [hwait, Host.Outcome.next.injEq] at hf
  have hold : (annulledWithLoad.core (.frond 3)).reg 2 = 1 := by
    rw [hf]
    exact reg_faultAt_of_undo hslot rfl (by decide) _
  have hnew : (annulledWithLoad.core (.frond 3)).reg 2 = 0 := by decide +kernel
  exact absurd (hnew.symm.trans hold) (by decide)

end Sys2Proof.Machine
end

section
/-! Status (R263 to R265, R273, R283): the fields that a write takes, and the status after an entry and after a return. -/

namespace Sys2Proof.Machine

open Sys2Proof

/-! ## Words without reserved bits -/

theorem within_iff (w m : Word) : w &&& ~~~m = 0 ↔ ∀ i < 48, w.getLsbD i = true → m.getLsbD i = true := by
  constructor
  · intro h i hi hw
    have hb := congrArg (fun x : Word => x.getLsbD i) h
    simpa [hi, hw] using hb
  · intro h
    refine BitVec.eq_of_getLsbD_eq fun i hi => ?_
    cases hw : w.getLsbD i with
    | false => simp [hw]
    | true => simp [hi, h i hi hw]

theorem and_within (w m : Word) : w &&& m &&& ~~~m = 0 := by
  rw [BitVec.and_assoc, BitVec.and_not_self]
  exact BitVec.and_zero

/-- A field inside the mask brings in no reserved bit. -/
theorem keepIf_within (bad : Bool) {v m : Word} (old : Word) {hi lo : Nat} (h : lo ≤ hi) (hv : v &&& ~~~m = 0)
    (hm : ∀ i, lo ≤ i → i ≤ hi → m.getLsbD i = true) : keepIf bad v old hi lo &&& ~~~m = 0 := by
  rw [within_iff] at hv ⊢
  intro i hi48
  rw [keepIf]
  split
  · rw [getLsbD_setFld _ _ h hi48]
    split
    · next hr => exact fun _ => hm i hr.1 hr.2
    · exact hv i hi48
  · exact hv i hi48

/-! ## The limits of a status write (R263) -/

/-- A field whose value must not pass a bound keeps its old value above it. -/
theorem fld_keepIf_above (bound x : Nat) (v old : Word) {hi lo : Nat} (h : lo ≤ hi) (hw : hi < 48) :
    fld (keepIf (bound < x) v old hi lo) hi lo = if x ≤ bound then fld v hi lo else fld old hi lo := by
  rw [fld_keepIf_same _ _ _ h hw]
  simp only [decide_eq_true_eq, ← not_le, ite_not]

section
variable (pl : Nat) (old v : Word)

/-- The limits are judged on the value written: one field's limit does not touch another's. -/
theorem statusLimited_eq : statusLimited pl old v =
    keepIf (pl < fld v 1 0) (keepIf (topLevel pl < fld v 10 8)
      (keepIf (pl < 3) (keepIf (pl < 2) (v &&& 0x1F73) old 12 12) old 11 11) old 10 8) old 1 0 := by
  have heml : fld (keepIf (pl < 3) (keepIf (pl < 2) (v &&& 0x1F73) old 12 12) old 11 11) 10 8 = fld v 10 8 := by
    simp (disch := omega) only [fld_keepIf_disjoint]
    exact fld_and v _ (by decide)
  have hpl : fld (keepIf (topLevel pl < fld v 10 8)
      (keepIf (pl < 3) (keepIf (pl < 2) (v &&& 0x1F73) old 12 12) old 11 11) old 10 8) 1 0 = fld v 1 0 := by
    simp (disch := omega) only [fld_keepIf_disjoint]
    exact fld_and v _ (by decide)
  rw [← hpl, ← heml]
  simp only [statusLimited, keepIf, decide_eq_true_eq]

theorem fld_statusLimited_pl :
    fld (statusLimited pl old v) 1 0 = if fld v 1 0 ≤ pl then fld v 1 0 else fld old 1 0 := by
  simp (disch := omega) only [statusLimited_eq, fld_keepIf_above, fld_keepIf_disjoint]
  rw [fld_and v _ (by decide)]

theorem fld_statusLimited_eml :
    fld (statusLimited pl old v) 10 8 = if fld v 10 8 ≤ topLevel pl then fld v 10 8 else fld old 10 8 := by
  simp (disch := omega) only [statusLimited_eq, fld_keepIf_above, fld_keepIf_disjoint]
  rw [fld_and v _ (by decide)]

theorem fld_statusLimited_iml : fld (statusLimited pl old v) 6 4 = fld v 6 4 := by
  simp (disch := omega) only [statusLimited_eq, fld_keepIf_disjoint]
  exact fld_and v _ (by decide)

theorem fld_statusLimited_gx (h : pl ≤ 3) :
    fld (statusLimited pl old v) 11 11 = if pl = 3 then fld v 11 11 else fld old 11 11 := by
  have h3 : 3 ≤ pl ↔ pl = 3 := by omega
  simp (disch := omega) only [statusLimited_eq, fld_keepIf_above, fld_keepIf_disjoint, h3]
  rw [fld_and v _ (by decide)]

theorem fld_statusLimited_vm : fld (statusLimited pl old v) 12 12 = if 2 ≤ pl then fld v 12 12 else fld old 12 12 := by
  simp (disch := omega) only [statusLimited_eq, fld_keepIf_above, fld_keepIf_disjoint]
  rw [fld_and v _ (by decide)]

theorem statusLimited_within : statusLimited pl old v &&& ~~~0x1F73 = 0 := by
  rw [statusLimited_eq]
  refine keepIf_within _ old (by omega) ?_ (by decide)
  refine keepIf_within _ old (by omega) ?_ (by decide)
  refine keepIf_within _ old (by omega) ?_ (by decide)
  exact keepIf_within _ old (by omega) (and_within v _) (by decide)

end

/-- Settles O40, field by field. -/
theorem statusWriteLimits : Obligations.StatusWriteLimits := by
  unfold Obligations.StatusWriteLimits
  intro pl old v w
  exact ⟨fld_statusLimited_pl .., fld_statusLimited_eml .., fld_statusLimited_iml ..,
    fld_statusLimited_gx pl.val old v (by omega), fld_statusLimited_vm .., statusLimited_within ..⟩

/-! ## The status after an entry (R273) -/

theorem bit_setFld (w : Word) {hi lo n : Nat} (v : Nat) (h : lo ≤ hi) (hn : n < 48) :
    bit (setFld w hi lo v) n = if lo ≤ n ∧ n ≤ hi then v.testBit (n - lo) else bit w n := getLsbD_setFld w v h hn

theorem topLevel_lt (p : Nat) : topLevel p < 8 := by
  unfold topLevel
  split_ifs <;> omega

/-- A bit set on a condition leaves every other field. -/
theorem fld_setBit_if (q : Prop) [Decidable q] (w : Word) {n hi lo : Nat} (b : Bool) (hw : hi < 48)
    (hd : n < lo ∨ hi < n) : fld (if q then setBit w n b else w) hi lo = fld w hi lo := by
  split
  · exact fld_setFld_disjoint _ _ le_rfl hw hd
  · rfl

section
variable (st : Word) (p : Nat)

theorem fld_entryStatus_pl : fld (entryStatus st p none) 1 0 = p % 4 := by
  simp (disch := omega) only [entryStatus, fld_setBit_if, fld_setFld_disjoint, fld_setFld_same, Nat.reduceAdd, Nat.reduceSub,
    Nat.reducePow]

theorem fld_entryStatus_eml : fld (entryStatus st p none) 10 8 = topLevel p % 8 := by
  simp (disch := omega) only [entryStatus, fld_setBit_if, fld_setFld_same, Nat.reduceAdd, Nat.reduceSub, Nat.reducePow]

theorem fld_entryStatus_iml : fld (entryStatus st p none) 6 4 = fld st 6 4 := by
  simp (disch := omega) only [entryStatus, fld_setBit_if, fld_setFld_disjoint]

theorem bit_entryStatus_gx : bit (entryStatus st p none) 11 = (decide (p = 3) || bit st 11) := by
  simp (disch := omega) only [entryStatus, setBit, apply_ite (bit · 11), bit_setFld]
  by_cases h : p = 3 <;> simp [h]

theorem bit_entryStatus_vm : bit (entryStatus st p none) 12 = (decide (p < 2) && bit st 12) := by
  simp (disch := omega) only [entryStatus, setBit, apply_ite (bit · 12), bit_setFld]
  by_cases h : 2 ≤ p
  · simp [h, Nat.not_lt.2 h]
  · simp [h, Nat.not_le.1 h]

end

section
variable {k : Core} {st : Word} {p : Nat} (h : k.status = entryStatus st p none)
include h

theorem pl_of_entryStatus (hp : p ≤ 3) : k.pl = p := by
  rw [Core.pl, h, fld_entryStatus_pl, Nat.mod_eq_of_lt (by omega)]

theorem eml_of_entryStatus : k.eml = topLevel p := by
  rw [Core.eml, h, fld_entryStatus_eml, Nat.mod_eq_of_lt (topLevel_lt p)]

theorem iml_of_entryStatus : k.iml = fld st 6 4 := by rw [Core.iml, h, fld_entryStatus_iml]

theorem gx_of_entryStatus : k.gx = (decide (p = 3) || bit st 11) := by rw [Core.gx, h, bit_entryStatus_gx]

theorem vm_of_entryStatus : k.vm = (decide (p < 2) && bit st 12) := by rw [Core.vm, h, bit_entryStatus_vm]

end

/-! ## The status after a return (R283) -/

section
variable (p : Nat) (cur est : Word)

theorem returnStatus_eq : returnStatus p cur est =
    keepIf (p < 2) (keepIf (p < 3) (est &&& 0x1F73) cur 11 11) cur 12 12 := by
  simp only [returnStatus, keepIf, decide_eq_true_eq]

theorem fld_returnStatus_pl : fld (returnStatus p cur est) 1 0 = fld est 1 0 := by
  simp (disch := omega) only [returnStatus_eq, fld_keepIf_disjoint]
  exact fld_and est _ (by decide)

theorem fld_returnStatus_eml : fld (returnStatus p cur est) 10 8 = fld est 10 8 := by
  simp (disch := omega) only [returnStatus_eq, fld_keepIf_disjoint]
  exact fld_and est _ (by decide)

theorem fld_returnStatus_iml : fld (returnStatus p cur est) 6 4 = fld est 6 4 := by
  simp (disch := omega) only [returnStatus_eq, fld_keepIf_disjoint]
  exact fld_and est _ (by decide)

theorem bit_keepIf_same (bad : Bool) (v old : Word) {n : Nat} (hn : n < 48) :
    bit (keepIf bad v old n n) n = if bad then bit old n else bit v n := by
  rw [keepIf]
  split
  · rw [bit_setFld _ _ le_rfl hn, if_pos ⟨le_rfl, le_rfl⟩, testBit_fld]
    simp [bit]
  · rfl

theorem bit_keepIf_other (bad : Bool) (v old : Word) {m n : Nat} (hn : n < 48) (h : m ≠ n) :
    bit (keepIf bad v old m m) n = bit v n := by
  rw [keepIf]
  split
  · rw [bit_setFld _ _ le_rfl hn, if_neg (by omega)]
  · rfl

/-- Only PL3 may leave or enter guarded execution. -/
theorem bit_returnStatus_gx (h : p ≤ 3) :
    bit (returnStatus p cur est) 11 = if p = 3 then bit est 11 else bit cur 11 := by
  have h3 : p < 3 ↔ ¬p = 3 := by omega
  have hm : bit (est &&& 0x1F73) 11 = bit est 11 := by simp [bit]
  rw [returnStatus_eq, bit_keepIf_other _ _ _ (by omega) (by omega), bit_keepIf_same _ _ _ (by omega), hm]
  simp only [decide_eq_true_eq, h3, ite_not]

/-- Only PL2 and PL3 may change VM. -/
theorem bit_returnStatus_vm : bit (returnStatus p cur est) 12 = if 2 ≤ p then bit est 12 else bit cur 12 := by
  have hm : bit (est &&& 0x1F73) 12 = bit est 12 := by simp [bit]
  rw [returnStatus_eq, bit_keepIf_same _ _ _ (by omega), bit_keepIf_other _ _ _ (by omega) (by omega), hm]
  simp only [decide_eq_true_eq, ← not_le, ite_not]

theorem returnStatus_within : returnStatus p cur est &&& ~~~0x1F73 = 0 := by
  rw [returnStatus_eq]
  exact keepIf_within _ cur (by omega) (keepIf_within _ cur (by omega) (and_within est _) (by decide)) (by decide)

end

end Sys2Proof.Machine
end

section
/-! Taking an exception (R265 to R275): the cause word field by field, what entry leaves of its core, and when an
exception is taken, escalates or stops the core. -/

namespace Sys2Proof.Machine

open Sys2Proof

/-! ## The cause word (R275) -/

theorem fld_or (v w : Word) (hi lo : Nat) : fld (v ||| w) hi lo = fld v hi lo ||| fld w hi lo := by
  refine Nat.eq_of_testBit_eq fun n => ?_
  simp only [testBit_fld, Nat.testBit_or, BitVec.getLsbD_or, Bool.and_or_distrib_left]

theorem fld_zero (hi lo : Nat) : fld 0 hi lo = 0 := by simp [fld]

theorem fld_mk_same {hi lo : Nat} (v : Nat) (h : lo ≤ hi) (hw : hi < 48) :
    fld (mk hi lo v) hi lo = v % 2 ^ (hi + 1 - lo) := fld_setFld_same 0 v h hw

theorem fld_mk_disjoint {hi lo hi' lo' : Nat} (v : Nat) (h : lo ≤ hi) (hw : hi' < 48) (hd : hi < lo' ∨ hi' < lo) :
    fld (mk hi lo v) hi' lo' = 0 := by
  rw [mk, fld_setFld_disjoint 0 v h hw hd, fld_zero]

theorem mk_zero (hi lo : Nat) : mk hi lo 0 = 0 := by simp [mk, setFld]

theorem bit_mk {hi lo n : Nat} (v : Nat) (h : lo ≤ hi) (hn : n < 48) :
    bit (mk hi lo v) n = (decide (lo ≤ n ∧ n ≤ hi) && v.testBit (n - lo)) := by
  rw [mk, bit_setFld 0 v h hn]
  by_cases hr : lo ≤ n ∧ n ≤ hi
  · simp [hr]
  · simp [hr, bit]

theorem bit_or (v w : Word) (n : Nat) : bit (v ||| w) n = (bit v n || bit w n) := BitVec.getLsbD_or

section
variable (detail orig olvl lvl : Nat) (w g : Bool) (cls : Nat)

theorem fld_ecauseWord_cls : fld (ecauseWord detail orig olvl lvl w g cls) 5 0 = cls % 64 := by
  simp (disch := omega) only [ecauseWord, fld_or, fld_mk_disjoint, fld_mk_same, Nat.zero_or, Nat.reduceAdd, Nat.reduceSub,
    Nat.reducePow]

theorem fld_ecauseWord_lvl : fld (ecauseWord detail orig olvl lvl w g cls) 14 12 = lvl % 8 := by
  simp (disch := omega) only [ecauseWord, fld_or, fld_mk_disjoint, fld_mk_same, Nat.zero_or, Nat.or_zero, Nat.reduceAdd,
    Nat.reduceSub, Nat.reducePow]

theorem fld_ecauseWord_olvl : fld (ecauseWord detail orig olvl lvl w g cls) 17 15 = olvl % 8 := by
  simp (disch := omega) only [ecauseWord, fld_or, fld_mk_disjoint, fld_mk_same, Nat.zero_or, Nat.or_zero, Nat.reduceAdd,
    Nat.reduceSub, Nat.reducePow]

theorem fld_ecauseWord_orig : fld (ecauseWord detail orig olvl lvl w g cls) 23 18 = orig % 64 := by
  simp (disch := omega) only [ecauseWord, fld_or, fld_mk_disjoint, fld_mk_same, Nat.zero_or, Nat.or_zero, Nat.reduceAdd,
    Nat.reduceSub, Nat.reducePow]

theorem fld_ecauseWord_detail : fld (ecauseWord detail orig olvl lvl w g cls) 39 24 = detail % 65536 := by
  simp (disch := omega) only [ecauseWord, fld_or, fld_mk_disjoint, fld_mk_same, Nat.or_zero, Nat.reduceAdd, Nat.reduceSub,
    Nat.reducePow]

/-- ORIG and OLVL together are zero but in an escalation. -/
theorem fld_ecauseWord_unescalated : fld (ecauseWord detail 0 0 lvl w g cls) 23 15 = 0 := by
  simp (disch := omega) only [ecauseWord, mk_zero, fld_zero, fld_or, fld_mk_disjoint, Nat.or_zero]

theorem bit_ecauseWord_write : bit (ecauseWord detail orig olvl lvl w g cls) 9 = w := by
  simp (disch := omega) only [ecauseWord, bit_or, bit_mk]
  cases w <;> simp

theorem bit_ecauseWord_guest : bit (ecauseWord detail orig olvl lvl w g cls) 8 = g := by
  simp (disch := omega) only [ecauseWord, bit_or, bit_mk]
  cases g <;> simp

end

/-! ## Levels (R265, R277) -/

theorem pl_le (k : Core) : k.pl ≤ 3 := Nat.le_of_lt_succ (fld_lt k.status 1 0)

/-- Every class has six bits and a level of R265. -/
theorem classLevel_bounds {cls lvl : Nat} (h : classLevel cls = some lvl) : cls < 64 ∧ lvl < 8 := by
  unfold classLevel at h
  simp only [Bool.or_eq_true, decide_eq_true_eq] at h
  split_ifs at h
  all_goals
    obtain rfl := Option.some.inj h
    omega

theorem ownerLevel_le (l : Nat) : ownerLevel l ≤ 3 := by
  unfold ownerLevel
  split_ifs <;> omega

/-! ## Entry (R273) -/

section
variable (k : Core) (p : Nat) (cause : Word) (cls : Nat) (addr resume : Word)

/-- Hardware writes four of the six registers of the save set it enters. -/
theorem enter_save (iml : Option Nat) : (k.enter p cause cls addr resume iml).save[(p - 1) % 3]'(Nat.mod_lt _ (by decide)) =
    { k.save[(p - 1) % 3]'(Nat.mod_lt _ (by decide)) with
      epc := resume, est := k.status, ecause := cause, eaddr := addr } := Vector.getElem_set_self _

theorem setFld_zero (w : Word) (hi lo : Nat) : setFld w hi lo 0 = w &&& ~~~(mask hi lo) := by simp [setFld]

theorem enter_pc (iml : Option Nat) : (k.enter p cause cls addr resume iml).pc =
    ((k.save[(p - 1) % 3]'(Nat.mod_lt _ (by decide))).evec &&& ~~~0x1FF) + w48 (8 * cls) := by
  have hm : mask 8 0 = 0x1FF := by decide
  rw [← hm, ← setFld_zero]
  rfl

end

/-! ## What raising an exception comes to (R266, R269) -/

section
variable {k : Core} {e : Exc} {lvl : Nat} (resume : Word)

theorem take_of_unmasked (h : k.eml < lvl) : k.take e lvl resume = .entered (k.enter (max (ownerLevel lvl) k.pl)
    (ecauseWord e.detail 0 0 lvl e.write k.vm e.cls) e.cls e.addr resume none) := if_neg (Nat.not_le.2 h)

theorem take_of_masked (h : lvl ≤ k.eml) (h7 : k.eml < 7) : k.take e lvl resume =
    .entered (k.enter (max (ownerLevel (k.eml + 1)) k.pl)
      (ecauseWord e.detail e.cls lvl (k.eml + 1) e.write k.vm 0x3F) 0x3F e.addr resume none) :=
  (if_pos h).trans (if_neg h7.ne)

theorem take_of_all_masked (h : lvl ≤ k.eml) (h7 : k.eml = 7) :
    k.take e lvl resume = .stopped (ecauseWord e.detail 0 0 lvl e.write k.vm e.cls) e.addr :=
  (if_pos h).trans (if_pos h7)

end

theorem coreOfAgent_coreNum (c : CoreId) : coreOfAgent (coreNum c) = some c := by
  cases c with
  | app i => exact dif_pos i.isLt
  | frond i =>
    have h1 : ¬ 16 + i.val < 16 := by omega
    have h2 : 16 + i.val - 16 < 16 := by omega
    have hi : (⟨16 + i.val - 16, h2⟩ : Fin 16) = i := Fin.ext (by simp)
    exact (dif_neg h1).trans ((dif_pos h2).trans (congrArg (some ∘ CoreId.frond) hi))
  | medulla => rfl

theorem setCore_setCore (s : State) (c : CoreId) (j k : Core) : (s.setCore c j).setCore c k = s.setCore c k :=
  modCore_modCore s c (fun _ => j) fun _ => k

/-- The core with what the controller presents to it (R295). -/
def Core.shown (k : Core) (p : Option Presented) (on : Bool) (ts : Word) : Core :=
  { k with presented := p, src63On := on, src63Ts := ts }

theorem represent_coreNum (s : State) (c : CoreId) :
    ∃ p on ts, represent s (coreNum c) = s.setCore c ((s.core c).shown p on ts) := by
  simp only [represent, coreOfAgent_coreNum]
  exact ⟨_, _, _, rfl⟩

section
variable {s : State} {c : CoreId} {e : Exc} {resume : Word} {lvl : Nat} (hc : classLevel e.cls = some lvl)
include hc

/-- An exception that is taken, escalated or not, changes its core and the counts (R273). -/
theorem countsOnly_raiseAt {k : Core} (h : (s.core c).flushStatus.take e lvl resume = .entered k) :
    ∃ p on ts, CountsOnly (s.setCore c ((k.setPc c k.pc).shown p on ts)) (raiseAt s c e resume) := by
  have hl : (classLevel e.cls).getD 2 = lvl := by rw [hc]; rfl
  have hcount := countsOnly_coreCount (s.setCore c (k.setPc c k.pc)) c 0x1E 0
  simp only [raiseAt, hl, h]
  obtain ⟨p, on, ts, hr⟩ := represent_coreNum (coreCount (s.setCore c (k.setPc c k.pc)) c 0x1E 0) c
  rw [hr, hcount.core, core_setCore_same]
  have hput := hcount.modCore c fun _ => (k.setPc c k.pc).shown p on ts
  rw [State.modCore, State.modCore, setCore_setCore] at hput
  exact ⟨p, on, ts, hput⟩

theorem onlyCore_raiseAt {k : Core} (h : (s.core c).flushStatus.take e lvl resume = .entered k) :
    OnlyCore s (raiseAt s c e resume) c := by
  obtain ⟨p, on, ts, hv⟩ := countsOnly_raiseAt hc h
  exact onlyCore_of_countsOnly (f := fun _ => (k.setPc c k.pc).shown p on ts) hv

/-- The core that took an exception is the one that entered, with what the controller now presents to it. -/
theorem core_raiseAt {k : Core} (h : (s.core c).flushStatus.take e lvl resume = .entered k) :
    ∃ p on ts, (raiseAt s c e resume).core c = (k.setPc c k.pc).shown p on ts := by
  obtain ⟨p, on, ts, hv⟩ := countsOnly_raiseAt hc h
  exact ⟨p, on, ts, (hv.core c).trans (core_setCore_same ..)⟩

section
variable {p cls : Nat} {cause addr : Word} (h : (s.core c).flushStatus.take e lvl resume =
  .entered ((s.core c).flushStatus.enter p cause cls addr resume none))
include h

theorem save_raiseAt : ((raiseAt s c e resume).core c).save[(p - 1) % 3]'(Nat.mod_lt _ (by decide)) =
    { (s.core c).flushStatus.save[(p - 1) % 3]'(Nat.mod_lt _ (by decide)) with
      epc := resume, est := (s.core c).flushStatus.status, ecause := cause, eaddr := addr } := by
  obtain ⟨pr, on, ts, hu⟩ := core_raiseAt hc h
  simp only [hu]
  exact enter_save _ p cause cls addr resume none

theorem status_raiseAt : ((raiseAt s c e resume).core c).status = entryStatus (s.core c).flushStatus.status p none := by
  obtain ⟨pr, on, ts, hu⟩ := core_raiseAt hc h
  rw [hu]
  rfl

theorem pc_raiseAt : ((raiseAt s c e resume).core c).pc =
    pcOf c ((((s.core c).flushStatus.save[(p - 1) % 3]'(Nat.mod_lt _ (by decide))).evec &&& ~~~0x1FF) + w48 (8 * cls)) := by
  obtain ⟨pr, on, ts, hu⟩ := core_raiseAt hc h
  rw [hu]
  exact congrArg (pcOf c) (enter_pc _ p cause cls addr resume none)

end

/-- A checkstop stops its core, and its record waits (R271). -/
theorem raiseAt_of_stopped {cause addr : Word} (h : (s.core c).flushStatus.take e lvl resume = .stopped cause addr) :
    raiseAt s c e resume = checkstop (s.setCore c (s.core c).flushStatus) c resume cause addr := by
  have hl : (classLevel e.cls).getD 2 = lvl := by rw [hc]; rfl
  simp only [raiseAt, hl, h]

end

theorem checkstop_of_ne_medulla (s : State) {c : CoreId} (h : c ≠ .medulla) (pc cause addr : Word) :
    ((checkstop s c pc cause addr).core c).run = .checkstopped ∧ (checkstop s c pc cause addr).mdl.checkstops =
      s.mdl.checkstops ++ [(coreNum c, pc, (s.core c).status, cause, addr)] := by
  have hrun : ((s.modCore c fun k => { k with run := .checkstopped, waiting := none }).core c).run = .checkstopped := by
    rw [core_modCore_same]
  cases c with
  | app i => exact ⟨hrun, rfl⟩
  | frond i => exact ⟨hrun, rfl⟩
  | medulla => exact absurd rfl h

/-- Settles O43: the exception is taken at the higher level, and entry changes what R273 lists. -/
theorem exceptionEntry : Obligations.ExceptionEntry := by
  unfold Obligations.ExceptionEntry
  intro s c e resume lvl k p v u sv ov hc hm
  obtain ⟨hcls, hlvl⟩ := classLevel_bounds hc
  have htake := take_of_unmasked (e := e) resume hm
  have hsv : sv = _ := save_raiseAt hc htake
  have hst : u.status = entryStatus k.status p none := status_raiseAt hc htake
  have hp : p ≤ 3 := max_le (ownerLevel_le lvl) (pl_le k)
  rw [hsv]
  refine ⟨rfl, rfl, rfl, rfl, rfl, ?cls, ?lvl, fld_ecauseWord_detail .., fld_ecauseWord_unescalated ..,
    bit_ecauseWord_write .., bit_ecauseWord_guest .., pl_of_entryStatus hst hp, eml_of_entryStatus hst,
    iml_of_entryStatus hst, gx_of_entryStatus hst, vm_of_entryStatus hst, pc_raiseAt hc htake, ?frame⟩
  case cls => exact (fld_ecauseWord_cls ..).trans (Nat.mod_eq_of_lt hcls)
  case lvl => exact (fld_ecauseWord_lvl ..).trans (Nat.mod_eq_of_lt hlvl)
  case frame =>
    obtain ⟨pr, on, ts, hu⟩ := core_raiseAt hc htake
    unfold u v
    rw [hu]
    exact ⟨rfl, rfl, rfl, rfl, rfl, rfl, rfl, rfl, rfl, rfl, rfl, rfl, onlyCore_raiseAt hc htake⟩

/-- Settles O44: by whether the mask stands at 7. -/
theorem maskedEscalates : Obligations.MaskedEscalates := by
  unfold Obligations.MaskedEscalates
  intro s c e resume lvl k p u sv hc hm
  refine ⟨fun h7 => ?escalates, fun h7 hn => ?stops⟩
  case escalates =>
    obtain ⟨hcls, hlvl⟩ := classLevel_bounds hc
    have htake := take_of_masked (e := e) resume hm h7
    have hsv : sv = _ := save_raiseAt hc htake
    have hp : p ≤ 3 := max_le (ownerLevel_le _) (pl_le k)
    rw [hsv]
    refine ⟨fld_ecauseWord_cls .., ?orig, ?olvl, ?lvl, rfl, rfl, pl_of_entryStatus (status_raiseAt hc htake) hp⟩
    case orig => exact (fld_ecauseWord_orig ..).trans (Nat.mod_eq_of_lt hcls)
    case olvl => exact (fld_ecauseWord_olvl ..).trans (Nat.mod_eq_of_lt hlvl)
    case lvl => exact (fld_ecauseWord_lvl ..).trans (Nat.mod_eq_of_lt (Nat.succ_lt_succ h7))
  case stops =>
    unfold u
    rw [raiseAt_of_stopped hc (take_of_all_masked resume hm h7)]
    have h := checkstop_of_ne_medulla (s.setCore c k) hn resume (ecauseWord e.detail 0 0 lvl e.write k.vm e.cls) e.addr
    rwa [core_setCore_same] at h

end Sys2Proof.Machine
end

section
/-! The system instructions, undefined encodings and machine checks (R276 to R284). -/

namespace Sys2Proof.Machine

open Sys2Proof

/-! ## RETX (R282 to R284) -/

/-- A transfer that is not a branch leaves its core committed, at its PC (R157, R712). -/
theorem core_completeAt (s : State) (c : CoreId) (pc : Word) : (completeAt s c pc).core c =
    { (s.core c).committed (s.core c).predict with pc := pcOf c pc } := by
  rw [completeAt, core_modCore_same, (countsOnly_tally ..).core, (countsOnly_retireEvents s c).core, core_modCore_same]
  rfl

/-- The core that RETX leaves at its PC: its status restored, its predictors cleared (R251, R283). -/
def Core.returned (k : Core) (est : Word) : Core := { k with status := returnStatus k.pl k.status est }.flushPredictors

/-- Settles O45: by the checks of R283 in their order. -/
theorem returnFromException : Obligations.ReturnFromException := by
  unfold Obligations.ReturnFromException
  intro s t c h k sv
  have run : exec (.retx c) s = .next (settle c 1 (
      if k.pl = 0 then .fault t (exc 0x02 1)
      else if k.pl < fld sv.est 1 0 then .fault t (exc 0x1A 1)
      else if topLevel k.pl < fld sv.est 10 8 then .fault t (exc 0x1A 2)
      else .stay (represent (completeAt (t.setCore c (k.returned sv.est)) c sv.epc) (coreNum c)))) :=
    congrArg Host.Outcome.next (runInstr_of_issues h _)
  rw [run]
  refine ⟨fun h0 => ?user, fun h0 hpl => ?above, fun h0 hpl heml => ?masked, fun h0 hpl heml => ⟨_, rfl, ?returns⟩⟩
  case user =>
    rw [if_pos h0]
    rfl
  case above =>
    rw [if_neg h0, if_pos hpl]
    rfl
  case masked =>
    rw [if_neg h0, if_neg (Nat.not_lt.2 hpl), if_pos heml]
    rfl
  case returns =>
    rw [if_neg h0, if_neg (Nat.not_lt.2 hpl), if_neg (Nat.not_lt.2 heml), settle]
    obtain ⟨pr, on, ts, hr⟩ := represent_coreNum (completeAt (t.setCore c (k.returned sv.est)) c sv.epc) c
    rw [hr, core_setCore_same, core_completeAt, core_setCore_same]
    exact ⟨rfl, fld_returnStatus_pl .., fld_returnStatus_eml .., fld_returnStatus_iml ..,
      bit_returnStatus_gx k.pl _ _ (pl_le k), bit_returnStatus_vm .., returnStatus_within .., rfl, rfl, rfl⟩

/-! ## Calls, RAISE, undefined encodings and machine checks (R276 to R281) -/

/-- A call completes first and then raises its class at the PC it has reached (R280). -/
theorem callOut_of_issues {s t : State} {c : CoreId} {d : Shape} (h : Issues s c d t) (cls : Nat) (code : BitVec 12) :
    callOut s c d cls code = raiseAt (completeInstr t c 1) c (exc cls code.toNat) ((completeInstr t c 1).core c).pc :=
  runInstr_of_issues h _

/-- RAISE names its class in bits 5:0 and its detail in bits 21:6 of ga (R281). -/
theorem exec_raise_eq (s : State) (c : CoreId) (ga gb : Reg) : exec (.raise c ga gb) s =
    .next (runInstr s c { plain .long with
        bad := if (classLevel (((s.core c).reg ga).toNat % 64)).isSome then none else some 1, level := 3 } fun t =>
      .fault t (exc (((s.core c).reg ga).toNat % 64) (((s.core c).reg ga).toNat / 64 % 65536) ((t.core c).reg gb))) := by
  have hd : fld ((s.core c).reg ga) 21 6 = ((s.core c).reg ga).toNat / 64 % 65536 := by
    rw [fld, Nat.shiftRight_eq_div_pow]
    rfl
  rw [← hd]
  rfl

theorem exec_undefinedEncoding_of_rejects {s t : State} {c : CoreId} {f : Form} {e : Exc}
    (h : Rejects s c { plain f with bad := some 1 } t e) (w : BitVec 48) :
    exec (.undefinedEncoding c f w) s = .next (faultAt t c e) :=
  congrArg Host.Outcome.next (runInstr_of_rejects h _)

theorem exec_machineCheck_core (s : State) (c : CoreId) : exec (.machineCheck (.core c)) s =
    if (s.core c).run = .running && coreClocked s c then .next (faultAt s c (exc 0x3E 0)) else .next s := rfl

/-- Settles O42: each instruction by its checks in the order of R276, RAISE by whether R277 lists its class. That HCALL,
MCALL and BRK raise at the PC that the loop end test gives is deduced (log 109). -/
theorem systemCalls : Obligations.SystemCalls := by
  unfold Obligations.SystemCalls
  intro s t c code
  refine ⟨fun h => ?sysc, ⟨fun h => ⟨?hcall, ?mcall⟩, fun h => ?brk⟩, fun ga gb => ?raise,
    fun f w => ⟨fun s t e h => exec_undefinedEncoding_of_rejects h w,
      fun s t h => exec_undefinedEncoding_of_rejects (h.rejects_bad 1) w⟩, fun hr hk => ?checked, fun hn => ?unchecked⟩
  case sysc => exact congrArg Host.Outcome.next (runInstr_of_issues h _)
  case hcall => exact congrArg Host.Outcome.next (callOut_of_issues h 0x09 code)
  case mcall => exact congrArg Host.Outcome.next (callOut_of_issues h 0x0A code)
  case brk => exact congrArg Host.Outcome.next (callOut_of_issues h 0x06 code)
  case raise =>
    intro a h
    rw [exec_raise_eq]
    refine ⟨fun hl => ?listed, fun hl => ?unlisted⟩
    case listed =>
      rw [if_pos (Option.isSome_iff_ne_none.2 hl)]
      exact congrArg Host.Outcome.next (runInstr_of_issues h _)
    case unlisted =>
      rw [if_neg (by simpa using hl)]
      exact congrArg Host.Outcome.next (runInstr_of_rejects (h.rejects_bad 1) _)
  case checked =>
    rw [exec_machineCheck_core, if_pos (by simp [hr, hk])]
  case unchecked =>
    rw [exec_machineCheck_core, if_neg (by rcases hn with hn | hn <;> simp [hn])]

end Sys2Proof.Machine
end

section
/-! Time and the registers of the interrupt controller, the capture units and the watchdogs (chapter 8): when the time base
and domain 57 count, and what a register command of these blocks does. -/

namespace Sys2Proof.Machine

open Sys2Proof

/-! ## Time (R49, R58, R315) -/

/-- The time base counts but before the power-up reset has ended, with domain 56 held, and in Quiescent. -/
theorem timeCounts_iff (s : State) : s.timeCounts = true ↔
    s.sys.mode ≠ .off ∧ s.sys.mode ≠ .inReset 1 ∧ 56 ∉ s.sys.held ∧ s.power.quiescent = false := by
  unfold State.timeCounts
  split
  next hoff => simp [hoff]
  next hreset => simp [hreset]
  next hoff hreset =>
    have hmode : s.sys.mode ≠ .off ∧ s.sys.mode ≠ .inReset 1 := ⟨hoff, hreset⟩
    simp [hmode]

/-- Domain 57 counts while the module is powered and its reference runs. -/
theorem refCounts_iff (s : State) : s.refCounts = true ↔ s.sys.mode ≠ .off ∧ s.sys.mode ≠ .refLost := by
  unfold State.refCounts
  split
  next hoff => simp [hoff]
  next hlost => simp [hlost]
  next hoff hlost => exact iff_of_true rfl ⟨hoff, hlost⟩

/-- With nothing waiting the step is the passing of a nanosecond. -/
theorem step_of_pending_nil {s : State} (h : s.pending = []) : step s = .next s.idle := by
  rw [step, h]

/-- Settles O2: the step is State.idle. That a step with an empty queue is a nanosecond is log 2, and that the time base
counts on while the reference is lost is log 141: choices of the model. -/
theorem emptyQueueIdles : Obligations.EmptyQueueIdles := by
  unfold Obligations.EmptyQueueIdles
  intro s h
  exact ⟨step_of_pending_nil h, timeCounts_iff s, refCounts_iff s⟩

/-! ## Writes of the two blocks (R764) -/

theorem inAperture_of_lt {a : Nat} (h : a < 0x808000000) : inAperture a = false := by
  rw [inAperture, decide_eq_false (Nat.not_le.2 h), Bool.false_and]

section
variable {s : State} {rq : Requester} {a o : Nat} (h : Admitted s rq a) (v : Word)
include h

theorem writeCmd_interrupt (ha : a = regBase + 0x20000 + o) (ho : o < 0x10000) :
    writeCmd s rq a v = intWrite (bridged s) rq o a v := by
  rw [writeCmd_admitted v h (inAperture_of_lt (by rw [ha, regBase]; omega)), regStore_int _ _ _ _ _ ha ho]

theorem writeCmd_time (ha : a = regBase + 0x30000 + o) (ho : o < 0x10000) :
    writeCmd s rq a v = timeWrite (bridged s) rq o a v := by
  rw [writeCmd_admitted v h (inAperture_of_lt (by rw [ha, regBase]; omega)), regStore_time _ _ _ _ _ ha ho]

end

theorem exec_registerWrite_space {a : Nat} (hlo : regBase ≤ a) (hhi : a < 0x810000000) (s : State) (rq : Requester)
    (v : Word) : exec (.registerWrite rq a v) s = .next (writeCmd s rq a v) :=
  if_pos (by simp [hlo, hhi])

theorem exec_registerWrite_refused {s : State} {rq : Requester} {a cause w : Nat} (v : Word) (hc : canAccess s rq = true)
    (hlo : regBase ≤ a) (hhi : a < 0x810000000) (hap : inAperture a = false)
    (hv : verdict (bridged s) rq a true = .bad cause w) :
    exec (.registerWrite rq a v) s = .next (rqViolation (bridged s) cause rq true w) := by
  rw [exec_registerWrite_space hlo hhi, writeCmd_refused v hc hap hv]

/-- A register of writable bits only takes what is written (R10). -/
theorem merge_allBits (rd wr : Nat) (reset old v : Word) : RegInfo.merge ⟨rd, wr, allBits, 0, 0, reset⟩ old v = v := by
  have hones : allBits = BitVec.allOnes 48 := rfl
  have hzero : v &&& 0 = 0 := BitVec.and_zero
  rw [RegInfo.merge, hones, BitVec.not_allOnes, BitVec.and_zero, BitVec.zero_or, BitVec.and_allOnes, hzero]
  exact BitVec.or_zero.trans BitVec.and_allOnes

/-- Every bit of a compare time is writable (R320). -/
theorem plainWrite_tmrCmp (s : State) (n : Fin 8) (v : Word) : plainWrite s (aTmrCmp n) v = regSet s (aTmrCmp n) v := by
  have hi : regInfo (aTmrCmp n) = some ⟨1, 1, allBits, 0, 0, 0⟩ := by
    revert n; decide
  simp only [plainWrite, hi, merge_allBits]

section
variable {s : State} {rq : Requester} (v : Word)

theorem exec_tmrCmp_admitted {n : Fin 8} (h : Admitted s rq (aTmrCmp n)) :
    exec (.registerWrite rq (aTmrCmp n) v) s = .next (regSet (bridged s) (aTmrCmp n) v) := by
  have ha : aTmrCmp n = regBase + 0x30000 + (0x10 + n.val) := by simp only [aTmrCmp, regBase]; omega
  rw [exec_registerWrite_space (by omega) (by rw [ha, regBase]; omega), writeCmd_time h v ha (by omega), timeWrite,
    if_neg (by simp; omega), if_neg (by omega), plainWrite_tmrCmp]

theorem exec_intSwi_admitted (h : Admitted s rq aIntSwi) : exec (.intSwi rq v) s = .next (swiWrite (bridged s) v) :=
  congrArg Host.Outcome.next (writeCmd_interrupt h v (o := 0x805) rfl (by decide))

theorem exec_intEoi_admitted (h : Admitted s rq aIntEoi) : exec (.intEoi rq v) s = .next (eoiWrite (bridged s) rq v) :=
  congrArg Host.Outcome.next (writeCmd_interrupt h v (o := 0x800) rfl (by decide))

theorem exec_intSrcStateWrite_admitted {n : Fin 320} (h : Admitted s rq (aSrcState n)) :
    exec (.intSrcStateWrite rq n v) s = .next (srcStateWrite (bridged s) n v) := by
  refine congrArg Host.Outcome.next ?_
  rw [writeCmd_interrupt h v (o := 0x200 + n) (by simp only [aSrcState, regBase]; omega) (by omega), intWrite,
    if_neg (by omega), if_pos (by simp; omega), Nat.add_sub_cancel_left]

theorem exec_intSrcRouteWrite_admitted {n : Fin 320} (h : Admitted s rq (aRoute n)) :
    exec (.intSrcRouteWrite rq n v) s = .next (routeWrite (bridged s) rq n v) := by
  refine congrArg Host.Outcome.next ?_
  rw [writeCmd_interrupt h v (o := n) (by simp only [aRoute, regBase]) (by omega), intWrite, if_pos (by omega)]

theorem exec_tsCapPop_admitted {n : Fin 4} (h : Admitted s rq (aTsPop n)) :
    exec (.tsCapPop rq n v) s = .next (popWrite (bridged s) n v) := by
  refine congrArg Host.Outcome.next ?_
  rw [writeCmd_time h v (o := 0x28 + n) (by simp only [aTsPop, regBase]; omega) (by omega), timeWrite,
    if_pos (by simp; omega), Nat.add_sub_cancel_left]

theorem exec_wdogCtlWrite_admitted {n : Fin 36} (h : Admitted s rq (aWdogCtl n)) :
    exec (.wdogCtlWrite rq n v) s = .next (wdogCtlWrite (bridged s) n v) := by
  have hn : (0x100 + 2 * n.val - 0x100) / 2 = n := by omega
  refine congrArg Host.Outcome.next ?_
  rw [writeCmd_time h v (o := 0x100 + 2 * n) (by simp only [aWdogCtl, regBase]; omega) (by omega), timeWrite,
    if_neg (by simp; omega), if_pos (by omega), if_pos (by omega), hn]

theorem exec_wdogKick_admitted {n : Fin 36} (h : Admitted s rq (aWdogKick n)) :
    exec (.wdogKick rq n v) s = .next (kickWrite (bridged s) rq n v) := by
  have hn : (0x101 + 2 * n.val - 0x100) / 2 = n := by omega
  refine congrArg Host.Outcome.next ?_
  rw [writeCmd_time h v (o := 0x101 + 2 * n) (by simp only [aWdogKick, regBase]; omega) (by omega), timeWrite,
    if_neg (by simp; omega), if_pos (by omega), if_neg (by omega), hn]

end

/-! ## The time base (R316) -/

/-- A read of TB_LO returns TBL and latches TBH for a core that reads. -/
theorem exec_tbLoRead_admitted {s : State} {rq : Requester} (hc : canAccess s rq = true)
    (hv : verdict (bridged s) rq aTbLo false = .ok) : ∃ u, exec (.tbLoRead rq) s = .next u ∧ u.readOut = s.tbl ∧
      ∀ c, rq = .core c → (u.core c).tbhLatch = s.tbh := by
  have hread : regValue (bridged s) rq aTbLo = readTbLo (bridged s) rq := rfl
  refine ⟨_, congrArg Host.Outcome.next (readCmd_admitted hc hv), ?_, fun c hq => ?_⟩
  · rw [hread]
    cases rq <;> rfl
  · subst hq
    rw [hread]
    exact congrArg Core.tbhLatch (core_modCore_same (bridged s) c fun k => { k with tbhLatch := s.tbh })

/-! ## INT_EOI (R303) -/

/-- The state registers of the sources are no counters. -/
theorem isPmc_srcState (n : Fin 320) : isPmc (aSrcState n) = false := by
  have h : aSrcState n < 0x800130100 := by rw [aSrcState]; omega
  rw [isPmc, decide_eq_false (Nat.not_le.2 h), Bool.false_and]

theorem regFld_bridged_regs (s : State) (a hi lo v : Nat) (h : isPmc a = false) :
    (regFld (bridged s) a hi lo v).regs = (regFld s a hi lo v).regs := by
  rw [regFld, regFld, regGet_bridged s a h]
  simp [regSet, h, bridged]

section
variable (s : State) (rq : Requester) {v : Word}

theorem eoiWrite_none (h : fld v 8 0 = 511) : eoiWrite s rq v = s := by
  simp [eoiWrite, h]

/-- A number that is no source is a violation. -/
theorem eoiWrite_no_source (hlo : 320 ≤ fld v 8 0) (hhi : fld v 8 0 < 511) :
    eoiWrite s rq v = rqViolation s 9 rq true aIntEoi := by
  have h63 : fld v 8 0 ≠ 63 := by omega
  simp only [eoiWrite, hhi.ne, h63, Nat.not_lt.2 hlo]
  cases rqCore rq <;> rfl

theorem eoiWrite_active {n : Nat} (hv : fld v 8 0 = n) (hn : n < 320) (h63 : n ≠ 63) (ha : srcAct s n = true)
    (hc : regF s (aSrcState n) 33 28 = rqNum rq) : eoiWrite s rq v = endActive s (rqNum rq) n := by
  have h511 : n ≠ 511 := by omega
  simp only [eoiWrite, hv, h511, h63, hn, ha, hc]
  cases rqCore rq <;> rfl

theorem endActive_eq (n : Nat) : ∃ u, endActive s (rqNum rq) n = represent u (regF u (aRoute n) 14 9) ∧
    u.regs = (regFld s (aSrcState n) 1 1 0).regs ∧ ∀ c, coreNum c = rqNum rq → n ∉ (u.core c).active := by
  refine ⟨_, rfl, ?_, fun c hc => ?_⟩
  · split <;> rfl
  · rw [← hc, coreOfAgent_coreNum]
    simp

end

/-! ## INT_SRC_STATE and INT_SRC_ROUTE (R294, R298) -/

theorem srcStateWrite_of_edge (s : State) {n : Nat} (h : isLevelSource n = false) (v : Word) :
    srcStateWrite s n v =
      (let u := if bit v 9 then regFld s (aSrcState n) 47 40 0 else s
       let u := if bit v 0 then regFld u (aSrcState n) 0 0 0 else u
       represent u (regF u (aRoute n) 14 9)) := by
  simp [srcStateWrite, h]

section
variable {s : State} {rq : Requester} {n : Nat} {v : Word}

/-- A locked source and a target that is not enabled are refused. -/
theorem routeWrite_locked (h : bit (regGet s (aRoute n)) 8 = true ∨ coreEnabled s (fld v 14 9) = false) :
    routeWrite s rq n v = rqViolation s 6 rq true (aRoute n) :=
  if_pos (by rcases h with h | h <;> simp [h])

variable (hl : bit (regGet s (aRoute n)) 8 = false) (ht : coreEnabled s (fld v 14 9) = true)
include hl ht

theorem routeWrite_of_admitted : routeWrite s rq n v =
    if fld v 2 1 = 0 || (bit v 35 && (16 ≤ fld v 14 9 || fld v 2 1 ≠ 1)) then rqViolation s 9 rq true (aRoute n)
    else represent (represent (plainWrite s (aRoute n) v) (fld (regGet s (aRoute n)) 14 9)) (fld v 14 9) :=
  if_neg (by simp [hl, ht])

theorem routeWrite_level0 (h : fld v 2 1 = 0) : routeWrite s rq n v = rqViolation s 9 rq true (aRoute n) := by
  rw [routeWrite_of_admitted hl ht, if_pos (by simp [h])]

theorem routeWrite_physical (h : fld v 2 1 ≠ 0) (hv : bit v 35 = false) : routeWrite s rq n v =
    represent (represent (plainWrite s (aRoute n) v) (fld (regGet s (aRoute n)) 14 9)) (fld v 14 9) := by
  rw [routeWrite_of_admitted hl ht, if_neg (by simp [h, hv])]

end

/-! ## TS_CAP_POP (R319) -/

@[simp] theorem represent_timers (s : State) (t : Nat) : (represent s t).timers = s.timers := by
  unfold represent; split <;> rfl

@[simp] theorem setLine_timers (s : State) (n : Nat) (on : Bool) : (setLine s n on).timers = s.timers := by
  unfold setLine
  split
  · rfl
  · split
    · rw [represent_timers, regFld_timers, regFld_timers]
      split <;> simp
    · simp

theorem popWrite_timers (s : State) (n : Nat) {v : Word} (h : bit v 0 = true) : (popWrite s n v).timers =
    { s.timers with capture := s.timers.capture.set n (s.timers.capture.getD n []).tail } := by
  rw [popWrite, if_pos h, setFifo, setLine_timers]
  rfl

/-! ## Watchdogs (R322 to R326) -/

/-- The restart of a count reads the state's watchdogs and domain 57's count alone. -/
theorem restartWdog_of_timers {u s : State} (ht : u.timers = s.timers) (hr : u.ref = s.ref) (n : Nat) :
    restartWdog u n =
      (let t := setWdogStart u n s.ref
       if (sget s.timers.wdogPaused n).isSome then
         { t with timers := { t.timers with wdogPaused := sins s.timers.wdogPaused n s.ref } } else t) := by
  rw [← ht, ← hr]
  rfl

section
variable {s : State} {n : Nat} {v : Word}

/-- A watchdog that neither is nor gets locked starts with its new times, if they are legal. -/
theorem wdogCtlWrite_starts (hl : bit (regGet s (aWdogCtl n)) 46 = false) (he : bit (regGet s (aWdogCtl n)) 47 = false)
    (hk : bit v 46 = false) (hv : bit v 47 = true)
    (h1 : 1 ≤ fld (setFld (regGet s (aWdogCtl n)) 31 0 (fld v 31 0)) 15 0)
    (h2 : fld (setFld (regGet s (aWdogCtl n)) 31 0 (fld v 31 0)) 15 0 ≤ 60000) : wdogCtlWrite s n v =
      restartWdog (regSet s (aWdogCtl n) (setBit (setFld (regGet s (aWdogCtl n)) 31 0 (fld v 31 0)) 47 true)) n := by
  simp [wdogCtlWrite, hl, he, hk, hv, h1, h2]

theorem wdogCtlWrite_locked (hl : bit (regGet s (aWdogCtl n)) 46 = true) (he : bit (regGet s (aWdogCtl n)) 47 = true)
    (hk : bit v 46 = false) : wdogCtlWrite s n v = regSet s (aWdogCtl n) (regGet s (aWdogCtl n)) := by
  simp [wdogCtlWrite, hl, he, hk]

variable {rq : Requester}

theorem kickWrite_stranger (h : kickAdmits s rq n = false) : kickWrite s rq n v = rqViolation s 1 rq true (aWdogKick n) :=
  if_pos (by simp [h])

theorem kickWrite_of_admits (h : kickAdmits s rq n = true) : kickWrite s rq n v =
    if v ≠ 0xA5C3 then rqViolation s 9 rq true (aWdogKick n)
    else if regF s (aWdogCtl n) 33 32 < 2 then restartWdog (regFld s (aWdogCtl n) 33 32 0) n else s :=
  if_neg (by simp [h])

end

/-- Settles O49: each register command by what the write of its register does. -/
theorem controllerCommands : Obligations.ControllerCommands := by
  unfold Obligations.ControllerCommands
  intro s rq v afresh
  have restarts (u : State) (n : Nat) (ht : u.timers = (bridged s).timers) (hr : u.ref = (bridged s).ref) :
      restartWdog u n = afresh u n := restartWdog_of_timers ht hr n
  refine ⟨fun _ _ _ => exec_registerWrite_refused v, fun _ => exec_tmrCmp_admitted v, exec_tbLoRead_admitted,
    exec_intSwi_admitted v, fun h hv => ?noSource, fun h hlo hhi => ?badSource,
    fun n h63 h hv hact hcore => ?ended, fun n h hedge => ?state,
    fun n h => ⟨fun hr => ?locked, fun hl ht h0 => ?level0, fun hl ht h0 hv => ?routed⟩, fun n h hv => ?pop,
    fun n h => ⟨fun hl he hk hv h1 h2 => ?starts, fun hl he hk => ?keeps⟩,
    fun n h => ⟨fun hk => ?stranger, fun hk hv => ?badWord, fun hk hv h2 => ?kicked, fun hk hv h2 => ?late⟩⟩
  case noSource => rw [exec_intEoi_admitted v h, eoiWrite_none _ _ hv]
  case badSource => rw [exec_intEoi_admitted v h, eoiWrite_no_source _ _ hlo hhi]
  case ended =>
    have hp : isPmc (aSrcState n) = false := isPmc_srcState n
    obtain ⟨u, hu, hregs, hgone⟩ := endActive_eq (bridged s) rq n
    refine ⟨u, ?_, hregs.trans (regFld_bridged_regs s _ _ _ _ hp), hgone⟩
    rw [exec_intEoi_admitted v h, eoiWrite_active _ _ hv n.isLt h63 (by rwa [srcAct, regB, regGet_bridged _ _ hp])
      (by rwa [regF, regGet_bridged _ _ hp]), hu]
  case state => exact (exec_intSrcStateWrite_admitted v h).trans (congrArg _ (srcStateWrite_of_edge _ hedge v))
  case locked => rw [exec_intSrcRouteWrite_admitted v h, routeWrite_locked hr]
  case level0 => rw [exec_intSrcRouteWrite_admitted v h, routeWrite_level0 hl ht h0]
  case routed => rw [exec_intSrcRouteWrite_admitted v h, routeWrite_physical hl ht h0 hv]
  case pop => exact ⟨_, exec_tsCapPop_admitted v h, popWrite_timers (bridged s) n hv⟩
  case starts =>
    rw [exec_wdogCtlWrite_admitted v h, wdogCtlWrite_starts hl he hk hv h1 h2,
      restarts _ _ (regSet_timers ..) (regSet_ref ..)]
  case keeps => rw [exec_wdogCtlWrite_admitted v h, wdogCtlWrite_locked hl he hk]
  case stranger => rw [exec_wdogKick_admitted v h, kickWrite_stranger hk]
  case badWord => rw [exec_wdogKick_admitted v h, kickWrite_of_admits hk, if_pos hv]
  case kicked =>
    rw [exec_wdogKick_admitted v h, kickWrite_of_admits hk, if_neg (not_not.2 hv), if_pos h2,
      restarts _ _ (regFld_timers ..) (regFld_ref ..)]
  case late =>
    rw [exec_wdogKick_admitted v h, kickWrite_of_admits hk, if_neg (not_not.2 hv), if_neg (Nat.not_lt.2 h2)]

end Sys2Proof.Machine
end

section
/-! The Medulla core's lockstep mismatch while a reset for an earlier module fault is due (R682, R738, R741). -/

namespace Sys2Proof.Machine

open Sys2Proof

/-- A lockstep mismatch of the Medulla core that acts is its checkstop, module fault 5 (R272, R682). -/
theorem exec_medullaLockstepMismatch_of_acts {s : State} (h : medullaActs s = true) :
    exec .medullaLockstepMismatch s =
      .next (moduleFault (s.modCore .medulla fun k => { k with run := .checkstopped, waiting := none }) 5) :=
  if_pos h

/-- The module after release, its Medulla core running. -/
def releasedModule : State :=
  let s := State.reset.modCore .medulla fun k => { k with run := .running }
  { s with sys := { s.sys with mode := .running } }

/-- Module fault 1 has come: its reset, of cause 6, is due, and the Medulla core runs until it comes. -/
def resetDue : State := moduleFault releasedModule 1

theorem resetDue_acts : medullaActs resetDue = true ∧ resetDue.sys.mode = .inReset 6 := by decide +kernel

/-- Module fault 5 leaves the reset of the lower-numbered fault in force (R741). -/
theorem resetDue_keeps_mode : (moduleFault (resetDue.modCore .medulla fun k =>
    { k with run := .checkstopped, waiting := none }) 5).sys.mode = .inReset 6 := by
  decide +kernel

/-- Refutes O52: while the reset for module fault 1 is due, a lockstep mismatch of the Medulla core leaves that reset, of
cause 6, in force, since the lower-numbered fault acts (R741); the statement has every mismatch outside a hold reset the
module with cause 5. -/
theorem not_controllerEvents : ¬ Obligations.ControllerEvents := by
  unfold Obligations.ControllerEvents
  intro h
  obtain ⟨hacts, hmode⟩ := resetDue_acts
  obtain ⟨-, -, -, -, -, -, -, -, -, -, -, hfault, -⟩ := h resetDue
  obtain ⟨-, t, ht, -, -, hreset⟩ := hfault hacts
  rw [exec_medullaLockstepMismatch_of_acts hacts, Host.Outcome.next.injEq] at ht
  have hnew : t.sys.mode = .inReset 5 := hreset fun f hf => by
    rw [hmode] at hf
    cases hf
  rw [← ht, resetDue_keeps_mode] at hnew
  exact absurd hnew (by decide)

end Sys2Proof.Machine
end

section
/-! TLB maintenance (R358 to R363): what a TLBI drops from its core and queues, and what a receiver of a broadcast drops and
acknowledges. -/

namespace Sys2Proof.Machine

open Sys2Proof

/-! ## What completion leaves (R96) -/

theorem CountsOnly.sys {s t : State} (h : CountsOnly s t) : t.sys = s.sys := by
  rw [CountsOnly] at h
  rw [← h]

@[simp] theorem completeInstr_sys (s : State) (c : CoreId) (len : Nat) : (completeInstr s c len).sys = s.sys := by
  obtain ⟨p, h⟩ := countsOnly_completeInstr s c len
  rw [h.sys, modCore_sys]

/-- Completion translates nothing: the TLBs of every core stand. -/
@[simp] theorem completeInstr_tlb (s : State) (c d : CoreId) (len : Nat) :
    ((completeInstr s c len).core d).tlb = (s.core d).tlb := by
  obtain ⟨p, h⟩ := countsOnly_completeInstr s c len
  rw [h.core]
  by_cases hd : d = c
  · subst hd
    obtain ⟨pc, slot, x, lctl, hk⟩ := advanced_frame ((s.core d).committed p) d len
    rw [core_modCore_same, hk, Core.committed]
  · rw [core_modCore_other s _ hd]

/-! ## The entries of a core that an operation covers (R358 to R360) -/

section
variable (k : Core) (p : TlbEntry → Bool) (e : TlbEntry)

theorem mem_tlbDrop_l2 : e ∈ (k.tlbDrop p).tlb.l2 ↔ e ∈ k.tlb.l2 ∧ p e = false := by
  simp [Core.tlbDrop]

theorem mem_tlbDrop_itlb : e ∈ (k.tlbDrop p).tlb.itlb ↔ e ∈ k.tlb.itlb ∧ p e = false := by
  simp [Core.tlbDrop]

theorem mem_tlbDrop_dtlb : e ∈ (k.tlbDrop p).tlb.dtlb ↔ e ∈ k.tlb.dtlb ∧ p e = false := by
  simp [Core.tlbDrop]

end

/-- TLBI.ALL covers every entry of every context. -/
theorem covers_all (b : Bool) (ctx : Option Nat) (asid va : Nat) (e : TlbEntry) :
    (⟨b, 4, ctx, asid, va⟩ : TlbOp).covers e = true := rfl

/-! ## The issuing core (R361, R362) -/

theorem coreNum_of_coreOfAgent {n : Nat} {c : CoreId} (h : coreOfAgent n = some c) : coreNum c = n := by
  unfold coreOfAgent at h
  split at h
  next happ =>
    cases h
    rfl
  next happ =>
    split at h
    next hfrond =>
      cases h
      exact Nat.add_sub_of_le (Nat.not_lt.1 happ)
    next hfrond =>
      split at h
      next hm =>
        cases h
        exact hm.symm
      next hm => cases h

/-- The note for the Dormant cores is theirs alone: neither the issuing core nor the queued broadcasts change. -/
theorem noteDormant_frame (s : State) (c : CoreId) :
    (noteDormant s (coreNum c)).core c = s.core c ∧ (noteDormant s (coreNum c)).sys = s.sys := by
  refine List.foldlRecOn (motive := fun u : State => u.core c = s.core c ∧ u.sys = s.sys) (upto 16) _ ⟨rfl, rfl⟩ ?_
  intro u hu n _
  split
  next hn =>
    have hne : n ≠ coreNum c := of_decide_eq_true (Bool.and_eq_true_iff.1 hn).1
    split
    next d hd =>
      have hdc : c ≠ d := fun h => hne (by rw [h, coreNum_of_coreOfAgent hd])
      rw [core_modCore_other u _ hdc, modCore_sys]
      exact hu
    next => exact hu
  next => exact hu

theorem actTlbi_core (s : State) (c : CoreId) (o : TlbOp) : (actTlbi s c o).core c = (s.core c).tlbDrop o.covers := by
  unfold actTlbi
  split
  · exact (noteDormant_frame _ c).1.trans (core_modCore_same s c _)
  · exact core_modCore_same s c _

theorem actTlbi_tlbOps (s : State) (c : CoreId) (o : TlbOp) :
    (actTlbi s c o).sys.tlbOps.map (·.2.1) = s.sys.tlbOps.map (·.2.1) ++ if o.bcast then [o] else [] := by
  unfold actTlbi
  split
  · simp [(noteDormant_frame (s.modCore c fun k => k.tlbDrop o.covers) c).2]
  · simp

/-- With an empty store buffer a TLBI acts at once and completes (R361). -/
theorem tlbiInstr_of_issues {s t : State} {c : CoreId} {level : Nat}
    (h : Issues s c { plain .long with held := fun p => p = .A, level := level } t)
    (hsb : (t.core c).storeBuffer = []) (code : Nat) (b : Bool) (va gb : Core → Word) :
    tlbiInstr s c level code b va gb = completeInstr (actTlbi t c ⟨b, code, tlbiCtx (t.core c) (gb (t.core c)),
      fld (gb (t.core c)) 15 0, (va (t.core c)).toNat⟩) c 2 := by
  rw [tlbiInstr, runInstr_of_issues h]
  simp only [hsb, List.isEmpty_nil, if_true]
  rfl

theorem exec_tlbsync_of_ready {s t : State} {c : CoreId}
    (h : Issues s c { plain .long with held := fun p => p = .A, level := 1 } t) (hr : syncReady t c = true) :
    exec (.tlbsync c) s = .next (completeInstr t c 2) := by
  refine congrArg Host.Outcome.next ((runInstr_of_issues h _).trans ?_)
  rw [if_pos hr]
  rfl

/-! ## A receiver of a broadcast (R362) -/

@[simp] theorem retrySync_sys (s : State) (n : Nat) : (retrySync s n).sys = s.sys := by
  unfold retrySync
  split
  · split
    · exact completeInstr_sys ..
    · rfl
  · rfl

@[simp] theorem retrySync_tlb (s : State) (n : Nat) (d : CoreId) :
    ((retrySync s n).core d).tlb = (s.core d).tlb := by
  unfold retrySync
  split
  · split
    · exact completeInstr_tlb ..
    · rfl
  · rfl

/-- A core takes the one broadcast that is queued: it drops the entries covered and is struck from the receivers. -/
theorem receiveTlbi_of_queued {s : State} {i : Nat} {j : Fin 16} {o : TlbOp} {l : List Nat}
    (hops : s.sys.tlbOps = [(i, o, l)]) (hj : j.val ∈ l) :
    ((receiveTlbi s i j).core (.app j)).tlb = ((s.core (.app j)).tlbDrop o.covers).tlb ∧
    (receiveTlbi s i j).sys.tlbOps = [(i, o, l.filter (· ≠ j.val))].filter fun e => !e.2.2.isEmpty := by
  have hfind : (s.sys.tlbOps.findIdx? fun e => e.1 = i && e.2.2.contains j.val) = some 0 := by
    simp [hops, hj]
  have hhead : s.sys.tlbOps[0]? = some (i, o, l) := by rw [hops]; rfl
  have hcore : coreOfAgent j = some (.app j) := coreOfAgent_coreNum (.app j)
  have h16 : j.val ≠ 16 := by omega
  simp only [receiveTlbi, hfind, hhead, hcore, if_neg h16]
  constructor
  · rw [retrySync_tlb, core_modCore_same]
    rfl
  · rw [retrySync_sys, modCore_sys, hops]
    rfl

/-- A core with no access on its way takes the broadcast at once. -/
theorem exec_tlbBroadcastReceive_of_idle {s : State} {j : Fin 16} (hsb : (s.core (.app j)).storeBuffer = [])
    (hw : (s.core (.app j)).waiting = none) (i : Fin 16) :
    exec (.tlbBroadcastReceive i ⟨j.val, by omega⟩) s = .next (receiveTlbi s i j) := by
  have hcore : coreOfAgent j = some (.app j) := coreOfAgent_coreNum (.app j)
  have hready : accessesIssued (s.core (.app j)) = false := by simp [accessesIssued, hsb, hw]
  refine if_pos ?_
  simp only [hcore, hready, Bool.not_false]

/-- Settles O47: each TLBI by what its operation drops and queues, TLBSYNC by its two conditions, and the receiver by
the one broadcast that is queued. That a TLBSYNC that waits is looked at again as a receiver acknowledges is deduced (log
157). -/
theorem tlbMaintenance : Obligations.TlbMaintenance := by
  unfold Obligations.TlbMaintenance
  intro s t c b ga gb k ctx op drops
  have acts (o : TlbOp) (ho : o.bcast = b) : drops o (.next (completeInstr (actTlbi t c o) c 2)) := by
    refine ⟨_, rfl, fun e => ?_, fun e => ?_, fun e => ?_, ?_⟩
    · rw [completeInstr_tlb, actTlbi_core, mem_tlbDrop_l2]
    · rw [completeInstr_tlb, actTlbi_core, mem_tlbDrop_itlb]
    · rw [completeInstr_tlb, actTlbi_core, mem_tlbDrop_dtlb]
    · rw [completeInstr_sys, actTlbi_tlbOps, ho]
  refine ⟨fun hsb h => ?level1, fun hsb h => ?all, fun i j o l _ hops hj hsb hw => ?receive⟩
  case level1 =>
    have issued (code : Nat) (va : Core → Word) :
        drops (op code (va k).toNat) (.next (tlbiInstr s c 1 code b va fun k => k.reg gb)) := by
      rw [tlbiInstr_of_issues h hsb]
      exact acts _ rfl
    exact ⟨issued 0 _, issued 1 _, issued 2 fun _ => 0, issued 3 fun _ => 0, exec_tlbsync_of_ready h⟩
  case all =>
    refine ⟨_, congrArg Host.Outcome.next (tlbiInstr_of_issues h hsb 4 b _ _), ?_⟩
    rw [completeInstr_tlb, actTlbi_core]
    simp [Core.tlbDrop, covers_all]
  case receive =>
    obtain ⟨htlb, hrest⟩ := receiveTlbi_of_queued hops hj
    refine ⟨_, exec_tlbBroadcastReceive_of_idle hsb hw i, fun e => ?_, fun e he => ?_⟩
    · rw [htlb, mem_tlbDrop_l2]
    · rw [hrest] at he
      rw [List.mem_singleton.1 (List.mem_of_mem_filter he)]
      simp

end Sys2Proof.Machine
end

section
/-! Messages of the coherence fabric (R380, R381): what a message that leaves adds to those in flight, and what a channel
delivers. -/

namespace Sys2Proof.Machine

open Sys2Proof

/-! ## Sending (R381) -/

@[simp] theorem lineMoved_coh (s : State) (l : Nat) (twin : Bool) : (lineMoved s l twin).coh = s.coh := rfl

/-- Snoops and answers keep the tag they have; requests and Puts take the next one. -/
def MsgType.keepsTag (t : MsgType) : Bool := t.chan ≠ .req && t.chan ≠ .wb

theorem MsgType.keepsTag_iff (t : MsgType) : t.keepsTag = true ↔ t.chan ≠ .req ∧ t.chan ≠ .wb := by
  simp [MsgType.keepsTag]

theorem send_answer_coh (s : State) {m : Msg} (h : m.type.keepsTag = true) :
    (send s m).coh = { s.coh with net := s.coh.net ++ [m] } := by
  rw [MsgType.keepsTag_iff] at h
  unfold send
  split
  · simp [h]
  · simp [h]

theorem send_request_coh (s : State) {m : Msg} (h : m.type.chan = .req ∨ m.type.chan = .wb) :
    (send s m).coh = { s.coh with
      tag := (s.coh.tag + 1) % 256, net := s.coh.net ++ [{ m with txn := s.coh.tag }] } := by
  unfold send
  split
  · simp [h, drawTag]
  · simp [h, drawTag]

/-- What leaves changes the messages in flight and the next tag alone. -/
theorem send_coh (s : State) (m : Msg) : ∃ tag net, (send s m).coh = { s.coh with tag := tag, net := net } := by
  by_cases h : m.type.chan = .req ∨ m.type.chan = .wb
  · exact ⟨_, _, send_request_coh s h⟩
  · exact ⟨s.coh.tag, _, send_answer_coh s ((MsgType.keepsTag_iff _).2 (not_or.1 h))⟩

@[simp] theorem send_core (s : State) (m : Msg) (c : CoreId) : (send s m).core c = s.core c := by
  unfold send
  split
  · dsimp only
    split <;> rfl
  · dsimp only
    split <;> rfl

@[simp] theorem send_txns (s : State) (m : Msg) : (send s m).coh.txns = s.coh.txns := by
  obtain ⟨_, _, h⟩ := send_coh s m
  rw [h]

@[simp] theorem send_dir (s : State) (m : Msg) : (send s m).coh.dir = s.coh.dir := by
  obtain ⟨_, _, h⟩ := send_coh s m
  rw [h]

@[simp] theorem send_waitq (s : State) (m : Msg) : (send s m).coh.waitq = s.coh.waitq := by
  obtain ⟨_, _, h⟩ := send_coh s m
  rw [h]

/-! ## Delivery (R380) -/

theorem frontIdx_eq_some {s : State} {t : MsgType} {a l i : Nat} (h : frontIdx s t a l = some i) :
    (s.coh.net.findIdx? fun m => sameLane s m (mkMsg t a l)) = some i ∧
      ∃ m, s.coh.net[i]? = some m ∧ m.type = t ∧ m.line = l := by
  unfold frontIdx at h
  split at h
  next j hj =>
    split at h
    next m hm =>
      split at h
      next hfits =>
        simp only [Bool.and_eq_true, decide_eq_true_eq] at hfits
        cases h
        exact ⟨hj, m, hm, hfits.1, hfits.2⟩
      next => cases h
    next => cases h
  next => cases h

/-- A message that is delivered is the first of its lane: it has the type, the agent and the line asked for, and leaves the
others in their order. -/
theorem takeMsg_eq_some {s u : State} {t : MsgType} {a l : Nat} {m : Msg} (h : takeMsg s t a l = some (m, u)) :
    m.type = t ∧ m.agent = a ∧ m.line = l ∧
      ∃ before after, s.coh.net = before ++ m :: after ∧ (∀ x ∈ before, sameLane s x m = false) ∧
        u = { s with coh := { s.coh with net := before ++ after } } := by
  unfold takeMsg at h
  split at h
  next => cases h
  next =>
    split at h
    next i hi =>
      obtain ⟨hfirst, x, hx, htype, hline⟩ := frontIdx_eq_some hi
      rw [hx] at h
      cases h
      obtain ⟨hlt, hsame, hbefore⟩ := List.findIdx?_eq_some_iff_getElem.1 hfirst
      obtain ⟨hlt', hget⟩ := List.getElem?_eq_some_iff.1 hx
      have hlane : sameLane s m (mkMsg t a l) = true := hget ▸ hsame
      have hagent : m.agent = a := by
        simp only [sameLane, Bool.and_eq_true, decide_eq_true_eq] at hlane
        exact hlane.1.2
      have hnet : s.coh.net = s.coh.net.take i ++ m :: s.coh.net.drop (i + 1) := by
        rw [← hget, List.getElem_cons_drop, List.take_append_drop]
      refine ⟨htype, hagent, hline, s.coh.net.take i, s.coh.net.drop (i + 1), hnet, fun y hy => ?_, ?_⟩
      · obtain ⟨j, hj, rfl⟩ := List.mem_take_iff_getElem.1 hy
        have hmine : sameLane s (s.coh.net[j]) m = sameLane s (s.coh.net[j]) (mkMsg t a l) := by
          simp only [sameLane, htype, hagent, hline]
          rfl
        rw [hmine]
        simpa using hbefore j (by omega)
      · rw [List.eraseIdx_eq_take_drop_succ]
    next => cases h

section
variable {s u : State} {t : MsgType} {a l : Nat} {m : Msg} (h : takeMsg s t a l = some (m, u))
include h

theorem takeMsg_agent : m.agent = a := (takeMsg_eq_some h).2.1

theorem takeMsg_line : m.line = l := (takeMsg_eq_some h).2.2.1

end

end Sys2Proof.Machine
end

section
/-! Barriers and cache maintenance (R395, R398, R399): when a barrier completes, and what DC.CLEAN, DC.FLUSH and DC.ZERO of
the Medulla core send. -/

namespace Sys2Proof.Machine

open Sys2Proof

/-! ## Barriers (R395, R398) -/

/-- FENCE, FENCE.IO and FENCE.I do the same. -/
theorem exec_barrier {i : Instr} {c : CoreId} (h : i ∈ [Instr.fence c, .fenceIo c, .fenceI c]) (s : State) :
    exec i s = .next (barrierInstr s c) := by
  simp only [List.mem_cons, List.not_mem_nil, or_false] at h
  obtain rfl | rfl | rfl := h <;> rfl

/-- With an access of an abandoned frame in flight a core issues no barrier (R475). -/
theorem barrierInstr_of_abandoned {s : State} {c : CoreId} (h : (s.core c).abandoned ≠ []) : barrierInstr s c = s := by
  simp [barrierInstr, h]

theorem barrierInstr_of_issues {s t : State} {c : CoreId} (ha : (s.core c).abandoned = [])
    (h : Issues s c (plain .long) t) : barrierInstr s c = settle c 2 (if (t.core c).storeBuffer.isEmpty then .done t
      else .stay (t.modCore c fun k => { k with waiting := some .barrier })) := by
  simp [barrierInstr, ha, runInstr_of_issues h]
  rfl

/-! ## Cache maintenance of the Medulla core (R399) -/

/-- A word of DRAM that is in no complement half is of a cached type: cache maintenance acts on its line. -/
theorem dcBody_of_data {t : State} {va : Word} (hdram : va.toNat < 0x800000000) (hcompl : isCompl t va.toNat = false)
    (htop : va.toNat < memTop t) (s : State) (req : MsgType) (kind : Nat) (op : RefOp) (n : Nat) :
    dcBody s .medulla va req kind op t (n + 1) =
      .stay (startMaintenance t .medulla req (dataLine t (va.toNat / 8))) := by
  have hregion : regionOf t va.toNat = .dram := by simp [regionOf, hdram, hcompl]
  have hway : wayOf t .medulla op va.toNat = .memory := by simp [wayOf, hregion, Nat.not_le.2 htop]
  have hcached : dcIdle (if isTwin t va.toNat then .twinned else .writeBack) = false := by split <;> rfl
  simp [dcBody, translate, hregion, hcached, dcDirty, maintainAt, hway]

/-- The request of a maintenance instruction for a line has left core 32, which waits for its completion. -/
structure MaintenanceSent (t u : State) (req : MsgType) (l : Nat) : Prop where
  waits : (u.core .medulla).waiting = some (.maintenance req l true)
  last : u.coh.net.getLast? = some { mkMsg req 32 l with twin := isTwin t (8 * l), txn := t.coh.tag }

/-- The set of the line is empty: DC.ZERO needs no eviction. -/
theorem room_of_emptySet {t : State} {l need : Nat} (hset : setPeers t 32 l .l1d = []) (hneed : need ≤ 2) (n : Nat) :
    makeRoom t 32 l .l1d need false n = t ∧ hasRoom t 32 l .l1d need = true := by
  have hroom : hasRoom t 32 l .l1d need = true := by simpa [hasRoom, hset, waysUsed, arrayShape] using hneed
  cases n with
  | zero => exact ⟨rfl, hroom⟩
  | succ n => exact ⟨by simp [makeRoom, hset, waysUsed, arrayShape, hneed], hroom⟩

/-- A line that the core does not hold, in an empty set, is asked for at once. -/
theorem maintenanceSent_of_absent {t : State} {l : Nat} {req : MsgType} (hreq : req.chan = .req)
    (habsent : cacheLine t 32 l = none) (hset : setPeers t 32 l .l1d = []) :
    MaintenanceSent t (sendMaintenance t .medulla req l) req l := by
  have hnum : coreNum .medulla = 32 := rfl
  have houter : outerArray 32 false = .l1d := rfl
  have hneed : (if isTwin t (8 * l) then 2 else 1) ≤ 2 := by split <;> decide
  obtain ⟨hkeep, hroom⟩ := room_of_emptySet hset hneed 3
  have hchan (b : Bool) : ({ mkMsg req 32 l with twin := b } : Msg).type.chan = .req ∨
    ({ mkMsg req 32 l with twin := b } : Msg).type.chan = .wb := .inl hreq
  simp only [sendMaintenance, hnum, houter, habsent, hkeep, hroom, if_true]
  split
  · constructor
    · rw [core_modCore_same]
    · rw [modCore_coh, send_request_coh _ (hchan _), List.getLast?_concat]
      rfl
  · constructor
    · rw [core_modCore_same]
    · rw [modCore_coh, send_request_coh _ (hchan _), List.getLast?_concat]

/-- Settles O46: a barrier by its two tests, and each maintenance instruction by the request of the line that the core does
not hold. That fences complete with an empty store buffer, and on a Frond core wait for abandoned accesses, is deduced (log
103, 139); that requests draw their tags from one counter is the model's choice (log 133). -/
theorem barriersAndMaintenance : Obligations.BarriersAndMaintenance := by
  unfold Obligations.BarriersAndMaintenance
  intro s t c
  refine ⟨fun i hi ha => ?abandoned, fun ha h i hi => ⟨fun hsb => ?empty, fun hsb => ?drains⟩, ?maintenance⟩
  case abandoned => rw [exec_barrier hi, barrierInstr_of_abandoned ha]
  case empty =>
    rw [exec_barrier hi, barrierInstr_of_issues ha h, hsb]
    rfl
  case drains =>
    rw [exec_barrier hi, barrierInstr_of_issues ha h, if_neg (by simpa using hsb)]
    rfl
  case maintenance =>
    intro hc h ga a l htop hdram hcompl hsb habsent hset sent
    subst hc
    have sends (req : MsgType) (hreq : req.chan = .req) (kind : Nat) (op : RefOp) :
        sent req (.next (dcInstr s .medulla ga req kind op)) := by
      have hrun : dcInstr s .medulla ga req kind op = sendMaintenance t .medulla req l := by
        rw [dcInstr, runInstr_of_issues h, dcBody_of_data hdram hcompl htop]
        simp [settle, startMaintenance, hsb, l, a]
      obtain ⟨hwaits, hlast⟩ := maintenanceSent_of_absent hreq habsent hset
      exact ⟨_, rfl, hrun ▸ hwaits, hrun ▸ hlast⟩
    exact ⟨sends .Clean rfl 1 .read, sends .Flush rfl 1 .read, sends .RdUZ rfl 2 (.write 0 0xFFFFFFFFFFFF)⟩

end Sys2Proof.Machine
end

section
/-! Snoops, answers, grants and evictions (R378 to R411): what each message does where it arrives. -/

namespace Sys2Proof.Machine

open Sys2Proof

theorem txnFind_congr {s t : State} (h : t.coh.txns = s.coh.txns) (l : Nat) : txnFind t l = txnFind s l := by
  rw [txnFind, txnFind, h]

/-! ## Snoops at an agent (R378, R385) -/

section
variable {s u : State} {ty : MsgType} {ag l : Nat} {m : Msg} (h : takeMsg s ty ag l = some (m, u))
include h

theorem snoopArrives_of_absent (hc : cacheLine u ag l = none) :
    snoopArrives s ty ag l = send u { mkMsg .RspAck ag l with twin := m.twin, txn := m.txn } := by
  simp only [snoopArrives, h, hc]

theorem snoopArrives_of_held {e : CacheLine} (hc : cacheLine u ag l = some e) :
    snoopArrives s ty ag l = send (match (snoopAnswer ty e).2 with
      | some x => modLine u ag l fun _ => x
      | none => dropLine u ag l) { (snoopAnswer ty e).1 with txn := m.txn } := by
  simp only [snoopArrives, h, hc] <;> rfl

end

/-- An agent whose domain a clock fault holds takes no snoop (R59). -/
theorem snoopCmd_of_mute {s : State} {ag : Nat} (h : answersSnoops s ag = false) (ty : MsgType) (l : Nat) :
    snoopCmd s ty ag l = s := by
  simp [snoopCmd, h]

theorem snoopCmd_of_answering {s : State} {ag : Nat} (h : answersSnoops s ag = true) {ty : MsgType}
    (hty : ty ≠ .SnpStash) (l : Nat) : snoopCmd s ty ag l = snoopArrives s ty ag l := by
  simp [snoopCmd, h, hty]

/-- A line in eviction answers every snoop with RspEIF, and stays until its PutAck (R388). -/
theorem snoopAnswer_of_evicting {e : CacheLine} (h : e.st = .MI ∨ e.st = .EI ∨ e.st = .SI) (ty : MsgType) :
    snoopAnswer ty e = ({ mkMsg .RspAck e.agent e.line with twin := e.twin, type := .RspEIF }, some e) := by
  obtain ⟨agent, line, st, twin, inL1, inL1I, data⟩ := e
  obtain rfl | rfl | rfl := h
  · rfl
  · rfl
  · rfl

/-! ## A stash at its target (R392) -/

section
variable {s u : State} {ag l : Nat} {m : Msg} (h : takeMsg s .SnpStash ag l = some (m, u))
  (hempty : ∀ e ∈ u.coh.caches, e.agent ≠ ag)
include hempty

theorem cacheLine_of_empty (l : Nat) : cacheLine u ag l = none := by
  simp only [cacheLine, List.find?_eq_none]
  intro e he
  simp [hempty e he]

theorem hasRoom_of_empty (l : Nat) (twin : Bool) : hasRoom u ag l .l2 (if twin then 2 else 1) = true := by
  have hpeers : setPeers u ag l .l2 = [] := by
    simp only [setPeers, List.filter_eq_nil_iff]
    intro e he
    simp [hempty e he]
  cases twin <;> simp [hasRoom, hpeers, waysUsed, arrayShape]

include h

/-- A target that runs and holds nothing takes the line in M. -/
theorem stashArrives_of_open (hb : stashBarred u ag = false) :
    stashArrives s ag l = send (putLine u ⟨ag, l, .M, m.twin, false, false, m.data⟩)
      { mkMsg .RspAck ag l with twin := m.twin, txn := m.txn } := by
  simp [stashArrives, h, cacheLine_of_empty hempty, hb, hasRoom_of_empty hempty]

theorem stashArrives_of_barred (hb : stashBarred u ag = true) :
    stashArrives s ag l = send u { mkMsg .RspDecline ag l with twin := m.twin, data := m.data, txn := m.txn } := by
  simp [stashArrives, stashArrives.leaves, h, cacheLine_of_empty hempty, hb]

end

theorem stashBarred_iff {u : State} {ag : Nat} {c : CoreId} (hc : coreOfAgent ag = some c) : stashBarred u ag = true ↔
    2 ≤ domState u ag ∨ (u.core c).run = .held ∨ (u.core c).run = .checkstopped := by
  simp [stashBarred, hc]

/-! ## Answers at the home slice (R383, R388, R408) -/

/-- No open snoop of the line's transaction awaits the message. -/
def Unawaited (u : State) (m : Msg) (l : Nat) : Prop :=
  ∀ t, txnFind u l = some t → ∀ x ∈ t.snoops, x.answers m = false

theorem answers_iff {x : Snoop} {m : Msg} {ag : Nat} (h : m.agent = ag) :
    x.answers m = true ↔ x.agent = ag ∧ x.tag = m.txn := by
  simp [Snoop.answers, h]

theorem unawaited_of_tags {u : State} {m : Msg} {ag l : Nat} (hm : m.agent = ag) (h : txnFind u l = none ∨
    ∃ t, txnFind u l = some t ∧ ∀ x ∈ t.snoops, x.agent = ag → x.tag ≠ m.txn) : Unawaited u m l := by
  intro t ht x hx
  obtain hnone | ⟨t', ht', htags⟩ := h
  · rw [hnone] at ht
    cases ht
  · rw [ht'] at ht
    cases ht
    rw [← Bool.not_eq_true, answers_iff hm]
    exact fun ⟨hag, htag⟩ => htags x hx hag htag

theorem Unawaited.any_answers {u : State} {m : Msg} {l : Nat} (h : Unawaited u m l) {t : Txn}
    (ht : txnFind u l = some t) : t.snoops.any (·.answers m) = false :=
  List.any_eq_false.2 fun x hx => by simp [h t ht x hx]

section
variable {u : State} {m : Msg} {l : Nat} (hl : m.line = l)
include hl

theorem answerSnoop_of_unawaited (h : Unawaited u m l) (f : Txn → Txn) : answerSnoop u m f = lateAnswer u l := by
  subst hl
  unfold answerSnoop
  split
  next t ht =>
    have hnone : (t.snoops.any fun x => x.answers m && !x.awaitPut) = false :=
      List.any_eq_false.2 fun x hx => by simp [h t ht x hx]
    simp [hnone]
  next => rfl

theorem stashOpen_of_unawaited (h : Unawaited u m l) : stashOpen u m = none := by
  subst hl
  unfold stashOpen
  split
  next t ht => simp [h.any_answers ht]
  next => rfl

variable {t : Txn} {x : Snoop} (ht : txnFind u l = some t) (hx : x ∈ t.snoops) (hm : x.answers m = true)
include ht

/-- A transaction that stashes nothing has no open stash to answer. -/
theorem stashOpen_of_not_stashing (hs : t.stashing = false) : stashOpen u m = none := by
  simp [stashOpen, hl, ht, hs]

include hx hm

theorem stashOpen_of_stashing (hs : t.stashing = true) : stashOpen u m = some t := by
  have hany : t.snoops.any (·.answers m) = true := List.any_eq_true.2 ⟨x, hx, hm⟩
  simp [stashOpen, hl, ht, hs, hany]

/-- A snoop that waits for no Put leaves its transaction with its answer. -/
theorem answerSnoop_of_awaited (hp : x.awaitPut = false) (f : Txn → Txn) : answerSnoop u m f =
    goOn (txnPut u (f { t with snoops := t.snoops.filter fun x => !x.answers m })) l := by
  have hany : (t.snoops.any fun x => x.answers m && !x.awaitPut) = true :=
    List.any_eq_true.2 ⟨x, hx, by simp [hm, hp]⟩
  simp [answerSnoop, hl, ht, hany]

end

section
variable {s u : State} {ag l : Nat} {m : Msg}

/-! An answer of a stash ends its transaction; any other answers a snoop. -/

theorem rspAckArrives_of_plain (h : takeMsg s .RspAck ag l = some (m, u)) (ho : stashOpen u m = none) :
    rspAckArrives s ag l = answerSnoop u m id := by
  simp only [rspAckArrives, h, ho]

theorem rspAckArrives_of_stash (h : takeMsg s .RspAck ag l = some (m, u)) {t : Txn} (ho : stashOpen u m = some t) :
    rspAckArrives s ag l = stashAnswered u t none := by
  simp only [rspAckArrives, h, ho]

theorem rspDeclineArrives_of_plain (h : takeMsg s .RspDecline ag l = some (m, u)) (ho : stashOpen u m = none) :
    rspDeclineArrives s ag l = answerSnoop u m id := by
  simp only [rspDeclineArrives, h, ho]

theorem rspDeclineArrives_of_stash (h : takeMsg s .RspDecline ag l = some (m, u)) {t : Txn}
    (ho : stashOpen u m = some t) : rspDeclineArrives s ag l = stashAnswered u t (some m.data) := by
  simp only [rspDeclineArrives, h, ho]

theorem rspDataArrives_of_taken (h : takeMsg s .RspData ag l = some (m, u)) : rspDataArrives s ag l =
    answerSnoop u m fun t => if m.dirty then { t with dirtyData := some m.data } else t := by
  simp only [rspDataArrives, h]

/-! An answer that no snoop awaits is late, whatever its type (R408). -/

theorem rspAckArrives_of_unawaited (h : takeMsg s .RspAck ag l = some (m, u)) (hu : Unawaited u m l) :
    rspAckArrives s ag l = lateAnswer u l := by
  rw [rspAckArrives_of_plain h (stashOpen_of_unawaited (takeMsg_line h) hu),
    answerSnoop_of_unawaited (takeMsg_line h) hu]

theorem rspDataArrives_of_unawaited (h : takeMsg s .RspData ag l = some (m, u)) (hu : Unawaited u m l) :
    rspDataArrives s ag l = lateAnswer u l := by
  rw [rspDataArrives_of_taken h, answerSnoop_of_unawaited (takeMsg_line h) hu]

theorem rspDeclineArrives_of_unawaited (h : takeMsg s .RspDecline ag l = some (m, u)) (hu : Unawaited u m l) :
    rspDeclineArrives s ag l = lateAnswer u l := by
  rw [rspDeclineArrives_of_plain h (stashOpen_of_unawaited (takeMsg_line h) hu),
    answerSnoop_of_unawaited (takeMsg_line h) hu]

theorem rspEIFArrives_of_unawaited (h : takeMsg s .RspEIF ag l = some (m, u)) (hu : Unawaited u m l) :
    rspEIFArrives s ag l = lateAnswer u l := by
  unfold rspEIFArrives
  rw [h]
  dsimp only
  split
  next => rfl
  next t ht => simp [hu.any_answers ht]

section
variable {t : Txn} {x : Snoop} (ht : txnFind u l = some t) (hx : x ∈ t.snoops) (hm : x.answers m = true)
include ht hx hm

/-! An awaited one leaves its transaction, which goes on (R388). -/

/-- The transaction goes on without the snoop that m answers, with the dirty data d. -/
def snoopLeft (u : State) (t : Txn) (m : Msg) (l : Nat) (d : Option LineData) : State :=
  goOn (txnPut u { t with snoops := t.snoops.filter fun x => !x.answers m, dirtyData := d }) l

theorem rspAckArrives_of_awaited (h : takeMsg s .RspAck ag l = some (m, u)) (hs : t.stashing = false)
    (hp : x.awaitPut = false) : rspAckArrives s ag l = snoopLeft u t m l t.dirtyData := by
  rw [rspAckArrives_of_plain h (stashOpen_of_not_stashing (takeMsg_line h) ht hs),
    answerSnoop_of_awaited (takeMsg_line h) ht hx hm hp]
  rfl

theorem rspDeclineArrives_of_awaited (h : takeMsg s .RspDecline ag l = some (m, u)) (hs : t.stashing = false)
    (hp : x.awaitPut = false) : rspDeclineArrives s ag l = snoopLeft u t m l t.dirtyData := by
  rw [rspDeclineArrives_of_plain h (stashOpen_of_not_stashing (takeMsg_line h) ht hs),
    answerSnoop_of_awaited (takeMsg_line h) ht hx hm hp]
  rfl

/-- Dirty words come with it (R383). -/
theorem rspDataArrives_of_awaited (h : takeMsg s .RspData ag l = some (m, u)) (hp : x.awaitPut = false) :
    rspDataArrives s ag l = snoopLeft u t m l (if m.dirty then some m.data else t.dirtyData) := by
  rw [rspDataArrives_of_taken h, answerSnoop_of_awaited (takeMsg_line h) ht hx hm hp]
  cases m.dirty
  · rfl
  · rfl

end

/-! RspEIF comes before its Put or after it (R388). -/

/-- RspEIF counts in its slice (R388, R713). -/
def eifCounted (u : State) (l : Nat) : State :=
  count (regAddSat u (aCohEif (homeOf u l)) 47 0 1) (32 + homeOf u l) 0x45

@[simp] theorem eifCounted_coh (u : State) (l : Nat) : (eifCounted u l).coh = u.coh := regFld_coh ..

/-- The PutAck that leaves changes no transaction. -/
theorem oweAck_txns (u : State) (t : Txn) (ag : Nat) : (oweAck u t ag).coh.txns = u.coh.txns := by
  unfold oweAck
  split
  · exact send_txns ..
  · rfl

variable {t : Txn} {x : Snoop} (h : takeMsg s .RspEIF ag l = some (m, u)) (ht : txnFind u l = some t)
  (hx : x ∈ t.snoops) (hm : x.answers m = true)
include h ht hx hm

theorem rspEIFArrives_of_early (hseen : ∀ y ∈ t.snoops, y.answers m = true → y.putSeen = false) :
    rspEIFArrives s ag l = txnPut (eifCounted u l) { t with snoops := t.snoops.map fun y =>
      if (y.answers m) = true then { y with awaitPut := true } else y } := by
  have hany : t.snoops.any (·.answers m) = true := List.any_eq_true.2 ⟨x, hx, hm⟩
  have hnone : (t.snoops.any fun y => y.answers m && y.putSeen) = false := by
    simp only [List.any_eq_false, Bool.and_eq_true, not_and, Bool.not_eq_true]
    exact hseen
  simp [rspEIFArrives, h, ht, hany, hnone, eifCounted]

theorem rspEIFArrives_of_crossed (hseen : x.putSeen = true) (hp : x.awaitPut = false) :
    rspEIFArrives s ag l = snoopLeft (oweAck (eifCounted u l) t ag) t m l t.dirtyData := by
  have hany : t.snoops.any (·.answers m) = true := List.any_eq_true.2 ⟨x, hx, hm⟩
  have hput : (t.snoops.any fun y => y.answers m && y.putSeen) = true :=
    List.any_eq_true.2 ⟨x, hx, by simp [hm, hseen]⟩
  have hopen : txnFind (oweAck (eifCounted u l) t ag) l = some t := by
    rw [txnFind_congr ((oweAck_txns _ t ag).trans (congrArg Coh.txns (eifCounted_coh u l))), ht]
  have hans := answerSnoop_of_awaited (takeMsg_line h) hopen hx hm hp id
  simpa [rspEIFArrives, h, ht, hany, hput, eifCounted, snoopLeft] using hans

end

/-! ## Puts at the home slice (R383, R388) -/

/-- Writing an entry changes the directory alone. -/
theorem dirPut_eq (s : State) (e : DirEntry) : ∃ dir, dirPut s e = { s with coh := { s.coh with dir := dir } } := by
  unfold dirPut
  dsimp only
  split
  · exact ⟨_, rfl⟩
  · exact ⟨_, rfl⟩

theorem clearSharer_txns (s : State) (ag l : Nat) : (clearSharer s ag l).coh.txns = s.coh.txns := by
  unfold clearSharer
  split
  next e _ =>
    obtain ⟨dir, h⟩ := dirPut_eq s { e with vec := vecSet e.vec ag false }
    rw [h]
  next => rfl

/-- The PutAck of a Put. -/
def putAcked (m : Msg) (ag l : Nat) (u : State) : State := send u { mkMsg .PutAck ag l with twin := m.twin, txn := m.txn }

section
variable {s u : State} {ty : MsgType} {ag l : Nat} {m : Msg} (h : takeMsg s ty ag l = some (m, u))
include h

/-- A Put of an agent that the directory does not mark is late (R408). -/
theorem putArrives_of_unmarked (hn : dirFind u l = none ∨ ∃ e, dirFind u l = some e ∧ e.vec.getLsbD ag = false) :
    putArrives s ty ag l = putAcked m ag l (lateAnswer u l) := by
  obtain hn | ⟨e, hn, hv⟩ := hn
  · simp [putArrives, h, hn, putAcked]
  · simp [putArrives, h, hn, hv, putAcked]

variable {e : DirEntry} (he : dirFind u l = some e) (hv : e.vec.getLsbD ag = true)
include he hv

/-- With no transaction on the line, dirty words go to the L3 (R383). -/
theorem putArrives_of_idle (ht : txnFind u l = none) : putArrives s ty ag l =
    pump (putAcked m ag l (if ty = .PutM then l3Put (clearSharer u ag l) l m.data true else clearSharer u ag l))
      (homeOf (clearSharer u ag l) l) := by
  have hfree : txnFind (clearSharer u ag l) l = none := by rw [txnFind_congr (clearSharer_txns u ag l), ht]
  simp [putArrives, h, he, hv, hfree, putAcked]

variable {t : Txn} (ht : txnFind u l = some t)
include ht

/-- A Put that the transaction awaits answers its agent's snoop (R388). -/
theorem putArrives_of_awaited (hy : ∃ y ∈ t.snoops, y.agent = ag ∧ y.awaitPut = true) : putArrives s ty ag l =
    goOn (putAcked m ag l (txnPut (clearSharer u ag l) { t with
      dirtyData := if ty = .PutM then some m.data else t.dirtyData
      snoops := t.snoops.filter fun y => y.agent ≠ ag })) l := by
  have hopen : txnFind (clearSharer u ag l) l = some t := by rw [txnFind_congr (clearSharer_txns u ag l), ht]
  obtain ⟨y, hmem, hag, hput⟩ := hy
  have hany : (t.snoops.any fun y => decide (y.agent = ag)) = true := List.any_eq_true.2 ⟨y, hmem, by simp [hag]⟩
  have hawaited : (t.snoops.any fun y => decide (y.agent = ag) && y.awaitPut) = true :=
    List.any_eq_true.2 ⟨y, hmem, by simp [hag, hput]⟩
  simp [putArrives, h, he, hv, hopen, hany, hawaited, putAcked]

/-- A Put that crosses a snoop of its agent is noted; in a stash its PutAck waits for the answer (R388, R391). -/
theorem putArrives_of_crossing (hy : ∃ y ∈ t.snoops, y.agent = ag)
    (hn : ∀ y ∈ t.snoops, y.agent = ag → y.awaitPut = false) : putArrives s ty ag l =
    goOn ((if t.stashing then id else putAcked m ag l) (txnPut (clearSharer u ag l) { t with
      dirtyData := if ty = .PutM then some m.data else t.dirtyData
      snoops := t.snoops.map fun y => if y.agent = ag then
        { y with putSeen := true, putAck := if t.stashing then some m.txn else none } else y })) l := by
  have hopen : txnFind (clearSharer u ag l) l = some t := by rw [txnFind_congr (clearSharer_txns u ag l), ht]
  obtain ⟨y, hmem, hag⟩ := hy
  have hany : (t.snoops.any fun y => decide (y.agent = ag)) = true := List.any_eq_true.2 ⟨y, hmem, by simp [hag]⟩
  have hawaited : (t.snoops.any fun y => decide (y.agent = ag) && y.awaitPut) = false := by
    simp only [List.any_eq_false]
    intro x hx
    by_cases hxa : x.agent = ag
    · simp [hn x hx hxa]
    · simp [hxa]
  cases hs : t.stashing
  · simp [putArrives, h, he, hv, hopen, hany, hawaited, putAcked, hs]
  · simp [putArrives, h, he, hv, hopen, hany, hawaited, hs]

end

/-! ## A line installed (R367, R382) -/

/-- The agent holds the line with these words, as a pair or not, in this state. -/
def Holds (s : State) (ag l : Nat) (d : LineData) (twin : Bool) (st : LineState) : Prop :=
  ∃ e, cacheLine s ag l = some e ∧ e.data = d ∧ e.twin = twin ∧ e.st = st

section
variable {s : State} {ag l : Nat} {d : LineData} {twin : Bool} {st : LineState}

theorem cacheLine_key {e : CacheLine} (h : cacheLine s ag l = some e) : e.agent = ag ∧ e.line = l := by
  simpa using List.find?_some h

theorem cacheLine_putLine (s : State) {e : CacheLine} (ha : e.agent = ag) (hl : e.line = l) :
    cacheLine (putLine s e) ag l = some e := by
  simp [cacheLine, putLine, ha, hl]

/-- The key, the words and the state of a line stand when it changes its places in the L1 arrays. -/
theorem Holds.modLine (h : Holds s ag l d twin st) (k : Nat) {f : CacheLine → CacheLine}
    (hf : ∀ e, (f e).agent = e.agent ∧ (f e).line = e.line ∧ (f e).data = e.data ∧ (f e).twin = e.twin ∧
      (f e).st = e.st) :
    Holds (modLine s ag k f) ag l d twin st := by
  obtain ⟨e, he, hd, ht, hst⟩ := h
  have hkey : ((fun e : CacheLine => decide (e.agent = ag) && decide (e.line = l)) ∘
      fun e => if e.agent = ag && e.line = k then f e else e) = fun e => decide (e.agent = ag) && decide (e.line = l) := by
    funext x
    simp only [Function.comp_apply]
    split
    · rw [(hf x).1, (hf x).2.1]
    · rfl
  refine ⟨if e.agent = ag && e.line = k then f e else e, ?_, ?_⟩
  · simp only [cacheLine, Machine.modLine, List.find?_map, hkey]
    rw [show s.coh.caches.find? (fun e => decide (e.agent = ag) && decide (e.line = l)) = some e from he]
    rfl
  · split
    · obtain ⟨-, -, hd', ht', hst'⟩ := hf e
      exact ⟨hd'.trans hd, ht'.trans ht, hst'.trans hst⟩
    · exact ⟨hd, ht, hst⟩

theorem Holds.leaveL1 (h : Holds s ag l d twin st) (k : Nat) (a : CacheArray) :
    Holds (Machine.modLine s ag k (Machine.leaveL1 a)) ag l d twin st :=
  h.modLine k fun e => by cases a <;> exact ⟨rfl, rfl, rfl, rfl, rfl⟩

/-- A choice draws a free value at most. -/
theorem pickOne_coh {α : Type} (s : State) (es : List α) : (pickOne s es).2.coh = s.coh := by
  unfold pickOne
  split <;> rfl

theorem Holds.congr {t : State} (h : Holds s ag l d twin st) (ht : t.coh = s.coh) : Holds t ag l d twin st := by
  obtain ⟨e, he, hrest⟩ := h
  exact ⟨e, by rw [cacheLine, ht]; exact he, hrest⟩

/-- Lines leave an L1 array silently: the L2 still holds them (R367). -/
theorem Holds.freeL1 (h : Holds s ag l d twin st) (k : Nat) (a : CacheArray) (need n : Nat) :
    Holds (Machine.freeL1 s ag k a need n) ag l d twin st := by
  induction n generalizing s with
  | zero => exact h
  | succ n ih =>
    unfold Machine.freeL1
    split
    · exact h
    · have hp := h.congr (pickOne_coh s (setPeers s ag k a))
      split
      next v t hv => exact ih ((by rwa [hv] at hp : Holds t ag l d twin st).leaveL1 v.line a)
      next t hv => rwa [hv] at hp

theorem Holds.enterL1 (h : Holds s ag l d twin st) (k : Nat) (a : CacheArray) :
    Holds (Machine.enterL1 s ag k a) ag l d twin st := by
  unfold Machine.enterL1
  split
  · split
    · exact h
    · exact (h.freeL1 k a _ 4).modLine k fun e => by cases a <;> exact ⟨rfl, rfl, rfl, rfl, rfl⟩
  · exact h

end

/-- A line granted stands at its agent as the grant says (R382). -/
theorem holds_installLine (s : State) (ag : Nat) (m : Msg) :
    Holds (installLine s ag m) ag m.line m.data m.twin (grantState m.gnt) := by
  have hkey : ((cacheLine s ag m.line).getD (awaited ag m.line .IS m.twin false)).agent = ag ∧
      ((cacheLine s ag m.line).getD (awaited ag m.line .IS m.twin false)).line = m.line := by
    cases hc : cacheLine s ag m.line with
    | none => exact ⟨rfl, rfl⟩
    | some e => exact cacheLine_key hc
  unfold installLine
  extract_lets e s1 s2
  have hput : Holds s1 ag m.line m.data m.twin (grantState m.gnt) :=
    ⟨_, cacheLine_putLine s hkey.1 hkey.2, rfl, rfl, rfl⟩
  have hdata : Holds s2 ag m.line m.data m.twin (grantState m.gnt) := by
    unfold s2
    split
    · exact hput.enterL1 m.line .l1d
    · exact hput
  split
  · exact hput
  · split
    · exact hdata.enterL1 m.line .l1i
    · exact hdata

/-! ## What a requester takes (R374, R377, R382) -/

section
variable {s u : State} {a l : Nat} {m : Msg}

theorem sendAck_of_taken {ty : MsgType} (h : takeMsg s ty a l = some (m, u)) :
    sendAck u m = send u { mkMsg .CmpAck a l with twin := m.twin, txn := m.txn } := by
  rw [sendAck, takeMsg_agent h, takeMsg_line h]

/-- The CmpAck of the requester ends BUSY (R374). -/
theorem ackArrives_of_granted (h : takeMsg s .CmpAck a l = some (m, u)) {t : Txn} {e : DirEntry}
    (ht : txnFind u l = some t) (hg : t.granted = true) (ha : t.req.agent = a) (he : dirFind (txnDel u l) l = some e) :
    ackArrives s a l = pump (dirPut (txnDel u l) { e with busy := false })
      (homeOf (dirPut (txnDel u l) { e with busy := false }) l) := by
  simp [ackArrives, h, ht, hg, ha, he]

section
variable {a : Fin 34}

theorem execData_of_bridge (h : takeMsg s .Data a l = some (m, u)) (hc : coreOfAgent a = none) :
    execData a l s = .next (bridgeGoesOn (answerStep (sendAck u m) m)) := by
  simp only [execData, h, hc]

theorem execData_of_core (h : takeMsg s .Data a l = some (m, u)) {c : CoreId} (hc : coreOfAgent a = some c) :
    execData a l s = .next (dataAt (sendAck u m) c m) := by
  simp only [execData, h, hc]

theorem execCmp_of_bridge (h : takeMsg s .Cmp a l = some (m, u)) (hc : coreOfAgent a = none) :
    execCmp a l s = .next (bridgeGoesOn (answerStep (sendAck u m) m)) := by
  simp only [execCmp, h, hc]

variable (h : takeMsg s .Cmp a l = some (m, u)) {c : CoreId} (hc : coreOfAgent a = some c)
include h hc

theorem execCmp_of_atomic (hr : m.req = .AtomF) : execCmp a l s =
    .next (if atomicWaits ((sendAck u m).core c) then atomicDone (sendAck u m) c m else afterDrain (sendAck u m) c) := by
  simp only [execCmp, h, hc, hr]

theorem execCmp_of_through (hr : m.req = .WrNC ∨ m.req = .WrThru) :
    execCmp a l s = .next (throughDone (sendAck u m) c l) := by
  obtain hr | hr := hr
  · simp only [execCmp, h, hc, hr]
  · simp only [execCmp, h, hc, hr]

theorem execCmp_of_maintenance (hr : m.req = .Clean ∨ m.req = .Flush) :
    execCmp a l s = .next (maintenanceDone (sendAck u m) c l) := by
  obtain hr | hr := hr
  · simp only [execCmp, h, hc, hr]
  · simp only [execCmp, h, hc, hr]

end

/-! The words of a grant reach a core as the request that it answers says. -/

theorem dataAt_of_uncached (hr : m.req = .RdNC) (s : State) (c : CoreId) :
    dataAt s c m = afterDrain (giveWords s c m) c := by
  simp only [dataAt, hr]

theorem dataAt_of_zeroed (hr : m.req = .RdUZ) (s : State) (c : CoreId) : dataAt s c m =
    maintenanceDone (zeroedInL1 (installLine s (coreNum c) m) (coreNum c) m.line) c m.line := by
  simp only [dataAt, hr]

theorem dataAt_of_cached (h1 : m.req ≠ .RdNC) (h2 : m.req ≠ .RdUZ) (s : State) (c : CoreId) :
    dataAt s c m = afterDrain (markContended (installLine s (coreNum c) m) c m) c := by
  unfold dataAt
  split
  next h => exact absurd h h1
  next h => exact absurd h h2
  next => rfl

section
variable {a : Fin 33} {c : CoreId} (hc : coreOfAgent a = some c)
include hc

theorem execGrantU_of_core (h : takeMsg s .GrantU a l = some (m, u)) : execGrantU a l s =
    .next (afterDrain (markContended (modLine (sendAck u m) a l fun e =>
      if e.st = .SM then { e with st := .E } else e) c m) c) := by
  simp only [execGrantU, h, hc]

theorem execPutAck_of_evicting (h : takeMsg s .PutAck a l = some (m, u)) {e : CacheLine}
    (he : cacheLine u a l = some e) (hev : e.st.evicting = true) :
    execPutAck a l s = .next (afterDrain (dropLine u a l) c) := by
  simp [execPutAck, putAckArrives, h, he, hev, hc]

end

theorem execRetry_of_refused {a : Fin 34} {x : Msg} (h : takeMsg s .Retry a l = some (m, u))
    (hx : (u.coh.refused.find? fun x => x.agent = m.agent && x.line = m.line && x.txn = m.txn) = some x) :
    execRetry a l s = .next { u with coh := { u.coh with
      refused := u.coh.refused.erase x, retries := u.coh.retries ++ [{ x with n := x.n + 1 }] } } := by
  simp only [execRetry, h, hx]

theorem execRetryBackoffExpiry_of_held {a : Fin 34} {x : Msg}
    (hx : (s.coh.retries.find? fun m => m.agent = a.val && m.line = l) = some x) : execRetryBackoffExpiry a l s =
      .next (send { s with coh := { s.coh with retries := s.coh.retries.erase x } } x) := by
  simp only [execRetryBackoffExpiry, hx]

end

/-! ## Snoop timers (R406, R407) -/

section
variable {s : State} {t : Txn} {x : Snoop} {ag l : Nat} (ht : txnFind s l = some t)
  (hx : (t.snoops.find? fun x => x.agent = ag) = some x)
include ht hx

theorem timeoutAt_of_running (h : s.now < x.sent + x.limit) : timeoutAt s ag l = s := by
  simp [timeoutAt, ht, hx, h]

/-- The agent is removed from the entry and from the transaction, and the slice counts, records and logs it. -/
theorem timeoutAt_of_expired (h : x.sent + x.limit ≤ s.now) (hh : homeHeld s l = false) : timeoutAt s ag l =
    let h := homeOf s l
    let u := txnPut (oweAck (clearSharer s ag l) t ag) { t with
      snoops := t.snoops.filter (fun y => y.agent ≠ ag), poisonAll := true }
    let u := count (regAddSat u (aCohTimeout h) 47 0 1) (32 + h) 0x46
    let u := regSet u (aCohPoison h) (mk 47 47 1 ||| mk 46 41 ag ||| mk 32 0 l)
    let u := assertEdge (logFault u 0x04 ag (212 + h) (w48 l) (w48 h)) (212 + h)
    noteTimeout (goOn u l) ag := by
  simp [timeoutAt, ht, hx, hh, Nat.not_lt.2 h]

end

/-- Settles O54: each clause is what one message does where it arrives, by the lemmas above. That an answer is late by its
tag is the model's choice (log 133), that an agent whose domain a clock fault holds does not answer is deduced (log 143),
and that a PutAck waits for the answer of a stash under way is the model's choice (log 176). -/
theorem coherenceAnswers : Obligations.CoherenceAnswers := by
  unfold Obligations.CoherenceAnswers
  intro s ag l answered
  have snoops (ty : MsgType) (hty : ty ≠ .SnpStash) : answered ty (.next (snoopCmd s ty ag l)) := by
    refine ⟨fun hmute => by rw [snoopCmd_of_mute hmute], fun m u htake hans => ?_⟩
    rw [snoopCmd_of_answering hans hty]
    exact ⟨fun hc => by rw [snoopArrives_of_absent htake hc],
      fun e hc => congrArg Host.Outcome.next (snoopArrives_of_held htake hc)⟩
  refine ⟨snoops .SnpS (by decide), snoops .SnpInv (by decide), snoops .SnpData (by decide), snoops .SnpClean (by decide),
    ?table, ?stash, ?answers, ?home, fun m => ?install, ?grant, ?retry, ?backoff, ?put, ?timeout⟩
  case table =>
    intro e dirty clean
    refine ⟨fun h => ?m, fun h => ?e, fun h => ?s, fun h => ?sm, fun h ty => snoopAnswer_of_evicting h ty⟩
    all_goals
      obtain ⟨agent, line, st, twin, inL1, inL1I, data⟩ := e
      subst h
    case m => exact ⟨rfl, rfl, rfl, rfl⟩
    case e => exact ⟨rfl, rfl, rfl, rfl⟩
    case s => rfl
    case sm => rfl
  case stash =>
    intro m u htake hans hempty c hc
    have hcmd : exec (.snpStash ag l) s = .next (stashArrives s ag l) := by
      refine congrArg Host.Outcome.next ?_
      simp [snoopCmd, hans]
    rw [hcmd]
    refine ⟨fun hon hheld hstop => ?_, fun hbarred => ?_⟩
    · rw [stashArrives_of_open htake hempty]
      rw [← Bool.not_eq_true, stashBarred_iff hc]
      rintro (h | h | h)
      · exact absurd h (Nat.not_le.2 hon)
      · exact hheld h
      · exact hstop h
    · rw [stashArrives_of_barred htake hempty ((stashBarred_iff hc).2 hbarred)]
  case answers =>
    intro m u late counted
    refine ⟨fun hun => ?late, fun t x ht hx hag htag =>
      ⟨fun hs hp => ?plain, fun hs => ?stashing, fun htake => ?eif⟩⟩
    case late =>
      have un {ty : MsgType} (h : takeMsg s ty ag l = some (m, u)) : Unawaited u m l :=
        unawaited_of_tags (takeMsg_agent h) hun
      exact ⟨fun h => congrArg Host.Outcome.next (rspAckArrives_of_unawaited h (un h)),
        fun h => congrArg Host.Outcome.next (rspDataArrives_of_unawaited h (un h)),
        fun h => congrArg Host.Outcome.next (rspDeclineArrives_of_unawaited h (un h)),
        fun h => congrArg Host.Outcome.next (rspEIFArrives_of_unawaited h (un h))⟩
    all_goals
      have hm {ty : MsgType} (h : takeMsg s ty ag l = some (m, u)) : x.answers m = true :=
        (answers_iff (takeMsg_agent h)).2 ⟨hag, htag⟩
    case plain =>
      exact ⟨fun h => congrArg Host.Outcome.next (rspAckArrives_of_awaited ht hx (hm h) h hs hp),
        fun h => congrArg Host.Outcome.next (rspDeclineArrives_of_awaited ht hx (hm h) h hs hp),
        fun h => congrArg Host.Outcome.next (rspDataArrives_of_awaited ht hx (hm h) h hp)⟩
    case stashing =>
      have hopen {ty : MsgType} (h : takeMsg s ty ag l = some (m, u)) : stashOpen u m = some t :=
        stashOpen_of_stashing (takeMsg_line h) ht hx (hm h) hs
      exact ⟨fun h => congrArg Host.Outcome.next (rspAckArrives_of_stash h (hopen h)),
        fun h => congrArg Host.Outcome.next (rspDeclineArrives_of_stash h (hopen h))⟩
    case eif =>
      exact ⟨fun hseen => congrArg Host.Outcome.next (rspEIFArrives_of_early htake ht hx (hm htake) hseen),
        fun hseen hp => congrArg Host.Outcome.next (rspEIFArrives_of_crossed htake ht hx (hm htake) hseen hp)⟩
  case home =>
    intro a m u acked
    have hack {ty : MsgType} (h : takeMsg s ty a l = some (m, u)) : sendAck u m = acked := sendAck_of_taken h
    refine ⟨fun htake t e ht hgranted hreq he => ?ack, fun htake => ⟨fun hc => ?dataBridge, fun c hc => ?dataCore⟩,
      fun htake => ⟨fun hc => ?cmpBridge, fun c hc => ?cmpCore⟩⟩
    case ack =>
      exact congrArg (fun u => Host.Outcome.next (retryBlocked u)) (ackArrives_of_granted htake ht hgranted hreq he)
    case dataBridge => exact hack htake ▸ execData_of_bridge htake hc
    case dataCore =>
      have hdata : exec (.data a l) s = .next (dataAt acked c m) := hack htake ▸ execData_of_core htake hc
      refine ⟨fun hr => ?_, fun hr => ?_, fun h1 h2 => ?_⟩
      · rw [hdata, dataAt_of_uncached hr]
      · rw [hdata, dataAt_of_zeroed hr, coreNum_of_coreOfAgent hc, takeMsg_line htake]
      · rw [hdata, dataAt_of_cached h1 h2, coreNum_of_coreOfAgent hc]
    case cmpBridge => exact hack htake ▸ execCmp_of_bridge htake hc
    case cmpCore =>
      have hcore : acked.core c = u.core c := hack htake ▸ send_core u _ c
      have hatomic (hr : m.req = .AtomF) : exec (.cmp a l) s =
          .next (if atomicWaits (u.core c) then atomicDone acked c m else afterDrain acked c) :=
        hcore ▸ hack htake ▸ execCmp_of_atomic htake hc hr
      exact ⟨fun hr hw => by rw [hatomic hr, if_pos (hcore ▸ hw)],
        fun hr hw => by rw [hatomic hr, if_neg (by simp [hw])],
        fun hr => hack htake ▸ execCmp_of_through htake hc hr,
        fun hr => hack htake ▸ execCmp_of_maintenance htake hc hr⟩
  case install =>
    exact holds_installLine s ag m
  case grant =>
    intro m u c hc
    refine ⟨fun htake => ?_, fun htake e he hev => execPutAck_of_evicting hc htake he hev⟩
    rw [← sendAck_of_taken htake]
    exact execGrantU_of_core hc htake
  case retry => exact fun a m u x htake hx => execRetry_of_refused htake hx
  case backoff => exact fun a m hx => execRetryBackoffExpiry_of_held hx
  case put =>
    intro m u ack late v freed
    refine ⟨fun hun => ?unmarked, fun e he hv =>
      ⟨fun ht => ?idle, fun t ht hy => ?awaited, fun t ht hy hn => ?crossing⟩⟩
    case unmarked =>
      have hlate {ty : MsgType} (h : takeMsg s ty ag l = some (m, u)) : putArrives s ty ag l = late :=
        putArrives_of_unmarked h hun
      exact ⟨fun h => congrArg Host.Outcome.next (hlate h), fun h => congrArg Host.Outcome.next (hlate h),
        fun h => congrArg Host.Outcome.next (hlate h)⟩
    case idle =>
      exact ⟨fun h => congrArg Host.Outcome.next (putArrives_of_idle h he hv ht),
        fun h => congrArg Host.Outcome.next (putArrives_of_idle h he hv ht),
        fun h => congrArg Host.Outcome.next (putArrives_of_idle h he hv ht)⟩
    case awaited =>
      exact ⟨fun h => congrArg Host.Outcome.next (putArrives_of_awaited h he hv ht hy),
        fun h => congrArg Host.Outcome.next (putArrives_of_awaited h he hv ht hy),
        fun h => congrArg Host.Outcome.next (putArrives_of_awaited h he hv ht hy)⟩
    case crossing =>
      intro seen on
      have hon {ty : MsgType} (h : takeMsg s ty ag l = some (m, u)) :
          putArrives s ty ag l = on (if ty = .PutM then some m.data else t.dirtyData) := by
        rw [putArrives_of_crossing h he hv ht hy hn]
        unfold on seen
        cases t.stashing
        · rfl
        · rfl
      exact ⟨fun h => congrArg Host.Outcome.next (hon h), fun h => congrArg Host.Outcome.next (hon h),
        fun h => congrArg Host.Outcome.next (hon h)⟩
  case timeout =>
    intro t x ht hx
    exact ⟨fun h => congrArg (fun u => Host.Outcome.next (settleSyncs u)) (timeoutAt_of_running ht hx h),
      fun h hh => congrArg (fun u => Host.Outcome.next (settleSyncs u)) (timeoutAt_of_expired ht hx h hh)⟩

end Sys2Proof.Machine
end

section
/-! A slice at which nothing waits (R368, R375 to R377): what it leaves of the fabric, and the one request it serves. -/

namespace Sys2Proof.Machine

open Sys2Proof

/-! ## What the L3 and DRAM leave of the fabric (R368) -/

@[simp] theorem regAddSat_coh (s : State) (a hi lo n : Nat) : (regAddSat s a hi lo n).coh = s.coh := regFld_coh ..

@[simp] theorem represent_coh (s : State) (t : Nat) : (represent s t).coh = s.coh := by
  unfold represent; split <;> rfl

@[simp] theorem assertEdge_coh (s : State) (n : Nat) : (assertEdge s n).coh = s.coh := by
  unfold assertEdge
  split
  · rfl
  · split <;> simp

@[simp] theorem dramPut_coh (s : State) (a : Nat) (c : BitVec 64) : (dramPut s a c).coh = s.coh := rfl

@[simp] theorem dramPutLine_coh (s : State) (a : Nat) (d : LineData) : (dramPutLine s a d).coh = s.coh := by
  induction d generalizing s a with
  | nil => rw [dramPutLine]
  | cons w d ih =>
    obtain ⟨v, p⟩ := w
    rw [dramPutLine, ih, dramPut_coh]

@[simp] theorem dramWriteLine_coh (s : State) (l : Nat) (d : LineData) : (dramWriteLine s l d).coh = s.coh := by
  unfold dramWriteLine
  dsimp only
  split
  · rfl
  · split
    · rfl
    · rw [dramPutLine_coh]
      rfl

@[simp] theorem homeWrite_coh (s : State) (l : Nat) (d : LineData) : (homeWrite s l d).coh = s.coh := by
  rw [homeWrite, lineMoved_coh, dramWrite]
  split
  · rw [dramWriteLine_coh, dramWriteLine_coh]
  · rw [dramWriteLine_coh]

/-- The state differs from s in its L3 alone, as far as the fabric goes. -/
def OnlyL3 (s t : State) : Prop := t.coh = { s.coh with l3 := t.coh.l3 }

theorem OnlyL3.trans {s t u : State} (h : OnlyL3 s t) (h' : OnlyL3 t u) : OnlyL3 s u := by
  unfold OnlyL3 at h h' ⊢
  rw [h', h]

theorem OnlyL3.of_coh {s t : State} (h : t.coh = s.coh) : OnlyL3 s t := by
  rw [OnlyL3, h]

theorem onlyL3_l3Drop (s : State) (l : Nat) : OnlyL3 s (l3Drop s l) := rfl

/-- Victims leave the L3, dirty ones to DRAM. -/
theorem onlyL3_l3Room (s : State) (l need n : Nat) : OnlyL3 s (l3Room s l need n) := by
  induction n generalizing s with
  | zero => exact .of_coh rfl
  | succ n ih =>
    unfold l3Room
    extract_lets peers used
    generalize (if anyPinned s = true then 14 else 16) = ways
    split
    · exact .of_coh rfl
    · have hp : OnlyL3 s (pickOne s peers).2 := .of_coh (pickOne_coh s peers)
      split
      next v t hv =>
        rw [hv] at hp
        have hdrop := hp.trans (onlyL3_l3Drop t v.line)
        split
        · exact (hdrop.trans (.of_coh (homeWrite_coh ..))).trans (ih _)
        · exact hdrop.trans (ih _)
      next t hv =>
        rw [hv] at hp
        exact hp

theorem onlyL3_l3Put (s : State) (l : Nat) (d : LineData) (dirty : Bool) : OnlyL3 s (l3Put s l d dirty) := by
  unfold l3Put
  extract_lets e s1 s2
  have h1 : OnlyL3 s s1 := onlyL3_l3Drop s l
  have h2 : OnlyL3 s s2 := by
    unfold s2
    split
    · exact h1
    · exact h1.trans (onlyL3_l3Room ..)
  exact h2.trans rfl

/-! ## A slice at which nothing waits (R375, R377) -/

/-- With no overflow entry nothing moves (R377). -/
theorem settleOverflow_of_none {s : State} (h : ∀ x ∈ s.coh.dir, x.overflow = none) : settleOverflow s = s := by
  refine List.foldlRecOn (motive := fun t : State => t = s) s.coh.dir.reverse _ rfl ?_
  intro t ht e he
  rw [h e (List.mem_reverse.1 he)]
  exact ht

/-- These messages are in flight, no request waits, and no entry is an overflow entry. -/
structure Calm (net : List Msg) (s : State) : Prop where
  inFlight : s.coh.net = net
  noneWaits : s.coh.waitq = []
  noOverflow : ∀ x ∈ s.coh.dir, x.overflow = none

theorem calm_of_alone {u : State} (h : u.coh.waitq = [] ∧ ∀ x ∈ u.coh.dir, x.overflow = none) : Calm u.coh.net u :=
  ⟨rfl, h.1, h.2⟩

section
variable {net : List Msg} {s : State} (h : Calm net s)
include h

theorem Calm.of_coh {t : State} (ht : t.coh = s.coh) : Calm net t := by
  obtain ⟨hnet, hwait, hover⟩ := h
  exact ⟨ht ▸ hnet, ht ▸ hwait, ht ▸ hover⟩

theorem Calm.onlyL3 {t : State} (ht : OnlyL3 s t) : Calm net t := by
  obtain ⟨hnet, hwait, hover⟩ := h
  rw [OnlyL3] at ht
  constructor
  · rw [ht, hnet]
  · rw [ht, hwait]
  · rw [ht]
    exact hover

theorem Calm.refused (ms : List Msg) : Calm net { s with coh := { s.coh with refused := ms } } :=
  ⟨h.inFlight, h.noneWaits, h.noOverflow⟩

theorem Calm.farHint (t : Txn) : Calm net (farHint s t).2 := ⟨h.inFlight, h.noneWaits, h.noOverflow⟩

theorem Calm.txnPut (t : Txn) : Calm net (txnPut s t) := ⟨h.inFlight, h.noneWaits, h.noOverflow⟩

theorem Calm.dirPut {e : DirEntry} (he : e.overflow = none) : Calm net (dirPut s e) := by
  have hdel : Calm net (dirDel s e.line) :=
    ⟨h.inFlight, h.noneWaits, fun x hx => h.noOverflow x (List.mem_of_mem_filter hx)⟩
  unfold Machine.dirPut
  dsimp only
  split
  · exact hdel
  · refine ⟨hdel.inFlight, hdel.noneWaits, fun x hx => ?_⟩
    obtain rfl | hx := List.mem_cons.1 hx
    · exact he
    · exact hdel.noOverflow x hx

theorem Calm.entryOf (t : Txn) : (entryOf s t).overflow = none := by
  unfold Machine.entryOf
  cases hf : dirFind s t.req.line with
  | none => rfl
  | some e => exact h.noOverflow e (List.mem_of_find?_eq_some hf)

/-- What leaves joins the messages in flight. -/
theorem Calm.send {m : Msg} (hm : m.type.keepsTag = true) : Calm (net ++ [m]) (send s m) := by
  refine ⟨?_, ?_, ?_⟩
  · rw [send_answer_coh s hm, h.inFlight]
  · rw [send_waitq, h.noneWaits]
  · rw [send_dir]
    exact h.noOverflow

theorem Calm.serveSlice (k n : Nat) : serveSlice s k n = s := by
  cases n with
  | zero => rfl
  | succ n => simp [Machine.serveSlice, settleOverflow_of_none h.noOverflow, h.noneWaits, nextWaiting]

end

theorem nextWaiting_singleton (m : Msg) : nextWaiting [m] = some m := by
  unfold nextWaiting
  by_cases hs : 16 ≤ m.skips
  · simp [hs]
  · simp [hs]

/-! ## One request at such a slice -/

/-- The request waits alone. -/
def queued (u : State) (m : Msg) : State := { u with coh := { u.coh with waitq := [m] } }

theorem queued_waitq (u : State) (m : Msg) : (queued u m).coh.waitq = [m] := rfl

theorem noteBound_coh (s : State) (m : Msg) : (noteBound s m).coh = s.coh := by
  unfold noteBound
  split
  · rfl
  · dsimp only
    split
    · exact regAddSat_coh ..
    · rfl

/-- MEM_FROND_BOUND is no register of the agents' health (R411, R441). -/
theorem deadAgent_noteBound (s : State) (m : Msg) (a : Nat) : deadAgent (noteBound s m) a = deadAgent s a := by
  have hreg : regGet (noteBound s m) aCohDead = regGet s aCohDead := by
    unfold noteBound
    split
    · rfl
    · dsimp only
      split
      · exact regGet_regSet_other s _ (by decide)
      · rfl
  rw [deadAgent, deadAgent, regB, regB, hreg]

/-- With no transaction on its line a request takes no read over (R440). -/
theorem noteBound_of_idle {s : State} {m : Msg} (h : txnFind s m.line = none) : noteBound s m = s := by
  simp [noteBound, h]

theorem accept_of_dead {u : State} {m : Msg} (h : deadAgent u m.agent = true) : accept u m = u := by
  simp [accept, h]

/-- No request of a dead agent waits: none is discarded (R411). -/
theorem pump_of_alive {s : State} (h : ∀ m ∈ s.coh.waitq, deadAgent s m.agent = false) (k : Nat) :
    pump s k = serveSlice s k (3 * s.coh.waitq.length + 1) := by
  have hkeep : (s.coh.waitq.filter fun m => !deadAgent s m.agent) = s.coh.waitq :=
    List.filter_eq_self.2 fun m hm => by simp [h m hm]
  rw [pump]
  simp only [hkeep]

section
variable {u : State} {net : List Msg} (hu : Calm net u) {m : Msg} (hd : deadAgent u m.agent = false)
include hu hd

/-- The request joins the queue, and its slice serves what it can. -/
theorem accept_of_calm : accept u m = serveSlice (noteBound (queued u m) m) (homeOf u m.line) 4 := by
  have hq : ({ u with coh := { u.coh with waitq := u.coh.waitq ++ [m] } } : State) = queued u m := by
    rw [hu.noneWaits]
    rfl
  have hwait : (noteBound (queued u m) m).coh.waitq = [m] := by rw [noteBound_coh]; rfl
  have halive : ∀ x ∈ (noteBound (queued u m) m).coh.waitq, deadAgent (noteBound (queued u m) m) x.agent = false := by
    rw [hwait]
    intro x hx
    rw [List.mem_singleton.1 hx, deadAgent_noteBound]
    exact hd
  simp only [accept, hd, hq, pump_of_alive halive, hwait]
  rfl

/-- A request of a busy line waits (R375). -/
theorem accept_of_busy (ht : txnFind u m.line ≠ none) : (accept u m).coh = { u.coh with waitq := [m] } := by
  have hcoh : (noteBound (queued u m) m).coh = { u.coh with waitq := [m] } := noteBound_coh ..
  have hsettled : settleOverflow (noteBound (queued u m) m) = noteBound (queued u m) m :=
    settleOverflow_of_none (by rw [hcoh]; exact hu.noOverflow)
  have hbusy : serveable (noteBound (queued u m) m) m = false := by
    have : (txnFind (noteBound (queued u m) m) m.line).isNone = false := by
      rw [txnFind_congr (s := u) (by rw [hcoh])]
      exact Option.isNone_eq_false_iff.2 (Option.isSome_iff_ne_none.2 ht)
    simp [serveable, this]
  rw [accept_of_calm hu hd]
  simp [Machine.serveSlice, hsettled, hcoh, hbusy, nextWaiting]

/-- A request that its slice can act on is acted on. -/
theorem accept_of_serveable (ht : txnFind u m.line = none) (hs : serveable (queued u m) m = true) :
    accept u m = serveSlice (serveOne (queued u m) m) (homeOf u m.line) 3 := by
  have hidle : noteBound (queued u m) m = queued u m := noteBound_of_idle ht
  have hsettled : settleOverflow (queued u m) = queued u m := settleOverflow_of_none hu.noOverflow
  have hpick : ((queued u m).coh.waitq.filter fun x => homeOf (queued u m) x.line = homeOf u m.line &&
      serveable (queued u m) x) = [m] := by
    have hhome : homeOf (queued u m) m.line = homeOf u m.line := rfl
    rw [queued_waitq, List.filter_singleton, hs, hhome]
    simp
  rw [accept_of_calm hu hd, hidle, Machine.serveSlice]
  simp only [hsettled, hpick, nextWaiting_singleton]

/-- Where that leaves nothing waiting, it is all that happens. -/
theorem accept_eq_serveOne (ht : txnFind u m.line = none) (hs : serveable (queued u m) m = true) {net' : List Msg}
    (hafter : Calm net' (serveOne (queued u m) m)) : accept u m = serveOne (queued u m) m := by
  rw [accept_of_serveable hu hd ht hs, hafter.serveSlice]

end

/-- Frond cores alone are of class 0 (R375). -/
theorem classOf_ne_zero {a : Nat} (h : a < 16 ∨ 32 ≤ a) : classOf a ≠ 0 := by
  obtain h | h := h
  · simp [classOf, h]
  · simp only [classOf, if_neg (show ¬a < 16 by omega), if_neg (show ¬a < 32 by omega)]
    split <;> decide

/-- The request as the slice serves it, without the notes it kept of its wait. -/
def unnoted (m : Msg) : Msg := { m with skips := 0, recalling := false }

/-- The entry of a line that the directory does not hold (R374). -/
def freshEntry (u : State) (l : Nat) : DirEntry := ⟨l, false, isTwin u (8 * l), true, 0, none⟩

section
variable {u : State} {m : Msg} (hw : u.coh.waitq = []) (ht : txnFind u m.line = none)

include hw in
/-- The request that waited alone leaves no other behind. -/
theorem startRequest_queued (e : DirEntry) : startRequest (queued u m) m e = beginTxn u (unnoted m) e := by
  have hnone : ((queued u m).coh.waitq.filter fun x => !sameRequest x m) = [] := by simp [queued, sameRequest]
  have hu : ({ queued u m with coh := { (queued u m).coh with waitq := [] } } : State) = u := by
    rw [← hw]
    rfl
  unfold startRequest
  simp only [hnone, List.map_nil, hu]
  rfl

include ht

theorem serveable_of_entry {e : DirEntry} (he : dirFind u m.line = some e) : serveable (queued u m) m = true := by
  have ht' : txnFind (queued u m) m.line = none := ht
  have he' : dirFind (queued u m) m.line = some e := he
  simp [serveable, ht', he']

theorem serveable_of_room (hn : dirFind u m.line = none) (hr : dirRoom u m.line = .free) :
    serveable (queued u m) m = true := by
  have ht' : txnFind (queued u m) m.line = none := ht
  have hn' : dirFind (queued u m) m.line = none := hn
  have hr' : dirRoom (queued u m) m.line = .free := hr
  simp [serveable, ht', hn', hr']

theorem serveable_of_full (hn : dirFind u m.line = none) (hr : dirRoom u m.line = .full) (hm : m.recalling = false)
    (hc : classOf m.agent ≠ 0) : serveable (queued u m) m = true := by
  have ht' : txnFind (queued u m) m.line = none := ht
  have hn' : dirFind (queued u m) m.line = none := hn
  have hr' : dirRoom (queued u m) m.line = .full := hr
  simp [serveable, ht', hn', hr', recallRuns, hm, hc]

end

section
variable {u : State} {net : List Msg} (hu : Calm net u) {m : Msg} (hd : deadAgent u m.agent = false)
  (ht : txnFind u m.line = none)
include hu hd ht

/-- A request of a line that the directory holds opens its transaction on the entry. -/
theorem accept_of_entry {e : DirEntry} (he : dirFind u m.line = some e) {net' : List Msg}
    (hafter : Calm net' (beginTxn u (unnoted m) e)) : accept u m = beginTxn u (unnoted m) e := by
  have he' : dirFind (queued u m) m.line = some e := he
  have hserve : serveOne (queued u m) m = beginTxn u (unnoted m) e := by
    simp only [serveOne, he', startRequest_queued hu.noneWaits]
  rw [accept_eq_serveOne hu hd ht (serveable_of_entry ht he) (net' := net') (hserve ▸ hafter), hserve]

/-- One of a line that it does not hold, on a fresh entry. -/
theorem accept_of_room (hn : dirFind u m.line = none) (hr : dirRoom u m.line = .free) {net' : List Msg}
    (hafter : Calm net' (beginTxn u (unnoted m) (freshEntry u m.line))) :
    accept u m = beginTxn u (unnoted m) (freshEntry u m.line) := by
  have hn' : dirFind (queued u m) m.line = none := hn
  have hr' : dirRoom (queued u m) m.line = .free := hr
  have hserve : serveOne (queued u m) m = beginTxn u (unnoted m) (freshEntry u m.line) := by
    simp only [serveOne, hn', hr', startRequest_queued hu.noneWaits]
    rfl
  rw [accept_eq_serveOne hu hd ht (serveable_of_room ht hn hr) (net' := net') (hserve ▸ hafter), hserve]

/-- In a full set a request of no Frond core is refused (R377). -/
theorem accept_of_full (hn : dirFind u m.line = none) (hr : dirRoom u m.line = .full) (hm : m.recalling = false)
    (hc : classOf m.agent ≠ 0) : (accept u m).coh.net = net ++ [{ mkMsg .Retry m.agent m.line with
      twin := m.twin, n := Nat.min m.n 4, txn := m.txn, req := m.type }] := by
  have hn' : dirFind (queued u m) m.line = none := hn
  have hr' : dirRoom (queued u m) m.line = .full := hr
  have hafter : Calm (net ++ [{ mkMsg .Retry m.agent m.line with
      twin := m.twin, n := Nat.min m.n 4, txn := m.txn, req := m.type }]) (serveOne (queued u m) m) := by
    simp only [serveOne, hn', hr', if_neg hc]
    have hleft : ((queued u m).coh.waitq.filter fun x => !sameRequest x m) = [] := by simp [queued, sameRequest]
    rw [hleft]
    refine Calm.send (Calm.refused ?_ _) rfl
    have hout : Calm net { queued u m with coh := { (queued u m).coh with waitq := [] } } :=
      ⟨hu.inFlight, rfl, hu.noOverflow⟩
    have hcounted := hout.of_coh
      (t := count (regAddSat _ (aCohRetry (homeOf u m.line)) 47 0 1) (32 + homeOf u m.line) 0x43)
      (regAddSat_coh ..)
    split
    · exact hcounted.of_coh (assertEdge_coh ..)
    · exact hcounted
  rw [accept_eq_serveOne hu hd ht (serveable_of_full ht hn hr hm hc) hafter, hafter.inFlight]

end

end Sys2Proof.Machine
end

section
/-! Transactions at their home slice (R374, R381, R383, R389): how one is opened, snoops, and is answered. -/

namespace Sys2Proof.Machine

open Sys2Proof

/-! ## Opening a transaction (R374, R383, R389) -/

/-- The request as the slice serves it: an upgrade whose requester is marked no more is a RdU (R389). -/
def servedAs (m : Msg) (e : DirEntry) : Msg :=
  if m.type = .Upg && !(e.vec.getLsbD m.agent && !e.exclusive) then { m with type := .RdU } else m

/-- The transaction of a request on an entry, before its snoops. -/
def openTxn (m : Msg) (e : DirEntry) : Txn := ⟨m, [], false, none, false, false, false, false, false, e.vec = 0⟩

/-- The slice with the entry busy. -/
def opened (u : State) (e : DirEntry) (l : Nat) : State := count (dirPut u { e with busy := true }) (32 + homeOf u l) 0x40

theorem servedAs_of_ne {m : Msg} (h : m.type ≠ .Upg) (e : DirEntry) : servedAs m e = m := by
  simp [servedAs, h]

/-- An upgrade whose requester is no sharer is a RdU (R389). -/
theorem servedAs_of_unmarked_upg {m : Msg} (h : m.type = .Upg) {e : DirEntry}
    (hb : e.vec.getLsbD m.agent = false ∨ e.exclusive = true) : servedAs m e = { m with type := .RdU } := by
  obtain hb | hb := hb
  · simp [servedAs, h, hb]
  · simp [servedAs, h, hb]

@[simp] theorem servedAs_line (m : Msg) (e : DirEntry) : (servedAs m e).line = m.line := by
  unfold servedAs; split <;> rfl

/-- A speculative read that snoops is counted (R384, R713). -/
def specNoted (s : State) (m : Msg) (targets : List Nat) : State :=
  if m.type = .RdS && m.spec && !targets.isEmpty then
    count (regAddSat s (aCohSpec (homeOf s m.line)) 47 0 1) (32 + homeOf s m.line) 0x44
  else s

theorem specNoted_coh (s : State) (m : Msg) (targets : List Nat) : (specNoted s m targets).coh = s.coh := by
  unfold specNoted
  split
  · exact regAddSat_coh ..
  · rfl

theorem beginTxn_of_snoops {u : State} {m : Msg} {e : DirEntry} (hm : m.type ≠ .WrStash) {ty : MsgType}
    {targets : List Nat} (hs : snoopsFor (servedAs m e) e = (ty, targets)) {s : State} {t : Txn}
    (hsent : sendSnoops (specNoted (opened u e m.line) (servedAs m e) targets) (openTxn (servedAs m e) e) ty targets
      e.exclusive = (s, t)) : beginTxn u m e = advance (txnPut s t) m.line := by
  have hserved : (if m.type = .Upg && !(e.vec.getLsbD m.agent && !e.exclusive) then { m with type := .RdU }
      else if m.type = .WrStash && stashRefused u m.tgt then { m with type := .WrInv } else m) = servedAs m e := by
    simp [servedAs, hm]
  unfold beginTxn
  rw [hserved]
  dsimp only
  rw [hs]
  dsimp only
  rw [← servedAs_line m e] at hsent ⊢
  unfold specNoted opened openTxn at hsent
  rw [hsent]

theorem beginTxn_of_unsnooped {u : State} {m : Msg} {e : DirEntry} (hm : m.type ≠ .WrStash)
    (hs : (snoopsFor (servedAs m e) e).2 = []) :
    beginTxn u m e = advance (txnPut (opened u e m.line) (openTxn (servedAs m e) e)) m.line := by
  have hpair : snoopsFor (servedAs m e) e = ((snoopsFor (servedAs m e) e).1, []) := Prod.ext rfl hs
  refine beginTxn_of_snoops hm hpair ?_
  have hquiet : specNoted (opened u e m.line) (servedAs m e) [] = opened u e m.line := by simp [specNoted]
  rw [hquiet]
  rfl

/-! ## Snoops (R381, R383) -/

theorem txnFind_txnPut (s : State) (t : Txn) : txnFind (txnPut s t) t.req.line = some t := by
  have hgone : (s.coh.txns.filter fun x => x.req.line ≠ t.req.line).find?
      (fun x => x.req.line = t.req.line) = none := by
    simp
  rw [txnFind, txnPut]
  simp only [txnDel, List.find?_append, hgone]
  simp

/-- The registers of the slices and the counters leave the agents' health alone. -/
theorem deadAgent_specNoted (s : State) (m : Msg) (targets : List Nat) (a : Nat) :
    deadAgent (specNoted s m targets) a = deadAgent s a := by
  have hreg : regGet (specNoted s m targets) aCohDead = regGet s aCohDead := by
    unfold specNoted
    split
    · exact regGet_regSet_other s _ (show 0x800040001 ≠ 0x800040100 + 8 * homeOf s m.line by omega)
    · rfl
  rw [deadAgent, deadAgent, regB, regB, hreg]

theorem sendSnoops_of_alive {s : State} {b : Nat} (hb : deadAgent s b = false) (t : Txn) (ty : MsgType) (excl : Bool) :
    sendSnoops s t ty [b] excl =
      (count (send (drawTag s).2 { mkMsg ty b t.req.line with twin := t.req.twin, txn := s.coh.tag })
        (32 + homeOf s t.req.line) 0x42,
      { t with
        snoops := t.snoops ++ [⟨b, ty, s.coh.tag, s.now, regF s aCohDirCtl 7 0 * 1000, false, false, none⟩]
        snooped := t.snooped || b ≠ t.req.agent }) := by
  have hb' : deadAgent (drawTag s).2 b = false := hb
  simp only [sendSnoops, List.isEmpty_cons, Bool.false_eq_true, if_false, List.foldl_cons, List.foldl_nil, hb']
  rfl

/-- A snoop of one living agent leaves under the slice's next tag. -/
theorem Calm.sendSnoop {net : List Msg} {s : State} (h : Calm net s) (t : Txn) {ty : MsgType} (hty : ty.keepsTag = true)
    {b : Nat} (hb : deadAgent s b = false) (excl : Bool) : ∃ s' t', sendSnoops s t ty [b] excl = (s', t') ∧
      Calm (net ++ [{ mkMsg ty b t.req.line with twin := t.req.twin, txn := s.coh.tag }]) s' ∧
      t'.req = t.req ∧ t'.snoops ≠ [] := by
  have hdrawn : Calm net (drawTag s).2 := ⟨h.inFlight, h.noneWaits, h.noOverflow⟩
  exact ⟨_, _, sendSnoops_of_alive hb t ty excl, (hdrawn.send hty).of_coh rfl, rfl, by simp⟩

/-- A transaction that waits for an answer goes no further. -/
theorem advance_of_snoops {s : State} {t : Txn} (h : t.snoops ≠ []) :
    advance (txnPut s t) t.req.line = txnPut s t := by
  simp [advance, txnFind_txnPut, h]

theorem beginTxn_of_snooped {u : State} {m : Msg} {e : DirEntry} {net : List Msg} {ty : MsgType} {b : Nat}
    (hu : Calm net u) (he : e.overflow = none) (hm : m.type ≠ .WrStash)
    (hs : snoopsFor (servedAs m e) e = (ty, [b])) (hty : ty.keepsTag = true) (hb : deadAgent u b = false) :
    Calm (net ++ [{ mkMsg ty b m.line with twin := m.twin, txn := u.coh.tag }]) (beginTxn u m e) := by
  obtain ⟨dir, hdir⟩ := dirPut_eq u { e with busy := true }
  have hcoh : (specNoted (opened u e m.line) (servedAs m e) [b]).coh = { u.coh with dir := dir } := by
    rw [specNoted_coh, opened, hdir]
    rfl
  have hcalm : Calm net (specNoted (opened u e m.line) (servedAs m e) [b]) := by
    refine (hu.dirPut (e := { e with busy := true }) he).of_coh ?_
    rw [hcoh, hdir]
  have halive : deadAgent (specNoted (opened u e m.line) (servedAs m e) [b]) b = false := by
    rw [deadAgent_specNoted, opened, hdir]
    exact hb
  obtain ⟨s', t', hsent, hafter, hreq, hopen⟩ := hcalm.sendSnoop (openTxn (servedAs m e) e) hty halive e.exclusive
  rw [beginTxn_of_snoops hm hs hsent]
  have hline : m.line = t'.req.line := by rw [hreq]; exact (servedAs_line m e).symm
  rw [hline, advance_of_snoops hopen, ← hline]
  have htwin : (servedAs m e).twin = m.twin := by unfold servedAs; split <;> rfl
  rw [hcoh] at hafter
  simpa [openTxn, htwin] using hafter.txnPut t'

/-! ## Opened transactions (R374, R383) -/

/-- A transaction that has just opened, with its snoops answered: nothing poisoned, nothing dirty, nothing granted. -/
structure Txn.Opened (t : Txn) : Prop where
  snoops : t.snoops = []
  granted : t.granted = false
  needDram : t.needDram = false
  victim : t.victim = false
  poisonAll : t.poisonAll = false
  dirtyData : t.dirtyData = none
  snooped : t.snooped = false
  stash : t.req.type ≠ .WrStash

theorem openTxn_opened {m : Msg} (h : m.type ≠ .WrStash) (e : DirEntry) : (openTxn m e).Opened :=
  ⟨rfl, rfl, rfl, rfl, rfl, rfl, rfl, h⟩

section
variable {s : State} {t : Txn} (ht : t.Opened)
include ht

/-- One that needs no words completes at once. -/
theorem advance_of_wordless (hn : needsData t.req = false) :
    advance (txnPut s t) t.req.line = finishTxn (txnPut s t) t [] := by
  obtain ⟨hs, hg, hd, hv, hp, hdirty, -, hm⟩ := ht
  simp [advance, txnFind_txnPut, hg, hs, hd, hv, hp, hm, hn, hdirty]

variable (hn : needsData t.req = true)
include hn

/-- One whose words the L3 holds completes with them. -/
theorem advance_of_l3 {x : L3Line} (hx : l3Find s t.req.line = some x) :
    advance (txnPut s t) t.req.line = finishTxn (txnPut s t) t x.data := by
  obtain ⟨hs, hg, hd, hv, hp, hdirty, -, hm⟩ := ht
  have hbase : txnBase (txnPut s t) t = some x.data := by
    have hx' : l3Find (txnPut s t) t.req.line = some x := hx
    simp [txnBase, hp, hdirty, hx']
  simp [advance, txnFind_txnPut, hg, hs, hd, hv, hp, hm, hn, hbase]

/-- One whose words it does not hold goes to DRAM. -/
theorem advance_of_miss (hx : l3Find s t.req.line = none) :
    advance (txnPut s t) t.req.line = askDram (txnPut s t) t := by
  obtain ⟨hs, hg, hd, hv, hp, hdirty, -, -⟩ := ht
  have hbase : txnBase (txnPut s t) t = none := by
    have hx' : l3Find (txnPut s t) t.req.line = none := hx
    simp [txnBase, hp, hdirty, hx']
  simp [advance, txnFind_txnPut, hg, hs, hd, hv, hp, hn, hbase]

end

/-! ## Answers (R374, R383) -/

/-- The slice has answered with n, and its transaction waits for the CmpAck. -/
structure Answered (net : List Msg) (l : Nat) (n : Msg) (s : State) : Prop where
  calm : Calm (net ++ [n]) s
  granted : ∃ t, txnFind s l = some t ∧ t.granted = true

/-- The answer n of a transaction, under the request's tag. -/
def answerOf (r : Msg) (n : Msg) : Msg := { n with req := r.type, txn := r.txn }

/-- The line or pair with its tag, in the answer of a read. -/
def dataMsg (r : Msg) (d : LineData) : Msg := { mkMsg .Data r.agent r.line with twin := r.twin, data := d }

/-- The completion of a request. -/
def cmpMsg (r : Msg) : Msg := { mkMsg .Cmp r.agent r.line with twin := r.twin }

theorem Calm.reply {net : List Msg} {s : State} (h : Calm net s) (t : Txn) {n : Msg} (hn : n.type.keepsTag = true) :
    Answered net t.req.line (answerOf t.req n) (reply s t n) :=
  ⟨(h.send (m := answerOf t.req n) hn).txnPut _, _, txnFind_txnPut _ { t with granted := true }, rfl⟩

section
variable {net : List Msg} {s : State} (h : Calm net s) {t : Txn} (ht : t.Opened) (base : LineData)
include h

/-- A calm slice stays calm as a transaction marks the entry of its line. -/
theorem Calm.mark {s' : State} (hs' : Calm net s') (t : Txn) (ex : Bool) (vec : BitVec 64) :
    Calm net (Machine.dirPut s' { Machine.entryOf s t with exclusive := ex, vec := vec }) :=
  hs'.dirPut (h.entryOf t)

/-- A store or a write puts its words in the L3. -/
theorem finishTxn_write (hr : t.req.type = .WrNC ∨ t.req.type = .WrThru ∨ t.req.type = .WrInv) :
    Answered net t.req.line (answerOf t.req (cmpMsg t.req)) (finishTxn s t base) := by
  have hfin : ∃ d ex vec, finishTxn s t base = reply
      (dirPut (l3Put s t.req.line d true) { entryOf s t with exclusive := ex, vec := vec }) t (cmpMsg t.req) := by
    obtain hr | hr | hr := hr
    · exact ⟨mergeStore t.req base, (entryOf s t).exclusive, _, by simp only [finishTxn, hr]; rfl⟩
    · exact ⟨mergeStore t.req base, (entryOf s t).exclusive, _, by simp only [finishTxn, hr]; rfl⟩
    · exact ⟨mergeWords t.req.twin base t.req.wmask t.req.data, false, 0, by simp only [finishTxn, hr]; rfl⟩
  obtain ⟨d, ex, vec, hfin⟩ := hfin
  rw [hfin]
  exact (h.mark (h.onlyL3 (onlyL3_l3Put ..)) t _ _).reply t rfl

/-- An atomic answers with the old value of its word, and the new line stands in the L3 (R168, R404). -/
theorem finishTxn_atomF (hr : t.req.type = .AtomF) : ∃ c, Answered net t.req.line (answerOf t.req { cmpMsg t.req with
    word := (atomicLine t.req base).1, c := c, fail := (atomicLine t.req base).2.2 }) (finishTxn s t base) := by
  have hfin : ∃ s' : State, Calm net s' ∧ finishTxn s t base = reply
      (dirPut (l3Put s' t.req.line (atomicLine t.req base).2.1 true)
        { entryOf s t with exclusive := false, vec := 0 }) t { cmpMsg t.req with
          word := (atomicLine t.req base).1, c := (farHint s t).1, fail := (atomicLine t.req base).2.2 } :=
    ⟨count (farHint s t).2 _ 0x47 _, (h.farHint t).of_coh rfl, by simp only [finishTxn, hr]; rfl⟩
  obtain ⟨s', hs', hfin⟩ := hfin
  rw [hfin]
  exact ⟨_, (h.mark (hs'.onlyL3 (onlyL3_l3Put ..)) t _ _).reply t rfl⟩

include ht

theorem finishTxn_rdS (hr : t.req.type = .RdS) (hu : t.uncached = true) : Answered net t.req.line
    (answerOf t.req { dataMsg t.req base with gnt := if t.req.isFetch then 1 else 2 }) (finishTxn s t base) := by
  have hfin : finishTxn s t base = reply
      (dirPut s { entryOf s t with exclusive := !t.req.isFetch, vec := vecSet 0 t.req.agent true }) t
      { dataMsg t.req base with gnt := if t.req.isFetch then 1 else 2 } := by
    obtain ⟨-, -, -, -, hp, -, hs, -⟩ := ht
    simp only [finishTxn, hr, hu, hp, hs]
    cases t.req.isFetch <;> rfl
  rw [hfin]
  exact (h.mark h t _ _).reply t rfl

theorem finishTxn_rdU (hr : t.req.type = .RdU) : Answered net t.req.line
    (answerOf t.req { dataMsg t.req base with gnt := 2 }) (finishTxn s t base) := by
  have hfin : finishTxn s t base = reply
      (dirPut s { entryOf s t with exclusive := true, vec := vecSet 0 t.req.agent true }) t
      { dataMsg t.req base with gnt := 2 } := by
    obtain ⟨-, -, -, -, hp, hd, hs, -⟩ := ht
    simp only [finishTxn, hr, hp, hd, hs]
    rfl
  rw [hfin]
  exact (h.mark h t _ _).reply t rfl

/-- The one sharer owns the line (R389). -/
theorem finishTxn_upg (hr : t.req.type = .Upg) : Answered net t.req.line
    (answerOf t.req { mkMsg .GrantU t.req.agent t.req.line with twin := t.req.twin }) (finishTxn s t base) := by
  have hfin : finishTxn s t base = reply
      (dirPut s { entryOf s t with exclusive := true, vec := vecSet 0 t.req.agent true }) t
      { mkMsg .GrantU t.req.agent t.req.line with twin := t.req.twin } := by
    obtain ⟨-, -, -, -, hp, -, hs, -⟩ := ht
    simp only [finishTxn, hr, hp, hs]
    rfl
  rw [hfin]
  exact (h.mark h t _ _).reply t rfl

theorem finishTxn_rdUZ (hr : t.req.type = .RdUZ) : Answered net t.req.line
    (answerOf t.req { dataMsg t.req (pairData t.req.twin (List.replicate 8 (0, false))) with gnt := 3 })
    (finishTxn s t base) := by
  have hfin : finishTxn s t base = reply
      (dirPut (l3Drop s t.req.line) { entryOf s t with exclusive := true, vec := vecSet 0 t.req.agent true }) t
      { dataMsg t.req (pairData t.req.twin (List.replicate 8 (0, false))) with gnt := 3 } := by
    obtain ⟨-, -, -, -, -, -, hs, -⟩ := ht
    simp only [finishTxn, hr, hs]
    rfl
  rw [hfin]
  exact (h.mark (h.onlyL3 (onlyL3_l3Drop ..)) t _ _).reply t rfl

/-- A read that leaves the state as it is. -/
theorem finishTxn_rdIO (hr : t.req.type = .RdIO ∨ t.req.type = .RdNC) : Answered net t.req.line
    (answerOf t.req (dataMsg t.req base)) (finishTxn s t base) := by
  have hfin : finishTxn s t base = reply s t (dataMsg t.req base) := by
    obtain ⟨-, -, -, -, hp, hd, hs, -⟩ := ht
    obtain hr | hr := hr
    · simp only [finishTxn, hr, hp, hd, hs]
      rfl
    · simp only [finishTxn, hr, hp, hd, hs]
      rfl
  rw [hfin]
  exact h.reply t rfl

/-- A clean writes dirty words of the L3 to DRAM and keeps them, clean. -/
theorem finishTxn_clean (hr : t.req.type = .Clean) :
    Answered net t.req.line (answerOf t.req (cmpMsg t.req)) (finishTxn s t base) := by
  have hfin : ∃ s' : State, Calm net s' ∧ finishTxn s t base = reply s' t (cmpMsg t.req) := by
    obtain ⟨-, -, -, -, hp, hd, -, -⟩ := ht
    cases hx : l3Find s t.req.line with
    | none =>
      simp only [finishTxn, hr, hp, hd, hx, Bool.false_eq_true, if_false]
      exact ⟨s, h, rfl⟩
    | some x =>
      simp only [finishTxn, hr, hp, hd, hx, Bool.false_eq_true, if_false]
      split
      · exact ⟨_, (h.of_coh (homeWrite_coh ..)).onlyL3 (onlyL3_l3Put ..), rfl⟩
      · exact ⟨s, h, rfl⟩
  obtain ⟨s', hs', hfin⟩ := hfin
  rw [hfin]
  exact hs'.reply t rfl

/-- A flush writes them too, and no copy of the line stays. -/
theorem finishTxn_flush (hr : t.req.type = .Flush) :
    Answered net t.req.line (answerOf t.req (cmpMsg t.req)) (finishTxn s t base) := by
  have hfin : ∃ s' : State, Calm net s' ∧ finishTxn s t base = reply
      (dirPut (l3Drop s' t.req.line) { entryOf s t with vec := 0, exclusive := false }) t (cmpMsg t.req) := by
    obtain ⟨-, -, -, -, hp, hd, -, -⟩ := ht
    cases hx : l3Find s t.req.line with
    | none =>
      simp only [finishTxn, hr, hp, hd, hx, Bool.false_eq_true, if_false]
      exact ⟨s, h, rfl⟩
    | some x =>
      simp only [finishTxn, hr, hp, hd, hx, Bool.false_eq_true, if_false]
      split
      · exact ⟨_, h.of_coh (homeWrite_coh ..), rfl⟩
      · exact ⟨s, h, rfl⟩
  obtain ⟨s', hs', hfin⟩ := hfin
  rw [hfin]
  exact (h.mark (hs'.onlyL3 (onlyL3_l3Drop ..)) t _ _).reply t rfl

end

/-- A transaction that goes to DRAM sends nothing meanwhile (R383). -/
theorem askDram_of_calm {net : List Msg} {s : State} (h : Calm net s) (t : Txn) : Calm net (askDram s t) ∧
    ∃ t', txnFind (askDram s t) t.req.line = some t' ∧ t'.needDram = true := by
  have hnone : (txnPut s { t with needDram := true }).coh.waitq = [] := h.noneWaits
  have hcoh : (askDram s t).coh = (txnPut s { t with needDram := true }).coh := by
    simp only [askDram, hnone, List.filter_nil, List.foldl_nil, count_coh, noteBound_coh]
  refine ⟨(h.txnPut _).of_coh hcoh, { t with needDram := true }, ?_, rfl⟩
  rw [txnFind_congr (congrArg Coh.txns hcoh)]
  exact txnFind_txnPut s { t with needDram := true }

end Sys2Proof.Machine
end

section
/-! Requests by what the directory says of their line (R374, R383, R389). -/

namespace Sys2Proof.Machine

open Sys2Proof

/-! ## Requests of a line that nobody else holds (R383, R389) -/

theorem holders_of_unmarked {e : DirEntry} (h : e.vec = 0) : holders e = [] := by
  simp [holders, h]

/-- A line that is marked for nobody needs no snoop. -/
theorem snoopsFor_of_unmarked {e : DirEntry} (h : e.vec = 0) (m : Msg) : (snoopsFor m e).2 = [] := by
  unfold snoopsFor
  rw [holders_of_unmarked h]
  cases e.exclusive <;> cases m.type <;> rfl

/-- One agent alone is marked. -/
theorem holders_of_single {e : DirEntry} {a : Nat} (ha : a < 64) (h : e.vec = vecSet 0 a true) : holders e = [a] := by
  have hbit : ∀ n ∈ upto 64, e.vec.getLsbD n = decide (n = a) := by
    intro n hn
    have hn' : n < 64 := List.mem_range.1 hn
    rw [h, vecSet, if_pos rfl, show (0 : BitVec 64) ||| 1#64 <<< a = 1#64 <<< a from BitVec.zero_or,
      BitVec.getLsbD_shiftLeft, BitVec.getLsbD_one, Bool.eq_iff_iff]
    simp only [Bool.and_eq_true, Bool.not_eq_true', decide_eq_true_eq, decide_eq_false_iff_not]
    omega
  rw [holders, List.filter_congr hbit, upto, List.filter_eq,
    List.count_eq_one_of_mem List.nodup_range (List.mem_range.2 ha)]
  rfl

/-- What a slice that begins a transaction does once its snoops are answered, on the state that has the entry busy. -/
theorem calm_opened {u : State} {net : List Msg} (hu : Calm net u) {e : DirEntry} (he : e.overflow = none) (l : Nat)
    (t : Txn) : Calm net (opened u e l) ∧ Calm net (txnPut (opened u e l) t) := by
  have h : Calm net (opened u e l) := (hu.dirPut (e := { e with busy := true }) he).of_coh rfl
  exact ⟨h, h.txnPut t⟩

theorem servedAs_ne_stash {m : Msg} (hm : m.type ≠ .WrStash) (e : DirEntry) : (servedAs m e).type ≠ .WrStash := by
  unfold servedAs
  split
  · simp
  · exact hm

section
variable {u : State} {m r : Msg} {e : DirEntry} (hm : m.type ≠ .WrStash) (hr : servedAs m e = r)
  (hs : (snoopsFor r e).2 = [])
include hm hr hs

/-- With no agent to snoop, the request goes on at once. -/
theorem beginTxn_of_quiet : (openTxn r e).Opened ∧ r.line = m.line ∧
    beginTxn u m e = advance (txnPut (opened u e r.line) (openTxn r e)) r.line := by
  subst hr
  refine ⟨openTxn_opened (servedAs_ne_stash hm e) e, servedAs_line m e, ?_⟩
  rw [beginTxn_of_unsnooped hm hs, servedAs_line]

theorem beginTxn_of_wordless (hn : needsData r = false) :
    beginTxn u m e = finishTxn (txnPut (opened u e m.line) (openTxn r e)) (openTxn r e) [] := by
  obtain ⟨hopen, hline, hbegin⟩ := beginTxn_of_quiet (u := u) hm hr hs
  rw [hbegin, ← hline]
  exact advance_of_wordless hopen hn

variable (hn : needsData r = true)
include hn

theorem beginTxn_of_l3 {x : L3Line} (hx : l3Find u m.line = some x) :
    beginTxn u m e = finishTxn (txnPut (opened u e m.line) (openTxn r e)) (openTxn r e) x.data := by
  obtain ⟨hopen, hline, hbegin⟩ := beginTxn_of_quiet (u := u) hm hr hs
  obtain ⟨dir, hdir⟩ := dirPut_eq u { e with busy := true }
  rw [← hline] at hx ⊢
  have hx' : l3Find (opened u e r.line) r.line = some x := by
    rw [opened, hdir]
    exact hx
  rw [hbegin]
  exact advance_of_l3 hopen hn hx'

theorem beginTxn_of_miss (hx : l3Find u m.line = none) :
    beginTxn u m e = askDram (txnPut (opened u e m.line) (openTxn r e)) (openTxn r e) := by
  obtain ⟨hopen, hline, hbegin⟩ := beginTxn_of_quiet (u := u) hm hr hs
  obtain ⟨dir, hdir⟩ := dirPut_eq u { e with busy := true }
  rw [← hline] at hx ⊢
  have hx' : l3Find (opened u e r.line) r.line = none := by
    rw [opened, hdir]
    exact hx
  rw [hbegin]
  exact advance_of_miss hopen hn hx'

end

section
variable {u : State} {net : List Msg} (hu : Calm net u) {m : Msg} (hd : deadAgent u m.agent = false)
  (ht : txnFind u m.line = none) (hn : dirFind u m.line = none) (hroom : dirRoom u m.line = .free)
  (hm : m.type ≠ .WrStash) {r : Msg} (hr : servedAs (unnoted m) (freshEntry u m.line) = r)
include hu hd ht hn hroom

theorem accept_answered {n : Msg} (h : Answered net m.line n (beginTxn u (unnoted m) (freshEntry u m.line))) :
    (accept u m).coh.net = net ++ [n] ∧ ∃ t, txnFind (accept u m) m.line = some t ∧ t.granted = true := by
  rw [accept_of_room hu hd ht hn hroom h.calm]
  exact ⟨h.calm.inFlight, h.granted⟩

include hm hr

/-- A request whose words the L3 holds is answered as its transaction completes with them. -/
theorem accept_of_l3 (hneed : needsData r = true) {x : L3Line} (hx : l3Find u m.line = some x) :
    ∃ s, Calm net s ∧ (openTxn r (freshEntry u m.line)).Opened ∧ ∀ n,
      Answered net m.line n (finishTxn s (openTxn r (freshEntry u m.line)) x.data) →
      (accept u m).coh.net = net ++ [n] ∧ ∃ t, txnFind (accept u m) m.line = some t ∧ t.granted = true := by
  have hquiet : (snoopsFor r (freshEntry u m.line)).2 = [] := snoopsFor_of_unmarked rfl r
  refine ⟨_, (calm_opened hu (e := freshEntry u m.line) rfl m.line (openTxn r (freshEntry u m.line))).2,
    (beginTxn_of_quiet (u := u) (m := unnoted m) hm hr hquiet).1, fun n h => ?_⟩
  refine accept_answered hu hd ht hn hroom ?_
  rwa [beginTxn_of_l3 (m := unnoted m) hm hr hquiet hneed hx]

/-- One that needs none is answered in any case. -/
theorem accept_of_wordless (hneed : needsData r = false) :
    ∃ s, Calm net s ∧ (openTxn r (freshEntry u m.line)).Opened ∧ ∀ n,
      Answered net m.line n (finishTxn s (openTxn r (freshEntry u m.line)) []) →
      (accept u m).coh.net = net ++ [n] ∧ ∃ t, txnFind (accept u m) m.line = some t ∧ t.granted = true := by
  have hquiet : (snoopsFor r (freshEntry u m.line)).2 = [] := snoopsFor_of_unmarked rfl r
  refine ⟨_, (calm_opened hu (e := freshEntry u m.line) rfl m.line (openTxn r (freshEntry u m.line))).2,
    (beginTxn_of_quiet (u := u) (m := unnoted m) hm hr hquiet).1, fun n h => ?_⟩
  refine accept_answered hu hd ht hn hroom ?_
  rwa [beginTxn_of_wordless (m := unnoted m) hm hr hquiet hneed]

/-- One whose words it does not hold waits for DRAM. -/
theorem accept_of_miss (hneed : needsData r = true) (hx : l3Find u m.line = none) :
    (accept u m).coh.net = net ∧ ∃ t, txnFind (accept u m) m.line = some t ∧ t.needDram = true := by
  have hquiet : (snoopsFor r (freshEntry u m.line)).2 = [] := snoopsFor_of_unmarked rfl r
  obtain ⟨-, hline, -⟩ := beginTxn_of_quiet (u := u) (m := unnoted m) hm hr hquiet
  have hbegin := beginTxn_of_miss (u := u) (m := unnoted m) hm hr hquiet hneed hx
  obtain ⟨hcalm, hwaits⟩ := askDram_of_calm (calm_opened hu (e := freshEntry u m.line) rfl m.line
    (openTxn r (freshEntry u m.line))).2 (openTxn r (freshEntry u m.line))
  rw [accept_of_room hu hd ht hn hroom (hbegin ▸ hcalm), hbegin]
  refine ⟨hcalm.inFlight, ?_⟩
  rwa [show (openTxn r (freshEntry u m.line)).req.line = m.line from hline] at hwaits

end

/-- The zeros of DC.ZERO, with their complements in a pair (R369, R398). -/
theorem zeroWords (twin : Bool) : pairData twin (List.replicate 8 ((0 : Word), false)) =
    (upto (if twin then 16 else 8)).map fun i => (if i < 8 then 0 else 0xFFFFFFFFFFFF, false) := by
  cases twin
  · rfl
  · rfl

section
variable {u : State} {m : Msg} (hd : deadAgent u m.agent = false) (ht : txnFind u m.line = none)
  (hn : dirFind u m.line = none) (hroom : dirRoom u m.line = .free)
  (hq : u.coh.waitq = [] ∧ ∀ x ∈ u.coh.dir, x.overflow = none) {x : L3Line} (hx : l3Find u m.line = some x)

/-- The request is answered at once with n. -/
def AnsweredAtOnce (u : State) (m n : Msg) : Prop := (accept u m).coh.net = u.coh.net ++ [n] ∧
  ∃ t, txnFind (accept u m) m.line = some t ∧ t.granted = true

include hd ht hn hroom hq

/-- A clean or a flush needs no words; nor does a write of a whole line, nor DC.ZERO. -/
theorem answered_of_wordless {ty : MsgType} (hm : m.type = ty) (hty : ty ≠ .Upg ∧ ty ≠ .WrStash)
    (hneed : needsData m = false) : ∃ s, Calm u.coh.net s ∧ (openTxn (unnoted m) (freshEntry u m.line)).Opened ∧
      ∀ n, Answered u.coh.net m.line n (finishTxn s (openTxn (unnoted m) (freshEntry u m.line)) []) →
        AnsweredAtOnce u m n :=
  accept_of_wordless (calm_of_alone hq) hd ht hn hroom (hm ▸ hty.2)
    (servedAs_of_ne (m := unnoted m) (hm ▸ hty.1) _) hneed

/-- DC.ZERO gets zeros in M (R398). -/
theorem answered_rdUZ (hm : m.type = .RdUZ) : AnsweredAtOnce u m (answerOf m
    { dataMsg m (pairData m.twin (List.replicate 8 (0, false))) with gnt := 3 }) := by
  obtain ⟨s, hs, ho, hanswer⟩ := answered_of_wordless hd ht hn hroom hq hm (by decide) (by simp [needsData, hm])
  exact hanswer _ (finishTxn_rdUZ hs ho [] hm)

theorem answered_clean (hm : m.type = .Clean) : AnsweredAtOnce u m (answerOf m (cmpMsg m)) := by
  obtain ⟨s, hs, ho, hanswer⟩ := answered_of_wordless hd ht hn hroom hq hm (by decide) (by simp [needsData, hm])
  exact hanswer _ (finishTxn_clean hs ho [] hm)

theorem answered_flush (hm : m.type = .Flush) : AnsweredAtOnce u m (answerOf m (cmpMsg m)) := by
  obtain ⟨s, hs, ho, hanswer⟩ := answered_of_wordless hd ht hn hroom hq hm (by decide) (by simp [needsData, hm])
  exact hanswer _ (finishTxn_flush hs ho [] hm)

include hx

theorem answered_of_l3 {ty : MsgType} (hm : m.type = ty) (hty : ty ≠ .Upg ∧ ty ≠ .WrStash) (hneed : needsData m = true) :
    ∃ s, Calm u.coh.net s ∧ (openTxn (unnoted m) (freshEntry u m.line)).Opened ∧
      ∀ n, Answered u.coh.net m.line n (finishTxn s (openTxn (unnoted m) (freshEntry u m.line)) x.data) →
        AnsweredAtOnce u m n :=
  accept_of_l3 (calm_of_alone hq) hd ht hn hroom (hm ▸ hty.2)
    (servedAs_of_ne (m := unnoted m) (hm ▸ hty.1) _) hneed hx

/-- A load gets the line in E, a fetch in S. -/
theorem answered_rdS (hm : m.type = .RdS) :
    AnsweredAtOnce u m (answerOf m { dataMsg m x.data with gnt := if m.isFetch then 1 else 2 }) := by
  obtain ⟨s, hs, ho, hanswer⟩ := answered_of_l3 hd ht hn hroom hq hx hm (by decide) (by simp [needsData, hm])
  exact hanswer _ (finishTxn_rdS hs ho x.data hm rfl)

/-- A store gets it in E; so does an upgrade whose copy is gone, as the RdU that it has become (R389). -/
theorem answered_rdU (hm : m.type = .RdU ∨ m.type = .Upg) :
    AnsweredAtOnce u m (answerOf { m with type := .RdU } { dataMsg m x.data with gnt := 2 }) := by
  obtain hm | hm := hm
  · obtain ⟨s, hs, ho, hanswer⟩ := answered_of_l3 hd ht hn hroom hq hx hm (by decide) (by simp [needsData, hm])
    rw [← hm]
    exact hanswer _ (finishTxn_rdU hs ho x.data hm)
  · have hserved :=
      servedAs_of_unmarked_upg (m := unnoted m) hm (e := freshEntry u m.line) (.inl (BitVec.getLsbD_zero ..))
    obtain ⟨s, hs, ho, hanswer⟩ := accept_of_l3 (calm_of_alone hq) hd ht hn hroom (by simp [hm]) hserved rfl hx
    exact hanswer _ (finishTxn_rdU hs ho x.data rfl)

theorem answered_rdIO (hm : m.type = .RdIO ∨ m.type = .RdNC) :
    AnsweredAtOnce u m (answerOf m (dataMsg m x.data)) := by
  have hneed : needsData m = true := by obtain hm | hm := hm <;> simp [needsData, hm]
  obtain ⟨s, hs, ho, hanswer⟩ := answered_of_l3 hd ht hn hroom hq hx rfl
    (by obtain hm | hm := hm <;> simp [hm]) hneed
  exact hanswer _ (finishTxn_rdIO hs ho x.data hm)

/-- A store needs the words around its own, and so does a write of a part of a line. -/
theorem answered_write (hm : m.type = .WrNC ∨ m.type = .WrThru ∨ m.type = .WrInv) :
    AnsweredAtOnce u m (answerOf m (cmpMsg m)) := by
  have written {s : State} (hs : Calm u.coh.net s) (base : LineData) :=
    finishTxn_write hs (t := openTxn (unnoted m) (freshEntry u m.line)) base hm
  have hty : m.type ≠ .Upg ∧ m.type ≠ .WrStash := by obtain hm | hm | hm := hm <;> simp [hm]
  cases hneed : needsData m
  · obtain ⟨s, hs, -, hanswer⟩ := answered_of_wordless hd ht hn hroom hq rfl hty hneed
    exact hanswer _ (written hs [])
  · obtain ⟨s, hs, -, hanswer⟩ := answered_of_l3 hd ht hn hroom hq hx rfl hty hneed
    exact hanswer _ (written hs x.data)

theorem answered_atomF (hm : m.type = .AtomF) : ∃ c, AnsweredAtOnce u m (answerOf m { cmpMsg m with
    word := (atomicLine m x.data).1, c := c, fail := (atomicLine m x.data).2.2 }) := by
  obtain ⟨s, hs, -, hanswer⟩ := answered_of_l3 hd ht hn hroom hq hx hm (by decide) (by simp [needsData, hm])
  obtain ⟨c, h⟩ := finishTxn_atomF hs x.data (t := openTxn (unnoted m) (freshEntry u m.line)) hm
  exact ⟨c, hanswer _ h⟩

end

/-! ## Requests of a line that another agent holds (R383, R389) -/

/-- The snoop that goes to the owner of a line, which is not the requester (R383). -/
def ownerSnoop : MsgType → MsgType
  | .RdS => .SnpS
  | .RdIO => .SnpData
  | .RdNC => .SnpData
  | .Clean => .SnpClean
  | _ => .SnpInv

/-- The requests that snoop the owner of their line. -/
def MsgType.snoopsOwner (t : MsgType) : Bool :=
  t = .RdS || t = .RdIO || t = .RdNC || t = .Clean || t = .RdU || t = .RdUZ || t = .WrNC || t = .WrThru || t = .WrInv ||
    t = .AtomF || t = .Flush

section
variable {m : Msg} {e : DirEntry}

theorem snoopsFor_of_owned {b : Nat} (ho : holders e = [b]) (hex : e.exclusive = true) (hb : m.agent ≠ b)
    (ht : m.type.snoopsOwner = true) : snoopsFor m e = (ownerSnoop m.type, [b]) := by
  have hother : ([b].filter fun x => decide (x ≠ m.agent)) = [b] := by simp [Ne.symm hb]
  unfold snoopsFor
  rw [ho, hex]
  simp only [if_true, hother]
  simp only [MsgType.snoopsOwner, Bool.or_eq_true, decide_eq_true_eq, or_assoc] at ht
  rcases ht with h | h | h | h | h | h | h | h | h | h | h <;> rw [h] <;> rfl

/-- The upgrade of the one sharer snoops nobody. -/
theorem snoopsFor_of_sole_sharer (hm : m.type = .Upg) (hh : holders e = [m.agent]) : snoopsFor m e = (.SnpInv, []) := by
  have hnone : ((holders e).filter fun x => decide (x ≠ m.agent)) = [] := by simp [hh]
  simp only [snoopsFor, hm, hnone]

end

section
variable {u : State} {net : List Msg} (hu : Calm net u) {m : Msg} (hd : deadAgent u m.agent = false)
  (ht : txnFind u m.line = none) {e : DirEntry} (he : dirFind u m.line = some e)
include hu hd ht he

/-- The owner of the line is snooped under the slice's next tag. -/
theorem accept_of_owner {r : Msg} (hm : m.type ≠ .WrStash) (hr : servedAs (unnoted m) e = r)
    (hsnoops : r.type.snoopsOwner = true) {b : Nat} (hb : holders e = [b]) (hex : e.exclusive = true)
    (hne : r.agent ≠ b) (halive : deadAgent u b = false) : (accept u m).coh.net =
      net ++ [{ mkMsg (ownerSnoop r.type) b m.line with twin := m.twin, txn := u.coh.tag }] := by
  have hover : e.overflow = none := hu.noOverflow e (List.mem_of_find?_eq_some he)
  have hkeeps : (ownerSnoop r.type).keepsTag = true := by cases r.type <;> rfl
  have hsnoop : snoopsFor (servedAs (unnoted m) e) e = (ownerSnoop r.type, [b]) := by
    rw [hr]
    exact snoopsFor_of_owned hb hex hne hsnoops
  have hafter := beginTxn_of_snooped hu (m := unnoted m) hover hm hsnoop hkeeps halive
  rw [accept_of_entry hu hd ht he hafter]
  exact hafter.inFlight

/-- The upgrade of the one sharer is granted (R389). -/
theorem accept_of_sole_sharer (hm : m.type = .Upg) (hh : holders e = [m.agent]) (hmarked : e.vec.getLsbD m.agent = true)
    (hex : e.exclusive = false) : (accept u m).coh.net =
      net ++ [{ mkMsg .GrantU m.agent m.line with twin := m.twin, req := .Upg, txn := m.txn }] := by
  have hover : e.overflow = none := hu.noOverflow e (List.mem_of_find?_eq_some he)
  have hstash : (unnoted m).type ≠ .WrStash := by
    rw [show (unnoted m).type = .Upg from hm]
    decide
  have hserved : servedAs (unnoted m) e = unnoted m := by simp [servedAs, unnoted, hmarked, hex]
  have hquiet : snoopsFor (unnoted m) e = (.SnpInv, []) := snoopsFor_of_sole_sharer hm hh
  have hquiet2 : (snoopsFor (unnoted m) e).2 = [] := by rw [hquiet]
  have hneed : needsData (unnoted m) = false := by simp [needsData, unnoted, hm]
  have hgrant := finishTxn_upg (calm_opened hu hover m.line (openTxn (unnoted m) e)).2 (openTxn_opened hstash e) [] hm
  have hbegin := beginTxn_of_wordless (u := u) hstash hserved hquiet2 hneed
  rw [accept_of_entry hu hd ht he (hbegin ▸ hgrant.calm), hbegin]
  refine hgrant.calm.inFlight.trans ?_
  rw [← hm]
  rfl

end

end Sys2Proof.Machine
end

section
/-! The order of a slice (R375) and the requests of the bridge (R369, R381, R391). -/

namespace Sys2Proof.Machine

open Sys2Proof

/-! ## Which request is served next (R375) -/

/-- The first of the lowest class so far. -/
def lowerClass (b : Option Msg) (m : Msg) : Option Msg :=
  match b with
  | none => some m
  | some x => if classOf m.agent < classOf x.agent then some m else b

theorem nextWaiting_of_passed {q : List Msg} {m : Msg} (h : (q.find? fun m => 16 ≤ m.skips) = some m) :
    nextWaiting q = some m := by
  simp only [nextWaiting, h]

theorem nextWaiting_of_unpassed {q : List Msg} (h : (q.find? fun m => 16 ≤ m.skips) = none) :
    nextWaiting q = q.foldl lowerClass none := by
  simp only [nextWaiting, h]
  rfl

theorem foldl_lowerClass (q : List Msg) (x : Msg) : ∃ y ∈ x :: q, q.foldl lowerClass (some x) = some y ∧
    ∀ z ∈ x :: q, classOf y.agent ≤ classOf z.agent := by
  induction q generalizing x with
  | nil => exact ⟨x, List.mem_cons_self, rfl, by simp⟩
  | cons m q ih =>
    by_cases hlt : classOf m.agent < classOf x.agent
    · obtain ⟨y, hy, hfold, hleast⟩ := ih m
      refine ⟨y, List.mem_cons_of_mem x hy, by simpa [lowerClass, hlt] using hfold, fun z hz => ?_⟩
      obtain rfl | hz := List.mem_cons.1 hz
      · have := hleast m List.mem_cons_self
        omega
      · exact hleast z hz
    · obtain ⟨y, hy, hfold, hleast⟩ := ih x
      refine ⟨y, ?_, by simpa [lowerClass, hlt] using hfold, fun z hz => ?_⟩
      · obtain rfl | hy := List.mem_cons.1 hy
        · exact List.mem_cons_self
        · exact List.mem_cons_of_mem x (List.mem_cons_of_mem m hy)
      · have hx := hleast x List.mem_cons_self
        obtain rfl | hz := List.mem_cons.1 hz
        · exact hx
        · obtain rfl | hz := List.mem_cons.1 hz
          · omega
          · exact hleast z (List.mem_cons_of_mem x hz)

/-- A request passed 16 times goes first, and otherwise one of the lowest class. -/
theorem nextWaiting_spec {q : List Msg} {m : Msg} (h : nextWaiting q = some m) : m ∈ q ∧
    ((∃ x ∈ q, 16 ≤ x.skips) → 16 ≤ m.skips) ∧
    ((∀ x ∈ q, x.skips < 16) → ∀ x ∈ q, classOf m.agent ≤ classOf x.agent) := by
  cases hf : q.find? fun m => 16 ≤ m.skips with
  | some x =>
    rw [nextWaiting_of_passed hf] at h
    cases h
    have hpassed : 16 ≤ m.skips := by simpa using List.find?_some hf
    have hmem := List.mem_of_find?_eq_some hf
    exact ⟨hmem, fun _ => hpassed, fun hall => absurd (hall m hmem) (Nat.not_lt.2 hpassed)⟩
  | none =>
    have hnone : ∀ x ∈ q, ¬16 ≤ x.skips := by simpa using List.find?_eq_none.1 hf
    rw [nextWaiting_of_unpassed hf] at h
    cases q with
    | nil => cases h
    | cons x q =>
      obtain ⟨y, hy, hfold, hleast⟩ := foldl_lowerClass q x
      obtain rfl : y = m := Option.some.inj (hfold.symm.trans h)
      exact ⟨hy, fun ⟨z, hz, hz16⟩ => absurd hz16 (hnone z hz), fun _ => hleast⟩

/-! ## Requests of the bridge (R369, R381, R391) -/

section
variable {s : State} {m : Msg}

theorem bridgeRequest_of_stopped (h : clockStopped s 63 = true) (m : Msg) : bridgeRequest s m = s := by
  simp [bridgeRequest, h]

/-- A request that can reach its home slice is issued. -/
theorem bridgeRequest_of_open (hfree : clockStopped s 63 = false ∧ takeMsg s m.type 33 m.line = none ∧
    laneOpen s (mkMsg m.type 33 m.line) = true) (hagent : m.agent = 33) (htop : 8 * m.line + 7 < memTop s)
    (hline : dataLine s m.line = m.line) : bridgeRequest s m =
      issue s { m with twin := isTwin s (8 * m.line), data := pairData (isTwin s (8 * m.line)) m.data } := by
  obtain ⟨hclock, htake, hlane⟩ := hfree
  have hlane' : laneOpen s m = true := by
    rw [← hagent] at hlane
    exact hlane
  simp [bridgeRequest, hclock, htake, hlane', dramLine, htop, hline]

theorem issue_of_read (hc : m.type.carriesLine = false) (hs : m.type ≠ .WrStash) :
    issue s m = accept (drawTag s).2 { m with txn := s.coh.tag } := by
  simp only [issue, hc, hs, if_false, Bool.false_eq_true]
  rfl

/-- The line of a write counts in its bandwidth port (R719). -/
theorem issue_of_write (hc : m.type.carriesLine = true) (hs : m.type ≠ .WrStash) :
    issue s m = accept (drawTag (lineMoved s m.line m.twin)).2 { m with txn := s.coh.tag } := by
  simp only [issue, hc, hs, if_false, if_true]
  rfl

theorem issue_of_stash (hs : m.type = .WrStash) :
    issue s m = accept (drawTag (count (lineMoved s m.line m.twin) 63 0x0B2)).2 { m with txn := s.coh.tag } := by
  simp only [issue, hs, if_true]
  rfl

end

section
variable {s : State} {l : Nat} (htop : 8 * l + 7 < memTop s) (hline : dataLine s l = l)

/-- The bridge can send a request of the type for the line. -/
def BridgeFree (s : State) (ty : MsgType) (l : Nat) : Prop :=
  clockStopped s 63 = false ∧ takeMsg s ty 33 l = none ∧ laneOpen s (mkMsg ty 33 l) = true

include htop hline

theorem bridgeRequest_rdIO (h : BridgeFree s .RdIO l) : bridgeRequest s (mkMsg .RdIO 33 l) =
    accept (drawTag s).2 { mkMsg .RdIO 33 l with twin := isTwin s (8 * l), txn := s.coh.tag } := by
  have hnoWords : pairData (isTwin s (8 * l)) [] = [] := by cases isTwin s (8 * l) <;> rfl
  have hreq : (mkMsg .RdIO 33 l).data = [] := rfl
  rw [bridgeRequest_of_open (m := mkMsg .RdIO 33 l) h rfl htop hline, hreq,
    issue_of_read rfl (show MsgType.RdIO ≠ .WrStash by decide)]
  simp only [hnoWords, show (mkMsg .RdIO 33 l).line = l from rfl]
  rfl

theorem bridgeRequest_wrInv (h : BridgeFree s .WrInv l) (wmask : Nat) (d : LineData) :
    bridgeRequest s { mkMsg .WrInv 33 l with wmask := wmask, data := d } =
      accept (drawTag (lineMoved s l (isTwin s (8 * l)))).2 { mkMsg .WrInv 33 l with
        twin := isTwin s (8 * l), wmask := wmask, data := pairData (isTwin s (8 * l)) d, txn := s.coh.tag } := by
  rw [bridgeRequest_of_open (m := { mkMsg .WrInv 33 l with wmask := wmask, data := d }) h rfl htop hline,
    issue_of_write rfl (show MsgType.WrInv ≠ .WrStash by decide)]
  rfl

theorem bridgeRequest_wrStash (h : BridgeFree s .WrStash l) (wmask tgt : Nat) (d : LineData) :
    bridgeRequest s { mkMsg .WrStash 33 l with tgt := tgt, wmask := wmask, data := d } =
      accept (drawTag (count (lineMoved s l (isTwin s (8 * l))) 63 0x0B2)).2 { mkMsg .WrStash 33 l with
        twin := isTwin s (8 * l), tgt := tgt, wmask := wmask, data := pairData (isTwin s (8 * l)) d,
        txn := s.coh.tag } := by
  rw [bridgeRequest_of_open (m := { mkMsg .WrStash 33 l with tgt := tgt, wmask := wmask, data := d }) h rfl htop hline,
    issue_of_stash rfl]
  rfl

end

/-- Settles O53: a channel delivers the first of its lane, and the slice serves a request of its own at once, so that each
clause is one run of it. That requests and snoops draw their tags from one counter modulo 256 (R381) is the model's choice
(log 133). -/
theorem coherenceRequests : Obligations.CoherenceRequests := by
  unfold Obligations.CoherenceRequests
  intro s src l
  have arrived {ty : MsgType} {m : Msg} {u : State} (h : takeMsg s ty src l = some (m, u)) :
      (Host.Outcome.next (requestArrives s ty src l) : Host.Outcome State Fault Refusal) = .next (accept u m) := by
    simp only [requestArrives, h]
  refine ⟨fun ty a m u h => takeMsg_eq_some h, fun why m u h => ?rdS, fun m u h => arrived h, fun m u h => arrived h,
    fun m u h => arrived h, fun m u h => arrived h, fun m u h => arrived h, fun m u h => arrived h,
    fun m u h => arrived h, fun m u h => arrived h, fun m u h => arrived h, fun htop hline wmask d tgt => ?bridge,
    fun q m h => nextWaiting_spec h, fun u m hl => ?slice⟩
  case rdS =>
    have hflight : (takeMsg s .RdS src l).isNone = false := by rw [h]; rfl
    refine Eq.trans (congrArg Host.Outcome.next ?_) (arrived h)
    simp [hflight]
  case bridge =>
    intro twin words drawn free wrInv
    refine ⟨fun hstop i hi => ?stopped, fun hfree => ?rdIO, fun hfree => ?wrInv, fun htgt hfree => ?wide,
      fun htgt hfree => ?stash⟩
    case stopped =>
      simp only [List.mem_cons, List.not_mem_nil, or_false] at hi
      obtain rfl | rfl | rfl := hi
      · exact congrArg Host.Outcome.next (bridgeRequest_of_stopped hstop _)
      · exact congrArg Host.Outcome.next (bridgeRequest_of_stopped hstop _)
      · exact congrArg Host.Outcome.next (bridgeRequest_of_stopped hstop _)
    case rdIO => exact congrArg Host.Outcome.next (bridgeRequest_rdIO htop hline hfree)
    case wrInv => exact congrArg Host.Outcome.next (bridgeRequest_wrInv htop hline hfree wmask.toNat (wholeWords d))
    case wide =>
      have hmsg : stashMsg l tgt = mkMsg .WrInv 33 l := if_neg (Nat.not_lt.2 htgt)
      refine Eq.trans (congrArg Host.Outcome.next ?_)
        (congrArg Host.Outcome.next (bridgeRequest_wrInv htop hline hfree wmask.toNat (wholeWords d)))
      rw [hmsg]
    case stash =>
      have hmsg : stashMsg l tgt = { mkMsg .WrStash 33 l with tgt := tgt } := if_pos htgt
      refine Eq.trans (congrArg Host.Outcome.next ?_)
        (congrArg Host.Outcome.next (bridgeRequest_wrStash htop hline hfree wmask.toNat tgt (wholeWords d)))
      rw [hmsg]
  case slice =>
    subst hl
    refine ⟨accept_of_dead, fun hd ht hq => accept_of_busy (calm_of_alone hq) hd ht,
      fun hd ht hn hr hq hm hag => accept_of_full (calm_of_alone hq) hd ht hn hr hm (classOf_ne_zero hag),
      fun ⟨hd, ht, hn, hr, hq⟩ => ⟨fun x hx => ?hit, fun hx hty => ?miss⟩,
      fun hd ht hq e b he hvec hex hne halive => ?owned, fun hm hd ht hag hq e he hvec hex => ?upg⟩
    case hit =>
      intro data cmp
      refine ⟨answered_rdS hd ht hn hr hq hx, answered_rdU hd ht hn hr hq hx, fun hm => ?_,
        answered_rdIO hd ht hn hr hq hx, fun hm => ?cmp, answered_atomF hd ht hn hr hq hx⟩
      · rw [← zeroWords]
        exact answered_rdUZ hd ht hn hr hq hm
      · obtain hm | hm | hm | hm | hm := hm
        · exact answered_write hd ht hn hr hq hx (.inl hm)
        · exact answered_write hd ht hn hr hq hx (.inr (.inl hm))
        · exact answered_write hd ht hn hr hq hx (.inr (.inr hm))
        · exact answered_clean hd ht hn hr hq hm
        · exact answered_flush hd ht hn hr hq hm
    case miss =>
      have hcalm := calm_of_alone hq
      by_cases hup : m.type = .Upg
      · exact accept_of_miss hcalm hd ht hn hr (by simp [hup])
          (servedAs_of_unmarked_upg (m := unnoted m) hup (.inl (BitVec.getLsbD_zero ..))) rfl hx
      · have hneeds : m.type ≠ .WrStash ∧ needsData m = true := by
          simp only [hup, false_or] at hty
          rcases hty with h | h | h | h | h | h | h <;> simp [needsData, h]
        exact accept_of_miss hcalm hd ht hn hr hneeds.1 (servedAs_of_ne (m := unnoted m) hup _) hneeds.2 hx
    case owned =>
      intro snoop
      have hcalm := calm_of_alone hq
      have hb : holders e = [b.val] := holders_of_single (by omega) hvec
      have owner {ty : MsgType} (hm : m.type = ty) (hty : ty ≠ .Upg ∧ ty ≠ .WrStash) (hs : ty.snoopsOwner = true) :
          snoop (ownerSnoop ty) := by
        subst hm
        exact accept_of_owner hcalm hd ht he hty.2 (servedAs_of_ne (m := unnoted m) hty.1 e) hs hb hex hne halive
      refine ⟨fun hm => owner hm (by decide) rfl, fun hm => ?data, fun hm => owner hm (by decide) rfl, fun hm => ?inv⟩
      case data =>
        obtain hm | hm := hm
        · exact owner hm (by decide) rfl
        · exact owner hm (by decide) rfl
      case inv =>
        obtain hm | hm | hm | hm | hm | hm | hm | hm := hm
        · exact owner hm (by decide) rfl
        · exact accept_of_owner hcalm hd ht he (by simp [hm])
            (servedAs_of_unmarked_upg (m := unnoted m) hm (.inr hex)) rfl hb hex hne halive
        · exact owner hm (by decide) rfl
        · exact owner hm (by decide) rfl
        · exact owner hm (by decide) rfl
        · exact owner hm (by decide) rfl
        · exact owner hm (by decide) rfl
        · exact owner hm (by decide) rfl
    case upg =>
      have hbit : e.vec.getLsbD m.agent = true := by
        have : m.agent ∈ holders e := by rw [holders_of_single (by omega) hvec]; exact List.mem_singleton.2 rfl
        exact (List.mem_filter.1 this).2
      exact accept_of_sole_sharer (calm_of_alone hq) hd ht he hm (holders_of_single (by omega) hvec) hbit hex

end Sys2Proof.Machine
end

section
/-! Events of the DRAM controllers, the store buffers and the Sorus banks (R202 to R208, R422 to R447, R515). -/

namespace Sys2Proof.Machine

open Sys2Proof

/-! ## DRAM controllers (R422 to R424, R443 to R447) -/

section
variable {s : State} {l : Nat} {t : Txn} (ht : txnFind s l = some t) (flips again : List (BitVec 64))
include ht

theorem exec_dramReadComplete_waits (hw : dramWaits s l = true) : exec (.dramReadComplete l flips again) s = .next s := by
  rw [exec, execDramReadComplete, dramReturns, ht]
  simp [hw]

/-- The read that need not wait takes a reserved slot if it is a Frond read, and fills the L3 unless the line
stands there. -/
theorem exec_dramReadComplete_returns (hn : t.needDram = true) (hw : dramWaits s l = false) :
    exec (.dramReadComplete l flips again) s =
      (let q := if ((frondReads s).any fun x => x.2 = l) = true then count s (48 + (placeOf s (8 * l)).1) 0x52 else s
       let v := (dramRead q l flips again).2
       let u := lineMoved v l (isTwin v (8 * l))
       .next (goOn (txnPut (if (l3Find u l).isSome then u else l3Put u l (dramRead q l flips again).1 false)
         { t with needDram := false }) l)) := by
  rw [exec, execDramReadComplete, dramReturns, ht]
  simp only [hn, hw, Bool.not_false, Bool.and_true, if_true]

end

/-- Among the lines of one channel, those whose slot need not wait are told by the clock of that channel. -/
theorem onChannel_and_free_eq (s : State) (c l : Nat) :
    ((placeOf s (8 * l)).1 = c && !(clockStopped s (26 + c) || rowCopying s l || refreshFirst s l)) =
      ((placeOf s (8 * l)).1 = c && !slotWaits s l) := by
  by_cases h : (placeOf s (8 * l)).1 = c
  · rw [slotWaits, h]
  · simp only [h, decide_false, Bool.false_and]

theorem exec_correctedWriteBack_of_some {s : State} {c : Fin 8} {e : Nat × LineData}
    (h : (s.memctl.writeBacks.find? fun e => (placeOf s (8 * e.1)).1 = c.val &&
      !(clockStopped s (26 + c) || rowCopying s e.1 || refreshFirst s e.1)) = some e) :
    exec (.correctedWriteBack c) s = .next (dramWriteLine { s with memctl := { s.memctl with
      writeBacks := s.memctl.writeBacks.filter fun x => x.1 ≠ e.1 } } e.1 e.2) := by
  simp only [onChannel_and_free_eq] at h
  rw [exec, execCorrectedWriteBack, h]

/-- A channel owes a refresh once the time of the next one has come (R443). -/
theorem refreshDebt_ne_zero {s : State} {c : Nat} (h : s.memctl.refreshDue.getD c 0 ≤ s.now) : refreshDebt s c ≠ 0 := by
  rw [refreshDebt, if_neg (Nat.not_lt.2 h)]
  exact Nat.succ_ne_zero _

section
variable {s : State} {c : Fin 8}

theorem exec_periodicZqRecalibration_stopped (h : clockStopped s (26 + c) = true ∨ c.val ∉ channelsIn s) :
    exec (.periodicZqRecalibration c true) s = .next s :=
  if_neg (by rcases h with h | h <;> simp [h])

variable (hread : s.memctl.unreadable = false) (hclk : clockStopped s (26 + c) = false) (hin : c.val ∈ channelsIn s)
include hread hclk hin

theorem exec_refresh_due (hdue : s.memctl.refreshDue.getD c 0 ≤ s.now) :
    exec (.refresh c) s = .next (count { s with memctl := { s.memctl with
      refreshPair := modAt s.memctl.refreshPair c fun p => (p + 1) % 8
      refreshDue := modAt s.memctl.refreshDue c fun d => d + refreshInterval s } } (48 + c) 0x54) :=
  if_neg (by simp [hread, hclk, hin, refreshDebt_ne_zero hdue])

theorem exec_periodicZqRecalibration_out : exec (.periodicZqRecalibration c true) s = .next (retireChannel s c) :=
  if_pos (by simp [hread, hclk, hin])

end

/-- The scrub, with nothing in its way, reads its line and goes on to the next, or past MEM_TOP ends its pass. -/
theorem exec_patrolScrub_reads {s : State} (flips again : List (BitVec 64)) (hon : regB s aMemCtl 15 = true)
    (hread : s.memctl.unreadable = false) (hslot : slotWaits s (regF s aMemScrub 32 0) = false)
    (hpair : isTwin s (8 * regF s aMemScrub 32 0) = false ∨ slotWaits s (complLine s (regF s aMemScrub 32 0)) = false) :
    exec (.patrolScrub flips again) s =
      (let u := (dramRead s (regF s aMemScrub 32 0) flips again).2
       let n := scrubSkip u (regF s aMemScrub 32 0 + 1) 65
       if memTop u ≤ 8 * n then .next (assertEdge (regAddSat (regFld u aMemScrub 32 0 0) aMemScrub 47 40 1) 209)
       else .next (regFld u aMemScrub 32 0 n)) :=
  if_neg (by rcases hpair with h | h <;> simp [hon, hread, hslot, h])

section
variable {s : State} {c k : Fin 8}

theorem exec_rowCopyComplete_stopped (hclk : clockStopped s (26 + c) = true) : exec (.rowCopyComplete c k) s = .next s :=
  if_neg (by simp [hclk])

theorem exec_rowCopyComplete_serves (hcopy : s.memctl.copies.contains (c.val, k.val) = true)
    (hclk : clockStopped s (26 + c) = false) : exec (.rowCopyComplete c k) s =
      .next (shadowCount (regFld { s with memctl := { s.memctl with copies := s.memctl.copies.erase (c.val, k.val) } }
        (aMemShadow c k) 47 47 1) c) :=
  if_pos (by rw [hcopy, hclk]; rfl)

end

/-! ## Store buffers (R202, R207, R208, R396) -/

theorem inAperture_of_inSorus {a : Nat} (h : inSorus a = true) : inAperture a = false := by
  simp only [inSorus, inAperture, Bool.and_eq_true, Bool.and_eq_false_iff, decide_eq_true_eq,
    decide_eq_false_iff_not] at h ⊢
  omega

section
variable (s : State) (c : CoreId) (e : SbEntry)

theorem drainDevice_alone {rest : List SbEntry} (h : e.low = false ∨ inAperture e.pa = false ∨ rest = []) :
    drainDevice s c e rest = popStore (deviceStore s c e none) c := by
  have hnone : (if (e.low && inAperture e.pa) = true then rest.head? else none) = none := by
    rcases h with h | h | h <;> simp [h]
  rw [drainDevice, hnone]
  rfl

/-- The two words of a double-word write through the aperture leave the buffer together (R649). -/
theorem drainDevice_pair (next : SbEntry) (rest : List SbEntry) (hlow : e.low = true) (hap : inAperture e.pa = true) :
    drainDevice s c e (next :: rest) = popStore ((deviceStore s c e (some next)).modCore c fun k =>
      { k with storeBuffer := k.storeBuffer.tail }) c := by
  rw [drainDevice, hlow, hap]
  rfl

end

/-- An entry written through stands in the buffer, marked as sent, until its Cmp (R383). -/
def throughSent (s : State) (i : Fin 16) (e : SbEntry) (rest : List SbEntry) : State :=
  (send s (throughMsg s i.val e)).modCore (.app i) fun k => { k with storeBuffer := { e with sent := true } :: rest }

section
variable {s : State} {i : Fin 16} {e : SbEntry} {rest : List SbEntry}

/-- The oldest entry of the store buffer of application core i can drain: it is not at the home slice already, and its core
runs. -/
structure DrainReady (s : State) (i : Fin 16) (e : SbEntry) (rest : List SbEntry) : Prop where
  oldest : (s.core (.app i)).storeBuffer = e :: rest
  unsent : e.sent = false
  clock : clockStopped s i = false
  run : (s.core (.app i)).run ≠ .held

/-- Where the oldest entry goes, by its address, its type and the state of its line. -/
theorem exec_storeBufferDrain_of_ready (h : DrainReady s i e rest) : exec (.storeBufferDrain i) s =
    (let l := dataLine s (e.pa / 8)
     if inSorus e.pa then .next (if clockStopped s 24 then s else drainDevice s (.app i) e rest)
     else if isDevice e.type then .next (drainDevice s (.app i) e rest)
     else if e.type = .uncached then .next (if lineEvicting s i l then s else throughSent s i e rest)
     else if !lineOwned s i l then .next (drainMiss s (.app i) l)
     else if e.type = .writeThrough then .next (throughSent s i e rest)
     else .next (popStore (cacheStore s i e.pa e.data e.mask) (.app i))) := by
  have hready : ¬(e.sent || clockStopped s (coreDomain s (.app i)) || (s.core (.app i)).run = .held) = true := by
    simp [h.unsent, coreDomain, h.clock, h.run]
  simp only [exec, execStoreBufferDrain, h.oldest]
  exact if_neg hready

variable (h : DrainReady s i e rest)
include h

section
variable (hs : inSorus e.pa = true)
include hs

theorem exec_storeBufferDrain_sorus_stopped (hclk : clockStopped s 24 = true) :
    exec (.storeBufferDrain i) s = .next s := by
  simp only [exec_storeBufferDrain_of_ready h, hs, hclk, if_true]

theorem exec_storeBufferDrain_sorus (hclk : clockStopped s 24 = false) :
    exec (.storeBufferDrain i) s = .next (popStore (deviceStore s (.app i) e none) (.app i)) := by
  rw [← drainDevice_alone (rest := rest) s (.app i) e (.inr (.inl (inAperture_of_inSorus hs)))]
  simp only [exec_storeBufferDrain_of_ready h, hs, hclk, if_true, Bool.false_eq_true, if_false]

end

section
variable (hs : inSorus e.pa = false)
include hs

theorem exec_storeBufferDrain_device (hd : isDevice e.type = true) :
    exec (.storeBufferDrain i) s = .next (drainDevice s (.app i) e rest) := by
  simp only [exec_storeBufferDrain_of_ready h, hs, hd, if_true, Bool.false_eq_true, if_false]

theorem exec_storeBufferDrain_uncached (hu : e.type = .uncached) : exec (.storeBufferDrain i) s =
    .next (if lineEvicting s i (dataLine s (e.pa / 8)) then s else throughSent s i e rest) := by
  have hd : isDevice MemType.uncached = false := rfl
  simp only [exec_storeBufferDrain_of_ready h, hs, hu, hd, if_true, Bool.false_eq_true, if_false]

theorem exec_storeBufferDrain_cached (hd : isDevice e.type = false) (hu : e.type ≠ .uncached) :
    exec (.storeBufferDrain i) s = .next (if !lineOwned s i (dataLine s (e.pa / 8)) then
        drainMiss s (.app i) (dataLine s (e.pa / 8))
      else if e.type = .writeThrough then throughSent s i e rest
      else popStore (cacheStore s i e.pa e.data e.mask) (.app i)) := by
  simp only [exec_storeBufferDrain_of_ready h, hs, hd, hu, Bool.false_eq_true, if_false, apply_ite Host.Outcome.next]

end
end

/-! ## Sorus banks (R515) -/

section
variable {s : State} {n : Fin 48}

theorem exec_sorusWriteBack_stopped (hclk : clockStopped s 24 = true) : exec (.sorusWriteBack n) s = .next s :=
  if_pos hclk

theorem exec_sorusWriteBack_of_some {e : Nat × SorusWord}
    (h : (s.sorusCtl.writeBacks.find? fun e => keyBank e.1 = n.val) = some e) (hclk : clockStopped s 24 = false) :
    exec (.sorusWriteBack n) s = .next (sorusPut s e.1 e.2) := by
  simp only [exec, execSorusWriteBack, hclk, h, Bool.false_eq_true, if_false]

end

/-- Settles O55: each event by the lemma on its command above. That a read of the fabric and a write-back wait while eight
refreshes are owed is deduced (log 36). The model's choice is that without domain 24 a Sorus store waits and a write-back
does nothing (log 177), and that a posted Sorus store whose word went bad is dropped, within deviceStore (log 178). -/
theorem memoryEvents : Obligations.MemoryEvents := by
  unfold Obligations.MemoryEvents
  intro s
  refine ⟨fun l flips again t ht hn => ⟨exec_dramReadComplete_waits ht flips again, ?returns⟩,
    fun c e h => exec_correctedWriteBack_of_some h,
    fun c hread hclk hin hdue => exec_refresh_due hread hclk hin hdue, ?scrub,
    fun c k h => ⟨exec_rowCopyComplete_stopped, exec_rowCopyComplete_serves h⟩,
    fun c hread => ⟨exec_periodicZqRecalibration_out hread, exec_periodicZqRecalibration_stopped, rfl⟩, ?drain,
    fun n e h => ⟨exec_sorusWriteBack_of_some h, exec_sorusWriteBack_stopped⟩⟩
  case returns =>
    intro hw
    have hreturns := exec_dramReadComplete_returns ht flips again hn hw
    refine ⟨fun hmiss => hreturns.trans ?_, fun hhit => hreturns.trans ?_⟩
    · simp only [hmiss]
      rfl
    · simp only [Option.isSome_iff_ne_none.2 hhit, if_true]
  case scrub =>
    intro flips again l hon hread hslot hpair
    have hreads := exec_patrolScrub_reads flips again hon hread hslot hpair
    exact ⟨fun hmore => hreads.trans (if_neg (Nat.not_le.2 hmore)), fun hend => hreads.trans (if_pos hend)⟩
  case drain =>
    intro i e rest hsb hsent hclk hrun
    have h : DrainReady s i e rest := ⟨hsb, hsent, hclk, hrun⟩
    refine ⟨fun hs => ⟨exec_storeBufferDrain_sorus_stopped h hs, exec_storeBufferDrain_sorus h hs⟩,
      fun hd hs halone => ?alone, fun e' rest' hd hs hlow hap hrest => ?pair, fun hu hs hev => ?sent,
      fun hu hs hev => ?kept, fun hd hs hu hown => ?miss, fun hwt hs hown => ?writeThrough, fun hd hs hu hwt hown => ?owned⟩
    case alone =>
      exact (exec_storeBufferDrain_device h hs hd).trans (congrArg _ (drainDevice_alone s _ e halone))
    case pair =>
      subst hrest
      exact (exec_storeBufferDrain_device h hs hd).trans (congrArg _ (drainDevice_pair s _ e e' rest' hlow hap))
    case sent =>
      exact (exec_storeBufferDrain_uncached h hs hu).trans (congrArg _ (if_neg (by simp [hev])))
    case kept =>
      exact (exec_storeBufferDrain_uncached h hs hu).trans (congrArg _ (if_pos hev))
    case miss =>
      exact (exec_storeBufferDrain_cached h hs hd hu).trans (congrArg _ (if_pos (by simp [hown])))
    case writeThrough =>
      refine (exec_storeBufferDrain_cached h hs (by rw [hwt]; rfl) (by rw [hwt]; decide)).trans (congrArg _ ?_)
      rw [hown, if_neg (by decide), if_pos hwt]
      rfl
    case owned =>
      refine (exec_storeBufferDrain_cached h hs hd hu).trans (congrArg _ ?_)
      rw [hown, if_neg (by decide), if_neg hwt]
      rfl

end Sys2Proof.Machine
end

section
/-! The frame instructions (R473, R477, R478): what each makes of its operand's output, how a barrier opens, and what FEND
leaves of its core. -/

namespace Sys2Proof.Machine

open Sys2Proof

/-! ## Outputs (R477) -/

/-- The number of an output is the low 9 bits of the register that names it. -/
theorem outputOf_eq (t : State) (a : Word) : outputOf t a = t.outs[a.toNat % 512]? := rfl

theorem ownedOutput_own {t : State} {i : Fin 16} {a : Word} {o : Output} (ho : outputOf t a = some o)
    (hg : groupOf t i.val = some o.group) : ownedOutput t (.frond i) a = some o := by
  simp only [ownedOutput, ho, groupOfCore, hg, if_true]

theorem ownedOutput_absent {t : State} {a : Word} (c : CoreId) (ho : outputOf t a = none) : ownedOutput t c a = none := by
  simp only [ownedOutput, ho]

/-- A core that has written output n in its frame (R481). -/
def Core.noteWritten (k : Core) (n : Nat) : Core :=
  { k with frame := { k.frame with written := n :: k.frame.written.filter (· ≠ n) } }

/-! ## Frame instructions that read and write (R473, R477) -/

/-- An instruction whose body is done completes. -/
theorem completes_of_done {s t u : State} {c : CoreId} {d : Shape} {body : State → Body} (h : Issues s c d t)
    (hb : body t = .done u) : (.next (runInstr s c d body) : Host.Outcome State Fault Refusal) =
      .next (completeInstr u c (formLen d.form)) := by
  rw [runInstr_of_issues h, hb, settle]

section
variable {s t : State} {c : CoreId} (h : Issues s c (frameShape .long) t) (gd ga gb : Reg) {o : Output}
include h

theorem exec_out_owned (ho : ownedOutput t c ((t.core c).reg ga) = some o) :
    let n := fld ((t.core c).reg ga) 8 0
    exec (.out c ga gb) s = .next (completeInstr
      ({ t with outs := t.outs.set n { o with back := (t.core c).reg gb } }.modCore c fun k => k.noteWritten n) c 2) :=
  completes_of_done h (by simp only [ho, Core.noteWritten])

theorem exec_out_refused (ho : ownedOutput t c ((t.core c).reg ga) = none) :
    exec (.out c ga gb) s = .next (completeInstr (outputViolation t c true) c 2) :=
  completes_of_done h (by simp only [ho])

theorem exec_inb_owned (ho : ownedOutput t c ((t.core c).reg ga) = some o) :
    exec (.inb c gd ga) s = .next (completeInstr (writeReg t c gd o.back) c 2) :=
  completes_of_done h (by simp only [ho, writeReg])

theorem exec_inb_refused (ho : ownedOutput t c ((t.core c).reg ga) = none) :
    exec (.inb c gd ga) s = .next (completeInstr (writeReg (outputViolation t c false) c gd 0) c 2) :=
  completes_of_done h (by simp only [ho, writeReg])

theorem exec_inf_present (ho : outputOf t ((t.core c).reg ga) = some o) :
    exec (.inf c gd ga) s = .next (completeInstr (writeReg t c gd o.front) c 2) :=
  completes_of_done h (by simp only [ho, writeReg])

theorem exec_inf_absent (ho : outputOf t ((t.core c).reg ga) = none) :
    exec (.inf c gd ga) s = .next (completeInstr (writeReg (outputViolation t c false) c gd 0) c 2) :=
  completes_of_done h (by simp only [ho, writeReg])

theorem exec_ftime_grouped {g : Nat} (hg : groupOfCore t c = some g) :
    exec (.ftime c gd) s = .next (completeInstr (writeReg t c gd (t.tbl - frameStartTbl t g)) c 2) :=
  completes_of_done h (by simp only [hg, writeReg])

theorem exec_fnum_of_issues :
    exec (.fnum c gd) s = .next (completeInstr (writeReg t c gd (regGet t aTickCount)) c 2) :=
  completes_of_done h rfl

end

/-! ## Barriers (R478) -/

theorem frondId_val (i : Fin 16) : frondId i.val = .frond i :=
  congrArg CoreId.frond (Fin.ext (Nat.mod_eq_of_lt i.isLt))

theorem core_of_cores {s t : State} (h : t.cores = s.cores) (c : CoreId) : t.core c = s.core c := by
  rw [State.core, State.core, h]

theorem modCore_cores_congr {s t : State} (h : t.cores = s.cores) (c : CoreId) (f : Core → Core) :
    (t.modCore c f).cores = (s.modCore c f).cores := by
  simp only [State.modCore, State.setCore, core_of_cores h, h]

/-- Completion leaves every other core as it is. -/
theorem core_completeInstr_other (s : State) {c d : CoreId} (len : Nat) (h : d ≠ c) :
    (completeInstr s c len).core d = s.core d := by
  obtain ⟨p, hp⟩ := countsOnly_completeInstr s c len
  rw [hp.core, core_modCore_other s _ h]

/-- A completed instruction waits for nothing, and of its frame's notes completion changes one (R472). -/
theorem completeInstr_frame (s : State) (c : CoreId) (len : Nat) :
    ((completeInstr s c len).core c).waiting = none ∧
      ((completeInstr s c len).core c).frame = { (s.core c).frame with firstDone := true } := by
  obtain ⟨p, hp⟩ := core_completeInstr s c len
  obtain ⟨pc, slot, x, lctl, hk⟩ := advanced_frame ((s.core c).committed p) c len
  rw [hp, hk]
  exact ⟨rfl, rfl⟩

/-- What openBarriers does for one core: its wait ends where its barrier is open. -/
def passBarrier (s : State) (i : Nat) : State :=
  if (s.core (frondId i)).waiting = some .barrier && barrierOpen s i then completeInstr s (frondId i) 2 else s

theorem openBarriers_eq (s : State) : openBarriers s = (upto 16).foldl passBarrier s := rfl

theorem passBarrier_of_not_waiting {s : State} {i : Nat} (h : (s.core (frondId i)).waiting ≠ some .barrier) :
    passBarrier s i = s :=
  if_neg (by simp [h])

theorem passBarrier_of_open {s : State} {i : Nat} (h : (s.core (frondId i)).waiting = some .barrier)
    (ho : barrierOpen s i = true) : passBarrier s i = completeInstr s (frondId i) 2 :=
  if_pos (by simp [h, ho])

theorem openBarriers_of_nobody {s : State} (h : ∀ j : Fin 16, (s.core (.frond j)).waiting ≠ some .barrier) :
    openBarriers s = s :=
  List.foldl_fixed' (fun _ => passBarrier_of_not_waiting (h _)) _

/-- A fold in which one element alone acts, and once. -/
theorem foldl_eq_of_one_acts {α β : Type} {f : β → α → β} {b b' : β} {a : α} (ha : f b a = b')
    (hb' : ∀ x, f b' x = b') {l : List α} (hb : ∀ x ∈ l, x ≠ a → f b x = b) (hl : a ∈ l) : l.foldl f b = b' := by
  induction l with
  | nil => cases hl
  | cons x l ih =>
    rw [List.foldl_cons]
    by_cases hx : x = a
    · rw [hx, ha, List.foldl_fixed' hb']
    · rw [hb x List.mem_cons_self hx]
      exact ih (fun y hy => hb y (List.mem_cons_of_mem x hy)) ((List.mem_cons.1 hl).resolve_left (Ne.symm hx))

/-- The one core that waits goes on where its barrier is open. -/
theorem openBarriers_of_one {s : State} {i : Fin 16} (hi : (s.core (.frond i)).waiting = some .barrier)
    (ho : barrierOpen s i = true) (h : ∀ j : Fin 16, j ≠ i → (s.core (.frond j)).waiting ≠ some .barrier) :
    openBarriers s = completeInstr s (.frond i) 2 := by
  rw [openBarriers_eq]
  refine foldl_eq_of_one_acts (a := i.val) ?acts (fun x => ?after) (fun x hx hne => ?before) (List.mem_range.2 i.isLt)
  case acts => rw [← frondId_val] at hi ⊢; exact passBarrier_of_open hi ho
  case after =>
    refine passBarrier_of_not_waiting ?_
    by_cases hx : frondId x = .frond i
    · rw [hx, (completeInstr_frame s (.frond i) 2).1]
      exact nofun
    · rw [core_completeInstr_other s 2 hx]
      exact h _ fun e => hx (congrArg CoreId.frond e)
  case before =>
    have hx16 : x < 16 := List.mem_range.1 hx
    refine passBarrier_of_not_waiting (h _ fun e => hne ?_)
    rw [← e]
    exact (Nat.mod_eq_of_lt hx16).symm

/-- A core that has reached FBAR. -/
def atBarrier (t : State) (c : CoreId) : State :=
  t.modCore c fun k => { k with waiting := some .barrier, frame := { k.frame with barriers := k.frame.barriers + 1 } }

theorem exec_fbar_of_issues {s t : State} {c : CoreId} (h : Issues s c (frameShape .long) t) :
    exec (.fbar c) s = .next (openBarriers (atBarrier t c)) :=
  congrArg Host.Outcome.next (runInstr_of_issues h _)

/-- The barrier of a core that has not joined is open. -/
theorem barrierOpen_of_not_joined {s : State} {i : Nat} (h : frondState s i ≠ 2) : barrierOpen s i = true := by
  simp [barrierOpen, h]

theorem exec_fbar_alone {s t : State} {i : Fin 16} (h : Issues s (.frond i) (frameShape .long) t)
    (hi : frondState t i ≠ 2) (ho : ∀ j : Fin 16, j ≠ i → (t.core (.frond j)).waiting ≠ some .barrier) :
    ∃ u, exec (.fbar (.frond i)) s = .next u ∧ (u.core (.frond i)).waiting = none ∧
      (u.core (.frond i)).frame.barriers = (t.core (.frond i)).frame.barriers + 1 := by
  have hk : (atBarrier t (.frond i)).core (.frond i) = _ := core_modCore_same t (.frond i) _
  have hopen : openBarriers (atBarrier t (.frond i)) = completeInstr (atBarrier t (.frond i)) (.frond i) 2 := by
    refine openBarriers_of_one (by rw [hk]) (barrierOpen_of_not_joined hi) fun j hj => ?_
    rw [atBarrier, core_modCore_other t _ fun e => hj (CoreId.frond.inj e)]
    exact ho j hj
  obtain ⟨hw, hf⟩ := completeInstr_frame (atBarrier t (.frond i)) (.frond i) 2
  refine ⟨_, exec_fbar_of_issues h, ?_, ?_⟩
  · rw [hopen, hw]
  · rw [hopen, hf, hk]

/-! ## FEND (R473, R499, R500) -/

/-- A core whose frame has ended: idle, and joined at its next one or not. -/
def Core.frameEnded (k : Core) (join : Bool) : Core :=
  { k with run := .idle, waiting := none, frame := { k.frame with fendDone := true, joinPending := join } }

/-- Of the cores FEND changes its own alone; the rest of what it does is registers and published outputs. -/
theorem fendDone_cores (s : State) (i : Nat) :
    ∃ join, (fendDone s i).cores = (s.modCore (frondId i) fun k => k.frameEnded join).cores := by
  unfold fendDone
  extract_lets c idle s1
  have h1 : s1.cores = s.cores := by
    unfold s1
    split
    · exact regFld_cores ..
    · rfl
  split
  · exact ⟨true, modCore_cores_congr h1 _ _⟩
  · split
    · exact ⟨false, modCore_cores_congr h1 _ _⟩
    · refine ⟨false, modCore_cores_congr (.trans ?_ h1) _ _⟩
      refine foldl_keeps (p := State.cores) (fun u j => ?_) _ (publish s1 i)
      extract_lets u1
      have hu : u1.cores = u.cores := by simp [u1]
      split
      · rw [regFld_cores, hu]
      · exact hu

theorem exec_fend_of_issues {s t : State} {i : Fin 16} (ha : (s.core (.frond i)).abandoned = [])
    (h : Issues s (.frond i) { frameShape .short with noSlot := true } t) :
    exec (.fend (.frond i)) s = .next (openBarriers (fendDone (completeInstr t (.frond i) 1) i)) :=
  (if_neg (by simp [ha])).trans (congrArg Host.Outcome.next (runInstr_of_issues h _))

theorem exec_fend_alone {s t : State} {i : Fin 16} (ha : (s.core (.frond i)).abandoned = [])
    (h : Issues s (.frond i) { frameShape .short with noSlot := true } t)
    (ho : ∀ j : Fin 16, j ≠ i → (t.core (.frond j)).waiting ≠ some .barrier) :
    ∃ u, exec (.fend (.frond i)) s = .next u ∧ (u.core (.frond i)).run = .idle ∧
      (u.core (.frond i)).frame.fendDone = true := by
  obtain ⟨join, hc⟩ := fendDone_cores (completeInstr t (.frond i) 1) i
  rw [frondId_val] at hc
  have hi : (fendDone (completeInstr t (.frond i) 1) i).core (.frond i) = Core.frameEnded _ join :=
    (core_of_cores hc _).trans (core_modCore_same ..)
  have hopen : openBarriers (fendDone (completeInstr t (.frond i) 1) i) = fendDone (completeInstr t (.frond i) 1) i := by
    refine openBarriers_of_nobody fun j => ?_
    by_cases hj : j = i
    · rw [hj, hi]
      exact nofun
    · have hne : CoreId.frond j ≠ .frond i := fun e => hj (CoreId.frond.inj e)
      rw [core_of_cores hc, core_modCore_other _ _ hne, core_completeInstr_other t 1 hne]
      exact ho j hj
  refine ⟨_, exec_fend_of_issues ha h, ?_, ?_⟩
  · rw [hopen, hi, Core.frameEnded]
  · rw [hopen, hi, Core.frameEnded]

/-- Settles O48: each frame instruction by what it makes of its output, of its barrier and of its frame. That a refused output
records a free value as its address is log 95, a choice of the model (R778). -/
theorem frameInstructions : Obligations.FrameInstructions := by
  unfold Obligations.FrameInstructions
  intro s t i gd ga gb c k n
  refine ⟨fun h => ⟨fun o ho hg => ?own, fun o ho => exec_inf_present h gd ga ((outputOf_eq t _).trans ho),
    fun ho => ?absent, fun g hg => exec_ftime_grouped h gd hg, exec_fnum_of_issues h gd, exec_fbar_alone h⟩, exec_fend_alone⟩
  case own =>
    have hown : ownedOutput t c (k.reg ga) = some o := ownedOutput_own ((outputOf_eq t _).trans ho) hg
    exact ⟨exec_out_owned h ga gb hown, exec_inb_owned h gd ga hown⟩
  case absent =>
    have hout : outputOf t (k.reg ga) = none := (outputOf_eq t _).trans ho
    have hnone : ownedOutput t c (k.reg ga) = none := ownedOutput_absent c hout
    exact ⟨exec_out_refused h ga gb hnone, exec_inb_refused h gd ga hnone, exec_inf_absent h gd ga hout⟩

end Sys2Proof.Machine
end

section
/-! Register commands of the Frond cluster, the tick, the front ends and the ring (chapters 12, 14 and 15): each is a write of
its register, with a bit of its own set where it names one. -/

namespace Sys2Proof.Machine

open Sys2Proof

/-! ## A bit set in a written word -/

theorem bit_setBit_same (w : Word) {n : Nat} (b : Bool) (hn : n < 48 := by decide) : bit (setBit w n b) n = b := by
  rw [setBit, bit_setFld _ _ le_rfl hn, if_pos ⟨le_rfl, le_rfl⟩]
  cases b <;> simp

theorem bit_setBit_other (w : Word) {m n : Nat} (b : Bool) (hn : n < 48 := by decide) (h : m ≠ n := by decide) :
    bit (setBit w m b) n = bit w n := by
  rw [setBit, bit_setFld _ _ le_rfl hn, if_neg (by omega)]

theorem fld_setBit_other (w : Word) {n hi lo : Nat} (b : Bool) (hw : hi < 48) (h : n < lo ∨ hi < n) :
    fld (setBit w n b) hi lo = fld w hi lo :=
  fld_setFld_disjoint w _ le_rfl hw h

/-- Of two writes of a bit the later one counts. -/
theorem setBit_setBit (w : Word) {n : Nat} (a b : Bool) : setBit (setBit w n a) n b = setBit w n b := by
  refine BitVec.eq_of_getLsbD_eq fun m hm => ?_
  by_cases h : n = m
  · subst h
    exact (bit_setBit_same _ b hm).trans (bit_setBit_same _ b hm).symm
  · exact ((bit_setBit_other _ b hm h).trans (bit_setBit_other _ a hm h)).trans (bit_setBit_other _ b hm h).symm

/-! ## Writes of the three blocks (R764) -/

section
variable {s : State} {rq : Requester} {a o : Nat} (h : Admitted s rq a) (v : Word)
include h

theorem writeCmd_tick (ha : a = regBase + 0x60000 + o) (ho : o < 0x10000) :
    writeCmd s rq a v = tickWrite (bridged s) rq o a v := by
  rw [writeCmd_admitted v h (inAperture_of_lt (by rw [ha, regBase]; omega)), regStore_tick _ _ _ _ _ ha ho]

theorem writeCmd_ring (ha : a = regBase + 0x80000 + o) (ho : o < 0x10000) :
    writeCmd s rq a v = ringWrite (bridged s) rq o a v := by
  rw [writeCmd_admitted v h (inAperture_of_lt (by rw [ha, regBase]; omega)), regStore_ring _ _ _ _ _ ha ho]

theorem writeCmd_sense (ha : a = regBase + 0x90000 + o) (ho : o < 0x10000) :
    writeCmd s rq a v = senseWriteReg (bridged s) rq o a v := by
  rw [writeCmd_admitted v h (inAperture_of_lt (by rw [ha, regBase]; omega)), regStore_sense _ _ _ _ _ ha ho]

end

/-- A write that only sets, keeps and clears bits leaves all but the registers (R10). -/
@[simp] theorem plainWrite_tick (s : State) (a : Nat) (v : Word) : (plainWrite s a v).tick = s.tick := by
  unfold plainWrite
  split
  · exact regSet_tick ..
  · rfl

@[simp] theorem plainWrite_now (s : State) (a : Nat) (v : Word) : (plainWrite s a v).now = s.now := by
  unfold plainWrite
  split
  · exact congrArg BitVec.toNat (regSet_tb ..)
  · rfl

@[simp] theorem plainWrite_sys (s : State) (a : Nat) (v : Word) : (plainWrite s a v).sys = s.sys := by
  unfold plainWrite
  split
  · exact regSet_sys ..
  · rfl

section
variable {s : State} {rq : Requester} (v : Word)

theorem writeCmd_frondCtl {c : Fin 16} (h : Admitted s rq (aFrondCtl c)) :
    writeCmd s rq (aFrondCtl c) v = frondCtlWrite (bridged s) rq c v := by
  rw [writeCmd_tick h v (o := 0x20 + c) (by simp only [aFrondCtl, regBase]; omega) (by omega), tickWrite, if_neg (by omega),
    if_neg (by simp; omega), if_pos (by simp; omega), Nat.add_sub_cancel_left]

theorem writeCmd_grpCtl {g : Fin 4} (h : Admitted s rq (aGrpCtl g)) :
    writeCmd s rq (aGrpCtl g) v = grpCtlWrite (bridged s) rq g v := by
  rw [writeCmd_tick h v (o := 0x18 + g) (by simp only [aGrpCtl, regBase]; omega) (by omega), tickWrite, if_neg (by omega),
    if_pos (by simp; omega), Nat.add_sub_cancel_left]

theorem writeCmd_tickPeriod (h : Admitted s rq aTickPeriod) :
    writeCmd s rq aTickPeriod v = tickPeriodWrite (bridged s) rq v :=
  writeCmd_tick h v (o := 0) rfl (by decide)

theorem writeCmd_senseCfg {c : Fin 32} (h : Admitted s rq (aSenseCfg c)) :
    writeCmd s rq (aSenseCfg c) v = senseCfgWrite (bridged s) c v := by
  rw [writeCmd_sense h v (o := 0x10 + c) (by simp only [aSenseCfg, regBase]; omega) (by omega), senseWriteReg,
    if_neg (by omega), if_pos (by simp; omega), Nat.add_sub_cancel_left]

theorem writeCmd_excCfg {d : Fin 8} (h : Admitted s rq (aExcCfg d)) :
    writeCmd s rq (aExcCfg d) v = excCfgWrite (bridged s) rq d v := by
  rw [writeCmd_sense h v (o := 0x50 + d) (by simp only [aExcCfg, regBase]; omega) (by omega), senseWriteReg,
    if_neg (by omega), if_neg (by simp; omega), if_pos (by simp; omega), Nat.add_sub_cancel_left]

theorem writeCmd_senseCtl (h : Admitted s rq aSenseCtl) : writeCmd s rq aSenseCtl v = senseCtlWrite (bridged s) rq v :=
  writeCmd_sense h v (o := 0) rfl (by decide)

theorem writeCmd_touchCtl (h : Admitted s rq aTouchCtl) : writeCmd s rq aTouchCtl v = touchCtlWrite (bridged s) rq v :=
  writeCmd_sense h v (o := 0x100) rfl (by decide)

theorem writeCmd_ringCtl (h : Admitted s rq aRingCtl) : writeCmd s rq aRingCtl v = ringCtlWrite (bridged s) rq v :=
  writeCmd_ring h v (o := 1) rfl (by decide)

theorem writeCmd_ringLayout (h : Admitted s rq aRingLayout) :
    writeCmd s rq aRingLayout v = ringLayoutWrite (bridged s) rq v :=
  writeCmd_ring h v (o := 2) rfl (by decide)

theorem writeCmd_ringRxBase (h : Admitted s rq aRingRxBase) :
    writeCmd s rq aRingRxBase v = ringRxBaseWrite (bridged s) rq v :=
  writeCmd_ring h v (o := 3) rfl (by decide)

end

/-! ## FROND_CORE_CTL and TICK_GRP_CTL (R467, R468, R470, R486) -/

section
variable {s : State} {rq : Requester} {i : Nat} {v : Word}

theorem frondCtlWrite_checker (h : isChecker s i = true) : frondCtlWrite s rq i v = rqViolation s 9 rq true (aFrondCtl i) :=
  if_pos h

/-- START alone. -/
theorem frondCtlWrite_start (h : isChecker s i = false) (hs : bit v 47 = true) (hp : bit v 46 = false) :
    frondCtlWrite s rq i v = frondStart (plainWrite s (aFrondCtl i) v) rq i := by
  simp [frondCtlWrite, h, hs, hp]

/-- PARK alone, of a core in init or joined. -/
theorem frondCtlWrite_park (h : isChecker s i = false) (hs : bit v 47 = false) (hp : bit v 46 = true)
    (hi : frondState (plainWrite s (aFrondCtl i) v) i = 1 ∨ frondState (plainWrite s (aFrondCtl i) v) i = 2) :
    frondCtlWrite s rq i v = (plainWrite s (aFrondCtl i) v).modCore (frondId i) fun k =>
      { k with frame := { k.frame with parkPending := true } } := by
  simp [frondCtlWrite, h, hs, hp, hi]

theorem frondStart_not_parked (h : frondState s i ≠ 0) : frondStart s rq i = s := if_pos h

theorem frondStart_parked (h : frondState s i = 0) (hr : (s.core (frondId i)).run = .parked) :
    frondStart s rq i = setUnitState (s.modCore (frondId i) fun k => { k.toReset with
      pc := w48 (regF s (aFrondCtl i) 36 0), run := .running }) i 1 :=
  (if_neg (not_not.2 h)).trans (if_neg (not_not.2 hr))

variable {g : Nat}

theorem grpCtlWrite_released (hv : bit v 0 = true) (hs : regB s (aGrpStat g) 5 = true)
    (hc : causePermits (regF s (aGrpStat g) 11 8) = true) : grpCtlWrite s rq g v = regFld s (aGrpStat g) 4 4 1 :=
  (if_pos hv).trans (if_pos (Bool.and_eq_true_iff.2 ⟨hs, hc⟩))

theorem grpCtlWrite_refused (hv : bit v 0 = true)
    (h : regB s (aGrpStat g) 5 = false ∨ causePermits (regF s (aGrpStat g) 11 8) = false) :
    grpCtlWrite s rq g v = rqViolation s 9 rq true (aGrpCtl g) :=
  (if_pos hv).trans (if_neg (Bool.not_eq_true _ ▸ Bool.and_eq_false_iff.2 h))

end

/-! ## TICK_PERIOD (R461) -/

section
variable {s : State} {rq : Requester} {v : Word}

theorem tickPeriodWrite_legal (h1 : tickMin s ≤ fld v 23 0) (h2 : fld v 23 0 ≤ tickMax s) :
    tickPeriodWrite s rq v = { plainWrite s aTickPeriod v with tick := { s.tick with
      pendingPeriod := s.tick.pendingPeriod ++ [(fld v 23 0, s.now, regF s aTickPeriod 23 0)] } } := by
  simp only [tickPeriodWrite, h1, h2, decide_true, Bool.and_self, if_true, plainWrite_tick,
    plainWrite_now]

theorem tickPeriodWrite_illegal (h : fld v 23 0 < tickMin s ∨ tickMax s < fld v 23 0) :
    tickPeriodWrite s rq v = rqViolation s 6 rq true aTickPeriod :=
  if_neg (by simp; omega)

end

/-! ## The front ends (R577, R580, R582, R592, R598) -/

section
variable {s : State} {rq : Requester} {v : Word}

/-- CAL of a channel that is not calibrating, with a legal REF. -/
theorem senseCfgWrite_cal {c : Nat} (hv : bit v 46 = true) (ho : regB s (aSenseCfg c) 36 = false)
    (hr : fld v 43 40 = 0 ∨ 8 ≤ fld v 43 40) : senseCfgWrite s c v =
      modChan (regFld (plainWrite s (aSenseCfg c) v) (aSenseCfg c) 36 36 1) c fun x => { x with calWait := true } := by
  have ho' : bit (regGet s (aSenseCfg c)) 36 = false := ho
  simp [senseCfgWrite, hv, ho', hr]

section
variable {d : Nat} (hm : fld v 47 46 ≤ 2) (hn : fld v 12 0 ≤ 4500) (h1 : 1 ≤ fld v 39 32) (h30 : fld v 39 32 ≤ 30)
include hm hn h1 h30

/-- A DAC setting within its ranges is taken, unless it raises the current limit beyond what the other DACs leave. -/
theorem excCfgWrite_of_ranges : excCfgWrite s rq d v =
    if fld v 39 32 ≤ regF s (aExcCfg d) 39 32 ∨ otherLimits s d + fld v 39 32 ≤ 120 then plainWrite s (aExcCfg d) v
    else rqViolation (plainWrite s (aExcCfg d) (setFld v 39 32 (regF s (aExcCfg d) 39 32))) 9 rq true (aExcCfg d) := by
  by_cases hle : fld v 39 32 ≤ fld (regGet s (aExcCfg d)) 39 32
  · simp [excCfgWrite, regF, hm, hn, h1, h30, hle]
  · simp [excCfgWrite, refuseWrite, regF, hm, hn, h1, h30, hle]

end

/-- The slots that samples are written to lie in a bank that grants SENSE, aligned to their size (R582). -/
theorem senseCtlWrite_enabled (hs : fld v 39 36 ≤ 8) (hv : bit v 47 = true) : senseCtlWrite s rq v =
    if senseBankAt s (fld v 35 0) = true ∧ fld v 35 0 % (32 * 2 ^ fld v 39 36) = 0 then plainWrite s aSenseCtl v
    else rqViolation s 9 rq true aSenseCtl := by
  simp only [senseCtlWrite, hs, if_true]
  by_cases h : senseBankAt s (fld v 35 0) = true ∧ fld v 35 0 % (32 * 2 ^ fld v 39 36) = 0
  · rw [if_pos h]
    exact if_neg (by simp [h])
  · rw [if_neg h]
    exact if_pos (by simpa [hv, imp_iff_not_or] using h)

theorem touchCtlWrite_enabled (hv : bit v 47 = true) : touchCtlWrite s rq v =
    if senseBankAt s (fld v 35 0) = true ∧ fld v 35 0 % 4096 = 0 then plainWrite s aTouchCtl v
    else rqViolation s 9 rq true aTouchCtl := by
  by_cases h : senseBankAt s (fld v 35 0) = true ∧ fld v 35 0 % 4096 = 0
  · rw [if_pos h]
    exact if_neg (by simp [h])
  · rw [if_neg h]
    exact if_pos (by simpa [hv, imp_iff_not_or] using h)

end

/-! ## The ring (R561, R562, R565 to R567) -/

@[simp] theorem represent_sys (s : State) (t : Nat) : (represent s t).sys = s.sys := by
  unfold represent; split <;> rfl

@[simp] theorem assertEdge_sys (s : State) (n : Nat) : (assertEdge s n).sys = s.sys := by
  unfold assertEdge
  split
  · rfl
  · split
    · exact regFld_sys ..
    · rw [represent_sys, regSet_sys, regFld_sys]

/-- The bypass conducts (R561). -/
theorem closeRing_bypass (s : State) : (closeRing s).sys.bypass = true := by
  simp only [closeRing]
  split
  · rw [assertEdge_sys]
  · rfl

/-- The fields of RING_CTL that keep their values on a write out of range are within it (R565). -/
def RingRanges (v : Word) : Prop := 8 ≤ fld v 32 25 ∧ 1 ≤ fld v 24 21 ∧ 1 ≤ fld v 15 0

/-- BYPASS and WAKE lie above those fields. -/
theorem ringRanges_setBit {v : Word} (h : RingRanges v) {n : Nat} (b : Bool) (hn : 32 < n) :
    RingRanges (setBit v n b) := by
  have keeps {hi lo : Nat} (hhi : hi ≤ 32) : fld (setBit v n b) hi lo = fld v hi lo :=
    fld_setBit_other v b (by omega) (by omega)
  simp only [RingRanges, keeps, le_refl, Nat.reduceLeDiff]
  exact h

theorem rqLevel_bridged (s : State) (rq : Requester) : rqLevel (bridged s) rq = rqLevel s rq := by
  cases rq <;> rfl

section
variable {s : State} {rq : Requester} {v : Word} (hr : RingRanges v)
include hr

/-- RING_CTL with its fields within their ranges: BYPASS is taken at PL3 alone, and WAKE while the ports are in use. -/
theorem ringCtlWrite_of_ranges : ringCtlWrite s rq v =
    (let byp := bit v 47 && rqLevel s rq = 3
     let t := plainWrite s aRingCtl (setBit v 47 byp)
     let t := if bit v 46 && !s.sys.bypass then sendWake (sendWake t 0 (fld v 45 34)) 1 (fld v 45 34) else t
     if byp then closeRing (if regF t aTickStat 1 0 = 2 then regFld t aTickStat 1 0 3 else t) else t) := by
  obtain ⟨helect, hquota, hlanes⟩ := hr
  simp only [ringCtlWrite, keepUnless, helect, hquota, hlanes, decide_true, if_true, plainWrite_sys]

theorem ringCtlWrite_bypass (hb : bit v 47 = true) (hw : bit v 46 = false) (hl : rqLevel s rq = 3) :
    ringCtlWrite s rq v =
      (let t := plainWrite s aRingCtl (setBit v 47 true)
       closeRing (if regF t aTickStat 1 0 = 2 then regFld t aTickStat 1 0 3 else t)) := by
  simp [ringCtlWrite_of_ranges hr, hb, hw, hl]

theorem ringCtlWrite_bypass_dropped (hw : bit v 46 = false) (hl : rqLevel s rq ≠ 3) :
    ringCtlWrite s rq v = plainWrite s aRingCtl (setBit v 47 false) := by
  simp [ringCtlWrite_of_ranges hr, hw, hl]

theorem ringCtlWrite_wake (hb : bit v 47 = false) (hw : bit v 46 = true) (hc : s.sys.bypass = false) :
    ringCtlWrite s rq v =
      (let t := plainWrite s aRingCtl (setBit v 47 false)
       sendWake (sendWake t 0 (fld v 45 34)) 1 (fld v 45 34)) := by
  simp [ringCtlWrite_of_ranges hr, hb, hw, hc]

end

theorem ringLayoutWrite_eq (s : State) (rq : Requester) (v : Word) : ringLayoutWrite s rq v =
    if fld v 47 36 < fld v 35 24 ∨ 4000 < fld v 47 36 + fld v 35 24 ∨ fld v 15 12 = 0 then
      rqViolation s 9 rq true aRingLayout
    else plainWrite s aRingLayout v := by
  simp only [ringLayoutWrite, refuseWrite, Bool.or_eq_true, decide_eq_true_eq, or_assoc]

theorem ringRxBaseWrite_eq (s : State) (rq : Requester) (v : Word) : ringRxBaseWrite s rq v =
    (let b := fld v 35 0
     if b = 0 ∨ (0x820000000 ≤ b ∧ b < 0x820100000 ∧ b % 0x4000 = 0 ∧
        bankGrants s ((b - 0x820000000) / 0x8000) .ring = true) then plainWrite s aRingRxBase v
     else rqViolation s 9 rq true aRingRxBase) := by
  simp only [ringRxBaseWrite, refuseWrite, Bool.or_eq_true, Bool.and_eq_true, decide_eq_true_eq, and_assoc]

/-! ## The commands that set a bit of what they write -/

section
variable {s : State} {rq : Requester} {v : Word}

theorem exec_frondCoreCtlStart_alone {c : Fin 16} (h : Admitted s rq (aFrondCtl c))
    (hc : isChecker (bridged s) c = false) (hp : bit v 46 = false) : exec (.frondCoreCtlStart rq c v) s =
      .next (frondStart (plainWrite (bridged s) (aFrondCtl c) (setBit v 47 true)) rq c) :=
  congrArg Host.Outcome.next ((writeCmd_frondCtl _ h).trans (frondCtlWrite_start hc (bit_setBit_same v true)
    ((bit_setBit_other v true).trans hp)))

theorem exec_park_alone {c : Fin 16} (h : Admitted s rq (aFrondCtl c)) (hc : isChecker (bridged s) c = false)
    (hs : bit v 47 = false) (hi : frondState (plainWrite (bridged s) (aFrondCtl c) (setBit v 46 true)) c = 1 ∨
      frondState (plainWrite (bridged s) (aFrondCtl c) (setBit v 46 true)) c = 2) : exec (.park rq c v) s =
      .next ((plainWrite (bridged s) (aFrondCtl c) (setBit v 46 true)).modCore (frondId c) fun k =>
        { k with frame := { k.frame with parkPending := true } }) :=
  congrArg Host.Outcome.next ((writeCmd_frondCtl _ h).trans (frondCtlWrite_park hc
    ((bit_setBit_other v true).trans hs) (bit_setBit_same v true) hi))

theorem exec_release_admitted {g : Fin 4} (h : Admitted s rq (aGrpCtl g)) :
    exec (.release rq g v) s = .next (grpCtlWrite (bridged s) rq g (setBit v 0 true)) :=
  congrArg Host.Outcome.next (writeCmd_grpCtl _ h)

theorem exec_cal_idle {c : Fin 32} (h : Admitted s rq (aSenseCfg c)) (ho : regB (bridged s) (aSenseCfg c) 36 = false)
    (hr : fld v 43 40 = 0 ∨ 8 ≤ fld v 43 40) : exec (.cal rq c v) s = .next (modChan
      (regFld (plainWrite (bridged s) (aSenseCfg c) (setBit v 46 true)) (aSenseCfg c) 36 36 1) c
      fun x => { x with calWait := true }) :=
  congrArg Host.Outcome.next ((writeCmd_senseCfg _ h).trans (senseCfgWrite_cal (bit_setBit_same v true) ho
    (by rwa [fld_setBit_other v true (by decide) (by decide)])))

section
variable (h : Admitted s rq aRingCtl) (hr : RingRanges v)
include h hr

theorem exec_bypass_pl3 (hw : bit v 46 = false) (hl : rqLevel s rq = 3) : exec (.bypass rq v) s =
    (let t := plainWrite (bridged s) aRingCtl (setBit v 47 true)
     .next (closeRing (if regF t aTickStat 1 0 = 2 then regFld t aTickStat 1 0 3 else t))) := by
  refine congrArg Host.Outcome.next ((writeCmd_ringCtl _ h).trans ?_)
  rw [ringCtlWrite_bypass (ringRanges_setBit hr true (by decide)) (bit_setBit_same v true)
    ((bit_setBit_other v true).trans hw) ((rqLevel_bridged s rq).trans hl),
    setBit_setBit v true true]

theorem exec_bypass_lower (hw : bit v 46 = false) (hl : rqLevel s rq ≠ 3) :
    exec (.bypass rq v) s = .next (plainWrite (bridged s) aRingCtl (setBit v 47 false)) := by
  refine congrArg Host.Outcome.next ((writeCmd_ringCtl _ h).trans ?_)
  rw [ringCtlWrite_bypass_dropped (ringRanges_setBit hr true (by decide)) ((bit_setBit_other v true).trans hw)
    (rqLevel_bridged s rq ▸ hl), setBit_setBit v true false]

theorem exec_wakePattern_open (hb : bit v 47 = false) (hc : s.sys.bypass = false) : exec (.wakePattern rq v) s =
    (let t := plainWrite (bridged s) aRingCtl (setBit (setBit v 46 true) 47 false)
     .next (sendWake (sendWake t 0 (fld v 45 34)) 1 (fld v 45 34))) := by
  refine congrArg Host.Outcome.next ((writeCmd_ringCtl _ h).trans ?_)
  rw [ringCtlWrite_wake (s := bridged s) (ringRanges_setBit hr true (by decide)) ((bit_setBit_other v true).trans hb)
    (bit_setBit_same v true) hc, fld_setBit_other v true (by decide) (by decide)]

end

end

/-- Settles O50: each register command by what the write of its register does. That a member
whose bypass conducts reports SRC 3 in TICK_STAT is log 67, deduced: a choice of the model. -/
theorem clusterCommands : Obligations.ClusterCommands := by
  unfold Obligations.ClusterCommands
  intro s rq v u
  refine ⟨fun c h => ⟨fun hc => ?checker, fun hc hp => ⟨fun hi => ?startLive, fun hi hr => ?start⟩, fun hc hs hi => ?park⟩,
    fun g h => ⟨fun hs hc => ?release, fun hr => ?held⟩, fun h => ⟨fun h1 h2 => ?period, fun hp => ?badPeriod⟩,
    fun c h => exec_cal_idle h, fun d h hm hn h1 h30 => ⟨fun hi => ?limit, fun hi ho => ?overLimit⟩,
    fun h hs hv => ?sense, fun h hv => ?touch,
    fun h hp hn hf => ⟨fun hw hl => ?bypass, fun hw hl => ?bypassDropped, fun hb hc => ?wake⟩,
    fun h => ?layout, fun h => ?rxBase⟩
  case checker =>
    exact ⟨congrArg Host.Outcome.next ((writeCmd_frondCtl _ h).trans (frondCtlWrite_checker hc)),
      congrArg Host.Outcome.next ((writeCmd_frondCtl _ h).trans (frondCtlWrite_checker hc))⟩
  case startLive => rw [exec_frondCoreCtlStart_alone h hc hp, frondStart_not_parked hi]
  case start =>
    rw [exec_frondCoreCtlStart_alone h hc hp, frondStart_parked hi (by rwa [frondId_val]), frondId_val]
  case park => rw [exec_park_alone h hc hs hi, frondId_val]
  case release =>
    exact (exec_release_admitted h).trans (congrArg _ (grpCtlWrite_released (bit_setBit_same v true) hs hc))
  case held =>
    exact (exec_release_admitted h).trans (congrArg _ (grpCtlWrite_refused (bit_setBit_same v true) hr))
  case period =>
    exact congrArg Host.Outcome.next ((writeCmd_tickPeriod v h).trans (tickPeriodWrite_legal h1 h2))
  case badPeriod => exact congrArg Host.Outcome.next ((writeCmd_tickPeriod v h).trans (tickPeriodWrite_illegal hp))
  case limit =>
    exact congrArg Host.Outcome.next ((writeCmd_excCfg v h).trans
      ((excCfgWrite_of_ranges hm hn h1 h30).trans (if_pos (.inr hi))))
  case overLimit =>
    exact congrArg Host.Outcome.next ((writeCmd_excCfg v h).trans
      ((excCfgWrite_of_ranges hm hn h1 h30).trans (if_neg (not_or.2 ⟨not_le.2 ho, not_le.2 hi⟩))))
  case sense =>
    have hw := (writeCmd_senseCtl v h).trans (senseCtlWrite_enabled hs hv)
    exact ⟨fun hok => congrArg Host.Outcome.next (hw.trans (if_pos hok)),
      fun hok => congrArg Host.Outcome.next (hw.trans (if_neg hok))⟩
  case touch =>
    have hw := (writeCmd_touchCtl v h).trans (touchCtlWrite_enabled hv)
    exact ⟨fun hok => congrArg Host.Outcome.next (hw.trans (if_pos hok)),
      fun hok => congrArg Host.Outcome.next (hw.trans (if_neg hok))⟩
  case layout =>
    have hw := (writeCmd_ringLayout v h).trans (ringLayoutWrite_eq u rq v)
    exact ⟨fun hbad => congrArg Host.Outcome.next (hw.trans (if_pos hbad)),
      fun hok => congrArg Host.Outcome.next (hw.trans (if_neg hok))⟩
  case rxBase =>
    have hw := (writeCmd_ringRxBase v h).trans (ringRxBaseWrite_eq u rq v)
    exact ⟨fun hok => congrArg Host.Outcome.next (hw.trans (if_pos hok)),
      fun hbad => congrArg Host.Outcome.next (hw.trans (if_neg hbad))⟩
  case bypass => exact ⟨exec_bypass_pl3 h ⟨hp, hn, hf⟩ hw hl, closeRing_bypass _⟩
  case bypassDropped => exact exec_bypass_lower h ⟨hp, hn, hf⟩ hw hl
  case wake => exact exec_wakePattern_open h ⟨hp, hn, hf⟩ hb hc

end Sys2Proof.Machine
end

section
/-! The front of the queue, the state after reset, and the frame of a store. -/

namespace Sys2Proof.Machine

open Sys2Proof

/-- Settles O1: the step's own equation at a queue with a front. -/
theorem stepTakesFront : Obligations.StepTakesFront := by
  unfold Obligations.StepTakesFront
  intro c rest s h
  rw [step, h]

/-- Settles O6: every map is empty after reset. -/
theorem resetMemoriesInForm : Obligations.ResetMemoriesInForm := ⟨rfl, rfl⟩

/-- After reset no core is listed, so each one reads as its reset value. -/
theorem core_reset (c : CoreId) : State.reset.core c = Core.reset := by
  simp [State.core, State.reset]

/-- Settles O7. The values are those of R91, R125, R147, R150, R162, R182 and R264; that the queues are empty and no slot
is open is the model's choice (log entry 4). -/
theorem resetValues : Obligations.ResetValues := by
  unfold Obligations.ResetValues
  intro c
  simp only [core_reset]
  refine ⟨fun r => ?general, fun n => ?bank, rfl, rfl, rfl, rfl, rfl, rfl, fun p => ?poly, rfl, rfl, rfl, rfl, rfl, rfl⟩
  case general => simp [Core.reg, Core.reset]
  case bank => simp [Core.reset]
  case poly => simp [Core.reset]

/-- Settles O36: the store writes one word of Sorus memory and counts. -/
theorem storeFrame : Obligations.StoreFrame := by
  unfold Obligations.StoreFrame
  intro t a v h
  have hc := Memory.wf_count h 62 0xA0 1
  refine ⟨?stored, fun b hb => sorusRaw_sorusPut_other _ _ hb, fun b => rfl, rfl, rfl, rfl, rfl, rfl⟩
  case stored =>
    show (sorusRaw (sorusPut _ a ⟨v, false, .good⟩) a).data = v
    rw [sorusRaw_sorusPut_same hc]

end Sys2Proof.Machine
end

section
/-! The canonical form of the memories is not kept (chapter 11, R80, R81). What a DRAM word reads where no entry is
listed depends on the applied image: its region entries say whether a region starts as complements. The frame tick
restores an upset region entry to its last-good copy, so that fill changes while the DRAM does not, and an entry that
was no reset value before the tick is one after it. -/

namespace Sys2Proof.Machine

open Sys2Proof

/-- An image with one region, whose kind an upset has made 0; its last-good kind is 1. -/
def upsetImage : Image := { Image.reset with regions := [(mk 23 0 2, 0)] }

/-- A running module whose DRAM lists one container, which is not the fill under the upset image, and whose structure
register of the region's kind has the last-good value 1. -/
def upsetState : State := { State.reset with
  dram := [(4096, containerOf 0xFFFFFFFFFFFF false 4096)]
  struct := { StructState.reset with image := upsetImage, regs := [⟨hiddenReg 6 1, 0, 1⟩] }
  tick := { TickState.reset with running := true }
  sys := { Sys.reset with mode := .running } }

theorem upsetState_wf : Memory.wf { upsetState with pending := [.frameTick []] } = true := by decide +kernel

/-- The tick makes the region's fill the container that the DRAM lists. -/
theorem frameTick_upsetState_dram :
    swf (fillImage (settleSyncs (frameTick upsetState []))) (settleSyncs (frameTick upsetState [])).dram = false := by
  decide +kernel

/-- Refutes O5: the tick restores the upset kind of a region whose DRAM lists one container; that container is then the
reset value of its address, which a canonical map does not list. -/
theorem not_memoriesKeepTheirForm : ¬ Obligations.MemoriesKeepTheirForm := by
  unfold Obligations.MemoriesKeepTheirForm
  intro h
  have hwf := h { upsetState with pending := [.frameTick []] } (settleSyncs (frameTick upsetState [])) upsetState_wf rfl
  obtain ⟨-, -, -, hdram, -⟩ := (Memory.wf_iff _).1 hwf
  rw [frameTick_upsetState_dram] at hdram
  exact Bool.false_ne_true hdram

end Sys2Proof.Machine
end

section
/-! The queue of waiting commands: every function of the model leaves it alone. A step has taken its command from the
front before the command acts, and no command puts one in. One lemma for each function that answers a state, in the
order of the model; the state a function answers inside an outcome of its own is that outcome's `state`. -/

namespace Sys2Proof.Machine

open Sys2Proof

@[simp] theorem foldl_pending {α : Type} {g : State → α → State} (h : ∀ s x, (g s x).pending = s.pending)
    (l : List α) (s : State) : (l.foldl g s).pending = s.pending := by
  induction l generalizing s with
  | nil => rfl
  | cons x l ih => rw [List.foldl_cons, ih, h]

@[simp] theorem ite_pending (c : Prop) [Decidable c] (a b : State) :
    (if c then a else b).pending = if c then a.pending else b.pending := apply_ite State.pending c a b

/-- The state a stage of the start-up leaves, whether it goes on or ends in a fault. -/
def stageEnd : Except State State → State
  | .ok s => s
  | .error s => s
@[simp] theorem stageEnd_ok (s : State) : stageEnd (.ok s) = s := rfl
@[simp] theorem stageEnd_error (s : State) : stageEnd (.error s) = s := rfl

/-- The state a table walk leaves. -/
def Walk.state {α : Type} : Walk α → State
  | .ok _ s => s
  | .fault _ _ s => s
  | .busy s => s
@[simp] theorem walkState_ok {α : Type} (a : α) (s : State) : (Walk.ok a s).state = s := rfl
@[simp] theorem walkState_fault {α : Type} (a) (b) (s : State) : (Walk.fault a b s : Walk α).state = s := rfl
@[simp] theorem walkState_busy {α : Type} (s : State) : (Walk.busy s : Walk α).state = s := rfl

/-- The state an update of a table entry leaves. -/
def Updated.state : Updated → State
  | .done s _ => s
  | .changed s => s
  | .bad _ s => s
  | .busy s => s
@[simp] theorem updatedState_done (s : State) (a) : (Updated.done s a).state = s := rfl
@[simp] theorem updatedState_changed (s : State) : (Updated.changed s).state = s := rfl
@[simp] theorem updatedState_bad (s : State) (a) : (Updated.bad a s).state = s := rfl
@[simp] theorem updatedState_busy (s : State) : (Updated.busy s).state = s := rfl

/-- The state a translation leaves. -/
def Walked.state : Walked → State
  | .ok s _ => s
  | .fault s _ _ => s
  | .wait s => s
  | .again s => s
@[simp] theorem walkedState_ok (s : State) (a) : (Walked.ok s a).state = s := rfl
@[simp] theorem walkedState_fault (s : State) (a b) : (Walked.fault s a b).state = s := rfl
@[simp] theorem walkedState_wait (s : State) : (Walked.wait s).state = s := rfl
@[simp] theorem walkedState_again (s : State) : (Walked.again s).state = s := rfl

/-- The state a store to Sorus memory leaves. -/
def SorusStore.state : SorusStore → State
  | .done s => s
  | .poisoned s => s
  | .mismatched s => s
@[simp] theorem sorusStoreState_done (s : State) : (SorusStore.done s).state = s := rfl
@[simp] theorem sorusStoreState_poisoned (s : State) : (SorusStore.poisoned s).state = s := rfl
@[simp] theorem sorusStoreState_mismatched (s : State) : (SorusStore.mismatched s).state = s := rfl

/-- The state a translation of the pinna engine leaves. -/
def PinAt.state : PinAt → State
  | .ok s _ => s
  | .bad s => s
  | .wait s => s
@[simp] theorem pinAtState_ok (s : State) (a) : (PinAt.ok s a).state = s := rfl
@[simp] theorem pinAtState_bad (s : State) : (PinAt.bad s).state = s := rfl
@[simp] theorem pinAtState_wait (s : State) : (PinAt.wait s).state = s := rfl

/-- The state the body of an instruction leaves. -/
def Body.state : Body → State
  | .done s => s
  | .fault s _ => s
  | .stay s => s
@[simp] theorem bodyState_done (s : State) : (Body.done s).state = s := rfl
@[simp] theorem bodyState_fault (s : State) (a) : (Body.fault s a).state = s := rfl
@[simp] theorem bodyState_stay (s : State) : (Body.stay s).state = s := rfl

/-- The state a fetch leaves. -/
def Fetched.state : Fetched → State
  | .ok s => s
  | .zero s => s
  | .fault s _ => s
  | .stop s => s
  | .wait s => s
@[simp] theorem fetchedState_ok (s : State) : (Fetched.ok s).state = s := rfl
@[simp] theorem fetchedState_zero (s : State) : (Fetched.zero s).state = s := rfl
@[simp] theorem fetchedState_fault (s : State) (a) : (Fetched.fault s a).state = s := rfl
@[simp] theorem fetchedState_stop (s : State) : (Fetched.stop s).state = s := rfl
@[simp] theorem fetchedState_wait (s : State) : (Fetched.wait s).state = s := rfl

/-- The state one reference of an access leaves. -/
def Did.state : Did → State
  | .ok s _ => s
  | .fault s _ => s
  | .far s => s
@[simp] theorem didState_ok (s : State) (a) : (Did.ok s a).state = s := rfl
@[simp] theorem didState_fault (s : State) (a) : (Did.fault s a).state = s := rfl
@[simp] theorem didState_far (s : State) : (Did.far s).state = s := rfl

@[simp] theorem wholeState_done {α : Type} (a : α) (s : State) : (Whole.done a s).state = s := rfl
@[simp] theorem wholeState_held {α : Type} (s : State) : (Whole.held s : Whole α).state = s := rfl

/-! ## Registers, counters and faults -/

/-- Both branches of a choice keep the queue. -/
theorem pending_ite {c : Prop} [Decidable c] {a b : State} {q : List Instr} (ha : a.pending = q)
  (hb : b.pending = q) :
    (if c then a else b).pending = q := by
  split
  · exact ha
  · exact hb

/-- A choice between two outcomes keeps the queue when both do. -/
theorem pending_iteOf {α : Type} (π : α → State) {c : Prop} [Decidable c] {a b : α} {q : List Instr}
    (ha : (π a).pending = q) (hb : (π b).pending = q) : (π (if c then a else b)).pending = q := by
  split
  · exact ha
  · exact hb

/-- An outcome known under another name has the same queue. -/
theorem pending_of_eq {α : Type} {π : α → State} {w v : α} {q : List Instr} (h : w = v) (hw : (π w).pending = q) :
    (π v).pending = q := h ▸ hw

@[simp] theorem regAddSat_pending (s : State) (a hi : Nat) (lo n : Nat) :
    (regAddSat s a hi lo n).pending = s.pending := regFld_pending ..

@[simp] theorem regAdd_pending (s : State) (a hi : Nat) (lo n : Nat) :
    (regAdd s a hi lo n).pending = s.pending := regFld_pending ..

@[simp] theorem pickOne_pending {α : Type} (s : State) (l : List α) : (pickOne s l).2.pending = s.pending := by
  unfold pickOne
  split <;> rfl

@[simp] theorem represent_pending (s : State) (t : Nat) : (represent s t).pending = s.pending := by
  unfold represent
  split
  · exact modCore_pending ..
  · rfl

@[simp] theorem coreToReset_pending (s : State) (c : CoreId) (run : RunState) :
    (coreToReset s c run).pending = s.pending := (represent_pending ..).trans (modCore_pending ..)

@[simp] theorem assertEdge_pending (s : State) (n : Nat) : (assertEdge s n).pending = s.pending :=
  pending_ite rfl (pending_ite (regAddSat_pending ..)
    ((represent_pending ..).trans ((regSet_pending ..).trans (regFld_pending ..))))

@[simp] theorem setLine_pending (s : State) (n : Nat) (on : Bool) : (setLine s n on).pending = s.pending :=
  pending_ite rfl (pending_ite
    ((represent_pending ..).trans
    ((regFld_pending ..).trans ((regFld_pending ..).trans (pending_ite rfl (regSet_pending ..)))))
    ((represent_pending ..).trans ((regFld_pending ..).trans (regFld_pending ..))))

@[simp] theorem setEdgeInput_pending (s : State) (n : Nat) (on : Bool) :
    (setEdgeInput s n on).pending = s.pending :=
  pending_ite rfl (Eq.trans (pending_ite (assertEdge_pending ..) rfl) (regFld_pending ..))

@[simp] theorem logStat_pending (s : State) : (logStat s).pending = s.pending :=
  (regFld_pending ..).trans (regFld_pending ..)

@[simp] theorem logFault_pending (s : State) (code unit src : Nat) (w2 w3 : Word) :
    (logFault s code unit src w2 w3).pending = s.pending :=
  (assertEdge_pending ..).trans ((logStat_pending ..).trans (pending_ite (regAddSat_pending ..) rfl))

@[simp] theorem violation_pending (s : State) (cause rq lvl : Nat) (write : Bool) (addr : Nat) :
    (violation s cause rq lvl write addr).pending = s.pending := by
  unfold violation
  dsimp only
  split
  · exact assertEdge_pending ..
  · exact (assertEdge_pending ..).trans
      ((assertEdge_pending ..).trans ((logStat_pending ..).trans (pending_ite (regAddSat_pending ..) rfl)))

@[simp] theorem rqViolation_pending (s : State) (cause : Nat) (rq : Requester) (write : Bool) (addr : Nat) :
    (rqViolation s cause rq write addr).pending = s.pending := violation_pending ..

@[simp] theorem setFronts_pending (s : State) (g : Nat) (f : Output → Word) :
    (setFronts s g f).pending = s.pending := rfl

@[simp] theorem safeEnter_pending (s : State) (g cause : Nat) :
    (safeEnter s g cause).pending = s.pending :=
  pending_ite (regSet_pending ..) ((assertEdge_pending ..).trans ((setFronts_pending ..).trans (regSet_pending ..)))

@[simp] theorem safeGroup_pending (s : State) (g cause : Nat) :
    (safeGroup s g cause).pending = s.pending :=
  Eq.trans (pending_ite (logFault_pending ..) rfl) (safeEnter_pending ..)

@[simp] theorem closeRing_pending (s : State) : (closeRing s).pending = s.pending :=
  Eq.trans (pending_ite (assertEdge_pending ..) rfl)
    (Eq.trans (foldl_pending (fun _ _ => (regFld_pending ..).trans (regFld_pending ..)) ..)
    ((regSet_pending ..).trans (regFld_pending ..)))

@[simp] theorem holdClusters_pending (s : State) : (holdClusters s).pending = s.pending := regFld_pending ..

@[simp] theorem dacsOff_pending (s : State) : (dacsOff s).pending = s.pending := rfl

@[simp] theorem enterReset_pending (s : State) (cause fault : Nat) :
    (enterReset s cause fault).pending = s.pending :=
  (dacsOff_pending ..).trans
    ((closeRing_pending ..).trans ((regFld_pending ..).trans ((regFld_pending ..).trans (holdClusters_pending ..))))

@[simp] theorem copyLogs_pending (s : State) : (copyLogs s).pending = s.pending := rfl

@[simp] theorem enterHold_pending (s : State) (fault : Nat) : (enterHold s fault).pending = s.pending :=
  (closeRing_pending ..).trans (holdClusters_pending ..)

@[simp] theorem moduleFault_pending (s : State) (f : Nat) : (moduleFault s f).pending = s.pending := by
  unfold moduleFault
  dsimp only
  split
  · exact Eq.trans (pending_ite ((copyLogs_pending ..).trans (logFault_pending ..)) rfl)
      ((closeRing_pending ..).trans
      (foldl_pending (fun _ _ => pending_ite (safeEnter_pending ..) (safeGroup_pending ..)) ..))
  · exact Eq.trans (pending_ite rfl
      (pending_ite (enterHold_pending ..)
      (pending_ite ((dacsOff_pending ..).trans (holdClusters_pending ..)) (enterReset_pending ..))))
      (Eq.trans (pending_ite ((copyLogs_pending ..).trans (logFault_pending ..)) rfl)
      ((closeRing_pending ..).trans
      (foldl_pending (fun _ _ => pending_ite (safeEnter_pending ..) (safeGroup_pending ..)) ..)))

@[simp] theorem checkstop_pending (s : State) (c : CoreId) (pc ecause eaddr : Word) :
    (checkstop s c pc ecause eaddr).pending = s.pending := by
  unfold checkstop
  split <;> simp

@[simp] theorem coreCount_pending (s : State) (c : CoreId) (codeA codeF : Nat) :
    (coreCount s c codeA codeF).pending = s.pending := by
  unfold coreCount
  split
  · exact pending_ite rfl (count_pending ..)
  · exact pending_ite rfl (count_pending ..)
  · rfl

@[simp] theorem noteEvent_pending (s : State) (c : CoreId) (code : Nat) :
    (noteEvent s c code).pending = s.pending := by
  unfold noteEvent
  split
  · exact modCore_pending ..
  · rfl

@[simp] theorem retireEvents_pending (s : State) (c : CoreId) : (retireEvents s c).pending = s.pending :=
  Eq.trans (foldl_pending (fun _ _ => coreCount_pending ..) ..) (modCore_pending ..)

@[simp] theorem raiseAt_pending (s : State) (c : CoreId) (e : Exc) (resume : Word) :
    (raiseAt s c e resume).pending = s.pending := by
  unfold raiseAt
  dsimp only
  split
  · exact (represent_pending ..).trans ((coreCount_pending ..).trans (setCore_pending ..))
  · exact (checkstop_pending ..).trans (setCore_pending ..)

/-! ## The DRAM -/

@[simp] theorem dramPut_pending (s : State) (a : Nat) (c : BitVec 64) : (dramPut s a c).pending = s.pending := rfl

@[simp] theorem dramPutLine_pending (s : State) (a : Nat) (d : LineData) :
    (dramPutLine s a d).pending = s.pending := by
  induction d generalizing s a with
  | nil => rfl
  | cons w t ih => exact (ih _ _).trans (dramPut_pending s a _)

@[simp] theorem dramWriteLine_pending (s : State) (l : Nat) (d : LineData) :
    (dramWriteLine s l d).pending = s.pending :=
  pending_ite rfl (Eq.trans (pending_ite rfl (dramPutLine_pending ..)) ((bwAdd_pending ..).trans (count_pending ..)))

@[simp] theorem recordRetirement_pending (s : State) (t : Retired) (w1 src : Nat) :
    (recordRetirement s t w1 src).pending = s.pending := (assertEdge_pending ..).trans (logFault_pending ..)

@[simp] theorem shadowCount_pending (s : State) (c : Nat) : (shadowCount s c).pending = s.pending := regFld_pending ..

@[simp] theorem retireRow_pending (s : State) (c b r : Nat) :
    (retireRow s c b r).pending = s.pending := by
  unfold retireRow
  refine pending_ite rfl ?_
  split
  · exact (recordRetirement_pending ..).trans (regSet_pending ..)
  · exact recordRetirement_pending ..

@[simp] theorem retireChannel_pending (s : State) (c : Nat) : (retireChannel s c).pending = s.pending :=
  pending_ite rfl (Eq.trans (pending_ite (moduleFault_pending ..) rfl)
    ((recordRetirement_pending ..).trans (regFld_pending ..)))

@[simp] theorem noteCorrected_pending (s : State) (c b r : Nat) :
    (noteCorrected s c b r).pending = s.pending := pending_ite (retireRow_pending ..) rfl

@[simp] theorem noteUncorrectable_pending (s : State) (c b r : Nat) :
    (noteUncorrectable s c b r).pending = s.pending :=
  Eq.trans (pending_ite (retireChannel_pending ..) rfl) (retireRow_pending ..)

@[simp] theorem reportContainer_pending (s : State) (a : Nat) (d : Decoded) :
    (reportContainer s a d).pending = s.pending :=
  Eq.trans (pending_ite ((noteUncorrectable_pending ..).trans ((logFault_pending ..).trans (regAddSat_pending ..)))
    ((noteCorrected_pending ..).trans
    ((logFault_pending ..).trans ((count_pending ..).trans (regAddSat_pending ..)))))
    ((regSet_pending ..).trans (regSet_pending ..))

@[simp] theorem reportLine_pending (s : State) (l : Nat) (ds : List Decoded) :
    (reportLine s l ds).pending = s.pending :=
  pending_ite rfl (Eq.trans (pending_ite (assertEdge_pending ..) rfl)
    (Eq.trans (pending_ite (assertEdge_pending ..) rfl)
    (foldl_pending (fun _ _ => pending_ite rfl (reportContainer_pending ..)) ..)))

@[simp] theorem dramReadLine_pending (s : State) (l : Nat) (flips : List (BitVec 64)) :
    (dramReadLine s l flips).2.pending = s.pending := by
  unfold dramReadLine
  dsimp only
  split
  · exact (bwAdd_pending ..).trans (count_pending ..)
  · split
    · exact (bwAdd_pending ..).trans (count_pending ..)
    · exact (reportLine_pending ..).trans ((bwAdd_pending ..).trans (count_pending ..))

@[simp] theorem queueRebuilt_pending (s : State) (l cl : Nat) (ps : List ((Word × Bool) × (Word × Bool) × Bool
    × Bool)) :
    (queueRebuilt s l cl ps).pending = s.pending := pending_ite rfl rfl

@[simp] theorem twinPersistent_pending (s : State) (a : Nat) : (twinPersistent s a).pending = s.pending :=
  (assertEdge_pending ..).trans ((logFault_pending ..).trans ((regSet_pending ..).trans (regAddSat_pending ..)))

@[simp] theorem rebuilt_pending (s : State) (l : Nat) : (rebuilt s l).pending = s.pending :=
  pending_ite (regAddSat_pending ..) rfl

@[simp] theorem dramReadPair_pending (s : State) (l : Nat) (flips : List (BitVec 64)) (again : List (BitVec 64)) :
    (dramReadPair s l flips again).2.pending = s.pending := by
  refine pending_iteOf Prod.snd ((rebuilt_pending ..).trans (dramReadLine_pending ..)) ?_
  refine pending_iteOf Prod.snd ((rebuilt_pending ..).trans (dramReadLine_pending ..)) ?_
  refine pending_iteOf Prod.snd ((queueRebuilt_pending ..).trans (Eq.trans (foldl_pending (fun s e => ?_) ..) ?_))
    ((queueRebuilt_pending ..).trans ((dramReadLine_pending ..).trans (dramReadLine_pending ..)))
  · exact pending_ite (twinPersistent_pending ..) (pending_ite (regAddSat_pending ..) rfl)
  · exact (dramReadLine_pending ..).trans ((dramReadLine_pending ..).trans ((dramReadLine_pending ..).trans
      (dramReadLine_pending ..)))

@[simp] theorem dramRead_pending (s : State) (l : Nat) (flips : List (BitVec 64)) (again : List (BitVec 64)) :
    (dramRead s l flips again).2.pending = s.pending := by
  unfold dramRead
  split
  · exact dramReadPair_pending ..
  · exact dramReadLine_pending ..

@[simp] theorem dramWrite_pending (s : State) (l : Nat) (d : LineData) : (dramWrite s l d).pending = s.pending :=
  pending_ite ((dramWriteLine_pending ..).trans (dramWriteLine_pending ..)) (dramWriteLine_pending ..)

/-! ## The coherence protocol -/

@[simp] theorem lineMoved_pending (s : State) (l : Nat) (twin : Bool) : (lineMoved s l twin).pending = s.pending :=
  bwAdd_pending ..

@[simp] theorem drawTag_pending (s : State) : (drawTag s).2.pending = s.pending := rfl

@[simp] theorem send_pending (s : State) (m : Msg) : (send s m).pending = s.pending := by
  unfold send
  dsimp only
  split <;> simp

theorem takeMsg_pending {s u : State} {t : MsgType} {a l : Nat} {m : Msg} (h : takeMsg s t a l = some (m, u)) :
    u.pending = s.pending := by
  unfold takeMsg at h
  split at h
  · cases h
  · split at h
    · split at h
      · cases h
        rfl
      · cases h
    · cases h

@[simp] theorem dropLine_pending (s : State) (ag l : Nat) : (dropLine s ag l).pending = s.pending := rfl

@[simp] theorem putLine_pending (s : State) (e : CacheLine) : (putLine s e).pending = s.pending := rfl

@[simp] theorem modLine_pending (s : State) (ag l : Nat) (f : CacheLine → CacheLine) :
    (modLine s ag l f).pending = s.pending := rfl

@[simp] theorem evictLine_pending (s : State) (e : CacheLine) : (evictLine s e).pending = s.pending := by
  unfold evictLine
  dsimp only
  split
  · exact (send_pending ..).trans (modLine_pending ..)
  · exact (send_pending ..).trans (modLine_pending ..)
  · exact (send_pending ..).trans (modLine_pending ..)
  · rfl

@[simp] theorem makeRoom_pending (s : State) (ag l : Nat) (a : CacheArray) (need : Nat) (stash : Bool) (n : Nat) :
    (makeRoom s ag l a need stash n).pending = s.pending := by
  induction n generalizing s with
  | zero => rfl
  | succ n ih =>
    refine pending_ite rfl ?_
    split
    · next hv =>
      exact (ih _).trans ((evictLine_pending ..).trans
        (pending_of_eq (π := Prod.snd) hv (pending_iteOf Prod.snd rfl (pickOne_pending ..)) :))
    · next hv => exact (pending_of_eq (π := Prod.snd) hv (pending_iteOf Prod.snd rfl (pickOne_pending ..)) :)

@[simp] theorem freeL1_pending (s : State) (ag l : Nat) (a : CacheArray) (need n : Nat) :
    (freeL1 s ag l a need n).pending = s.pending := by
  induction n generalizing s with
  | zero => rfl
  | succ n ih =>
    refine pending_ite rfl ?_
    split
    · next hv =>
      exact (ih _).trans ((modLine_pending ..).trans (pending_of_eq (π := Prod.snd) hv (pickOne_pending ..) :))
    · next hv => exact (pending_of_eq (π := Prod.snd) hv (pickOne_pending ..) :)

@[simp] theorem enterL1_pending (s : State) (ag l : Nat) (a : CacheArray) :
    (enterL1 s ag l a).pending = s.pending := by
  unfold enterL1
  split
  · exact pending_ite rfl ((modLine_pending ..).trans (freeL1_pending ..))
  · rfl

@[simp] theorem touchL1_pending (s : State) (ag l : Nat) (a : CacheArray) :
    (touchL1 s ag l a).pending = s.pending := by
  unfold touchL1
  split
  · rfl
  · exact Eq.trans (pending_ite (enterL1_pending ..) rfl) (putLine_pending ..)

@[simp] theorem countMiss_pending (s : State) (ag : Nat) (fetch : Bool) :
    (countMiss s ag fetch).pending = s.pending := by
  unfold countMiss
  split
  · exact pending_ite ((noteEvent_pending ..).trans (pending_ite rfl (noteEvent_pending ..)))
      (pending_ite (count_pending ..) rfl)
  · rfl

@[simp] theorem requestLine_pending (s : State) (ag l : Nat) (excl : Bool) :
    (requestLine s ag l excl).pending = s.pending := by
  unfold requestLine
  dsimp only
  split
  · exact pending_ite (Eq.trans (pending_ite ((send_pending ..).trans (modLine_pending ..)) rfl)
      (pending_ite rfl (makeRoom_pending ..))) rfl
  · exact Eq.trans (pending_ite ((send_pending ..).trans ((countMiss_pending ..).trans (putLine_pending ..))) rfl)
      (makeRoom_pending ..)

@[simp] theorem homeWrite_pending (s : State) (l : Nat) (d : LineData) : (homeWrite s l d).pending = s.pending :=
  (lineMoved_pending ..).trans (dramWrite_pending ..)

@[simp] theorem l3Drop_pending (s : State) (l : Nat) : (l3Drop s l).pending = s.pending := rfl

@[simp] theorem l3Room_pending (s : State) (l need n : Nat) :
    (l3Room s l need n).pending = s.pending := by
  induction n generalizing s with
  | zero => rfl
  | succ n ih =>
    refine pending_ite rfl ?_
    split
    all_goals
      rename_i hv
      have hp := (pending_of_eq (π := Prod.snd) hv (pickOne_pending ..) :)
    · exact (ih _).trans (pending_ite ((homeWrite_pending ..).trans hp) hp)
    · exact hp

@[simp] theorem l3Put_pending (s : State) (l : Nat) (data : LineData) (dirty : Bool) :
    (l3Put s l data dirty).pending = s.pending := Eq.trans (pending_ite rfl (l3Room_pending ..)) (l3Drop_pending ..)

@[simp] theorem dirDel_pending (s : State) (l : Nat) : (dirDel s l).pending = s.pending := rfl

@[simp] theorem dirPut_pending (s : State) (e : DirEntry) : (dirPut s e).pending = s.pending :=
  Eq.trans (pending_ite rfl rfl) (dirDel_pending ..)

@[simp] theorem txnDel_pending (s : State) (l : Nat) : (txnDel s l).pending = s.pending := rfl

@[simp] theorem txnPut_pending (s : State) (t : Txn) : (txnPut s t).pending = s.pending := rfl

@[simp] theorem clearSharer_pending (s : State) (agent line : Nat) :
    (clearSharer s agent line).pending = s.pending := by
  unfold clearSharer
  split
  · exact dirPut_pending ..
  · rfl

@[simp] theorem settleOverflow_pending (s : State) : (settleOverflow s).pending = s.pending :=
  foldl_pending (fun s e => by split <;> rfl) ..

theorem foldl_fst_pending {α β : Type} {g : State × β → α → State × β}
    (h : ∀ p x, (g p x).1.pending = p.1.pending) (l : List α) (p : State × β) :
    (l.foldl g p).1.pending = p.1.pending := by
  induction l generalizing p with
  | nil => rfl
  | cons x l ih => rw [List.foldl_cons, ih, h]
@[simp] theorem sendSnoops_pending (s : State) (t : Txn) (ty : MsgType) (targets : List Nat) (excl : Bool) :
    (sendSnoops s t ty targets excl).1.pending = s.pending := by
  refine (foldl_fst_pending (fun p x => ?_) _ _).trans (pending_iteOf Prod.snd rfl (drawTag_pending ..))
  split
  · exact clearSharer_pending ..
  · exact (count_pending ..).trans (send_pending ..)

@[simp] theorem farHint_pending (s : State) (t : Txn) : (farHint s t).2.pending = s.pending := rfl

@[simp] theorem reply_pending (s : State) (t : Txn) (m : Msg) : (reply s t m).pending = s.pending :=
  (txnPut_pending ..).trans (send_pending ..)

@[simp] theorem finishTxn_pending (s : State) (t : Txn) (base : LineData) :
    (finishTxn s t base).pending = s.pending := by
  unfold finishTxn
  dsimp only
  split
  · refine pending_ite ((reply_pending ..).trans ((dirPut_pending ..).trans (pending_ite (l3Put_pending ..) rfl))) ?_
    refine (reply_pending ..).trans ?_
    refine (dirPut_pending ..).trans ?_
    split
    · exact l3Put_pending ..
    · exact pending_ite (l3Put_pending ..) rfl
  · exact (reply_pending ..).trans ((dirPut_pending ..).trans (pending_ite (l3Put_pending ..) rfl))
  · exact (reply_pending ..).trans ((dirPut_pending ..).trans (pending_ite (l3Put_pending ..) rfl))
  · exact (reply_pending ..).trans ((dirPut_pending ..).trans (l3Drop_pending ..))
  · refine (reply_pending ..).trans ?_
    split
    · exact Eq.trans (pending_ite (l3Put_pending ..) rfl) (pending_ite (l3Put_pending ..) rfl)
    · exact pending_ite (l3Put_pending ..) rfl
  · refine (reply_pending ..).trans ?_
    split
    · exact Eq.trans (pending_ite (l3Put_pending ..) rfl) (pending_ite (l3Put_pending ..) rfl)
    · exact pending_ite (l3Put_pending ..) rfl
  · exact (reply_pending ..).trans ((dirPut_pending ..).trans (l3Put_pending ..))
  · exact (reply_pending ..).trans ((dirPut_pending ..).trans (l3Put_pending ..))
  · exact (reply_pending ..).trans ((dirPut_pending ..).trans (l3Put_pending ..))
  · exact (reply_pending ..).trans ((dirPut_pending ..).trans (l3Put_pending ..))
  · exact (reply_pending ..).trans ((dirPut_pending ..).trans ((l3Put_pending ..).trans (count_pending ..)))
  · refine (reply_pending ..).trans ?_
    refine pending_ite ((l3Put_pending ..).trans (homeWrite_pending ..)) ?_
    split
    · exact (l3Put_pending ..).trans (homeWrite_pending ..)
    · exact pending_ite ((l3Put_pending ..).trans (homeWrite_pending ..)) rfl
    · rfl
  · refine (reply_pending ..).trans ?_
    refine (dirPut_pending ..).trans ?_
    refine (l3Drop_pending ..).trans ?_
    refine pending_ite (homeWrite_pending ..) ?_
    split
    · exact homeWrite_pending ..
    · exact pending_ite (homeWrite_pending ..) rfl
    · rfl
  · rfl

@[simp] theorem unstash_pending (s : State) (t : Txn) (base : LineData) : (unstash s t base).pending = s.pending :=
  by simp [unstash]

@[simp] theorem sendStash_pending (s : State) (t : Txn) (base : LineData) :
    (sendStash s t base).pending = s.pending :=
  pending_ite (unstash_pending ..) ((txnPut_pending ..).trans ((send_pending ..).trans (count_pending ..)))

@[simp] theorem endRecall_pending (s : State) (t : Txn) (base : Option LineData) :
    (endRecall s t base).pending = s.pending := by
  unfold endRecall
  refine (dirDel_pending ..).trans ?_
  refine (txnDel_pending ..).trans ?_
  split
  · exact l3Put_pending ..
  · rfl

@[simp] theorem noteBound_pending (s : State) (m : Msg) : (noteBound s m).pending = s.pending :=
  pending_ite rfl (pending_ite (regAddSat_pending ..) rfl)

@[simp] theorem askDram_pending (s : State) (t : Txn) : (askDram s t).pending = s.pending :=
  (count_pending ..).trans
    (Eq.trans (foldl_pending (fun _ _ => noteBound_pending ..) ..) ((noteBound_pending ..).trans (txnPut_pending ..)))

@[simp] theorem advance_pending (s : State) (l : Nat) : (advance s l).pending = s.pending := by
  unfold advance
  split
  · rfl
  · refine pending_ite rfl ?_
    refine pending_ite ?_ ?_
    · refine pending_ite ?_ (endRecall_pending ..)
      split
      · exact endRecall_pending ..
      · exact txnPut_pending ..
    · refine pending_ite ?_ (pending_ite (sendStash_pending ..) (finishTxn_pending ..))
      split
      · exact pending_ite (sendStash_pending ..) (finishTxn_pending ..)
      · exact askDram_pending ..

@[simp] theorem beginTxn_pending (s : State) (m : Msg) (e : DirEntry) : (beginTxn s m e).pending = s.pending :=
  by simp [beginTxn]

@[simp] theorem beginRecall_pending (s : State) (v : DirEntry) : (beginRecall s v).pending = s.pending :=
  by simp [beginRecall]

@[simp] theorem startRequest_pending (s : State) (m : Msg) (e : DirEntry) :
    (startRequest s m e).pending = s.pending := beginTxn_pending ..

@[simp] theorem serveOne_pending (s : State) (m : Msg) : (serveOne s m).pending = s.pending := by
  unfold serveOne
  dsimp only
  split
  · exact startRequest_pending ..
  · exact startRequest_pending ..
  · exact beginRecall_pending ..
  · exact pending_ite (startRequest_pending ..)
      ((send_pending ..).trans
      (Eq.trans (pending_ite (assertEdge_pending ..) rfl) ((count_pending ..).trans (regAddSat_pending ..))))

@[simp] theorem serveSlice_pending (s : State) (h n : Nat) :
    (serveSlice s h n).pending = s.pending := by
  induction n generalizing s with
  | zero => rfl
  | succ n ih =>
    unfold serveSlice
    dsimp only
    split
    · exact (ih _).trans ((serveOne_pending ..).trans (settleOverflow_pending s))
    · exact settleOverflow_pending s

@[simp] theorem pump_pending (s : State) (h : Nat) : (pump s h).pending = s.pending := serveSlice_pending ..

@[simp] theorem accept_pending (s : State) (m : Msg) : (accept s m).pending = s.pending :=
  pending_ite rfl ((pump_pending ..).trans (noteBound_pending ..))

@[simp] theorem goOn_pending (s : State) (l : Nat) : (goOn s l).pending = s.pending :=
  Eq.trans (pending_ite rfl (pump_pending ..)) (advance_pending ..)

@[simp] theorem requestArrives_pending (s : State) (t : MsgType) (src line : Nat) :
    (requestArrives s t src line).pending = s.pending := by
  unfold requestArrives
  split
  · next h0 =>
    exact (accept_pending ..).trans (takeMsg_pending h0)
  · rfl

@[simp] theorem lateAnswer_pending (s : State) (line : Nat) : (lateAnswer s line).pending = s.pending :=
  regAddSat_pending ..

@[simp] theorem answerSnoop_pending (s : State) (m : Msg) (f : Txn → Txn) :
    (answerSnoop s m f).pending = s.pending := by
  unfold answerSnoop
  split
  · exact pending_ite ((goOn_pending ..).trans (txnPut_pending ..)) (lateAnswer_pending ..)
  · exact lateAnswer_pending ..

@[simp] theorem putArrives_pending (s : State) (t : MsgType) (src line : Nat) :
    (putArrives s t src line).pending = s.pending := by
  unfold putArrives
  split
  · rfl
  · next h0 =>
    refine pending_ite ((send_pending ..).trans ((lateAnswer_pending ..).trans (takeMsg_pending h0))) ?_
    dsimp only
    split
    · exact Eq.trans (pending_ite
        ((goOn_pending ..).trans (Eq.trans (pending_ite rfl (send_pending ..)) (txnPut_pending ..)))
        ((send_pending ..).trans (pending_ite (l3Put_pending ..) rfl)))
        ((clearSharer_pending ..).trans (takeMsg_pending h0))
    · exact (pump_pending ..).trans
        ((send_pending ..).trans
        (Eq.trans (pending_ite (l3Put_pending ..) rfl) ((clearSharer_pending ..).trans (takeMsg_pending h0))))

@[simp] theorem ackArrives_pending (s : State) (agent line : Nat) :
    (ackArrives s agent line).pending = s.pending := by
  unfold ackArrives
  split
  · rfl
  · next h0 =>
    split
    · refine pending_ite ?_ (takeMsg_pending h0)
      refine (pump_pending ..).trans ?_
      split
      · exact (dirPut_pending ..).trans ((txnDel_pending ..).trans (takeMsg_pending h0))
      · exact (txnDel_pending ..).trans (takeMsg_pending h0)
    · exact takeMsg_pending h0

@[simp] theorem snoopArrives_pending (s : State) (t : MsgType) (agent line : Nat) :
    (snoopArrives s t agent line).pending = s.pending := by
  unfold snoopArrives
  split
  · rfl
  · next h0 =>
    split
    · exact (send_pending ..).trans (takeMsg_pending h0)
    · split
      · refine (send_pending ..).trans ?_
        split
        · exact (modLine_pending ..).trans (takeMsg_pending h0)
        · exact (dropLine_pending ..).trans (takeMsg_pending h0)

@[simp] theorem stashArrives.leaves_pending (agent line : Nat) (s : State) :
    (stashArrives.leaves agent line s).pending = s.pending := by
  unfold stashArrives.leaves
  split
  · exact pending_ite (dropLine_pending ..) (pending_ite (modLine_pending ..) rfl)
  · rfl

@[simp] theorem stashArrives_pending (s : State) (agent line : Nat) :
    (stashArrives s agent line).pending = s.pending := by
  unfold stashArrives
  split
  · rfl
  · next h0 =>
    exact pending_ite ((send_pending ..).trans (takeMsg_pending h0))
      (pending_ite ((send_pending ..).trans ((stashArrives.leaves_pending ..).trans (takeMsg_pending h0)))
      (pending_ite ((send_pending ..).trans ((putLine_pending ..).trans (takeMsg_pending h0))) (makeRoom_pending ..)))

@[simp] theorem snoopCmd_pending (s : State) (t : MsgType) (agent line : Nat) :
    (snoopCmd s t agent line).pending = s.pending :=
  pending_ite rfl (pending_ite (stashArrives_pending ..) (snoopArrives_pending ..))

@[simp] theorem stashAnswered_pending (s : State) (t : Txn) (declined : Option LineData) :
    (stashAnswered s t declined).pending = s.pending := by
  unfold stashAnswered
  dsimp only
  split
  · exact (reply_pending ..).trans ((dirPut_pending ..).trans (l3Drop_pending ..))
  · exact (reply_pending ..).trans ((dirPut_pending ..).trans ((l3Put_pending ..).trans (count_pending ..)))

@[simp] theorem rspAckArrives_pending (s : State) (agent line : Nat) :
    (rspAckArrives s agent line).pending = s.pending := by
  unfold rspAckArrives
  split
  · rfl
  · next h0 =>
    split
    · exact (stashAnswered_pending ..).trans (takeMsg_pending h0)
    · exact (answerSnoop_pending ..).trans (takeMsg_pending h0)

@[simp] theorem rspDataArrives_pending (s : State) (agent line : Nat) :
    (rspDataArrives s agent line).pending = s.pending := by
  unfold rspDataArrives
  split
  · rfl
  · next h0 =>
    exact (answerSnoop_pending ..).trans (takeMsg_pending h0)

@[simp] theorem oweAck_pending (s : State) (t : Txn) (agent : Nat) : (oweAck s t agent).pending = s.pending := by
  unfold oweAck
  split
  · exact send_pending ..
  · rfl

@[simp] theorem rspEIFArrives_pending (s : State) (agent line : Nat) :
    (rspEIFArrives s agent line).pending = s.pending := by
  unfold rspEIFArrives
  split
  · rfl
  · next h0 =>
    split
    · exact (lateAnswer_pending ..).trans (takeMsg_pending h0)
    · exact Eq.trans (pending_ite (lateAnswer_pending ..)
        (Eq.trans (pending_ite ((answerSnoop_pending ..).trans (oweAck_pending ..)) (txnPut_pending ..))
        ((count_pending ..).trans (regAddSat_pending ..)))) (takeMsg_pending h0)

@[simp] theorem rspDeclineArrives_pending (s : State) (agent line : Nat) :
    (rspDeclineArrives s agent line).pending = s.pending := by
  unfold rspDeclineArrives
  split
  · rfl
  · next h0 =>
    split
    · exact (stashAnswered_pending ..).trans (takeMsg_pending h0)
    · exact (answerSnoop_pending ..).trans (takeMsg_pending h0)

@[simp] theorem putAckArrives_pending (s : State) (agent line : Nat) :
    (putAckArrives s agent line).pending = s.pending := by
  unfold putAckArrives
  split
  · rfl
  · next h0 =>
    exact Eq.trans (pending_ite (dropLine_pending ..) rfl) (takeMsg_pending h0)

@[simp] theorem holdDead_pending (s : State) (c : CoreId) : (holdDead s c).pending = s.pending := by simp [holdDead]

@[simp] theorem noteTimeout_pending (s : State) (agent : Nat) : (noteTimeout s agent).pending = s.pending := by
  unfold noteTimeout
  refine pending_ite ?_ rfl
  dsimp only
  split
  · exact (moduleFault_pending ..).trans
      ((assertEdge_pending ..).trans ((logFault_pending ..).trans (regFld_pending ..)))
  · exact (holdDead_pending ..).trans
      ((assertEdge_pending ..).trans ((logFault_pending ..).trans (regFld_pending ..)))
  · exact (assertEdge_pending ..).trans ((logFault_pending ..).trans (regFld_pending ..))

@[simp] theorem timeoutAt_pending (s : State) (agent line : Nat) :
    (timeoutAt s agent line).pending = s.pending := by
  unfold timeoutAt
  split
  · rfl
  · split
    · rfl
    · exact pending_ite rfl
        ((noteTimeout_pending ..).trans
        ((goOn_pending ..).trans
        ((assertEdge_pending ..).trans
        ((logFault_pending ..).trans
        ((regSet_pending ..).trans
        ((count_pending ..).trans
        ((regAddSat_pending ..).trans
        ((txnPut_pending ..).trans ((oweAck_pending ..).trans (clearSharer_pending ..))))))))))

@[simp] theorem dramReturns_pending (s : State) (line : Nat) (flips : List (BitVec 64)) (again : List (BitVec 64)) :
    (dramReturns s line flips again).pending = s.pending := by
  unfold dramReturns
  split <;> simp

@[simp] theorem deliver_pending (s : State) (m : Msg) : (deliver s m).pending = s.pending := by
  unfold deliver
  split
  · exact rspAckArrives_pending ..
  · exact rspDataArrives_pending ..
  · exact rspEIFArrives_pending ..
  · exact rspDeclineArrives_pending ..
  · exact putArrives_pending ..
  · exact putArrives_pending ..
  · exact putArrives_pending ..
  · exact snoopCmd_pending ..

@[simp] theorem runTxn_pending (s : State) (l n : Nat) :
    (runTxn s l n).pending = s.pending := by
  induction n generalizing s with
  | zero => rfl
  | succ n ih =>
    unfold runTxn
    split
    · exact (ih _).trans (deliver_pending ..)
    · exact pending_ite ((ih _).trans (dramReturns_pending ..)) rfl

@[simp] theorem takeAnswer_pending (s : State) (t : MsgType) (ag l : Nat) :
    (takeAnswer s t ag l).state.pending = s.pending := by
  unfold takeAnswer
  split
  · next h0 =>
    exact (ackArrives_pending ..).trans ((send_pending ..).trans (takeMsg_pending h0))
  · rfl

@[simp] theorem issue_pending (s : State) (m : Msg) : (issue s m).pending = s.pending :=
  (accept_pending ..).trans (Eq.trans (pending_ite (count_pending ..) rfl) (pending_ite (lineMoved_pending ..) rfl))

@[simp] theorem modSteps_pending (s : State) (f : List BridgeStep → List BridgeStep) :
    (modSteps s f).pending = s.pending := rfl

theorem jobStep_pending {s : State} {m : Msg} {ready : State → Bool} {f : State → Whole Msg} (h : ∀ s, (f
    s).state.pending = s.pending) :
    (jobStep s m ready f).state.pending = s.pending := by
  unfold jobStep
  dsimp only
  split
  · exact pending_iteOf Whole.state (h s) rfl
  · split
    · split <;> rfl
    · refine pending_iteOf Whole.state rfl ?_
      split
      · next ht => exact (pending_of_eq (π := Whole.state) ht (h s) :)
      · next ht => exact (pending_of_eq (π := Whole.state) ht (h s) :)

theorem bridgeJob_pending {α : Type} {s : State} {job : Nat} {f : State → Whole α} (h : ∀ s, (f s).state.pending =
    s.pending) :
    (bridgeJob s job f).state.pending = s.pending := by
  unfold bridgeJob
  dsimp only
  split
  · next ht => exact (pending_of_eq (π := Whole.state) ht (h _) :)
  · next ht => exact (pending_of_eq (π := Whole.state) ht (h _) :)

theorem runJob_pending {s : State} {job : Nat} {f : State → Whole Unit}
    (h : ∀ s, (f s).state.pending = s.pending) : (runJob s job f).pending = s.pending := by
  unfold runJob
  split
  · next ht => exact (pending_of_eq (π := Whole.state) ht (bridgeJob_pending h) :)
  · next ht => exact (pending_of_eq (π := Whole.state) ht (bridgeJob_pending h) :)

@[simp] theorem dropJob_pending (s : State) (job : Nat) : (dropJob s job).pending = s.pending := modSteps_pending ..

@[simp] theorem answerStep_pending (s : State) (m : Msg) : (answerStep s m).pending = s.pending := modSteps_pending ..

theorem jobOnce_pending {s : State} {a : Nat} {v m : Word} {f : State → Msg × State}
    (h : ∀ s, (f s).2.pending = s.pending) : (jobOnce s a v m f).2.pending = s.pending := by
  unfold jobOnce
  split
  · next ht => exact (pending_of_eq (π := Whole.state) ht (jobStep_pending h) :)
  · next ht => exact (pending_of_eq (π := Whole.state) ht (jobStep_pending h) :)

@[simp] theorem requestWhole_pending (s : State) (m : Msg) (answer : MsgType) :
    (requestWhole s m answer).state.pending = s.pending :=
  jobStep_pending (fun s => (takeAnswer_pending ..).trans ((runTxn_pending ..).trans (issue_pending ..)))

@[simp] theorem bridgeRead_pending (s : State) (l : Nat) : (bridgeRead s l).state.pending = s.pending := by
  unfold bridgeRead
  split
  · next ht => exact (pending_of_eq (π := Whole.state) ht (requestWhole_pending ..) :)
  · next ht => exact (pending_of_eq (π := Whole.state) ht (requestWhole_pending ..) :)

@[simp] theorem bridgeWrite_pending (s : State) (l wmask : Nat) (data : LineData) (tgt : Option Nat) :
    (bridgeWrite s l wmask data tgt).state.pending = s.pending := by
  unfold bridgeWrite
  dsimp only
  split
  · next ht => exact (pending_of_eq (π := Whole.state) ht (requestWhole_pending ..) :)
  · next ht => exact (pending_of_eq (π := Whole.state) ht (requestWhole_pending ..) :)

@[simp] theorem evictWhole_pending (s : State) (e : CacheLine) : (evictWhole s e).pending = s.pending := by
  unfold evictWhole
  dsimp only
  split
  · exact Eq.trans (pending_ite ((putAckArrives_pending ..).trans (putArrives_pending ..)) rfl) (evictLine_pending ..)
  · exact evictLine_pending ..

@[simp] theorem roomWhole_pending (s : State) (ag l : Nat) (a : CacheArray) (need n : Nat) :
    (roomWhole s ag l a need n).pending = s.pending := by
  induction n generalizing s with
  | zero => rfl
  | succ n ih =>
    refine pending_ite rfl ?_
    split
    · next hv =>
      exact (ih _).trans ((evictWhole_pending ..).trans (pending_of_eq (π := Prod.snd) hv (pickOne_pending ..) :))
    · next hv => exact (pending_of_eq (π := Prod.snd) hv (pickOne_pending ..) :)

@[simp] theorem installLine_pending (s : State) (ag : Nat) (m : Msg) : (installLine s ag m).pending = s.pending :=
  Eq.trans (pending_ite rfl (Eq.trans (pending_ite (enterL1_pending ..) rfl) (pending_ite (enterL1_pending ..) rfl)))
    (putLine_pending ..)

@[simp] theorem coreRead_pending (s : State) (ag l : Nat) (fetch : Bool) :
    (coreRead s ag l fetch).state.pending = s.pending := by
  unfold coreRead
  dsimp only
  split
  · exact pending_iteOf Whole.state (pending_ite (touchL1_pending ..) (putLine_pending ..)) rfl
  · refine pending_iteOf Whole.state rfl (pending_iteOf Whole.state (roomWhole_pending ..) ?_)
    have hn (t : State) : (match coreOfAgent ag with
        | some c => noteEvent t c 0x16
        | none => t).pending = t.pending := by
      split
      · exact noteEvent_pending ..
      · rfl
    split
    · next ht =>
      exact (installLine_pending ..).trans ((pending_of_eq (π := Whole.state) ht (requestWhole_pending ..) :).trans
        ((putLine_pending ..).trans ((hn _).trans (roomWhole_pending ..))))
    · next ht =>
      exact (pending_of_eq (π := Whole.state) ht (requestWhole_pending ..) :).trans
        ((putLine_pending ..).trans ((hn _).trans (roomWhole_pending ..)))

@[simp] theorem coreAtomic_pending (s : State) (ag a op : Nat) (v old : Word) :
    (coreAtomic s ag a op v old).state.pending = s.pending := by
  unfold coreAtomic
  dsimp only
  split
  · next ht => exact (pending_of_eq (π := Whole.state) ht (requestWhole_pending ..) :)
  · next ht => exact (pending_of_eq (π := Whole.state) ht (requestWhole_pending ..) :)

theorem andThen_pending {α β : Type} {w : Whole α} {g : α → State → Whole β} {q : List Instr}
    (hw : w.state.pending = q) (hg : ∀ a s, (g a s).state.pending = s.pending) :
    (w.andThen g).state.pending = q := by
  cases w with
  | done a s => exact (hg a s).trans hw
  | held s => exact hw

@[simp] theorem bridgeWord_pending (s : State) (a : Nat) : (bridgeWord s a).state.pending = s.pending := by
  unfold bridgeWord
  split
  · next ht => exact (pending_of_eq (π := Whole.state) ht (bridgeRead_pending ..) :)
  · next ht => exact (pending_of_eq (π := Whole.state) ht (bridgeRead_pending ..) :)

@[simp] theorem bridgeWords_pending (s : State) (a n : Nat) :
    (bridgeWords s a n).state.pending = s.pending := by
  induction n generalizing s a with
  | zero => rfl
  | succ n ih =>
    unfold bridgeWords
    split
    all_goals
      rename_i hq
      have hw := (pending_of_eq (π := Whole.state) hq (bridgeWord_pending ..) :)
    · exact hw
    · split
      · next ht => exact (pending_of_eq (π := Whole.state) ht (ih ..) :).trans hw
      · next ht => exact (pending_of_eq (π := Whole.state) ht (ih ..) :).trans hw

@[simp] theorem bridgePut_pending (s : State) (a : Nat) (v : Word) (poison : Bool) (tgt : Option Nat) :
    (bridgePut s a v poison tgt).state.pending = s.pending := bridgeWrite_pending ..

@[simp] theorem bridgeMerge_pending (s : State) (a : Nat) (v m : Word) (tgt : Option Nat) :
    (bridgeMerge s a v m tgt).state.pending = s.pending := by
  unfold bridgeMerge
  split
  · simp
  · exact andThen_pending (by simp) (by simp)

@[simp] theorem bridgePuts_pending (s : State) (a : Nat) (l : List Word) :
    (bridgePuts s a l).state.pending = s.pending := by
  induction l generalizing s a with
  | nil => rfl
  | cons x l ih =>
    unfold bridgePuts
    split
    · next ht => exact (ih ..).trans (pending_of_eq (π := Whole.state) ht (bridgePut_pending ..) :)
    · next ht => exact (pending_of_eq (π := Whole.state) ht (bridgePut_pending ..) :)

@[simp] theorem answerAll_pending (s : State) (ag n : Nat) :
    (answerAll s ag n).pending = s.pending := by
  induction n generalizing s with
  | zero => rfl
  | succ n ih =>
    unfold answerAll
    split
    · exact (ih _).trans (pending_ite (stashArrives_pending ..) (snoopArrives_pending ..))
    · rfl

@[simp] theorem drainPuts_pending (s : State) (ag n : Nat) :
    (drainPuts s ag n).pending = s.pending := by
  induction n generalizing s with
  | zero => rfl
  | succ n ih =>
    unfold drainPuts
    split
    · exact (ih _).trans (pending_ite (putAckArrives_pending ..) (putArrives_pending ..))
    · rfl

@[simp] theorem releaseCaches_pending (s : State) (ag : Nat) : (releaseCaches s ag).pending = s.pending :=
  (drainPuts_pending ..).trans (Eq.trans (foldl_pending (fun _ _ => evictLine_pending ..) ..) (answerAll_pending ..))

/-! ## The firmware image and the structure registers -/

@[simp] theorem norPut_pending (s : State) (i : Nat) (l : List Byte) :
    (norPut s i l).pending = s.pending := by
  induction l generalizing s i with
  | nil => rfl
  | cons x l ih => exact ih ..

@[simp] theorem norErase_pending (s : State) (i n : Nat) : (norErase s i n).pending = s.pending := rfl

@[simp] theorem logTransients_pending (s : State) (nor : NorReads) (k : Nat) :
    (logTransients s nor k).pending = s.pending := pending_ite rfl (foldl_pending (fun _ _ => logFault_pending ..) ..)

@[simp] theorem structSet_pending (s : State) (a : Nat) (v : Word) : (structSet s a v).pending = s.pending := by
  fun_cases structSet
  · exact regSet_pending ..
  · exact modCore_pending ..
  all_goals rfl

@[simp] theorem lockStructure_pending (s : State) : (lockStructure s).pending = s.pending := rfl

@[simp] theorem structCompare_pending (s : State) (r : StructReg) : (structCompare s r).pending = s.pending :=
  pending_ite rfl (pending_ite rfl (Eq.trans (pending_ite rfl (assertEdge_pending ..)) (structSet_pending ..)))

@[simp] theorem structRewrite_pending (s : State) (a : Nat) : (structRewrite s a).pending = s.pending :=
  structSet_pending ..

@[simp] theorem structTick_pending (s : State) : (structTick s).pending = s.pending := by simp [structTick]

@[simp] theorem logRepair_pending (s : State) (a : Nat) : (logRepair s a).pending = s.pending := by
  unfold logRepair
  split_ifs
  · exact logFault_pending ..
  · exact (logFault_pending ..).trans (takeFree_pending s)

/-! ## The translation -/

theorem walkAndThen_pending {α β : Type} {w : Walk α} {g : α → State → Walk β} {q : List Instr}
    (hw : w.state.pending = q) (hg : ∀ a s, (g a s).state.pending = s.pending) :
    (w.andThen g).state.pending = q := by
  cases w with
  | ok a s => exact (hg a s).trans hw
  | fault e d s => exact hw
  | busy s => exact hw

@[simp] theorem tableRead_pending (s : State) (ag pa : Nat) (e5 : Exc) :
    (tableRead s ag pa e5).state.pending = s.pending := by
  have hr : (if ag = 33 then bridgeRead s (dataLine s (pa / 8)) else coreRead s ag (pa / 8) false).state.pending =
      s.pending := pending_iteOf Whole.state (bridgeRead_pending ..) (coreRead_pending ..)
  refine pending_iteOf Walk.state rfl ?_
  split
  all_goals
    rename_i hq
    have hw := (pending_of_eq (π := Whole.state) hq hr :)
  · exact hw
  · exact pending_iteOf Walk.state hw (pending_iteOf Walk.state hw hw)

@[simp] theorem walk2_pending (s : State) (ag : Nat) (walk : Bool) (kind gpa base n : Nat) :
    (walk2 s ag walk kind gpa base n).state.pending = s.pending := by
  induction n generalizing s base with
  | zero => rfl
  | succ n ih =>
    refine walkAndThen_pending (tableRead_pending ..) fun e s => ?_
    split
    · rfl
    · split
      · exact ih _ _
      · rfl

@[simp] theorem tablePlace_pending (s : State) (k : Core) (ag : Nat) (r : Regime) (kind ga : Nat)
  (used : List StagePerm) :
    (tablePlace s k ag r kind ga used).state.pending = s.pending := by
  unfold tablePlace
  split
  · refine walkAndThen_pending (walk2_pending ..) fun p s => ?_
    split <;> rfl
  · rfl

@[simp] theorem walk1_pending (s : State) (k : Core) (ag : Nat) (r : Regime) (va : Word) (kind base : Nat)
    (used : List StagePerm) (n : Nat) : (walk1 s k ag r va kind base used n).state.pending = s.pending := by
  induction n generalizing s base used with
  | zero => rfl
  | succ n ih =>
    refine walkAndThen_pending (tablePlace_pending ..) fun p s => walkAndThen_pending
      (tableRead_pending ..) fun e s => ?_
    split
    · rfl
    · split
      · exact ih _ _ _
      · rfl

@[simp] theorem judged_pending (s : State) (x : Except (Exc × Bool) Xlate) :
    (judged s x).state.pending = s.pending := by
  unfold judged
  split <;> rfl

@[simp] theorem walkAll_pending (s : State) (k : Core) (ag : Nat) (r : Regime) (va : Word) (kind : Nat) :
    (walkAll s k ag r va kind).state.pending = s.pending := by
  refine walkAndThen_pending ?_ fun q s => ?_
  · split_ifs
    · refine walkAndThen_pending (walk1_pending ..) fun q s => ?_
      split <;> rfl
    · rfl
    · rfl
  · dsimp only
    split
    · exact walkAndThen_pending (walk2_pending ..) fun p s => judged_pending ..
    · exact judged_pending ..

@[simp] theorem tlbFill_pending (s : State) (c : CoreId) (kind : Nat) (e : TlbEntry) :
    (tlbFill s c kind e).pending = s.pending := rfl

@[simp] theorem discardBad_pending (s : State) (c : CoreId) (e : TlbEntry) :
    (discardBad s c e).pending = s.pending := (noteEvent_pending ..).trans (modCore_pending ..)

@[simp] theorem tlbLookup_pending (s : State) (c : CoreId) (r : Regime) (va kind : Nat) :
    (tlbLookup s c r va kind).2.pending = s.pending := by
  unfold tlbLookup
  dsimp only
  split
  · split
    · exact discardBad_pending ..
    · rfl
  · split
    · split
      · exact discardBad_pending ..
      · exact (tlbFill_pending ..).trans ((modCore_pending ..).trans (noteEvent_pending ..))
    · rfl

@[simp] theorem tlbEnter_pending (s : State) (c : CoreId) (kind : Nat) (e : TlbEntry) :
    (tlbEnter s c kind e).pending = s.pending := (tlbFill_pending ..).trans (modCore_pending ..)

@[simp] theorem casEntry_pending (s : State) (ag pa : Nat) (old new : Word) :
    (casEntry s ag pa old new).state.pending = s.pending := by
  unfold casEntry
  split
  · next h0 =>
    exact (pending_of_eq (π := Whole.state) h0 (coreAtomic_pending ..) :)
  · next h0 =>
    split
    · exact (pending_of_eq (π := Whole.state) h0 (coreAtomic_pending ..) :)
    · split
      · exact (pending_of_eq (π := Whole.state) h0 (coreAtomic_pending ..) :)
      · split
        · exact (pending_of_eq (π := Whole.state) h0 (coreAtomic_pending ..) :)
        · exact (pending_of_eq (π := Whole.state) h0 (coreAtomic_pending ..) :)

@[simp] theorem setLeafBit_pending (s : State) (ag n : Nat) (p : StagePerm) :
    (setLeafBit s ag n p).state.pending = s.pending := by
  unfold setLeafBit
  split
  · rfl
  · exact casEntry_pending ..

@[simp] theorem setStageBit_pending (s : State) (ag n : Nat) (x : Xlate) (p : Option StagePerm) (g : Xlate →
    StagePerm → Xlate) :
    (setStageBit s ag n x p g).state.pending = s.pending := by
  unfold setStageBit
  split
  · rfl
  · split
    all_goals
      next h1 =>
      exact (pending_of_eq (π := Updated.state) h1 (setLeafBit_pending ..) :)

@[simp] theorem setLeafBits_pending (s : State) (ag : Nat) (r : Regime) (n : Nat) (x : Xlate) :
    (setLeafBits s ag r n x).state.pending = s.pending := by
  unfold setLeafBits
  split
  · rfl
  · split
    · next ht =>
      exact (setStageBit_pending ..).trans (pending_of_eq (π := Walked.state) ht (setStageBit_pending ..) :)
    · exact setStageBit_pending ..

@[simp] theorem setUsed.go_pending (ag : Nat) (s : State) (x : Xlate) (ps : List StagePerm) (n : Nat) :
    (setUsed.go ag s x ps n).state.pending = s.pending := by
  induction n generalizing ag s x ps with
  | zero => rfl
  | succ n ih =>
    unfold setUsed.go
    split
    · rfl
    · split
      · next ht => exact (ih ..).trans (pending_of_eq (π := Walked.state) ht (setStageBit_pending ..) :)
      · exact setStageBit_pending ..

@[simp] theorem setUsed_pending (s : State) (ag : Nat) (x : Xlate) : (setUsed s ag x).state.pending = s.pending :=
  setUsed.go_pending ..

@[simp] theorem walkFill_pending (s : State) (c : CoreId) (r : Regime) (va : Word) (kind n : Nat) :
    (walkFill s c r va kind n).state.pending = s.pending := by
  induction n generalizing s with
  | zero => rfl
  | succ n ih =>
    unfold walkFill
    dsimp only
    split
    all_goals
      rename_i hq
      have hw := (pending_of_eq (π := Walk.state) hq (walkAll_pending ..) :)
    · exact hw
    · exact hw
    · split
      · next hu =>
        have hu := (pending_of_eq (π := Walked.state) hu (setUsed_pending ..) :).trans hw
        split
        · next hl =>
          exact (tlbEnter_pending ..).trans ((noteEvent_pending ..).trans ((noteEvent_pending ..).trans
            ((pending_of_eq (π := Walked.state) hl (setLeafBits_pending ..) :).trans hu)))
        · next hl => exact (ih _).trans ((pending_of_eq (π := Walked.state) hl (setLeafBits_pending ..) :).trans hu)
        · exact (setLeafBits_pending ..).trans hu
      · next hu => exact (ih _).trans ((pending_of_eq (π := Walked.state) hu (setUsed_pending ..) :).trans hw)
      · exact (setUsed_pending ..).trans hw

@[simp] theorem walkedOf_pending (s : State) (x : Except (Exc × Bool) Xlate) :
    (walkedOf s x).state.pending = s.pending := by
  unfold walkedOf
  split <;> rfl

@[simp] theorem translate_pending (s : State) (c : CoreId) (va : Word) (kind : Nat) :
    (translate s c va kind).state.pending = s.pending := by
  unfold translate
  split
  · dsimp only
    split
    · exact walkedOf_pending ..
    · split
      · rfl
      · split
        · next h1 =>
          exact (walkedOf_pending ..).trans (pending_of_eq (π := Prod.snd) h1 (tlbLookup_pending ..) :)
        · next h1 =>
          split
          · exact (walkFill_pending ..).trans (pending_of_eq (π := Prod.snd) h1 (tlbLookup_pending ..) :)
          · split
            · exact (tlbEnter_pending ..).trans
                ((noteEvent_pending ..).trans (pending_of_eq (π := Prod.snd) h1 (tlbLookup_pending ..) :))
            · exact (pending_of_eq (π := Prod.snd) h1 (tlbLookup_pending ..) :)
  · rfl

@[simp] theorem dropPage_pending (s : State) (c : CoreId) (va : Word) : (dropPage s c va).pending = s.pending :=
  modCore_pending ..

@[simp] theorem setDirty_pending (s : State) (c : CoreId) (va : Word) (kind : Nat) (x : Xlate) :
    (setDirty s c va kind x).state.pending = s.pending := by
  have hl := setLeafBits_pending s (coreNum c) (regimeOf (s.core c)) 7 x
  unfold setDirty
  dsimp only
  split
  · split <;> simp_all
  · rfl

/-! ## Interrupts and watchdogs -/

@[simp] theorem plainWrite_pending (s : State) (a : Nat) (v : Word) : (plainWrite s a v).pending = s.pending := by
  unfold plainWrite
  split
  · exact regSet_pending ..
  · rfl

@[simp] theorem refuseWrite_pending (s : State) (rq : Requester) (cause a : Nat) :
    (refuseWrite s rq cause a).pending = s.pending := rqViolation_pending ..

@[simp] theorem routeWrite_pending (s : State) (rq : Requester) (n : Nat) (v : Word) :
    (routeWrite s rq n v).pending = s.pending :=
  pending_ite (refuseWrite_pending ..)
    (pending_ite (refuseWrite_pending ..)
    ((represent_pending ..).trans ((represent_pending ..).trans (plainWrite_pending ..))))

@[simp] theorem srcStateWrite_pending (s : State) (n : Nat) (v : Word) :
    (srcStateWrite s n v).pending = s.pending :=
  (represent_pending ..).trans (Eq.trans (pending_ite (regFld_pending ..) rfl) (pending_ite (regFld_pending ..) rfl))

@[simp] theorem endActive_pending (s : State) (t n : Nat) : (endActive s t n).pending = s.pending := by
  unfold endActive
  refine (represent_pending ..).trans ?_
  split
  · exact (modCore_pending ..).trans (regFld_pending ..)
  · exact regFld_pending ..

@[simp] theorem eoiWrite_pending (s : State) (rq : Requester) (v : Word) : (eoiWrite s rq v).pending = s.pending := by
  unfold eoiWrite
  refine pending_ite rfl ?_
  refine pending_ite ?_
    (pending_ite rfl (pending_ite (endActive_pending ..)
    (pending_ite (pending_ite rfl ((represent_pending ..).trans (regFld_pending ..))) (refuseWrite_pending ..))))
  split
  · exact (represent_pending ..).trans (modCore_pending ..)
  · rfl

@[simp] theorem swiWrite_pending (s : State) (v : Word) : (swiWrite s v).pending = s.pending :=
  pending_ite rfl (assertEdge_pending ..)

@[simp] theorem virtCtlWrite_pending (s : State) (rq : Requester) (v : Word) :
    (virtCtlWrite s rq v).pending = s.pending := by
  unfold virtCtlWrite
  split
  · exact (represent_pending ..).trans (modCore_pending ..)
  · exact plainWrite_pending ..

@[simp] theorem acceptSource_pending (s : State) (c : CoreId) (p : Presented) :
    (acceptSource s c p).2.pending = s.pending := by
  unfold acceptSource
  dsimp only
  split
  · split
    · exact (represent_pending ..).trans ((modCore_pending ..).trans (modCore_pending ..))
    · exact (represent_pending ..).trans ((modCore_pending ..).trans ((regSet_pending ..).trans (modCore_pending ..)))
  · exact (represent_pending ..).trans (modCore_pending ..)

@[simp] theorem readTbLo_pending (s : State) (rq : Requester) : (readTbLo s rq).2.pending = s.pending := by
  unfold readTbLo
  split
  · exact modCore_pending ..
  · rfl

@[simp] theorem setFifo_pending (s : State) (u : Nat) (l : List (Word × Bool)) :
    (setFifo s u l).pending = s.pending := setLine_pending ..

@[simp] theorem popWrite_pending (s : State) (u : Nat) (v : Word) : (popWrite s u v).pending = s.pending :=
  pending_ite (setFifo_pending ..) rfl

@[simp] theorem setWdogStart_pending (s : State) (w t : Nat) : (setWdogStart s w t).pending = s.pending := rfl

@[simp] theorem restartWdog_pending (s : State) (w : Nat) : (restartWdog s w).pending = s.pending :=
  by simp [restartWdog]

@[simp] theorem wdogCtlWrite_pending (s : State) (w : Nat) (v : Word) : (wdogCtlWrite s w v).pending = s.pending :=
  pending_ite ((restartWdog_pending ..).trans (regSet_pending ..)) (regSet_pending ..)

@[simp] theorem kickWrite_pending (s : State) (rq : Requester) (w : Nat) (v : Word) :
    (kickWrite s rq w v).pending = s.pending :=
  pending_ite (refuseWrite_pending ..)
    (pending_ite (refuseWrite_pending ..) (pending_ite ((restartWdog_pending ..).trans (regFld_pending ..)) rfl))

@[simp] theorem pauseWdogs_pending (s : State) (p : Nat → Bool) : (pauseWdogs s p).pending = s.pending := rfl

@[simp] theorem resumeWdogs_pending (s : State) (p : Nat → Bool) : (resumeWdogs s p).pending = s.pending := by
  refine foldl_pending (fun s w => ?_) _ _
  split
  · exact pending_ite rfl rfl
  · rfl

@[simp] theorem wdogResetCore_pending (s : State) (c : CoreId) : (wdogResetCore s c).pending = s.pending :=
  pending_ite rfl (coreToReset_pending ..)

/-! ## The Frond cores -/

@[simp] theorem setFrondState_pending (s : State) (i st : Nat) :
    (setFrondState s i st).pending = s.pending := regFld_pending ..

@[simp] theorem setUnitState_pending (s : State) (i st : Nat) :
    (setUnitState s i st).pending = s.pending := foldl_pending (fun _ _ => setFrondState_pending ..) ..

@[simp] theorem frondStart_pending (s : State) (rq : Requester) (i : Nat) :
    (frondStart s rq i).pending = s.pending :=
  pending_ite rfl (pending_ite (refuseWrite_pending ..) ((setUnitState_pending ..).trans (modCore_pending ..)))

@[simp] theorem frondCtlWrite_pending (s : State) (rq : Requester) (i : Nat) (v : Word) :
    (frondCtlWrite s rq i v).pending = s.pending :=
  pending_ite (refuseWrite_pending ..)
    (Eq.trans (pending_ite (modCore_pending ..) rfl)
    (Eq.trans (pending_ite (frondStart_pending ..) rfl) (plainWrite_pending ..)))

@[simp] theorem grpCtlWrite_pending (s : State) (rq : Requester) (g : Nat) (v : Word) :
    (grpCtlWrite s rq g v).pending = s.pending :=
  pending_ite (pending_ite (regFld_pending ..) (refuseWrite_pending ..)) rfl

@[simp] theorem tickPeriodWrite_pending (s : State) (rq : Requester) (v : Word) :
    (tickPeriodWrite s rq v).pending = s.pending := pending_ite (plainWrite_pending ..) (refuseWrite_pending ..)

@[simp] theorem beginFrame_pending (s : State) (i : Nat) : (beginFrame s i).pending = s.pending := modCore_pending ..

@[simp] theorem freshOutputs_pending (s : State) (g : Nat) : (freshOutputs s g).pending = s.pending := rfl

@[simp] theorem joinUnit_pending (s : State) (i : Nat) : (joinUnit s i).pending = s.pending :=
  pending_ite ((modCore_pending ..).trans (setUnitState_pending ..)) rfl

@[simp] theorem publish_pending (s : State) (i : Nat) : (publish s i).pending = s.pending := rfl

@[simp] theorem fendDone_pending (s : State) (i : Nat) : (fendDone s i).pending = s.pending := by
  unfold fendDone
  refine pending_ite ((modCore_pending ..).trans (pending_ite (regFld_pending ..) rfl)) ?_
  split
  · exact (modCore_pending ..).trans (pending_ite (regFld_pending ..) rfl)
  · exact (modCore_pending ..).trans
      (Eq.trans (foldl_pending
      (fun _ _ => Eq.trans (pending_ite (regFld_pending ..) rfl) ((regFld_pending ..).trans (regFld_pending ..))) ..)
      ((publish_pending ..).trans (pending_ite (regFld_pending ..) rfl)))

@[simp] theorem abandon_pending (s : State) (i : Nat) : (abandon s i).pending = s.pending :=
  Eq.trans (foldl_pending
    (fun _ _ => (assertEdge_pending ..).trans ((count_pending ..).trans (regAddSat_pending ..))) ..)
    (modCore_pending ..)

@[simp] theorem judgeUnit_pending (s : State) (i : Nat) : (judgeUnit s i).pending = s.pending :=
  pending_ite (abandon_pending ..)
    (Eq.trans (pending_ite (foldl_pending (fun _ _ => count_pending ..) ..) rfl) (modCore_pending ..))

@[simp] theorem parkUnit_pending (s : State) (i : Nat) : (parkUnit s i).pending = s.pending :=
  pending_ite ((modCore_pending ..).trans (setUnitState_pending ..)) rfl

@[simp] theorem deadline_pending (s : State) (g : Nat) : (deadline s g).pending = s.pending :=
  Eq.trans (foldl_pending (fun _ _ => modCore_pending ..) ..)
    (Eq.trans (foldl_pending (fun _ _ => parkUnit_pending ..) ..)
    ((regFld_pending ..).trans
    ((regFld_pending ..).trans
    ((regFld_pending ..).trans
    (Eq.trans (pending_ite (setFronts_pending ..)
    (pending_ite (setFronts_pending ..) (pending_ite rfl (pending_ite rfl (setFronts_pending ..)))))
    (Eq.trans (pending_ite (regSet_pending ..) rfl)
    (Eq.trans (pending_ite (safeGroup_pending ..) rfl)
    (Eq.trans (pending_ite (assertEdge_pending ..) rfl)
    (Eq.trans (pending_ite (regAddSat_pending ..) rfl)
    ((regFld_pending ..).trans (foldl_pending (fun _ _ => judgeUnit_pending ..) ..)))))))))))

/-! ## The Sorus memory -/

@[simp] theorem sorusPut_pending (s : State) (k : Nat) (w : SorusWord) : (sorusPut s k w).pending = s.pending := rfl

@[simp] theorem storeSetting_pending (s : State) (t : Retired) : (storeSetting s t).pending = s.pending := rfl

@[simp] theorem markBank_pending (s : State) (n : Nat) : (markBank s n).pending = s.pending :=
  pending_ite ((storeSetting_pending ..).trans (regFld_pending ..)) rfl

@[simp] theorem noteColumn.recordSoft_pending (s : State) (n col : Nat) :
    (noteColumn.recordSoft s n col).pending = s.pending := (logFault_pending ..).trans (storeSetting_pending ..)

@[simp] theorem noteColumn_pending (s : State) (k col : Nat) : (noteColumn s k col).pending = s.pending :=
  pending_ite (Eq.trans (pending_ite rfl (pending_ite (noteColumn.recordSoft_pending ..) (markBank_pending ..)))
    ((assertEdge_pending ..).trans ((logFault_pending ..).trans (regSet_pending ..)))) rfl

@[simp] theorem sorusDecode_pending (s : State) (k : Nat) : (sorusDecode s k).2.2.pending = s.pending := by
  unfold sorusDecode
  dsimp only
  split
  · rfl
  · rfl
  · exact (noteColumn_pending ..).trans (regAddSat_pending ..)
  · exact (assertEdge_pending ..).trans
      ((logFault_pending ..).trans ((regSet_pending ..).trans (regAddSat_pending ..)))

@[simp] theorem sorusMismatch_pending (s : State) (k : Nat) : (sorusMismatch s k).pending = s.pending :=
  Eq.trans (pending_ite (markBank_pending ..) rfl)
    ((assertEdge_pending ..).trans ((logFault_pending ..).trans ((regSet_pending ..).trans (regAddSat_pending ..))))

@[simp] theorem sorusRebuild_pending (s : State) (k : Nat) (v : Word) : (sorusRebuild s k v).pending = s.pending :=
  regAddSat_pending ..

@[simp] theorem sorusBoth_pending (s : State) (k : Nat) : (sorusBoth s k).2.pending = s.pending :=
  pending_iteOf Prod.snd ((sorusDecode_pending ..).trans (sorusDecode_pending ..))
    (pending_iteOf Prod.snd
      ((sorusRebuild_pending ..).trans ((sorusDecode_pending ..).trans (sorusDecode_pending ..)))
      (pending_iteOf Prod.snd
        ((sorusRebuild_pending ..).trans ((sorusDecode_pending ..).trans (sorusDecode_pending ..)))
        ((sorusDecode_pending ..).trans (sorusDecode_pending ..))))

@[simp] theorem sorusTwinRead_pending (s : State) (k : Nat) : (sorusTwinRead s k).2.pending = s.pending := by
  unfold sorusTwinRead
  split
  next h1 =>
  have h1 := (pending_of_eq (π := Prod.snd) h1 (sorusBoth_pending ..) :)
  refine pending_iteOf Prod.snd h1 ?_
  split
  next h2 =>
  have h2 := (pending_of_eq (π := Prod.snd) h2 (sorusBoth_pending ..) :).trans h1
  exact pending_iteOf Prod.snd ((sorusMismatch_pending ..).trans h2) ((regAddSat_pending ..).trans h2)

@[simp] theorem sorusReadKey_pending (s : State) (k : Nat) : (sorusReadKey s k).2.pending = s.pending := by
  unfold sorusReadKey
  split <;> simp

@[simp] theorem sorusLoad_pending (s : State) (p : SorusPlace) : (sorusLoad s p).2.pending = s.pending := by
  unfold sorusLoad
  dsimp only
  split
  · exact count_pending ..
  · exact (sorusReadKey_pending ..).trans (count_pending ..)

@[simp] theorem sorusWriteWord_pending (s : State) (k : Nat) (v : Word) (poison : Bool) :
    (sorusWriteWord s k v poison).pending = s.pending :=
  Eq.trans (pending_ite (sorusPut_pending ..) rfl) (sorusPut_pending ..)

@[simp] theorem sorusStore_pending (s : State) (p : SorusPlace) (v m : Word) :
    (sorusStore s p v m).state.pending = s.pending := by
  have hr := (sorusReadKey_pending (count s 62 0xA0) (placeKey p)).trans (count_pending ..)
  exact pending_iteOf SorusStore.state ((sorusWriteWord_pending ..).trans (count_pending ..))
    (pending_iteOf SorusStore.state hr (pending_iteOf SorusStore.state ((sorusWriteWord_pending ..).trans hr)
      (pending_iteOf SorusStore.state hr ((sorusWriteWord_pending ..).trans hr))))

@[simp] theorem reportStore_pending (s : State) (key : Nat) : (reportStore s key).pending = s.pending :=
  pending_ite ((assertEdge_pending ..).trans (regFld_pending ..)) rfl

@[simp] theorem engineViolation_pending (s : State) (a : Nat) : (engineViolation s a).pending = s.pending :=
  violation_pending ..

@[simp] theorem sorusEngineWrite_pending (s : State) (u : SorusUser) (a : Nat) (v : Word) :
    (sorusEngineWrite s u a v).pending = s.pending := by
  unfold sorusEngineWrite
  split
  · exact pending_ite rfl
      (pending_ite ((reportStore_pending ..).trans (sorusWriteWord_pending ..)) (engineViolation_pending ..))
  · rfl

@[simp] theorem sorusEngineWrites_pending (s : State) (u : SorusUser) (a : Nat) (l : List Word) :
    (sorusEngineWrites s u a l).pending = s.pending := by
  induction l generalizing s u a with
  | nil => rfl
  | cons x l ih => exact (ih ..).trans (sorusEngineWrite_pending ..)

/-! ## The sense, touch and wave units -/

@[simp] theorem senseCtlWrite_pending (s : State) (rq : Requester) (v : Word) :
    (senseCtlWrite s rq v).pending = s.pending := pending_ite (refuseWrite_pending ..) (plainWrite_pending ..)

@[simp] theorem modChan_pending (s : State) (c : Nat) (f : SenseChan → SenseChan) :
    (modChan s c f).pending = s.pending := rfl

@[simp] theorem modDac_pending (s : State) (d : Nat) (f : DacState → DacState) :
    (modDac s d f).pending = s.pending := rfl

@[simp] theorem senseCfgWrite_pending (s : State) (c : Nat) (v : Word) :
    (senseCfgWrite s c v).pending = s.pending :=
  Eq.trans (pending_ite ((modChan_pending ..).trans (regFld_pending ..)) rfl) (plainWrite_pending ..)

@[simp] theorem excCfgWrite_pending (s : State) (rq : Requester) (d : Nat) (v : Word) :
    (excCfgWrite s rq d v).pending = s.pending :=
  pending_ite (plainWrite_pending ..)
    (pending_ite (plainWrite_pending ..) ((refuseWrite_pending ..).trans (plainWrite_pending ..)))

@[simp] theorem touchCtlWrite_pending (s : State) (rq : Requester) (v : Word) :
    (touchCtlWrite s rq v).pending = s.pending := pending_ite (refuseWrite_pending ..) (plainWrite_pending ..)

@[simp] theorem touchCfgWrite_pending (s : State) (v : Word) : (touchCfgWrite s v).pending = s.pending :=
  plainWrite_pending ..

@[simp] theorem touchStatWrite_pending (s : State) (rq : Requester) (v : Word) :
    (touchStatWrite s rq v).pending = s.pending :=
  Eq.trans (pending_ite rfl (refuseWrite_pending ..)) (plainWrite_pending ..)

@[simp] theorem latchChan_pending (s : State) (c : Nat) (r : RawSample) : (latchChan s c r).pending = s.pending :=
  (setLine_pending ..).trans (modChan_pending ..)

@[simp] theorem latchDac.quiet_pending (s : State) (d : Nat) : (latchDac.quiet s d).pending = s.pending :=
  pending_ite ((regFld_pending ..).trans (regFld_pending ..)) rfl

@[simp] theorem latchDac_pending (s : State) (d : Nat) : (latchDac s d).pending = s.pending :=
  (modDac_pending ..).trans (latchDac.quiet_pending ..)

@[simp] theorem latchSense_pending (s : State) (raw : List RawSample) : (latchSense s raw).pending = s.pending :=
  Eq.trans (foldl_pending (fun _ _ => latchDac_pending ..) ..) (foldl_pending (fun _ _ => latchChan_pending ..) ..)

@[simp] theorem senseWrite_pending (s : State) : (senseWrite s).pending = s.pending :=
  pending_ite (sorusEngineWrites_pending ..) rfl

@[simp] theorem touchLine_pending (s : State) : (touchLine s).pending = s.pending := setLine_pending ..

@[simp] theorem replaceNoisy_pending (s : State) (noise : List Nat) : (replaceNoisy s noise).pending = s.pending := by
  unfold replaceNoisy
  dsimp only
  split
  · next h0 =>
    exact (pending_of_eq (π := Prod.snd) h0 (pickOne_pending ..) :).trans (regFld_pending ..)
  · next h0 =>
    split
    · next h1 =>
      exact (pending_of_eq (π := Prod.snd) h1 (pickOne_pending ..) :).trans
        ((pending_of_eq (π := Prod.snd) h0 (pickOne_pending ..) :).trans (regFld_pending ..))
    · next h1 =>
      exact Eq.trans (pending_ite (regFld_pending ..) rfl)
        ((pending_of_eq (π := Prod.snd) h1 (pickOne_pending ..) :).trans
        ((pending_of_eq (π := Prod.snd) h0 (pickOne_pending ..) :).trans (regFld_pending ..)))

/-! ## The ring's wire -/

@[simp] theorem modRing_pending (s : State) (f : Ring → Ring) : (modRing s f).pending = s.pending := rfl

@[simp] theorem modRingPort_pending (s : State) (p : Nat) (f : RingPort → RingPort) :
    (modRingPort s p f).pending = s.pending := modRing_pending ..

@[simp] theorem sendBlockAt_pending (s : State) (p type : Nat) (a b : Nat) (lane : Option Nat) (time :
    Nat) :
    (sendBlockAt s p type a b lane time).pending = s.pending :=
  pending_ite rfl ((bwAdd_pending ..).trans ((count_pending ..).trans (modRing_pending ..)))

@[simp] theorem hearBlock_pending (s : State) (p : Nat) : (hearBlock s p).pending = s.pending := bwAdd_pending ..

@[simp] theorem sendBlock_pending (s : State) (p type : Nat) (a b : Nat) :
    (sendBlock s p type a b).pending = s.pending := sendBlockAt_pending ..

@[simp] theorem sendDly_pending (s : State) (p time : Nat) : (sendDly s p time).pending = s.pending :=
  (modRingPort_pending ..).trans (sendBlockAt_pending ..)

@[simp] theorem trainPort_pending (s : State) (p : Nat) : (trainPort s p).pending = s.pending :=
  (modRingPort_pending ..).trans (foldl_pending (fun _ _ => sendBlockAt_pending ..) ..)

@[simp] theorem askSection_pending (s : State) (p sec : Nat) : (askSection s p sec).pending = s.pending := by
  unfold askSection
  split
  · exact modRing_pending ..
  · exact modRingPort_pending ..

/-! ## The pinna engine -/

@[simp] theorem modInst_pending (s : State) (i : Nat) (f : PinnaInst → PinnaInst) :
    (modInst s i f).pending = s.pending := rfl

@[simp] theorem modQ_pending (s : State) (q : Nat) (f : QueueState → QueueState) :
    (modQ s q f).pending = s.pending := rfl

@[simp] theorem setPinState_pending (s : State) (i st : Nat) : (setPinState s i st).pending = s.pending :=
  regFld_pending ..

@[simp] theorem setErr_pending (s : State) (i e : Nat) : (setErr s i e).pending = s.pending := regFld_pending ..

@[simp] theorem pinLine_pending (s : State) (i : Nat) : (pinLine s i).pending = s.pending := setLine_pending ..

@[simp] theorem pinCause_pending (s : State) (i n : Nat) : (pinCause s i n).pending = s.pending :=
  (pinLine_pending ..).trans (regFld_pending ..)

@[simp] theorem dropQ_pending (s : State) (q : Nat) (n : Nat) : (dropQ s q n).pending = s.pending :=
  (count_pending ..).trans (modQ_pending ..)

@[simp] theorem pinFail_pending (s : State) (i q : Nat) (va : Word) (e : Exc) :
    (pinFail s i q va e).pending = s.pending := pending_ite (jobOnce_pending (fun s => logFault_pending ..)) rfl

@[simp] theorem pinJudge_pending (s : State) (i q : Nat) (va : Word) (write : Bool) (s1 : Option StagePerm)
    (s2 : Option StagePerm) :
    (pinJudge s i q va write s1 s2).state.pending = s.pending := by
  unfold pinJudge
  dsimp only
  split
  · rfl
  · split
    · exact pinFail_pending ..
    · split
      · rfl
      · split
        · exact pinFail_pending ..
        · rfl

@[simp] theorem pinCachePut_pending (s : State) (e : Nat × TlbEntry) : (pinCachePut s e).pending = s.pending :=
  pending_ite rfl rfl

@[simp] theorem pinLeaves_pending (s : State) (i : Nat) (va : Word) (kind : Nat) :
    (pinLeaves s i va kind).state.pending = s.pending := by
  refine walkAndThen_pending ?_ fun q s => ?_
  · split_ifs
    · exact walkAndThen_pending (walk1_pending ..) fun _ _ => rfl
    · rfl
    · rfl
  · dsimp only
    split_ifs
    · rfl
    · exact walkAndThen_pending (walk2_pending ..) fun _ _ => rfl
    · rfl

@[simp] theorem pinBits_pending (s : State) (r : Regime) (write : Bool) (x : Xlate) :
    (pinBits s r write x).state.pending = s.pending := by
  unfold pinBits
  split
  · next hu =>
    have hu := (pending_of_eq (π := Walked.state) hu (setUsed_pending ..) :)
    split
    · next hl =>
      have hl := (pending_of_eq (π := Walked.state) hl (setLeafBits_pending ..) :).trans hu
      exact pending_iteOf Walked.state ((setLeafBits_pending ..).trans hl) hl
    · exact (setLeafBits_pending ..).trans hu
  · exact setUsed_pending ..

@[simp] theorem pinWalk_pending (s : State) (i q : Nat) (va : Word) (write : Bool) (n : Nat) :
    (pinWalk s i q va write n).state.pending = s.pending := by
  induction n generalizing s with
  | zero => rfl
  | succ n ih =>
    unfold pinWalk
    dsimp only
    split
    all_goals
      rename_i hq
      have hw := (pending_of_eq (π := Walk.state) hq (pinLeaves_pending ..) :)
    · exact hw
    · exact (pinFail_pending ..).trans hw
    · split
      · next hj =>
        have hj := (pending_of_eq (π := PinAt.state) hj (pinJudge_pending ..) :).trans hw
        split
        all_goals
          rename_i hq
          have hb := (pending_of_eq (π := Walked.state) hq (pinBits_pending ..) :).trans hj
        · exact hb
        · exact (ih _).trans hb
        · exact (pinFail_pending ..).trans hb
        · exact (count_pending ..).trans ((pinCachePut_pending ..).trans hb)
      · exact (pinJudge_pending ..).trans hw

@[simp] theorem pinTranslate_pending (s : State) (i q : Nat) (va : Word) (write : Bool) :
    (pinTranslate s i q va write).state.pending = s.pending := by
  refine pending_iteOf PinAt.state (pending_iteOf PinAt.state rfl (pinJudge_pending ..)) ?_
  split
  · exact pinJudge_pending ..
  · exact pinWalk_pending ..

@[simp] theorem pinFlush_pending (s : State) (i : Nat) : (pinFlush s i).pending = s.pending := rfl

@[simp] theorem pinRefused_pending (s : State) (write : Bool) (pa : Nat) :
    (pinRefused s write pa).pending = s.pending := jobOnce_pending (fun s => rqViolation_pending ..)

@[simp] theorem bankRead_pending (s : State) (p : SorusPlace) (a : Nat) :
    (bankRead s p a).state.pending = s.pending := by
  unfold bankRead
  split
  · rfl
  · exact jobOnce_pending (by simp)

@[simp] theorem bankStore_pending (s : State) (p : SorusPlace) (a : Nat) (v m : Word) :
    (bankStore s p a v m).state.pending = s.pending := by
  unfold bankStore
  split
  · rfl
  · refine jobOnce_pending fun s => ?_
    have hs := sorusStore_pending s p v m
    split <;> simp_all

@[simp] theorem pinRead_pending (s : State) (i q : Nat) (va : Word) : (pinRead s i q va).state.pending = s.pending :=
  by
  have ht := pinTranslate_pending s i q va false
  unfold pinRead
  split
  · simp_all
  · simp_all
  · next u pa h =>
    rw [h] at ht
    rw [← show u.pending = s.pending from ht]
    split
    · exact andThen_pending (by simp) fun _ _ => rfl
    · split
      · split <;> simp
      · rfl
    · rfl

@[simp] theorem pinReads_pending (s : State) (i q : Nat) (va : Word) (n : Nat) (acc : List Word) :
    (pinReads s i q va n acc).state.pending = s.pending := by
  induction n generalizing s va acc with
  | zero => rfl
  | succ n ih =>
    have hr := pinRead_pending s i q va
    unfold pinReads
    split
    all_goals
      next heq =>
        rw [heq] at hr
        simpa [ih] using hr

@[simp] theorem pinWrite_pending (s : State) (i q : Nat) (va v m : Word) :
    (pinWrite s i q va v m).state.pending = s.pending := by
  have ht := pinTranslate_pending s i q va true
  unfold pinWrite
  split
  · simp_all
  · simp_all
  · next u pa h =>
    rw [h] at ht
    rw [← show u.pending = s.pending from ht]
    split
    · exact andThen_pending (by simp) fun _ _ => rfl
    · split
      · split <;> simp
      · rfl
    · rfl

@[simp] theorem pinWrites_pending (s : State) (i q : Nat) (va : Word) (n k : Nat) (l : List Word) :
    (pinWrites s i q va n k l).state.pending = s.pending := by
  induction l generalizing s i q va n k with
  | nil => rfl
  | cons x l ih =>
    unfold pinWrites
    split
    all_goals
      rename_i hq
      have hw := (pending_of_eq (π := Whole.state) hq (pinWrite_pending ..) :)
    · exact (ih ..).trans hw
    · exact hw
    · exact hw

@[simp] theorem descWords_pending (s : State) (i q : Nat) (va : Word) (n : Nat) (acc : List Word) (st : Nat) :
    (descWords s i q va n acc st).state.pending = s.pending := by
  induction n generalizing s va acc st with
  | zero => rfl
  | succ n ih =>
    have hr := pinRead_pending s i q va
    unfold descWords
    split
    case h_1 _ _ _ heq =>
      rw [heq] at hr
      split
      · exact hr
      · exact (ih ..).trans hr
    case h_2 _ heq =>
      rw [heq] at hr
      exact hr

@[simp] theorem descAt_pending (s : State) (i q : Nat) (at_ : Word) :
    (descAt s i q at_).state.pending = s.pending := descWords_pending ..

@[simp] theorem readDesc_pending (s : State) (i q n : Nat) :
    (readDesc s i q n).state.pending = s.pending := descAt_pending ..

@[simp] theorem pinPuts_pending (s : State) (i q : Nat) (at_ : Word) (l : List (Nat × Word)) :
    (pinPuts s i q at_ l).state.pending = s.pending := by
  induction l generalizing s with
  | nil => rfl
  | cons p l ih => exact andThen_pending (by simp) fun _ s => andThen_pending (ih s) fun _ _ => rfl

@[simp] theorem rxData_pending (s : State) (q : Nat) (f : Flight) (d : List Word) (status : Nat) (bytes : List Byte) :
    (rxData s q f d status bytes).state.pending = s.pending := by
  unfold rxData
  dsimp only
  split
  · rfl
  · exact andThen_pending (by simp) fun _ _ => rfl

@[simp] theorem endCut_pending (s : State) (q : Nat) : (endCut s q).pending = s.pending := pending_ite rfl rfl

@[simp] theorem passHead_pending (s : State) (q : Nat) (f : Flight) (status : Nat) (irq : Bool) :
    (passHead s q f status irq).pending = s.pending :=
  Eq.trans (pending_ite (pinCause_pending ..) rfl)
    (Eq.trans (pending_ite (pinCause_pending ..) rfl)
    ((count_pending ..).trans
    (Eq.trans (pending_ite (dropQ_pending ..) rfl)
    (Eq.trans (pending_ite (dropQ_pending ..) rfl) ((modQ_pending ..).trans (endCut_pending ..))))))

@[simp] theorem endDesc_pending (s : State) (q : Nat) (f : Flight) (at_ : Word) (status : Nat) (bytes : List Byte)
    (done : Nat) : (endDesc s q f at_ status bytes done).state.pending = s.pending := by
  refine andThen_pending (by simp) fun d s => ?_
  dsimp only
  split
  · rfl
  · refine andThen_pending (by split_ifs <;> simp) fun r s => ?_
    exact andThen_pending (by simp) fun _ _ => rfl

@[simp] theorem endFlight_pending (s : State) (q : Nat) (f : Flight) (status : Nat) (bytes : List Byte) (done : Nat) :
    (endFlight s q f status bytes done).state.pending = s.pending :=
  andThen_pending (bridgeJob_pending (by simp)) (by simp)

@[simp] theorem txFetch_pending (s : State) (q : Nat) : (txFetch s q).state.pending = s.pending := by
  refine bridgeJob_pending fun s => andThen_pending (by simp) fun d s => ?_
  dsimp only
  split_ifs
  · rfl
  · rfl
  · exact andThen_pending (by simp) fun _ _ => rfl

@[simp] theorem startFlight_pending (s : State) (q : Nat) (f : Flight) : (startFlight s q f).pending = s.pending :=
  modQ_pending ..

@[simp] theorem rxOffer_pending (s : State) (q : Nat) (bytes : List Byte) (aux : Word) :
    (rxOffer s q bytes aux).pending = s.pending :=
  pending_ite rfl (pending_ite (dropQ_pending ..) (startFlight_pending ..))

@[simp] theorem queueCell_pending (s : State) (dst chan : Nat) (words : List Word) :
    (queueCell s dst chan words).pending = s.pending := rfl

@[simp] theorem passEnded_pending (s : State) (q : Nat) (f : Flight) (status : Nat) (irq : Bool) :
    (passEnded s q f status irq).pending = s.pending :=
  Eq.trans (pending_ite (pinCause_pending ..) rfl)
    (Eq.trans (pending_ite (pinCause_pending ..) rfl)
    (Eq.trans (pending_ite (dropQ_pending ..) rfl)
    ((count_pending ..).trans ((modQ_pending ..).trans (endCut_pending ..)))))

@[simp] theorem endEnded_pending (s : State) (q : Nat) (at_ : Word) (f : Flight) (status : Nat) (bytes : List Byte)
    (done : Nat) :
    (endEnded s q at_ f status bytes done).state.pending = s.pending :=
  andThen_pending (bridgeJob_pending (by simp)) (by simp)

@[simp] theorem completeQueue_pending (s : State) (q status : Nat) : (completeQueue s q status).pending = s.pending :=
  by
  unfold completeQueue
  split
  · rfl
  · split
    · simp
    · simp
    · split
      · rfl
      · refine andThen_pending (by simp) fun x s => ?_
        dsimp only
        split_ifs
        · simp
        · simp
        · exact andThen_pending (by simp) (by simp)
        · rfl

@[simp] theorem endStopped_pending (s : State) (q n : Nat) :
    (endStopped s q n).pending = s.pending := by
  induction n generalizing s with
  | zero => rfl
  | succ n ih =>
    unfold endStopped
    split
    · refine pending_ite rfl ?_
      split
      · next he => exact (ih _).trans (pending_of_eq (π := Whole.state) he (endEnded_pending ..) :)
      · next he => exact (pending_of_eq (π := Whole.state) he (endEnded_pending ..) :)
    · refine pending_ite rfl ?_
      split
      · next he => exact (ih _).trans (pending_of_eq (π := Whole.state) he (endFlight_pending ..) :)
      · next he => exact (pending_of_eq (π := Whole.state) he (endFlight_pending ..) :)
    · rfl

@[simp] theorem stopQueue_pending (s : State) (q status : Nat) :
    (stopQueue s q status).pending = s.pending :=
  (endStopped_pending ..).trans ((modQ_pending ..).trans (dropJob_pending ..))

@[simp] theorem abortList_pending (s : State) (l : List Flight) : (abortList s l).2.pending = s.pending := by
  induction l with
  | nil => rfl
  | cons f t ih =>
    unfold abortList
    dsimp only
    split
    · exact ih
    · exact ih

@[simp] theorem abortEnded_pending (s : State) (q : Nat) : (abortEnded s q).pending = s.pending :=
  pending_ite rfl ((endStopped_pending ..).trans
    ((modQ_pending ..).trans ((dropJob_pending ..).trans (abortList_pending ..))))

@[simp] theorem abortQueue_pending (s : State) (q : Nat) : (abortQueue s q).pending = s.pending :=
  (endStopped_pending ..).trans
    ((modQ_pending ..).trans ((dropJob_pending ..).trans ((abortList_pending ..).trans (abortEnded_pending ..))))

@[simp] theorem pinnaAbortAll_pending (s : State) : (pinnaAbortAll s).2.pending = s.pending :=
  foldl_pending (fun _ _ => abortQueue_pending ..) ..

@[simp] theorem slotReads_pending (s : State) (a n : Nat) (acc : List Word) :
    (slotReads s a n acc).state.pending = s.pending := by
  induction n generalizing s a acc with
  | zero => rfl
  | succ n ih =>
    unfold slotReads
    split
    · rfl
    · split
      · rfl
      · refine andThen_pending (by simp) fun r s => ?_
        split
        · rfl
        · exact ih _ _ _

@[simp] theorem slotCopy_pending (s : State) (q : Nat) (f : Flight) (buf : Word) :
    (slotCopy s q f buf).state.pending = s.pending := by
  refine andThen_pending (by simp) fun w s => ?_
  split
  · rfl
  · exact andThen_pending (by simp) fun _ _ => rfl

@[simp] theorem streamCopy_pending (s : State) (q : Nat) : (streamCopy s q).state.pending = s.pending := by
  unfold streamCopy
  refine andThen_pending (readDesc_pending ..) fun d s => ?_
  dsimp only
  split
  · exact andThen_pending (endFlight_pending ..) (by simp)
  split
  · exact andThen_pending (endFlight_pending ..) (by simp)
  · refine andThen_pending (slotCopy_pending ..) fun r s => ?_
    split
    · exact andThen_pending (endFlight_pending ..) (by simp)
    split
    · exact andThen_pending (endFlight_pending ..) (by simp)
    · simp

@[simp] theorem leaveFlights_pending (s : State) (q : Nat) : (leaveFlights s q).pending = s.pending := modQ_pending ..

@[simp] theorem endQueues_pending (s : State) (rq : Requester) (i a : Nat) (qs : List Nat) :
    (endQueues s rq i a qs).pending = s.pending :=
  pending_ite rfl ((refuseWrite_pending ..).trans
    (Eq.trans (foldl_pending (fun _ _ => leaveFlights_pending ..) ..) (regFld_pending ..)))

@[simp] theorem qCfgWrite_pending (s : State) (rq : Requester) (q : Nat) (v : Word) :
    (qCfgWrite s rq q v).pending = s.pending :=
  pending_ite (pending_ite (refuseWrite_pending ..)
    (Eq.trans (pending_ite (modQ_pending ..) rfl) (plainWrite_pending ..)))
    (Eq.trans (pending_ite (endQueues_pending ..) rfl) (plainWrite_pending ..))

@[simp] theorem instLimitWrite_pending (s : State) (rq : Requester) (i : Nat) (v : Word) :
    (instLimitWrite s rq i v).pending = s.pending := pending_ite (plainWrite_pending ..) (refuseWrite_pending ..)

@[simp] theorem instMigWrite_pending (s : State) (i : Nat) (v : Word) : (instMigWrite s i v).pending = s.pending :=
  (modInst_pending ..).trans ((regFld_pending ..).trans (plainWrite_pending ..))

@[simp] theorem pqTailWrite_pending (s : State) (rq : Requester) (i j : Nat) (v : Word) :
    (pqTailWrite s rq i j v).pending = s.pending := by
  unfold pqTailWrite
  refine pending_ite (regFld_pending ..) ?_
  split
  · exact regFld_pending ..
  · exact pending_ite (refuseWrite_pending ..) (modQ_pending ..)

@[simp] theorem pqCtlWrite_pending (s : State) (i j : Nat) (v : Word) :
    (pqCtlWrite s i j v).pending = s.pending := by
  unfold pqCtlWrite
  refine pending_ite rfl ?_
  split
  · exact modQ_pending ..
  · rfl

@[simp] theorem pageWrite_pending (s : State) (i o : Nat) (v : Word) :
    (pageWrite s i o v).pending = s.pending :=
  pending_ite rfl (Eq.trans (pending_ite (pinFlush_pending ..) rfl)
    ((pinLine_pending ..).trans (plainWrite_pending ..)))

@[simp] theorem freeQueues_pending (s : State) (i : Nat) : (freeQueues s i).pending = s.pending :=
  foldl_pending (fun _ _ => regFld_pending ..) ..

@[simp] theorem saveInst_pending (s : State) (i : Nat) : (saveInst s i).pending = s.pending :=
  Eq.trans (pending_ite (modInst_pending ..) ((setErr_pending ..).trans (setPinState_pending ..))) (regFld_pending ..)

@[simp] theorem writeRecord_pending (s : State) (i : Nat) : (writeRecord s i).state.pending = s.pending :=
  andThen_pending (by simp) (by simp)

@[simp] theorem dataCells_pending (s : State) (node src : Nat) (dst off : Nat) (l : List Word) (n : Nat) :
    (dataCells s node src dst off l n).pending = s.pending := by
  induction n generalizing s off l with
  | zero => rfl
  | succ n ih =>
    unfold dataCells
    split
    · rfl
    · exact (ih ..).trans (queueCell_pending ..)

@[simp] theorem sendFrom_pending (s : State) (i : Nat) : (sendFrom s i).pending = s.pending := dataCells_pending ..

@[simp] theorem sendInst_pending (s : State) (i : Nat) : (sendInst s i).state.pending = s.pending := by
  unfold sendInst
  dsimp only
  split
  · refine andThen_pending (by simp) fun ws s => ?_
    split <;> simp
  · rfl

@[simp] theorem releaseInst_pending (s : State) (i epoch : Nat) :
    (releaseInst s i epoch).2.pending = s.pending := by
  unfold releaseInst
  split
  · rfl
  · split
    · exact (pinLine_pending ..).trans
        ((modInst_pending ..).trans
        ((regFld_pending ..).trans ((setPinState_pending ..).trans (freeQueues_pending ..))))
    · rfl

@[simp] theorem loadQueues_pending (s : State) (i : Nat) (r : List Word) (l : List (Nat × Nat)) :
    (loadQueues s i r l).pending = s.pending := by
  induction l generalizing s with
  | nil => rfl
  | cons x l ih =>
    exact (ih _).trans ((modQ_pending ..).trans ((regSet_pending ..).trans ((regSet_pending ..).trans
      ((regSet_pending ..).trans (regSet_pending ..)))))

@[simp] theorem sendClaim_pending (s : State) (i : Nat) : (sendClaim s i).pending = s.pending := queueCell_pending ..

@[simp] theorem askRelease_pending (s : State) (i : Nat) (w1 : Word) : (askRelease s i w1).pending = s.pending :=
  by simp [askRelease]

@[simp] theorem loadRecord_pending (s : State) (i : Nat) (r : List Word) :
    (loadRecord s i r).pending = s.pending :=
  (askRelease_pending ..).trans
    ((modInst_pending ..).trans
    ((regFld_pending ..).trans
    ((setErr_pending ..).trans
    ((setPinState_pending ..).trans
    ((pinFlush_pending ..).trans
    ((regSet_pending ..).trans ((regSet_pending ..).trans ((regSet_pending ..).trans (loadQueues_pending ..)))))))))

@[simp] theorem restoreInst_pending (s : State) (i : Nat) : (restoreInst s i).state.pending = s.pending := by
  unfold restoreInst
  dsimp only
  split
  · simp
  · refine andThen_pending (by simp) fun w s => ?_
    split
    · simp
    · refine andThen_pending (by simp) fun ws s => ?_
      simp only [wholeState_done]
      split <;> simp

@[simp] theorem landRecord_pending (s : State) (i : Nat) : (landRecord s i).state.pending = s.pending := by
  refine andThen_pending (by simp) fun _ s => ?_
  simp only [wholeState_done]
  split <;> simp

@[simp] theorem pinnaJob_pending (s : State) (i : Nat) : (pinnaJob s i).pending = s.pending := by
  have hfin (f : State → Nat → Whole Unit) (hf : ∀ s i, (f s i).state.pending = s.pending) :
      (runJob s (jobInst i) fun s => (f s i).andThen fun _ s =>
        .done () (modInst s i fun x => { x with job := 0 })).pending = s.pending :=
    runJob_pending fun s => andThen_pending (hf s i) (by simp)
  unfold pinnaJob
  dsimp only
  split
  · exact runJob_pending (by simp)
  · split
    · exact hfin _ writeRecord_pending
    · exact hfin _ sendInst_pending
    · exact hfin _ restoreInst_pending
    · rfl

@[simp] theorem pinnaJobs_pending (s : State) : (pinnaJobs s).pending = s.pending :=
  pending_ite (foldl_pending (fun _ _ => pinnaJob_pending ..) ..) rfl

@[simp] theorem beginJob_pending (s : State) (i : Nat) : (beginJob s i).pending = s.pending :=
  pending_ite (pinnaJob_pending ..) rfl

@[simp] theorem endJob_pending (s : State) (i : Nat) : (endJob s i).pending = s.pending :=
  (dropJob_pending ..).trans (modInst_pending ..)

@[simp] theorem startJob_pending (s : State) (i cmd : Nat) : (startJob s i cmd).pending = s.pending :=
  (beginJob_pending ..).trans ((modInst_pending ..).trans (endJob_pending ..))

@[simp] theorem runInst_pending (s : State) (rq : Requester) (i : Nat) : (runInst s rq i).pending = s.pending := by
  unfold runInst
  dsimp only
  split
  · exact pending_ite ((pinLine_pending ..).trans
      ((regFld_pending ..).trans
      ((setPinState_pending ..).trans
      (Eq.trans (foldl_pending (fun _ _ => (modQ_pending ..).trans (leaveFlights_pending ..)) ..)
      (modInst_pending ..))))) (refuseWrite_pending ..)
  · exact pending_ite ((pinLine_pending ..).trans ((regFld_pending ..).trans (setPinState_pending ..)))
      (refuseWrite_pending ..)
  · exact refuseWrite_pending ..

@[simp] theorem stopInst_pending (s : State) (rq : Requester) (i : Nat) : (stopInst s rq i).pending = s.pending :=
  (endQueues_pending ..).trans
    ((pinLine_pending ..).trans ((modInst_pending ..).trans ((setPinState_pending ..).trans (endJob_pending ..))))

@[simp] theorem instCtlWrite_pending (s : State) (rq : Requester) (i : Nat) (v : Word) :
    (instCtlWrite s rq i v).pending = s.pending := by
  unfold instCtlWrite
  dsimp only
  split
  · exact (runInst_pending ..).trans (pending_ite (endJob_pending ..) rfl)
  · exact pending_ite (refuseWrite_pending ..) (stopInst_pending ..)
  · exact pending_ite ((pinLine_pending ..).trans (setPinState_pending ..)) (refuseWrite_pending ..)
  · exact pending_ite ((pinLine_pending ..).trans ((setPinState_pending ..).trans (endJob_pending ..)))
      (refuseWrite_pending ..)
  · exact pending_ite ((beginJob_pending ..).trans ((saveInst_pending ..).trans (endJob_pending ..)))
      (refuseWrite_pending ..)
  · exact pending_ite (startJob_pending ..) (refuseWrite_pending ..)
  · exact pending_ite (startJob_pending ..) (refuseWrite_pending ..)
  · exact pending_ite (refuseWrite_pending ..) (pinCause_pending ..)
  · exact refuseWrite_pending ..

theorem ifPinna_pending {s : State} {g : State → State} (h : ∀ s, (g s).pending = s.pending) :
    (ifPinna s g).pending = s.pending := by
  unfold ifPinna
  split
  · exact h s
  · rfl

@[simp] theorem migData_pending (s : State) (node src : Nat) (dst off : Nat) (words : List Word) :
    (migData s node src dst off words).pending = s.pending :=
  pending_ite rfl (pending_ite rfl
    ((queueCell_pending ..).trans (pending_ite ((pinnaJob_pending ..).trans (modInst_pending ..)) rfl)))

@[simp] theorem migAck_pending (s : State) (node src : Nat) (dst off : Nat) :
    (migAck s node src dst off).pending = s.pending := pending_ite (modInst_pending ..) rfl

@[simp] theorem migClaim_pending (s : State) (node src : Nat) (dst epoch : Nat) :
    (migClaim s node src dst epoch).pending = s.pending := by simp [migClaim]

@[simp] theorem migAnswer_pending (s : State) (node src : Nat) (dst epoch : Nat) (ok : Bool) :
    (migAnswer s node src dst epoch ok).pending = s.pending :=
  pending_ite (Eq.trans (pending_ite (regFld_pending ..) ((setErr_pending ..).trans (setPinState_pending ..)))
    (modInst_pending ..)) rfl

@[simp] theorem migrationCell_pending (s : State) (node : Nat) (words : List Word) :
    (migrationCell s node words).pending = s.pending := ifPinna_pending fun s => by dsimp only; split <;> simp

@[simp] theorem freezeOne_pending (s : State) (i : Nat) : (freezeOne s i).pending = s.pending :=
  pending_ite ((modInst_pending ..).trans ((regFld_pending ..).trans (setPinState_pending ..))) rfl

@[simp] theorem pinnaTick_pending (s : State) : (pinnaTick s).pending = s.pending := by simp [pinnaTick]

@[simp] theorem pinnaTlbi_pending (s : State) (p : TlbEntry → Bool) : (pinnaTlbi s p).pending = s.pending := rfl

/-! ## Ethernet, CAN, RS-485 and DMA -/

@[simp] theorem ethDrop_pending (s : State) (p : Nat) : (ethDrop s p).pending = s.pending := count_pending ..

@[simp] theorem dropCut_pending (s : State) (p : Nat) : (dropCut s p).pending = s.pending := rfl

@[simp] theorem failUnit_pending (s : State) (cls unit : Nat) :
    (failUnit s cls unit).pending = s.pending :=
  Eq.trans (foldl_pending (fun _ _ => pending_ite (stopQueue_pending ..) rfl) ..)
    (pending_ite (dropCut_pending ..) rfl)

@[simp] theorem ethLink_pending (s : State) (p : Nat) (up : Bool) : (ethLink s p up).pending = s.pending :=
  Eq.trans (pending_ite rfl (failUnit_pending ..)) (regFld_pending ..)

@[simp] theorem ethCtlWrite_pending (s : State) (p : Nat) (v : Word) : (ethCtlWrite s p v).pending = s.pending :=
  Eq.trans (pending_ite rfl (ethLink_pending ..))
    ((regFld_pending ..).trans (Eq.trans (pending_ite rfl rfl) (plainWrite_pending ..)))

@[simp] theorem ethCycleWrite_pending (s : State) (p : Nat) (v : Word) :
    (ethCycleWrite s p v).pending = s.pending := pending_ite (plainWrite_pending ..) rfl

@[simp] theorem gclBaseWrite_pending (s : State) (p : Nat) (v : Word) : (gclBaseWrite s p v).pending = s.pending :=
  plainWrite_pending ..

@[simp] theorem mdioWrite_pending (s : State) (p : Nat) (v : Word) : (mdioWrite s p v).pending = s.pending :=
  pending_ite rfl (Eq.trans (pending_ite rfl rfl) (regSet_pending ..))

@[simp] theorem setCredit_pending (s : State) (p c : Nat) (k : Credit) :
    (setCredit s p c k).pending = s.pending := pending_ite rfl rfl

@[simp] theorem creditWait_pending (s : State) (p c : Nat) : (creditWait s p c).pending = s.pending :=
  setCredit_pending ..

@[simp] theorem creditSend_pending (s : State) (p c len : Nat) :
    (creditSend s p c len).pending = s.pending := setCredit_pending ..

@[simp] theorem ethOut_pending (s : State) (p : Nat) (bytes : List Byte) :
    (ethOut s p bytes).pending = s.pending := rfl

@[simp] theorem ethOutCut_pending (s : State) (p q : Nat) (bytes : List Byte) (r : Option (Nat × Nat)) :
    (ethOutCut s p q bytes r).pending = s.pending := by
  unfold ethOutCut
  split <;> simp

@[simp] theorem preempt_pending (s : State) (p : Nat) (r : Nat × Nat) : (preempt s p r).pending = s.pending :=
  count_pending ..

@[simp] theorem ethResume_pending (s : State) (p : Nat) (k : EthCut) : (ethResume s p k).pending = s.pending :=
  pending_ite ((ethOutCut_pending ..).trans (dropCut_pending ..)) rfl

@[simp] theorem ethEvent_pending (s : State) (p k : Nat) : (ethEvent s p k).pending = s.pending := setLine_pending ..

@[simp] theorem ethSend_pending (s : State) (p q : Nat) (d2 : Word) (bytes : List Byte) (st : Nat) :
    (ethSend s p q d2 bytes st).state.pending = s.pending := by
  unfold ethSend
  dsimp only
  refine pending_iteOf Whole.state (endFlight_pending ..) (pending_iteOf Whole.state rfl
    (pending_iteOf Whole.state (creditWait_pending ..) ?_))
  refine Eq.trans (ethEvent_pending ..)
    ((bwAdd_pending ..).trans ((count_pending ..).trans ((startFlight_pending ..).trans
    ((ethOutCut_pending ..).trans ((creditSend_pending ..).trans ?_)))))
  have hc : (match if (!preemptable s p (ethClass s p bytes)) = true then expressCut s p else none with
      | some r => if wireFree s p = true then s else preempt s p r
      | none => s).pending = s.pending := by
    split
    · exact pending_ite rfl (preempt_pending ..)
    · rfl
  exact pending_ite ((regAddSat_pending ..).trans hc) hc

@[simp] theorem canLine_pending (s : State) (n : Nat) : (canLine s n).pending = s.pending := setLine_pending ..

@[simp] theorem canErrors_pending (s : State) (n : Nat) : (canErrors s n).pending = s.pending :=
  (canLine_pending ..).trans ((regFld_pending ..).trans ((regFld_pending ..).trans (regFld_pending ..)))

@[simp] theorem canRejoin_pending (s : State) (n : Nat) : (canRejoin s n).pending = s.pending :=
  pending_ite ((canLine_pending ..).trans
    ((regFld_pending ..).trans ((regFld_pending ..).trans (regFld_pending ..)))) rfl

@[simp] theorem canCtlWrite_pending (s : State) (n : Nat) (v : Word) : (canCtlWrite s n v).pending = s.pending :=
  Eq.trans (pending_ite (canRejoin_pending ..) rfl) (plainWrite_pending ..)

@[simp] theorem canTimingWrite_pending (s : State) (n o : Nat) (v : Word) :
    (canTimingWrite s n o v).pending = s.pending := pending_ite rfl (plainWrite_pending ..)

@[simp] theorem canFirst_pending (s : State) (n : Nat) (best : Option (Nat × Word × List Byte)) (l : List Nat) :
    (canFirst s n best l).state.pending = s.pending := by
  induction l generalizing s best with
  | nil => rfl
  | cons q qs ih =>
    refine pending_iteOf Whole.state ?_ (ih ..)
    split
    all_goals
      rename_i ht
      have ht := (pending_of_eq (π := Whole.state) ht (txFetch_pending ..) :)
    · exact (ih ..).trans ht
    · exact (ih ..).trans ht
    · exact ht

@[simp] theorem modDma_pending (s : State) (n : Nat) (f : DmaChan → DmaChan) :
    (modDma s n f).pending = s.pending := rfl

@[simp] theorem dmaLine_pending (s : State) (n : Nat) : (dmaLine s n).pending = s.pending := setLine_pending ..

@[simp] theorem dmaEnd_pending (s : State) (n err : Nat) : (dmaEnd s n err).pending = s.pending :=
  (dmaLine_pending ..).trans
    ((dropJob_pending ..).trans ((regFld_pending ..).trans ((regFld_pending ..).trans (regFld_pending ..))))

@[simp] theorem dmaRead_pending (s : State) (a : Nat) : (dmaRead s a).state.pending = s.pending :=
  andThen_pending (by split <;> simp) (by simp)

@[simp] theorem dmaWrite_pending (s : State) (a : Nat) (v : Word) : (dmaWrite s a v).state.pending = s.pending := by
  unfold dmaWrite
  split
  · refine andThen_pending (by simp) fun e s => ?_
    simp only [wholeState_done]
    split <;> simp
  · simp

@[simp] theorem dmaStep_pending (s : State) (n : Nat) : (dmaStep s n).state.pending = s.pending := by
  unfold dmaStep
  dsimp only
  refine bridgeJob_pending fun u => andThen_pending (dmaRead_pending u _) fun r u => ?_
  cases r with
  | none => rfl
  | some v => exact andThen_pending (dmaWrite_pending u _ v) (by simp)

@[simp] theorem dmaMove_pending (s : State) (n k : Nat) : (dmaMove s n k).state.pending = s.pending := by
  induction k generalizing s with
  | zero => rfl
  | succ k ih =>
    refine andThen_pending (by simp) fun ok s => ?_
    split
    · exact ih s
    · rfl

@[simp] theorem setTx_pending (s : State) (u : Nat) (l : List (BitVec 9)) : (setTx s u l).pending = s.pending := rfl

@[simp] theorem setRx_pending (s : State) (u : Nat) (l : List (BitVec 9)) : (setRx s u l).pending = s.pending := rfl

@[simp] theorem uartCfgWrite_pending (s : State) (u : Nat) (v : Word) : (uartCfgWrite s u v).pending = s.pending :=
  plainWrite_pending ..

@[simp] theorem uartQueue_pending (s : State) (u : Nat) (ch : BitVec 9) : (uartQueue s u ch).pending = s.pending :=
  pending_ite (regFld_pending ..) (setTx_pending ..)

@[simp] theorem uartTake_pending (s : State) (u : Nat) : (uartTake s u).2.pending = s.pending := by
  unfold uartTake
  split
  · rfl
  · exact setRx_pending ..

@[simp] theorem dmaFeed_pending (s : State) (u k : Nat) : (dmaFeed s u k).pending = s.pending := by
  induction k generalizing s with
  | zero => rfl
  | succ k ih =>
    refine pending_ite ?_ rfl
    split
    all_goals
      rename_i hb
      have hb := (pending_of_eq (π := Whole.state) hb (bridgeJob_pending fun s => dmaRead_pending ..) :)
    · exact hb
    · exact (modDma_pending ..).trans hb
    · exact (ih _).trans ((regAdd_pending ..).trans ((uartQueue_pending ..).trans hb))

@[simp] theorem dmaDrain_pending (s : State) (u k : Nat) : (dmaDrain s u k).pending = s.pending := by
  induction k generalizing s with
  | zero => rfl
  | succ k ih =>
    refine pending_ite ?_ rfl
    split
    all_goals
      rename_i hb
      have hb := (pending_of_eq (π := Whole.state) hb (bridgeJob_pending fun s => dmaWrite_pending ..) :)
    · exact (ih _).trans ((regAdd_pending ..).trans ((uartTake_pending ..).trans hb))
    · exact hb

@[simp] theorem uartLine_pending (s : State) (u : Nat) : (uartLine s u).pending = s.pending := setLine_pending ..

@[simp] theorem uartDma_pending (s : State) (u : Nat) : (uartDma s u).pending = s.pending :=
  (uartLine_pending ..).trans ((dmaDrain_pending ..).trans (dmaFeed_pending ..))

@[simp] theorem uartStore_pending (s : State) (u : Nat) (ch : BitVec 9) : (uartStore s u ch).pending = s.pending :=
  pending_ite (regFld_pending ..) (setRx_pending ..)

@[simp] theorem uartReceive_pending (s : State) (u : Nat) (ch : BitVec 9) (err : Bool) :
    (uartReceive s u ch err).pending = s.pending :=
  Eq.trans (pending_ite
    (pending_ite rfl (pending_ite ((uartDma_pending ..).trans (uartStore_pending ..)) (uartLine_pending ..)))
    ((uartDma_pending ..).trans (uartStore_pending ..))) (pending_ite (regFld_pending ..) rfl)

@[simp] theorem dmaCtlWrite_pending (s : State) (rq : Requester) (n : Nat) (v : Word) :
    (dmaCtlWrite s rq n v).pending = s.pending :=
  pending_ite (refuseWrite_pending ..)
    (Eq.trans (pending_ite
    (Eq.trans (pending_ite (uartDma_pending ..) rfl)
    ((regFld_pending ..).trans ((regFld_pending ..).trans ((regFld_pending ..).trans (modDma_pending ..))))) rfl)
    ((dmaLine_pending ..).trans (plainWrite_pending ..)))

theorem foldl_snd_pending {α β : Type} {g : β × State → α → β × State}
    (h : ∀ p x, (g p x).2.pending = p.2.pending) (l : List α) (p : β × State) :
    (l.foldl g p).2.pending = p.2.pending := by
  induction l generalizing p with
  | nil => rfl
  | cons x l ih => rw [List.foldl_cons, ih, h]
@[simp] theorem dmaAbortAll_pending (s : State) : (dmaAbortAll s).2.pending = s.pending := by
  refine foldl_snd_pending (fun p n => ?_) _ _
  dsimp only
  split
  · simp
  · rfl

/-! ## The display -/

@[simp] theorem planeCtlWrite_pending (s : State) (p : Nat) (v : Word) :
    (planeCtlWrite s p v).pending = s.pending := plainWrite_pending ..

@[simp] theorem dispCtlWrite_pending (s : State) (v : Word) : (dispCtlWrite s v).pending = s.pending :=
  pending_ite rfl rfl

@[simp] theorem scanStart_pending (s : State) (o : Nat) : (scanStart s o).pending = s.pending := rfl

@[simp] theorem setHpd_pending (s : State) (o : Nat) (on : Bool) : (setHpd s o on).pending = s.pending :=
  regFld_pending ..

@[simp] theorem hpdAfter_pending (s : State) (o : Nat) (answered : Bool) :
    (hpdAfter s o answered).pending = s.pending := pending_ite (setHpd_pending ..) (setHpd_pending ..)

@[simp] theorem dispOutCtlWrite_pending (s : State) (rq : Requester) (o : Nat) (v : Word) :
    (dispOutCtlWrite s rq o v).pending = s.pending :=
  pending_ite (pending_ite (regFld_pending ..) (regFld_pending ..))
    (pending_ite (refuseWrite_pending ..)
    (pending_ite (refuseWrite_pending ..)
    (pending_ite (pending_ite ((scanStart_pending ..).trans ((regFld_pending ..).trans (plainWrite_pending ..)))
    ((regFld_pending ..).trans ((regFld_pending ..).trans (plainWrite_pending ..)))) (plainWrite_pending ..))))

@[simp] theorem dispTimingWrite_pending (s : State) (rq : Requester) (o k : Nat) (v : Word) :
    (dispTimingWrite s rq o k v).pending = s.pending := pending_ite (refuseWrite_pending ..) (plainWrite_pending ..)

@[simp] theorem sendXfer_pending (s : State) (o : Nat) : (sendXfer s o).pending = s.pending := rfl

@[simp] theorem dispXferWrite_pending (s : State) (o : Nat) (v : Word) :
    (dispXferWrite s o v).pending = s.pending :=
  pending_ite (pending_ite rfl
    (Eq.trans (pending_ite rfl (sendXfer_pending ..)) ((regFld_pending ..).trans (plainWrite_pending ..))))
    (plainWrite_pending ..)

@[simp] theorem toneTick_pending (s : State) : (toneTick s).pending = s.pending := by
  unfold toneTick
  split
  · rfl
  · dsimp only
    simp only [ite_pending, assertEdge_pending, regFld_pending, ite_self]
    split_ifs <;> simp

@[simp] theorem toneStep_pending (s : State) (o : Nat) : (toneStep s o).pending = s.pending := rfl

/-! ## PCIe and USB -/

@[simp] theorem pcieLines_pending (s : State) : (pcieLines s).pending = s.pending :=
  (setLine_pending ..).trans (setLine_pending ..)

@[simp] theorem pcieFlag_pending (s : State) (n : Nat) : (pcieFlag s n).pending = s.pending :=
  (pcieLines_pending ..).trans (regFld_pending ..)

@[simp] theorem pcieDown_pending (s : State) : (pcieDown s).pending = s.pending :=
  Eq.trans (pending_ite (pcieFlag_pending ..) rfl)
    ((regFld_pending ..).trans ((regFld_pending ..).trans (regFld_pending ..)))

@[simp] theorem pcieCtlWrite_pending (s : State) (rq : Requester) (v : Word) :
    (pcieCtlWrite s rq v).pending = s.pending :=
  Eq.trans (pending_ite rfl (pending_ite (pcieDown_pending ..) rfl))
    (Eq.trans (pending_ite (refuseWrite_pending ..) rfl) (plainWrite_pending ..))

@[simp] theorem epWinWrite_pending (s : State) (rq : Requester) (v : Word) :
    (epWinWrite s rq v).pending = s.pending := pending_ite (refuseWrite_pending ..) (plainWrite_pending ..)

@[simp] theorem rpOutWrite_pending (s : State) (rq : Requester) (w o : Nat) (v : Word) :
    (rpOutWrite s rq w o v).pending = s.pending :=
  pending_ite (refuseWrite_pending ..) (pending_ite (plainWrite_pending ..) (plainWrite_pending ..))

@[simp] theorem rpInWrite_pending (s : State) (rq : Requester) (w o : Nat) (v : Word) :
    (rpInWrite s rq w o v).pending = s.pending :=
  pending_ite (refuseWrite_pending ..)
    (pending_ite (pending_ite (refuseWrite_pending ..) (plainWrite_pending ..)) (plainWrite_pending ..))

@[simp] theorem pcieCfgCtlWrite_pending (s : State) (v : Word) : (pcieCfgCtlWrite s v).pending = s.pending :=
  pending_ite rfl (Eq.trans (pending_ite rfl rfl) (regFld_pending ..))

@[simp] theorem pciePerst_pending (s : State) (on : Bool) : (pciePerst s on).pending = s.pending := regFld_pending ..

@[simp] theorem winRead_pending (s : State) (base b n : Nat) : (winRead s base b n).state.pending = s.pending :=
  andThen_pending (by simp) fun _ _ => rfl

@[simp] theorem winPuts_pending (s : State) (a : Nat) (l : List (Word × Word)) :
    (winPuts s a l).state.pending = s.pending := by
  induction l generalizing s a with
  | nil => rfl
  | cons w ws ih => exact andThen_pending (by simp) fun _ s => ih s _

@[simp] theorem winWrite_pending (s : State) (base b : Nat) (bytes : List Byte) :
    (winWrite s base b bytes).state.pending = s.pending := winPuts_pending ..

@[simp] theorem pcieAnswer_pending (s : State) (bytes : List Byte) (st : Nat) :
    (pcieAnswer s bytes st).pending = s.pending := (bwAdd_pending ..).trans (count_pending ..)

@[simp] theorem winServe_pending (s : State) (r : InboundReq) : (winServe s r).state.pending = s.pending := by
  unfold winServe
  split
  · simp
  · exact andThen_pending (by simp) (by simp)

@[simp] theorem pcieGo_pending (s : State) (n : Nat) :
    (pcieGo s n).pending = s.pending := by
  induction n generalizing s with
  | zero => rfl
  | succ n ih =>
    unfold pcieGo
    split
    · rfl
    · refine pending_ite rfl ?_
      split
      all_goals
        rename_i hb
        have hb := (pending_of_eq (π := Whole.state) hb (bridgeJob_pending fun s => winServe_pending ..) :)
      · exact (ih _).trans hb
      · exact hb

@[simp] theorem winRequest_pending (s : State) (base b : Nat) (write : Bool) (len : Nat) (bytes : List Byte) :
    (winRequest s base b write len bytes).pending = s.pending := pcieGo_pending ..

@[simp] theorem pcieUr_pending (s : State) (addr : Nat) (write root : Bool) :
    (pcieUr s addr write root).pending = s.pending :=
  Eq.trans (pending_ite ((rqViolation_pending ..).trans ((pcieFlag_pending ..).trans (regFld_pending ..))) rfl)
    (pending_ite rfl (pcieAnswer_pending ..))

@[simp] theorem apertureWrite_pending (s : State) (b : Nat) (words : List Word) :
    (apertureWrite s b words).pending = s.pending := (bwAdd_pending ..).trans (count_pending ..)

@[simp] theorem apertureError_pending (s : State) : (apertureError s).pending = s.pending := pcieFlag_pending ..

@[simp] theorem usbLines_pending (s : State) : (usbLines s).pending = s.pending :=
  (setLine_pending ..).trans (setLine_pending ..)

@[simp] theorem usbEpCfgWrite_pending (s : State) (j : Nat) (v : Word) :
    (usbEpCfgWrite s j v).pending = s.pending :=
  Eq.trans (pending_ite (regFld_pending ..) rfl) (plainWrite_pending ..)

@[simp] theorem usbEpRingWrite_pending (s : State) (j : Nat) (v : Word) :
    (usbEpRingWrite s j v).pending = s.pending := plainWrite_pending ..

@[simp] theorem usbEpTailWrite_pending (s : State) (rq : Requester) (j : Nat) (v : Word) :
    (usbEpTailWrite s rq j v).pending = s.pending := pending_ite (refuseWrite_pending ..) (plainWrite_pending ..)

@[simp] theorem usbPass_pending (s : State) (j st : Nat) (irq : Bool) :
    (usbPass s j st irq).pending = s.pending :=
  Eq.trans (pending_ite ((usbLines_pending ..).trans (regFld_pending ..)) rfl)
    (Eq.trans (pending_ite ((regFld_pending ..).trans (regFld_pending ..)) rfl) (regFld_pending ..))

@[simp] theorem usbFinish_pending (s : State) (j ring : Nat) (d1 : Word) (st done : Nat) :
    (usbFinish s j ring d1 st done).state.pending = s.pending :=
  andThen_pending (by simp) fun _ s => andThen_pending (by simp) (by simp)

@[simp] theorem usbMove_pending (s : State) (j : Nat) (d0 : Word) (len : Nat) (bytes : List Byte) :
    (usbMove s j d0 len bytes).state.pending = s.pending := by
  unfold usbMove
  split
  · rfl
  split
  · rfl
  split
  · exact andThen_pending (bridgeWords_pending ..) fun _ _ => rfl
  · exact andThen_pending (winWrite_pending ..) fun _ _ => rfl

@[simp] theorem usbWork_pending (s : State) (j : Nat) (bytes : List Byte) (fails : Bool) :
    (usbWork s j bytes fails).state.pending = s.pending := by
  unfold usbWork
  dsimp only
  split
  · simp
  · refine andThen_pending (by simp) fun d s => ?_
    split_ifs
    · exact andThen_pending (by simp) (by simp)
    · exact andThen_pending (by simp) (by simp)
    · refine andThen_pending (by simp) fun r s => andThen_pending (by simp) fun _ s => ?_
      split <;> rfl

@[simp] theorem usbFailGo_pending (s : State) (j : Nat) : (usbFailGo s j).pending = s.pending :=
  pending_ite (runJob_pending (fun s => usbWork_pending ..)) rfl

@[simp] theorem usbFailAll_pending (s : State) : (usbFailAll s).pending = s.pending := by simp [usbFailAll]

@[simp] theorem usbSpeed_pending (s : State) (speed : Nat) : (usbSpeed s speed).pending = s.pending :=
  pending_ite rfl (Eq.trans (pending_ite (usbFailAll_pending ..) rfl) ((regFld_pending ..).trans (regFld_pending ..)))

@[simp] theorem usbCtlWrite_pending (s : State) (v : Word) : (usbCtlWrite s v).pending = s.pending :=
  (usbLines_pending ..).trans (Eq.trans (pending_ite rfl (usbSpeed_pending ..)) (plainWrite_pending ..))

@[simp] theorem bridgeGoesOn_pending (s : State) : (bridgeGoesOn s).pending = s.pending :=
  Eq.trans (foldl_pending (fun _ _ => usbFailGo_pending ..) ..)
    (Eq.trans (foldl_pending (fun _ _ => pending_ite (uartDma_pending ..) rfl) ..)
    ((pcieGo_pending ..).trans (pinnaJobs_pending ..)))

/-! ## Power -/

@[simp] theorem endVote_pending (s : State) (result : Nat) : (endVote s result).pending = s.pending :=
  by simp [endVote]

@[simp] theorem refuseVote_pending (s : State) (d reason : Nat) :
    (refuseVote s d reason).pending = s.pending := by simp [refuseVote]

@[simp] theorem settleVote_pending (s : State) : (settleVote s).pending = s.pending :=
  pending_ite (regFld_pending ..) rfl

@[simp] theorem startVote_pending (s : State) (force quiescent : Bool) :
    (startVote s force quiescent).pending = s.pending :=
  (settleVote_pending ..).trans ((regFld_pending ..).trans (foldl_pending (fun _ _ => regFld_pending ..) ..))

@[simp] theorem voteWrite_pending (s : State) (rq : Requester) (v : Word) :
    (voteWrite s rq v).pending = s.pending :=
  Eq.trans (pending_ite rfl (pending_ite (regFld_pending ..) (startVote_pending ..)))
    (Eq.trans (pending_ite (refuseWrite_pending ..) rfl) (regFld_pending ..))

@[simp] theorem emptyCaches_pending (s : State) (d : Nat) : (emptyCaches s d).pending = s.pending :=
  foldl_pending (fun _ _ => releaseCaches_pending ..) ..

@[simp] theorem pwrCtlWrite_pending (s : State) (v : Word) : (pwrCtlWrite s v).pending = s.pending :=
  pending_ite rfl (plainWrite_pending ..)

@[simp] theorem wakeCfgWrite_pending (s : State) (v : Word) : (wakeCfgWrite s v).pending = s.pending :=
  plainWrite_pending ..

@[simp] theorem policyWrite_pending (s : State) (rq : Requester) (d : Nat) (v : Word) :
    (policyWrite s rq d v).pending = s.pending :=
  pending_ite rfl (pending_ite (refuseWrite_pending ..) (regFld_pending ..))

@[simp] theorem freqWrite_pending (s : State) (rq : Requester) (d : Nat) (v : Word) :
    (freqWrite s rq d v).pending = s.pending :=
  pending_ite (refuseWrite_pending ..) (pending_ite (refuseWrite_pending ..) (plainWrite_pending ..))

@[simp] theorem wakeCore_pending (s : State) (c : CoreId) : (wakeCore s c).pending = s.pending := modCore_pending ..

@[simp] theorem sleepCore_pending (s : State) (c : CoreId) : (sleepCore s c).pending = s.pending :=
  by simp [sleepCore]

@[simp] theorem enterDormant_pending (s : State) (d : Nat) : (enterDormant s d).pending = s.pending :=
  (pauseWdogs_pending ..).trans
    (Eq.trans (foldl_pending (fun _ _ => sleepCore_pending ..) ..) (emptyCaches_pending ..))

@[simp] theorem setDomain_pending (s : State) (d st : Nat) : (setDomain s d st).pending = s.pending :=
  Eq.trans (pending_ite (enterDormant_pending ..) rfl)
    (Eq.trans (pending_ite ((resumeWdogs_pending ..).trans (foldl_pending (fun _ _ => wakeCore_pending ..) ..)) rfl)
    (regFld_pending ..))

@[simp] theorem wakeDomain_pending (s : State) (d : Nat) : (wakeDomain s d).pending = s.pending :=
  Eq.trans (pending_ite (assertEdge_pending ..) rfl) ((regFld_pending ..).trans (setDomain_pending ..))

@[simp] theorem wakeRefuses_pending (s : State) (ds : List Nat) : (wakeRefuses s ds).pending = s.pending := by
  unfold wakeRefuses
  dsimp only
  split
  · exact refuseVote_pending ..
  · rfl

@[simp] theorem enterQuiescent_pending (s : State) : (enterQuiescent s).pending = s.pending :=
  (pauseWdogs_pending ..).trans
    ((regFld_pending ..).trans
    ((closeRing_pending ..).trans
    ((dacsOff_pending ..).trans (foldl_pending (fun _ _ => emptyCaches_pending ..) ..))))

@[simp] theorem powerTick_pending (s : State) : (powerTick s).pending = s.pending := by
  unfold powerTick
  refine pending_ite ?_ (pending_ite ?_ rfl)
  · split
    · exact refuseVote_pending ..
    · have hv : (assertEdge (endVote (if s.power.quiescentVote then s
          else s.power.participants.foldl (fun s d => setDomain s d (goalOf s d)) s) 1) 302).pending = s.pending :=
        (assertEdge_pending ..).trans ((endVote_pending ..).trans
          (pending_ite rfl (foldl_pending (fun s d => setDomain_pending ..) ..)))
      exact pending_ite ((enterQuiescent_pending ..).trans hv) hv
  · split
    · exact (startVote_pending ..).trans (regFld_pending ..)
    · rfl

@[simp] theorem freqTick_pending (s : State) : (freqTick s).pending = s.pending :=
  foldl_pending (fun _ _ => regFld_pending ..) ..

@[simp] theorem startTick_pending (s : State) : (startTick s).pending = s.pending :=
  (regFld_pending ..).trans (regFld_pending ..)

@[simp] theorem openRing_pending (s : State) : (openRing s).pending = s.pending :=
  pending_ite (Eq.trans (pending_ite ((assertEdge_pending ..).trans (regFld_pending ..)) rfl)
    (Eq.trans (foldl_pending (fun _ _ => (trainPort_pending ..).trans (regFld_pending ..)) ..) (regFld_pending ..)))
    (closeRing_pending ..)

@[simp] theorem countSlept_pending (s : State) (late : Bool) : (countSlept s late).pending = s.pending := rfl

@[simp] theorem wakeChannels_pending (s : State) (train : List Nat) : (wakeChannels s train).pending = s.pending :=
  foldl_pending (fun _ _ => (retireChannel_pending ..).trans (regFld_pending ..)) ..

@[simp] theorem wakeModule_pending (s : State) : (wakeModule s).pending = s.pending := by
  unfold wakeModule
  split
  · exact Eq.trans (pending_ite (startTick_pending ..) rfl) (openRing_pending ..)
  · rfl

@[simp] theorem thermCfgWrite_pending (s : State) (v : Word) : (thermCfgWrite s v).pending = s.pending :=
  pending_ite (plainWrite_pending ..) rfl

/-! ## Resets and the start-up -/

@[simp] theorem writeBoot_pending (s : State) (r : BootRec) : (writeBoot s r).pending = s.pending := rfl

@[simp] theorem readBoot_pending (s : State) : (readBoot s).pending = s.pending := by
  unfold readBoot
  split
  · rfl
  · exact writeBoot_pending ..

@[simp] theorem dropNewSettings_pending (s : State) : (dropNewSettings s).pending = s.pending := rfl

@[simp] theorem countTrials.fallbackLog_pending (s : State) (kind : Nat) :
    (countTrials.fallbackLog s kind).pending = s.pending := logFault_pending ..

@[simp] theorem countTrials_pending (s : State) : (countTrials s).pending = s.pending := by simp [countTrials]

@[simp] theorem bootFailure_pending (s : State) (kind slot code : Nat) :
    (bootFailure s kind slot code).pending = s.pending := logFault_pending ..

@[simp] theorem startAelnar_pending (s : State) (slot : Nat) : (startAelnar s slot).pending = s.pending :=
  modCore_pending ..

@[simp] theorem tryAelnar_pending (s : State) (nor : NorReads) (slot : Nat) :
    (tryAelnar s nor slot).2.pending = s.pending :=
  Eq.trans (pending_ite rfl (bootFailure_pending ..)) (Eq.trans (pending_ite rfl rfl) (regFld_pending ..))

@[simp] theorem bootAelnar_pending (s : State) (nor : NorReads) : (bootAelnar s nor).pending = s.pending := by
  have h1 (c : Bool) (t : State) :
    (if c = true then { t with mdl := { t.mdl with confirmedFmt := t.mdl.sfmt } } else t).pending =
      t.pending := by split <;> rfl
  unfold bootAelnar
  dsimp only
  refine (h1 _ _).trans ((regSet_pending ..).trans ?_)
  refine pending_iteOf Prod.snd ((startAelnar_pending ..).trans (tryAelnar_pending ..)) (pending_iteOf Prod.snd ?_ ?_)
  · exact (startAelnar_pending ..).trans ((tryAelnar_pending ..).trans (tryAelnar_pending ..))
  · exact Eq.trans (tryAelnar_pending ..) (tryAelnar_pending ..)

@[simp] theorem reformatSettings_pending (s : State) : (reformatSettings s).pending = s.pending := pending_ite rfl rfl

@[simp] theorem stage1_pending (cause : Nat) (s : State) : (stageEnd (stage1 cause s)).pending = s.pending := by
  unfold stage1
  dsimp only
  split
  · exact (moduleFault_pending ..).trans
      ((regFld_pending ..).trans ((regFld_pending ..).trans ((regFld_pending ..).trans (modCore_pending ..))))
  · exact (regFld_pending ..).trans ((regFld_pending ..).trans (modCore_pending ..))

@[simp] theorem stage2_pending (cause : Nat) (nor : NorReads) (s : State) :
    (stageEnd (stage2 cause nor s)).pending = s.pending :=
  (bootAelnar_pending ..).trans
    ((countTrials_pending ..).trans ((readBoot_pending ..).trans (pending_ite (logFault_pending ..) rfl)))

@[simp] theorem loadRepairs_pending (s : State) (n : Nat) : (loadRepairs s n).pending = s.pending :=
  (regFld_pending ..).trans ((regFld_pending ..).trans (foldl_pending (fun _ _ => regSet_pending ..) ..))

@[simp] theorem selfTestColumn_pending (s : State) (e : Nat × Nat × Nat) :
    (selfTestColumn s e).pending = s.pending :=
  pending_ite ((loadRepairs_pending ..).trans (recordRetirement_pending ..))
    (pending_ite rfl (recordRetirement_pending ..))

@[simp] theorem stage3_pending (inp : StartInput) (s : State) : (stageEnd (stage3 inp s)).pending = s.pending :=
  Eq.trans (foldl_pending (fun _ _ => selfTestColumn_pending ..) ..)
    (Eq.trans (foldl_pending (fun _ _ => loadRepairs_pending ..) ..) (reformatSettings_pending ..))

@[simp] theorem tryImage_pending (s : State) (nor : NorReads) (slot : Nat) :
    (tryImage s nor slot).2.pending = s.pending :=
  Eq.trans (pending_ite rfl (bootFailure_pending ..))
    (Eq.trans (pending_ite rfl rfl) ((regFld_pending ..).trans (logTransients_pending ..)))

@[simp] theorem chooseImage_pending (s : State) (nor : NorReads) : (chooseImage s nor).pending = s.pending :=
  pending_ite (regFld_pending ..)
    (Eq.trans (pending_ite
    ((regSet_pending ..).trans
    ((regSet_pending ..).trans
    ((regFld_pending ..).trans ((regFld_pending ..).trans ((regFld_pending ..).trans (regFld_pending ..))))))
    (Eq.trans (pending_ite
    ((regSet_pending ..).trans
    ((regSet_pending ..).trans ((regFld_pending ..).trans ((regFld_pending ..).trans (regFld_pending ..))))) rfl)
    ((regFld_pending ..).trans
    (Eq.trans (pending_ite rfl (bootFailure_pending ..))
    (Eq.trans (pending_ite rfl rfl) ((regFld_pending ..).trans (logTransients_pending ..)))))))
    (Eq.trans (pending_ite rfl (bootFailure_pending ..))
    (Eq.trans (pending_ite rfl rfl) ((regFld_pending ..).trans (logTransients_pending ..)))))

@[simp] theorem stage4_pending (nor : NorReads) (s : State) : (stageEnd (stage4 nor s)).pending = s.pending := by
  unfold stage4
  split
  · exact moduleFault_pending ..
  · exact chooseImage_pending ..

@[simp] theorem stage5_pending (s : State) : (stageEnd (stage5 s)).pending = s.pending := by simp [stage5]

@[simp] theorem restoreShadows_pending (s : State) (c : Nat) : (restoreShadows s c).pending = s.pending :=
  (shadowCount_pending ..).trans (foldl_pending (fun _ _ => regSet_pending ..) ..)

@[simp] theorem preloadPinned_pending (s : State) : (preloadPinned s).pending = s.pending := rfl

@[simp] theorem stage6_pending (train : List Nat) (s : State) : (stageEnd (stage6 train s)).pending = s.pending := by
  unfold stage6
  dsimp only
  refine pending_iteOf stageEnd ?_ ?_
  · split
    · exact Eq.trans (foldl_pending (fun s c => (retireChannel_pending ..).trans (regFld_pending ..)) ..)
        (Eq.trans (foldl_pending (fun s c => regFld_pending ..) ..) (regSet_pending ..))
    · exact (enterReset_pending ..).trans ((copyLogs_pending ..).trans
        (Eq.trans (foldl_pending (fun s c => (retireChannel_pending ..).trans (regFld_pending ..)) ..)
          (Eq.trans (foldl_pending (fun s c => regFld_pending ..) ..) (regSet_pending ..))))
  · exact Eq.trans (preloadPinned_pending ..) (Eq.trans (foldl_pending (fun s c => restoreShadows_pending ..) ..)
      ((regFld_pending ..).trans ((regFld_pending ..).trans ((regFld_pending ..).trans
        (Eq.trans (foldl_pending (fun s c => regFld_pending ..) ..) (regSet_pending ..))))))

@[simp] theorem applyBanks_pending (s : State) : (applyBanks s).pending = s.pending := by
  refine foldl_pending (fun s b => ?_) _ _
  refine (assertEdge_pending ..).trans ?_
  split
  · exact (regFld_pending ..).trans (regFld_pending ..)
  · exact regFld_pending ..

@[simp] theorem stage7_pending (s : State) : (stageEnd (stage7 s)).pending = s.pending := by
  unfold stage7
  dsimp only [stageEnd_ok]
  repeat
    first
      | rw [foldl_pending] | rw [regSet_pending] | rw [regFld_pending] | rw [applyBanks_pending]
      | rw [lockStructure_pending] | dsimp only
  all_goals intro s c; try split
  all_goals simp

@[simp] theorem dramPutLive_pending (s : State) (a : Nat) (w : Word) : (dramPutLive s a w).pending = s.pending :=
  pending_ite rfl (dramPut_pending ..)

@[simp] theorem stage8_pending (nor : NorReads) (s : State) : (stageEnd (stage8 nor s)).pending = s.pending := by
  unfold stage8
  dsimp only
  split_ifs <;> simp

@[simp] theorem stageRun_pending (cause : Nat) (inp : StartInput) (n : Nat) (s : State) :
    (stageEnd (stageRun cause inp n s)).pending = s.pending := by
  unfold stageRun
  split
  · exact stage1_pending ..
  · exact stage2_pending ..
  · exact stage3_pending ..
  · exact stage4_pending ..
  · exact stage5_pending ..
  · exact stage6_pending ..
  · exact stage7_pending ..
  · exact pending_iteOf stageEnd rfl (stage8_pending ..)

@[simp] theorem runStages_pending (cause : Nat) (inp : StartInput) (limit : Nat) (l : List Nat) (s : State) :
    (runStages cause inp limit l s).pending = s.pending := by
  induction l generalizing s with
  | nil => rfl
  | cons n l ih =>
    refine pending_ite (moduleFault_pending ..) ?_
    split
    all_goals
      rename_i hr
      have hr := (pending_of_eq (π := stageEnd) hr (stageRun_pending ..) :)
    · exact (ih _).trans ((regFld_pending ..).trans hr)
    · exact hr

@[simp] theorem resetBlocks_pending (s : State) (cause : Nat) : (resetBlocks s cause).pending = s.pending :=
  (logStat_pending ..).trans (regSet_pending ..)

@[simp] theorem startCore0_pending (s : State) (pc : Word) : (startCore0 s pc).pending = s.pending :=
  pending_ite (setCore_pending ..) rfl

@[simp] theorem resetRegs_pending (s : State) (d : Nat) : (resetRegs s d).pending = s.pending :=
  foldl_pending (fun _ _ => regSet_pending ..) ..

@[simp] theorem resetLines_pending (s : State) (d : Nat) : (resetLines s d).pending = s.pending :=
  foldl_pending (fun _ _ => setLine_pending ..) ..

@[simp] theorem resetAgent_pending (s : State) (c : CoreId) : (resetAgent s c).pending = s.pending :=
  coreToReset_pending ..

@[simp] theorem resetQuadrant_pending (s : State) (q : Nat) : (resetQuadrant s q).pending = s.pending := rfl

@[simp] theorem ethReset_pending (s : State) (p : Nat) : (ethReset s p).pending = s.pending := rfl

@[simp] theorem resetUnit_pending (s : State) (d : Nat) : (resetUnit s d).pending = s.pending := by
  unfold resetUnit
  refine pending_ite ((resetQuadrant_pending ..).trans
    (Eq.trans (foldl_pending (fun _ _ => resetAgent_pending ..) ..)
    ((resetLines_pending ..).trans (resetRegs_pending ..)))) ?_
  refine pending_ite (Eq.trans (foldl_pending (fun _ _ => resetAgent_pending ..) ..)
    ((resetLines_pending ..).trans (resetRegs_pending ..))) ?_
  split
  · exact Eq.trans (foldl_pending (fun _ _ => resetAgent_pending ..) ..)
      ((resetLines_pending ..).trans (resetRegs_pending ..))
  · exact Eq.trans (foldl_pending (fun _ _ => resetAgent_pending ..) ..)
      ((resetLines_pending ..).trans (resetRegs_pending ..))
  · exact (ethReset_pending ..).trans
      (Eq.trans (foldl_pending (fun _ _ => resetAgent_pending ..) ..)
      ((resetLines_pending ..).trans (resetRegs_pending ..)))
  · exact (ethReset_pending ..).trans
      (Eq.trans (foldl_pending (fun _ _ => resetAgent_pending ..) ..)
      ((resetLines_pending ..).trans (resetRegs_pending ..)))
  · exact Eq.trans (foldl_pending (fun _ _ => resetAgent_pending ..) ..)
      ((resetLines_pending ..).trans (resetRegs_pending ..))
  · exact Eq.trans (foldl_pending (fun _ _ => resetAgent_pending ..) ..)
      ((resetLines_pending ..).trans (resetRegs_pending ..))
  · exact Eq.trans (foldl_pending (fun _ _ => resetAgent_pending ..) ..)
      ((resetLines_pending ..).trans (resetRegs_pending ..))
  · exact Eq.trans (foldl_pending (fun _ _ => resetAgent_pending ..) ..)
      ((resetLines_pending ..).trans (resetRegs_pending ..))
  · exact Eq.trans (foldl_pending (fun _ _ => resetAgent_pending ..) ..)
      ((resetLines_pending ..).trans (resetRegs_pending ..))
  · exact Eq.trans (foldl_pending (fun _ _ => resetAgent_pending ..) ..)
      ((resetLines_pending ..).trans (resetRegs_pending ..))
  · exact Eq.trans (foldl_pending (fun _ _ => resetAgent_pending ..) ..)
      ((resetLines_pending ..).trans (resetRegs_pending ..))
  · exact Eq.trans (foldl_pending (fun _ _ => resetAgent_pending ..) ..)
      ((resetLines_pending ..).trans (resetRegs_pending ..))
  · exact Eq.trans (foldl_pending (fun _ _ => resetAgent_pending ..) ..)
      ((resetLines_pending ..).trans (resetRegs_pending ..))
  · exact Eq.trans (foldl_pending (fun _ _ => resetAgent_pending ..) ..)
      ((resetLines_pending ..).trans (resetRegs_pending ..))
  · exact Eq.trans (foldl_pending (fun _ _ => resetAgent_pending ..) ..)
      ((resetLines_pending ..).trans (resetRegs_pending ..))
  · exact Eq.trans (foldl_pending (fun _ _ => resetAgent_pending ..) ..)
      ((resetLines_pending ..).trans (resetRegs_pending ..))

@[simp] theorem clockFault_pending (s : State) (d : Nat) : (clockFault s d).pending = s.pending :=
  pending_ite rfl (pending_ite (moduleFault_pending ..)
    (Eq.trans (pending_ite ((moduleFault_pending ..).trans (assertEdge_pending ..))
    ((resetUnit_pending ..).trans ((regFld_pending ..).trans (assertEdge_pending ..)))) (logFault_pending ..)))

@[simp] theorem checkstopRecord_pending (s : State) (c : CoreId) : (checkstopRecord s c).pending = s.pending := by
  unfold checkstopRecord
  split
  · exact pending_ite ((assertEdge_pending ..).trans (logFault_pending ..)) rfl
  · rfl

@[simp] theorem resetCore_pending (s : State) (c : CoreId) : (resetCore s c).pending = s.pending :=
  coreToReset_pending ..

@[simp] theorem rstCoreWrite_pending (s : State) (rq : Requester) (c : Nat) (v : Word) :
    (rstCoreWrite s rq c v).pending = s.pending := by
  unfold rstCoreWrite
  refine pending_ite (plainWrite_pending ..) ?_
  refine pending_ite ((refuseWrite_pending ..).trans (plainWrite_pending ..)) ?_
  split
  · exact (modCore_pending ..).trans ((coreToReset_pending ..).trans (plainWrite_pending ..))
  · exact plainWrite_pending ..

@[simp] theorem dbgHoldWrite_pending (s : State) (rq : Requester) (v : Word) :
    (dbgHoldWrite s rq v).pending = s.pending := by
  unfold dbgHoldWrite
  split
  · exact plainWrite_pending ..
  · exact refuseWrite_pending ..

/-! ## The mailboxes -/

@[simp] theorem modPort_pending (s : State) (p : Nat) (f : MboxPort → MboxPort) :
    (modPort s p f).pending = s.pending := rfl

@[simp] theorem mboxLines_pending (s : State) : (mboxLines s).pending = s.pending :=
  (setLine_pending ..).trans (setLine_pending ..)

@[simp] theorem mbxFlag_pending (s : State) (p n : Nat) (b : Bool) :
    (mbxFlag s p n b).pending = s.pending := pending_ite (regFld_pending ..) rfl

@[simp] theorem postCommand_pending (s : State) (p level : Nat) (cmd : Word) (args : List Word) (buf : List
    Word) :
    (postCommand s p level cmd args buf).pending = s.pending :=
  (mboxLines_pending ..).trans ((mbxFlag_pending ..).trans (modPort_pending ..))

@[simp] theorem mbxCmdWrite_pending (s : State) (p level : Nat) (v : Word) :
    (mbxCmdWrite s p level v).pending = s.pending :=
  pending_ite (mbxFlag_pending ..) ((postCommand_pending ..).trans (plainWrite_pending ..))

@[simp] theorem releaseResult_pending (s : State) (p : Nat) : (releaseResult s p).pending = s.pending :=
  (mboxLines_pending ..).trans
    ((modPort_pending ..).trans (pending_ite (foldl_pending (fun _ _ => regSet_pending ..) ..) rfl))

@[simp] theorem mbxAckWrite_pending (s : State) (p : Nat) (v : Word) : (mbxAckWrite s p v).pending = s.pending :=
  pending_ite (releaseResult_pending ..) rfl

@[simp] theorem mbxStatWrite_pending (s : State) (p : Nat) (v : Word) : (mbxStatWrite s p v).pending = s.pending :=
  plainWrite_pending ..

@[simp] theorem resultCell_pending (s : State) (node seq op : Nat) (l : List Word) :
    (resultCell s node seq op l).pending = s.pending := queueCell_pending ..

@[simp] theorem signalHost_pending (s : State) : (signalHost s).pending = s.pending :=
  (bwAdd_pending ..).trans (count_pending ..)

@[simp] theorem postStored_pending (s : State) (p : Nat) : (postStored s p).pending = s.pending :=
  (mboxLines_pending ..).trans
    ((mbxFlag_pending ..).trans
    (Eq.trans (pending_ite (signalHost_pending ..) rfl)
    ((modPort_pending ..).trans
    (pending_ite (foldl_pending (fun _ _ => regSet_pending ..) ..) (resultCell_pending ..)))))

@[simp] theorem answer_pending (s : State) (p : Nat) (a : Answer) : (answer s p a).pending = s.pending :=
  (postStored_pending ..).trans (modPort_pending ..)

@[simp] theorem endSession_pending (s : State) : (endSession s).pending = s.pending := by
  unfold endSession
  refine (assertEdge_pending ..).trans ?_
  split
  · exact mbxFlag_pending ..
  · rfl

@[simp] theorem norSpoil_pending (s : State) (i n : Nat) : (norSpoil s i n).pending = s.pending := by
  induction n generalizing s i with
  | zero => rfl
  | succ n ih => exact (ih _ _).trans (norPut_pending _ _ _)

@[simp] theorem opBegin_pending (s : State) (p : Nat) (err : Bool) : (opBegin s p err).2.pending = s.pending := by
  unfold opBegin
  dsimp only
  exact pending_iteOf Prod.snd rfl (pending_iteOf Prod.snd rfl (pending_iteOf Prod.snd (norSpoil_pending ..)
    (mbxFlag_pending ..)))

theorem noSession_pending {s : State} {p : Nat} {r : Answer × State} (h : noSession s p = some r) :
    r.2.pending = s.pending := by
  unfold noSession at h
  split at h
  · split at h
    · cases h
    · cases h; rfl
  · cases h; exact takeFree_pending s

@[simp] theorem opBlock_pending (s : State) (p : Nat) (err : Bool) : (opBlock s p err).2.pending = s.pending := by
  unfold opBlock
  split
  · next h => exact noSession_pending h
  · split
    · rfl
    · dsimp only
      split_ifs <;> simp

@[simp] theorem logOutcome_pending (s : State) (kind status version : Nat) :
    (logOutcome s kind status version).pending = s.pending := logFault_pending ..

@[simp] theorem opEnd_pending (s : State) (p : Nat) (nor : NorReads) (err : Bool) :
    (opEnd s p nor err).2.pending = s.pending := by
  unfold opEnd
  split
  · next h => exact noSession_pending h
  · split
    · rfl
    · dsimp only
      split
      · simp
      · split
        · simp
        · split_ifs <;> simp

@[simp] theorem opAbort_pending (s : State) (p : Nat) : (opAbort s p).2.pending = s.pending := by
  unfold opAbort
  split
  · next h => exact noSession_pending h
  · simp

@[simp] theorem opActivate_pending (s : State) (p : Nat) (err : Bool) :
    (opActivate s p err).2.pending = s.pending := by
  unfold opActivate
  dsimp only
  split
  · rfl
  · split
    · rfl
    · split
      · rfl
      · split
        · rfl
        · exact (logOutcome_pending ..).trans (writeBoot_pending ..)

@[simp] theorem opConfirm_pending (s : State) (p : Nat) (err : Bool) : (opConfirm s p err).2.pending = s.pending := by
  unfold opConfirm
  dsimp only
  refine pending_iteOf Prod.snd rfl
    (pending_iteOf Prod.snd rfl (pending_iteOf Prod.snd rfl (pending_iteOf Prod.snd rfl ?_)))
  refine (logOutcome_pending ..).trans ?_
  exact pending_ite ((regFld_pending ..).trans (writeBoot_pending ..))
    ((regFld_pending ..).trans (writeBoot_pending ..))

@[simp] theorem opRetireReport_pending (s : State) (p : Nat) (err : Bool) :
    (opRetireReport s p err).2.pending = s.pending := by
  unfold opRetireReport
  dsimp only
  split
  · split
    · rfl
    · exact (retireRow_pending ..).trans (retireRow_pending ..)
  · rfl

@[simp] theorem opRetireClear_pending (s : State) (p : Nat) (err : Bool) :
    (opRetireClear s p err).2.pending = s.pending := by
  unfold opRetireClear
  dsimp only
  split
  · split
    · rfl
    · split
      · rfl
      · rfl
  · rfl

@[simp] theorem opUserWrite_pending (s : State) (p : Nat) (err : Bool) :
    (opUserWrite s p err).2.pending = s.pending := by
  unfold opUserWrite
  dsimp only
  split
  · rfl
  · split
    · rfl
    · split
      · rfl
      · split
        · exact norSpoil_pending ..
        · exact norPut_pending ..

@[simp] theorem perform_pending (s : State) (p op : Nat) (nor : NorReads) (err : Bool) :
    (perform s p op nor err).2.pending = s.pending := by
  unfold perform
  split
  · rfl
  · exact opBegin_pending ..
  · exact opBlock_pending ..
  · exact opEnd_pending ..
  · exact opAbort_pending ..
  · exact opActivate_pending ..
  · exact opConfirm_pending ..
  · rfl
  · exact opRetireReport_pending ..
  · rfl
  · exact opRetireClear_pending ..
  · exact opUserWrite_pending ..

@[simp] theorem opReset_pending (s : State) (p : Nat) : (opReset s p).pending = s.pending :=
  Eq.trans (pending_ite rfl ((enterReset_pending ..).trans (copyLogs_pending ..)))
    ((mboxLines_pending ..).trans ((mbxFlag_pending ..).trans (modPort_pending ..)))

@[simp] theorem serve_pending (s : State) (p : Nat) (nor : NorReads) (err : Bool) :
    (serve s p nor err).pending = s.pending := by
  unfold serve
  refine pending_ite (postStored_pending ..) ?_
  split
  · exact answer_pending ..
  · refine pending_ite (answer_pending ..) ?_
    refine pending_ite (answer_pending ..) ?_
    refine pending_ite (opReset_pending ..) ?_
    split
    · next h1 =>
      exact (answer_pending ..).trans (pending_of_eq (π := Prod.snd) h1 (perform_pending ..) :)

@[simp] theorem takeOp_pending (s : State) (p op : Nat) (nor : NorReads) (err : Bool) :
    (takeOp s p op nor err).pending = s.pending := pending_ite (serve_pending ..) rfl

@[simp] theorem mailboxCell_pending (s : State) (node : Nat) (words : List Word) :
    (mailboxCell s node words).pending = s.pending := by
  unfold mailboxCell
  dsimp only
  split
  · exact pending_ite (resultCell_pending ..)
      (pending_ite (postStored_pending ..) (pending_ite rfl ((postCommand_pending ..).trans (modPort_pending ..))))
  · exact pending_ite rfl (modPort_pending ..)
  · exact pending_ite (mbxAckWrite_pending ..) rfl
  · rfl

/-! ## The ring -/

@[simp] theorem setRingState_pending (s : State) (n : Nat) : (setRingState s n).pending = s.pending :=
  Eq.trans (pending_ite (assertEdge_pending ..) rfl)
    (Eq.trans (pending_ite rfl (regSet_pending ..)) (regFld_pending ..))

@[simp] theorem ringCount_pending (s : State) (n k : Nat) : (ringCount s n k).pending = s.pending :=
  pending_ite rfl (regAddSat_pending ..)

@[simp] theorem cellToQueue_pending (s : State) (c : Cell) : (cellToQueue s c).pending = s.pending := by
  unfold cellToQueue
  split
  · rfl
  · exact pending_ite rfl
      ((rxOffer_pending ..).trans ((modRing_pending ..).trans (pending_ite rfl (dropQ_pending ..))))

@[simp] theorem deliverCell_pending (s : State) (c : Cell) : (deliverCell s c).pending = s.pending :=
  pending_ite (mailboxCell_pending ..) (pending_ite (migrationCell_pending ..) (cellToQueue_pending ..))

@[simp] theorem passCell_pending (s : State) (west ends : Bool) (n : Nat) (c : Cell) :
    (passCell s west ends n c).1.pending = s.pending := by
  unfold passCell
  split
  · rfl
  · split
    · exact pending_ite rfl ((modRing_pending ..).trans (deliverCell_pending ..))
    · split
      · rfl
      · split
        · exact (count_pending ..).trans (modRing_pending ..)
        · rfl

@[simp] theorem passCells_pending (s : State) (west ends : Bool) (n : Nat) (l : List Cell) :
    (passCells s west ends n l).1.pending = s.pending := by
  induction l generalizing s n with
  | nil => rfl
  | cons c t ih => exact (ih _ _).trans (passCell_pending s west ends n c)

@[simp] theorem passSlots_pending (s : State) (west ends : Bool) (secs : Nat) (l : List (Option Section)) :
    (passSlots s west ends secs l).1.pending = s.pending := by
  induction l generalizing s with
  | nil => rfl
  | cons x l ih =>
    cases x with
    | none => exact ih s
    | some x => exact (ih _).trans (pending_iteOf Prod.fst (passCell_pending ..) rfl)

@[simp] theorem sendFrame_pending (s : State) (p : Nat) (fr : RingFrame) (start : Nat) :
    (sendFrame s p fr start).pending = s.pending :=
  pending_ite rfl ((bwAdd_pending ..).trans
    ((count_pending ..).trans
    (Eq.trans (foldl_pending (fun _ _ => sendDly_pending ..) ..)
    ((modRingPort_pending ..).trans (modRing_pending ..)))))

@[simp] theorem forward_pending (s : State) (inPort : Nat) (fr : RingFrame) :
    (forward s inPort fr).pending = s.pending := pending_ite (sendFrame_pending ..) (sendFrame_pending ..)

@[simp] theorem configFault_pending (s : State) (node : Word) : (configFault s node).pending = s.pending :=
  logFault_pending ..

@[simp] theorem noteBad_pending (s : State) (inPort : Nat) (fr : RingFrame) :
    (noteBad s inPort fr).pending = s.pending :=
  Eq.trans (foldl_pending (fun _ _ => askSection_pending ..) ..) ((ringCount_pending ..).trans (ringCount_pending ..))

@[simp] theorem takeValues_pending (s : State) (fr : RingFrame) : (takeValues s fr).pending = s.pending := by
  refine foldl_pending (fun s i => ?_) _ _
  split
  · rfl
  · exact pending_ite rfl (modRing_pending ..)
  · exact pending_ite (pending_ite rfl (modRing_pending ..)) (pending_ite rfl (modRing_pending ..))
  · exact pending_ite rfl
      (pending_ite (modRing_pending ..) ((sorusEngineWrite_pending ..).trans (modRing_pending ..)))

@[simp] theorem recoverTick_pending (s : State) (inPort : Nat) (fr : RingFrame) :
    (recoverTick s inPort fr).pending = s.pending := (regFld_pending ..).trans (regFld_pending ..)

@[simp] theorem alignFrom_pending (s : State) (inPort : Nat) (fr : RingFrame) :
    (alignFrom s inPort fr).pending = s.pending := by simp [alignFrom]

@[simp] theorem statHeader_pending (s : State) (fr : RingFrame) : (statHeader s fr).pending = s.pending :=
  Eq.trans (pending_ite (Eq.trans (pending_ite (assertEdge_pending ..) rfl) (modRing_pending ..))
    (Eq.trans (pending_ite (assertEdge_pending ..) rfl) ((modRing_pending ..).trans (regFld_pending ..))))
    ((modRing_pending ..).trans
    ((regFld_pending ..).trans ((regFld_pending ..).trans ((regFld_pending ..).trans (regFld_pending ..)))))

@[simp] theorem noteHeader_pending (s : State) (fr : RingFrame) : (noteHeader s fr).pending = s.pending :=
  (modRing_pending ..).trans (statHeader_pending ..)

@[simp] theorem notePass_pending (s : State) (west fits : Bool) :
    (notePass s west fits).pending = s.pending :=
  pending_ite rfl (Eq.trans (pending_ite rfl rfl) (modRing_pending ..))

@[simp] theorem noteDup_pending (s : State) (dup : Bool) : (noteDup s dup).pending = s.pending :=
  pending_ite rfl ((configFault_pending ..).trans
    ((assertEdge_pending ..).trans ((modRing_pending ..).trans (regFld_pending ..))))

@[simp] theorem takePart_pending (s : State) (fr : RingFrame) (ends : Bool) :
    (takePart s fr ends).1.pending = s.pending :=
  (passSlots_pending ..).trans
    ((passCells_pending ..).trans ((noteDup_pending ..).trans ((modRing_pending ..).trans (takeValues_pending ..))))

@[simp] theorem endCopy_pending (s : State) (fr : RingFrame) : (endCopy s fr).pending = s.pending :=
  (modRing_pending ..).trans ((ringCount_pending ..).trans (Eq.trans (pending_ite rfl rfl) (regFld_pending ..)))

@[simp] theorem ownCopy_pending (s : State) (inPort : Nat) (fr : RingFrame) (fits : Bool) :
    (ownCopy s inPort fr fits).pending = s.pending :=
  Eq.trans (pending_ite ((endCopy_pending ..).trans (notePass_pending ..)) (forward_pending ..))
    ((passSlots_pending ..).trans
    ((passCells_pending ..).trans
    ((noteDup_pending ..).trans
    ((modRing_pending ..).trans
    ((takeValues_pending ..).trans ((modRing_pending ..).trans (noteHeader_pending ..)))))))

@[simp] theorem rivalCopy_pending (s : State) (inPort : Nat) (fr : RingFrame) :
    (rivalCopy s inPort fr).pending = s.pending :=
  Eq.trans (pending_ite
    (pending_ite rfl (Eq.trans
    (pending_ite rfl ((forward_pending ..).trans ((setRingState_pending ..).trans (modRing_pending ..))))
    (configFault_pending ..)))
    (pending_ite rfl ((forward_pending ..).trans
    ((noteHeader_pending ..).trans (pending_ite rfl ((configFault_pending ..).trans (modRing_pending ..)))))))
    (statHeader_pending ..)

@[simp] theorem memberCopy_pending (s : State) (inPort : Nat) (fr : RingFrame) (fits : Bool) :
    (memberCopy s inPort fr fits).pending = s.pending :=
  Eq.trans (pending_ite ((forward_pending ..).trans (statHeader_pending ..))
    (pending_ite ((forward_pending ..).trans
    ((setRingState_pending ..).trans
    ((modRing_pending ..).trans ((configFault_pending ..).trans (statHeader_pending ..)))))
    (Eq.trans (pending_ite ((forward_pending ..).trans (setRingState_pending ..))
    ((forward_pending ..).trans
    ((passSlots_pending ..).trans
    ((passCells_pending ..).trans
    ((noteDup_pending ..).trans ((modRing_pending ..).trans (takeValues_pending ..)))))))
    (Eq.trans (pending_ite (modRing_pending ..) rfl) ((alignFrom_pending ..).trans (noteHeader_pending ..))))))
    (notePass_pending ..)

@[simp] theorem emitCopy_pending (s : State) (west : Bool) : (emitCopy s west).pending = s.pending :=
  Eq.trans (pending_ite ((sendFrame_pending ..).trans (passCells_pending ..)) rfl) (modRing_pending ..)

@[simp] theorem laneErrors_pending (s : State) (p k n : Nat) :
    (laneErrors s p k n).pending = s.pending :=
  pending_ite rfl (Eq.trans
    (pending_ite rfl ((assertEdge_pending ..).trans ((logFault_pending ..).trans (modRing_pending ..))))
    ((modRing_pending ..).trans (regAddSat_pending ..)))

@[simp] theorem dropLink_pending (s : State) (p : Nat) : (dropLink s p).pending = s.pending :=
  (modRingPort_pending ..).trans ((regFld_pending ..).trans ((regFld_pending ..).trans (regFld_pending ..)))

@[simp] theorem announceLret_pending (s : State) (p : Nat) : (announceLret s p).pending = s.pending := by
  unfold announceLret
  dsimp only
  split
  · exact modRing_pending ..
  · rfl

@[simp] theorem retireLane_pending (s : State) (p k : Nat) : (retireLane s p k).pending = s.pending :=
  pending_ite rfl (Eq.trans (pending_ite (dropLink_pending ..) rfl)
    ((announceLret_pending ..).trans
    ((modRingPort_pending ..).trans
    ((regFld_pending ..).trans ((regFld_pending ..).trans (recordRetirement_pending ..))))))

@[simp] theorem retransmit_pending (s : State) (p sec : Nat) : (retransmit s p sec).pending = s.pending := by
  unfold retransmit
  dsimp only
  split
  · rfl
  · split
    · exact (count_pending ..).trans ((ringCount_pending ..).trans (modRing_pending ..))
    · exact ringCount_pending ..

@[simp] theorem sendClaims_pending (s : State) (node : Nat) (img : Bool) :
    (sendClaims s node img).pending = s.pending := (sendBlock_pending ..).trans (sendBlock_pending ..)

@[simp] theorem areaWrite_pending (s : State) : (areaWrite s).pending = s.pending := by
  unfold areaWrite
  split
  · exact (modRing_pending ..).trans (sorusEngineWrites_pending ..)
  · rfl

@[simp] theorem endFrameValues_pending (s : State) (old : Word) : (endFrameValues s old).pending = s.pending :=
  by simp [endFrameValues]

@[simp] theorem stepTime_pending (s : State) : (stepTime s).pending = s.pending := by
  have h : (if s.ring.tickErr % 4 = 0 then (0, s) else s.takeFree).2.pending = s.pending := by
    split <;> simp
  unfold stepTime
  split
  next heq => 
    rw [heq] at h
    simpa using h

@[simp] theorem ownGenerator_pending (s : State) : (ownGenerator s).pending = s.pending :=
  Eq.trans (pending_ite (assertEdge_pending ..) rfl) ((regFld_pending ..).trans (regFld_pending ..))

@[simp] theorem dupTick_pending (s : State) : (dupTick s).pending = s.pending := modRing_pending ..

@[simp] theorem dupStuck_pending (s : State) : (dupStuck s).pending = s.pending :=
  (regFld_pending ..).trans ((setRingState_pending ..).trans (modRing_pending ..))

@[simp] theorem ringTransition_pending (s : State) : (ringTransition s).pending = s.pending := by
  unfold ringTransition
  dsimp only
  split
  · exact Eq.trans (pending_ite (setRingState_pending ..) rfl) (dupTick_pending ..)
  · exact Eq.trans (pending_ite (setRingState_pending ..) rfl) (dupTick_pending ..)
  · exact Eq.trans (pending_ite rfl
      (pending_ite ((assertEdge_pending ..).trans
      ((regFld_pending ..).trans ((setRingState_pending ..).trans (modRing_pending ..))))
      (pending_ite (stepTime_pending ..) rfl))) (dupTick_pending ..)
  · exact Eq.trans (pending_ite (dupStuck_pending ..)
      (pending_ite ((regFld_pending ..).trans ((setRingState_pending ..).trans (modRing_pending ..))) rfl))
      ((modRing_pending ..).trans (dupTick_pending ..))
  · exact Eq.trans (pending_ite (dupStuck_pending ..)
      (pending_ite ((assertEdge_pending ..).trans
      ((regFld_pending ..).trans ((setRingState_pending ..).trans (modRing_pending ..))))
      (Eq.trans (pending_ite
      ((ownGenerator_pending ..).trans ((setRingState_pending ..).trans (modRing_pending ..))) rfl)
      (modRing_pending ..)))) (dupTick_pending ..)
  · exact Eq.trans (pending_ite ((setRingState_pending ..).trans (modRing_pending ..))
      (pending_ite ((regFld_pending ..).trans ((setRingState_pending ..).trans (modRing_pending ..))) rfl))
      (dupTick_pending ..)
  · exact dupTick_pending ..

@[simp] theorem endWraps_pending (s : State) : (endWraps s).pending = s.pending :=
  foldl_pending (fun _ _ => pending_ite ((modRingPort_pending ..).trans (regFld_pending ..)) rfl) ..

@[simp] theorem idleReqs_pending (s : State) (p : Nat) : (idleReqs s p).pending = s.pending :=
  pending_ite rfl (foldl_pending (fun _ _ => sendDly_pending ..) ..)

@[simp] theorem ringTick_pending (s : State) (old : Word) : (ringTick s old).pending = s.pending := by simp [ringTick]

@[simp] theorem sendWake_pending (s : State) (p node : Nat) : (sendWake s p node).pending = s.pending :=
  sendBlockAt_pending ..

@[simp] theorem ringCtlWrite_pending (s : State) (rq : Requester) (v : Word) :
    (ringCtlWrite s rq v).pending = s.pending :=
  Eq.trans (pending_ite ((closeRing_pending ..).trans (pending_ite (regFld_pending ..) rfl)) rfl)
    (Eq.trans (pending_ite ((sendWake_pending ..).trans (sendWake_pending ..)) rfl) (plainWrite_pending ..))

@[simp] theorem ringLayoutWrite_pending (s : State) (rq : Requester) (v : Word) :
    (ringLayoutWrite s rq v).pending = s.pending := pending_ite (refuseWrite_pending ..) (plainWrite_pending ..)

@[simp] theorem ringRxBaseWrite_pending (s : State) (rq : Requester) (v : Word) :
    (ringRxBaseWrite s rq v).pending = s.pending := pending_ite (plainWrite_pending ..) (refuseWrite_pending ..)

/-! ## The tick -/

@[simp] theorem pmcSelWrite_pending (s : State) (rq : Requester) (b : Nat) (v : Word) :
    (pmcSelWrite s rq b v).pending = s.pending :=
  Eq.trans (pending_ite rfl (refuseWrite_pending ..)) (regSet_pending ..)

@[simp] theorem applySel_pending (s : State) : (applySel s).pending = s.pending :=
  foldl_pending (fun _ _ => regSet_pending ..) ..

@[simp] theorem latchCounters_pending (s : State) : (latchCounters s).pending = s.pending := rfl

@[simp] theorem dumpTick_pending (s : State) : (dumpTick s).pending = s.pending := by
  unfold dumpTick
  split
  · rfl
  · exact pending_ite rfl (Eq.trans (pending_ite (regAddSat_pending ..) rfl) (regAdd_pending ..))

@[simp] theorem windowTick_pending (s : State) (aligned : Bool) : (windowTick s aligned).pending = s.pending :=
  Eq.trans (pending_ite rfl rfl) (pending_ite rfl rfl)

@[simp] theorem periodTick_pending (s : State) : (periodTick s).pending = s.pending :=
  pending_ite rfl ((assertEdge_pending ..).trans (regFld_pending ..))

@[simp] theorem tickUpdate_pending (s : State) : (tickUpdate s).pending = s.pending :=
  (assertEdge_pending ..).trans ((regSet_pending ..).trans (regSet_pending ..))

@[simp] theorem tickActions_pending (s : State) (raw : List RawSample) : (tickActions s raw).pending = s.pending :=
  by simp [tickActions]

@[simp] theorem frameTick_pending (s : State) (raw : List RawSample) : (frameTick s raw).pending = s.pending :=
  pending_ite (Eq.trans (pending_ite rfl rfl) (tickActions_pending ..)) rfl

/-! ## Register accesses -/

@[simp] theorem regValue_pending (s : State) (rq : Requester) (a : Nat) : (regValue s rq a).2.pending = s.pending :=
  by
  fun_cases regValue
  case case14 o _ _ w t heq =>
    have h := uartTake_pending s ((o - 0x100) / 16)
    rw [heq] at h
    exact (uartDma_pending ..).trans h
  all_goals simp

@[simp] theorem regRead_pending (s : State) (rq : Requester) (a : Nat) : (regRead s rq a).2.pending = s.pending := by
  unfold regRead
  dsimp only
  split
  · exact (regValue_pending ..).trans (count_pending ..)
  · exact (rqViolation_pending ..).trans (count_pending ..)
  · exact count_pending ..

@[simp] theorem intWrite_pending (s : State) (rq : Requester) (o a : Nat) (v : Word) :
    (intWrite s rq o a v).pending = s.pending :=
  pending_ite (routeWrite_pending ..)
    (pending_ite (srcStateWrite_pending ..)
    (pending_ite (eoiWrite_pending ..)
    (pending_ite (swiWrite_pending ..) (pending_ite (virtCtlWrite_pending ..) rfl))))

@[simp] theorem timeWrite_pending (s : State) (rq : Requester) (o a : Nat) (v : Word) :
    (timeWrite s rq o a v).pending = s.pending :=
  pending_ite (popWrite_pending ..)
    (pending_ite (pending_ite (wdogCtlWrite_pending ..) (kickWrite_pending ..)) (plainWrite_pending ..))

@[simp] theorem tickWrite_pending (s : State) (rq : Requester) (o a : Nat) (v : Word) :
    (tickWrite s rq o a v).pending = s.pending :=
  pending_ite (tickPeriodWrite_pending ..)
    (pending_ite (grpCtlWrite_pending ..) (pending_ite (frondCtlWrite_pending ..) (plainWrite_pending ..)))

@[simp] theorem ringWrite_pending (s : State) (rq : Requester) (o a : Nat) (v : Word) :
    (ringWrite s rq o a v).pending = s.pending :=
  pending_ite (ringCtlWrite_pending ..)
    (pending_ite (ringLayoutWrite_pending ..) (pending_ite (ringRxBaseWrite_pending ..) (plainWrite_pending ..)))

@[simp] theorem senseWriteReg_pending (s : State) (rq : Requester) (o a : Nat) (v : Word) :
    (senseWriteReg s rq o a v).pending = s.pending :=
  pending_ite (senseCtlWrite_pending ..)
    (pending_ite (senseCfgWrite_pending ..)
    (pending_ite (excCfgWrite_pending ..)
    (pending_ite (touchCtlWrite_pending ..)
    (pending_ite (touchCfgWrite_pending ..) (pending_ite (touchStatWrite_pending ..) (plainWrite_pending ..))))))

@[simp] theorem pinnaWrite_pending (s : State) (rq : Requester) (o a : Nat) (v : Word) :
    (pinnaWrite s rq o a v).pending = s.pending :=
  pending_ite (pending_ite (instLimitWrite_pending ..)
    (pending_ite ((pinFlush_pending ..).trans (plainWrite_pending ..))
    (pending_ite (instMigWrite_pending ..) (pending_ite (instCtlWrite_pending ..) (plainWrite_pending ..)))))
    (pending_ite (qCfgWrite_pending ..) (plainWrite_pending ..))

@[simp] theorem pageWriteAt_pending (s : State) (rq : Requester) (i o : Nat) (v : Word) :
    (pageWriteAt s rq i o v).pending = s.pending :=
  pending_ite (pending_ite (pqTailWrite_pending ..) (pending_ite (pqCtlWrite_pending ..) rfl)) (pageWrite_pending ..)

@[simp] theorem ethWrite_pending (s : State) (o a : Nat) (v : Word) :
    (ethWrite s o a v).pending = s.pending :=
  pending_ite (ethCtlWrite_pending ..)
    (pending_ite (gclBaseWrite_pending ..)
    (pending_ite (ethCycleWrite_pending ..) (pending_ite (mdioWrite_pending ..) (plainWrite_pending ..))))

@[simp] theorem canUartWrite_pending (s : State) (o a : Nat) (v : Word) :
    (canUartWrite s o a v).pending = s.pending :=
  pending_ite (pending_ite (canCtlWrite_pending ..) (canTimingWrite_pending ..))
    (pending_ite (uartCfgWrite_pending ..)
    (pending_ite ((uartLine_pending ..).trans (uartQueue_pending ..))
    ((uartDma_pending ..).trans (plainWrite_pending ..))))

@[simp] theorem pcieUsbWrite_pending (s : State) (rq : Requester) (o a : Nat) (v : Word) :
    (pcieUsbWrite s rq o a v).pending = s.pending :=
  pending_ite (pcieCtlWrite_pending ..)
    (pending_ite ((pcieLines_pending ..).trans (plainWrite_pending ..))
    (pending_ite (epWinWrite_pending ..)
    (pending_ite (rpOutWrite_pending ..)
    (pending_ite (rpInWrite_pending ..)
    (pending_ite (pcieCfgCtlWrite_pending ..)
    (pending_ite (usbCtlWrite_pending ..)
    (pending_ite ((usbLines_pending ..).trans (plainWrite_pending ..))
    (pending_ite (pending_ite (usbEpCfgWrite_pending ..)
    (pending_ite (usbEpRingWrite_pending ..) (pending_ite (usbEpTailWrite_pending ..) rfl)))
    (plainWrite_pending ..)))))))))

@[simp] theorem dispWrite_pending (s : State) (rq : Requester) (o a : Nat) (v : Word) :
    (dispWrite s rq o a v).pending = s.pending :=
  pending_ite (dispCtlWrite_pending ..)
    (pending_ite (planeCtlWrite_pending ..)
    (pending_ite (pending_ite (dispOutCtlWrite_pending ..)
    (pending_ite (dispTimingWrite_pending ..) (pending_ite (dispXferWrite_pending ..) (plainWrite_pending ..))))
    (plainWrite_pending ..)))

@[simp] theorem powerWrite_pending (s : State) (rq : Requester) (o a : Nat) (v : Word) :
    (powerWrite s rq o a v).pending = s.pending :=
  pending_ite (pwrCtlWrite_pending ..)
    (pending_ite (voteWrite_pending ..)
    (pending_ite (wakeCfgWrite_pending ..)
    (pending_ite (freqWrite_pending ..) (pending_ite (policyWrite_pending ..) (plainWrite_pending ..)))))

@[simp] theorem mboxWrite_pending (s : State) (rq : Requester) (o a : Nat) (v : Word) :
    (mboxWrite s rq o a v).pending = s.pending :=
  pending_ite (mbxCmdWrite_pending ..)
    (pending_ite (mbxAckWrite_pending ..) (pending_ite (mbxStatWrite_pending ..) (plainWrite_pending ..)))

@[simp] theorem dmaWriteReg_pending (s : State) (rq : Requester) (o a : Nat) (v : Word) :
    (dmaWriteReg s rq o a v).pending = s.pending :=
  pending_ite (dmaCtlWrite_pending ..) (Eq.trans (pending_ite (dmaLine_pending ..) rfl) (plainWrite_pending ..))

@[simp] theorem nonZeroWrite_pending (s : State) (a hi lo : Nat) (v : Word) :
    (nonZeroWrite s a hi lo v).pending = s.pending := plainWrite_pending ..

@[simp] theorem regStore_pending (s : State) (rq : Requester) (a : Nat) (v : Word) :
    (regStore s rq a v).pending = s.pending := by
  fun_cases regStore
  all_goals simp

@[simp] theorem regWrite_pending (s : State) (rq : Requester) (a : Nat) (v : Word) :
    (regWrite s rq a v).pending = s.pending := by
  unfold regWrite
  dsimp only
  split
  · exact (regStore_pending ..).trans (count_pending ..)
  · exact (rqViolation_pending ..).trans (count_pending ..)
  · exact count_pending ..

@[simp] theorem apertureStore_pending (s : State) (rq : Requester) (a : Nat) (v : Word) :
    (apertureStore s rq a v).pending = s.pending := by
  unfold apertureStore
  split
  · exact apertureWrite_pending ..
  · exact rqViolation_pending ..

@[simp] theorem writeCmd_pending (s : State) (rq : Requester) (a : Nat) (v : Word) :
    (writeCmd s rq a v).pending = s.pending :=
  pending_ite rfl (pending_ite (pending_ite rfl (apertureStore_pending ..)) (regWrite_pending ..))

@[simp] theorem readCmd_pending (s : State) (rq : Requester) (a : Nat) : (readCmd s rq a).pending = s.pending := by
  unfold readCmd
  refine pending_ite rfl ?_
  split
  · next h0 =>
    exact (pending_of_eq (π := Prod.snd) h0 (regRead_pending ..) :)

@[simp] theorem debugStore_pending (s : State) (a : Nat) (v : Word) : (debugStore s a v).pending = s.pending := by
  unfold debugStore
  dsimp only
  split
  · exact pending_ite (rqViolation_pending ..) (bridgePut_pending ..)
  · exact rqViolation_pending ..
  · split
    · exact rqViolation_pending ..
    · refine pending_ite (rqViolation_pending ..) ?_
      refine pending_ite rfl ?_
      split
      · next h2 =>
        exact (reportStore_pending ..).trans (pending_of_eq (π := SorusStore.state) h2 (sorusStore_pending ..) :)
      · next h2 =>
        exact (pending_of_eq (π := SorusStore.state) h2 (sorusStore_pending ..) :)
      · next h2 =>
        exact (pending_of_eq (π := SorusStore.state) h2 (sorusStore_pending ..) :)
  · exact rqViolation_pending ..
  · exact rqViolation_pending ..
  · rfl
  · exact rqViolation_pending ..

@[simp] theorem bar0Slot_pending (s : State) (n : Nat) : (bar0Slot s n).2.pending = s.pending := by
  unfold bar0Slot
  dsimp only
  exact pending_iteOf Prod.snd rfl (pending_iteOf Prod.snd (regRead_pending ..) rfl)

@[simp] theorem bar0Slots_pending (s : State) (n k : Nat) : (bar0Slots s n k).2.pending = s.pending := by
  induction k generalizing s n with
  | zero => rfl
  | succ k ih => exact (ih _ _).trans (bar0Slot_pending s n)

@[simp] theorem msixPut_pending (s : State) (b : Nat) (x : Byte) : (msixPut s b x).pending = s.pending := rfl

@[simp] theorem bar0Write_pending (s : State) (n : Nat) (f : Nat → Option Byte) :
    (bar0Write s n f).pending = s.pending := by
  refine pending_ite (foldl_pending (fun s k => ?_) _ _) (pending_ite rfl (regWrite_pending ..))
  split
  · exact msixPut_pending ..
  · rfl

@[simp] theorem bar0Request_pending (s : State) (addr : Nat) (write : Bool) (len : Nat) (bytes : List Byte) :
    (bar0Request s addr write len bytes).pending = s.pending :=
  pending_ite (foldl_pending (fun _ _ => bar0Write_pending ..) ..)
    ((pcieAnswer_pending ..).trans (bar0Slots_pending ..))

/-! ## Fetch, exceptions and the shape of an instruction -/

@[simp] theorem tally_pending (s : State) (c : CoreId) (codeA codeF n : Nat) :
    (tally s c codeA codeF n).pending = s.pending := by
  unfold tally
  split
  · exact pending_ite rfl (count_pending ..)
  · exact pending_ite rfl (foldl_pending (fun _ _ => count_pending ..) ..)
  · rfl

@[simp] theorem stopFrame_pending (s : State) (c : CoreId) : (stopFrame s c).pending = s.pending := modCore_pending ..

@[simp] theorem fetchLine_pending (s : State) (c : CoreId) (l : Nat) (t : MemType) :
    (fetchLine s c l t).state.pending = s.pending := by
  unfold fetchLine
  refine pending_iteOf Whole.state ?_ (pending_iteOf Whole.state rfl (coreRead_pending ..))
  split
  · next ht => exact (pending_of_eq (π := Whole.state) ht (requestWhole_pending ..) :)
  · next ht => exact (pending_of_eq (π := Whole.state) ht (requestWhole_pending ..) :)

@[simp] theorem fetchAt_pending (s : State) (c : CoreId) (a : Nat) (t : MemType) :
    (fetchAt s c a t).state.pending = s.pending := by
  have hf := fetchLine_pending s c (dataLine s (a / 8)) t
  have hb (cause : Nat) :
    (violation s cause (coreNum c) (s.core c).pl false a).pending = s.pending := violation_pending ..
  unfold fetchAt
  dsimp only
  split
  · split
    · exact hb 7
    · split
      all_goals rename_i heq; rw [heq] at hf
      · exact hf
      · split
        · exact hf
        · split <;> exact hf
  · exact hb 9
  · rfl
  · split
    · exact hb 2
    · split
      · split
        next heq => cases heq; exact (stopFrame_pending ..).trans (hb 8)
        · exact hb 8
      · split
        · rfl
        · split
          · simp
          · split <;> simp
  · split
    · rfl
    · exact hb 1
  · split
    · rfl
    · exact hb 1
  · exact hb 2

@[simp] theorem fetchPc_pending (s : State) (c : CoreId) : (fetchPc s c).state.pending = s.pending := by
  unfold fetchPc
  dsimp only
  split
  · split
    · exact fetchAt_pending ..
    · exact (stopFrame_pending ..).trans (violation_pending ..)
  · exact fetchAt_pending ..
  · split
    · next h1 =>
      exact (fetchAt_pending ..).trans (pending_of_eq (π := Walked.state) h1 (translate_pending ..) :)
    · next h1 =>
      exact (pending_of_eq (π := Walked.state) h1 (translate_pending ..) :)
    · next h1 =>
      exact (pending_of_eq (π := Walked.state) h1 (translate_pending ..) :)
    · next h1 =>
      exact (pending_of_eq (π := Walked.state) h1 (translate_pending ..) :)

@[simp] theorem fetch_pending (s : State) (c : CoreId) : (fetch s c).state.pending = s.pending := by
  unfold fetch
  split
  · next hf => exact (tally_pending ..).trans (pending_of_eq (π := Fetched.state) hf (fetchPc_pending ..) :)
  · next hf => exact (tally_pending ..).trans (pending_of_eq (π := Fetched.state) hf (fetchPc_pending ..) :)
  · exact fetchPc_pending ..

@[simp] theorem noteWrong_pending (s : State) (c : CoreId) : (noteWrong s c).pending = s.pending :=
  (tally_pending ..).trans (tally_pending ..)

@[simp] theorem commitBranch_pending (s : State) (c : CoreId) (b : Slot) :
    (commitBranch s c b).pending = s.pending := by
  unfold commitBranch
  split
  · exact Eq.trans (pending_ite rfl ((modCore_pending ..).trans (pending_ite (noteWrong_pending ..) rfl)))
      (tally_pending ..)
  · rfl

@[simp] theorem completeInstr_pending (s : State) (c : CoreId) (len : Nat) :
    (completeInstr s c len).pending = s.pending :=
  by
  unfold completeInstr
  refine (modCore_pending ..).trans ?_
  split
  · exact (commitBranch_pending ..).trans ((tally_pending ..).trans (retireEvents_pending ..))
  · exact (tally_pending ..).trans (retireEvents_pending ..)

@[simp] theorem completeAt_pending (s : State) (c : CoreId) (pc : Word) :
    (completeAt s c pc).pending = s.pending :=
  (modCore_pending ..).trans ((tally_pending ..).trans (retireEvents_pending ..))

@[simp] theorem faultAt_pending (s : State) (c : CoreId) (e : Exc) : (faultAt s c e).pending = s.pending :=
  (raiseAt_pending ..).trans (modCore_pending ..)

@[simp] theorem settle_pending (c : CoreId) (len : Nat) (b : Body) : (settle c len b).pending = b.state.pending := by
  cases b <;> simp [settle]

@[simp] theorem issueStatus_pending (s : State) (c : CoreId) : (issueStatus s c).pending = s.pending :=
  Eq.trans (pending_ite rfl (represent_pending ..)) (modCore_pending ..)

@[simp] theorem unissue_pending (s t : State) (c : CoreId) : (unissue s t c).pending = t.pending :=
  (represent_pending ..).trans (modCore_pending ..)

@[simp] theorem runInstr_pending {s : State} {c : CoreId} {d : Shape} {body : State → Body}
    (h : ∀ t, (body t).state.pending = t.pending) : (runInstr s c d body).pending = s.pending := by
  have hf := fetch_pending (issueStatus s c) c
  have hi := issueStatus_pending s c
  unfold runInstr
  dsimp only
  split
  · rfl
  · split
    · split <;> simp
    · split
      · simp_all
      · simp_all
      · simp_all
      · simp_all
      · split <;> simp_all

@[simp] theorem regInstr_pending (s : State) (c : CoreId) (d : Shape) (gd : Reg) (f : Core → Word) :
    (regInstr s c d gd f).pending = s.pending := runInstr_pending fun _ => rfl

/-! ## Memory accesses -/

@[simp] theorem cacheStore_pending (s : State) (ag a : Nat) (v m : Word) :
    (cacheStore s ag a v m).pending = s.pending := (modLine_pending ..).trans (touchL1_pending ..)

@[simp] theorem xlateRefs_pending (s : State) (c : CoreId) (l : List (Ref × Bool)) :
    (xlateRefs s c l).2.1.pending = s.pending := by
  induction l generalizing s with
  | nil => rfl
  | cons p t ih =>
    obtain ⟨r, drop⟩ := p
    have ht := translate_pending s c r.va r.kind
    unfold xlateRefs
    split
    · exact ih s
    · split <;> simp_all

@[simp] theorem trainAtomic_pending (s : State) (c : CoreId) (l : Nat) (contended : Bool) :
    (trainAtomic s c l contended).pending = s.pending := modCore_pending ..

@[simp] theorem waitAccess_pending (s : State) (c : CoreId) (a : Access) (blocked : Bool) :
    (waitAccess s c a blocked).pending = s.pending := modCore_pending ..

@[simp] theorem askFor_pending (s : State) (c : CoreId) (a : Access) (ps : List (Ref × Xlate)) (first : Bool) (n :
    Need) :
    (askFor s c a ps first n).pending = s.pending := by
  unfold askFor
  dsimp only
  split
  · exact (waitAccess_pending ..).trans (requestLine_pending ..)
  · exact (waitAccess_pending ..).trans (pending_ite rfl (send_pending ..))
  · exact (waitAccess_pending ..).trans (pending_ite (noteEvent_pending ..) rfl)
  · exact (modCore_pending ..).trans (count_pending ..)
  · exact waitAccess_pending ..

@[simp] theorem enterBuffer_pending (s : State) (c : CoreId) (a : Access) (r : Ref) (x : Xlate) (v m : Word)
    :
    (enterBuffer s c a r x v m).pending = s.pending := modCore_pending ..

@[simp] theorem doMemory_pending (s : State) (c : CoreId) (a : Access) (r : Ref) (x : Xlate) :
    (doMemory s c a r x).state.pending = s.pending := by
  unfold doMemory
  dsimp only
  split
  · split <;> simp
  · split
    · simp
    · split <;> simp
  · split
    · simp
    · split <;> simp

@[simp] theorem doSorus_pending (s : State) (p : SorusPlace) (r : Ref) (pa : Nat) :
    (doSorus s p r pa).state.pending = s.pending := by
  unfold doSorus
  split
  · split
    · next h1 =>
      exact (pending_of_eq (π := Prod.snd) h1 (sorusLoad_pending ..) :)
  · split
    · next h1 =>
      exact (reportStore_pending ..).trans (pending_of_eq (π := SorusStore.state) h1 (sorusStore_pending ..) :)
    · next h1 =>
      exact (pending_of_eq (π := SorusStore.state) h1 (sorusStore_pending ..) :)
    · next h1 =>
      exact (pending_of_eq (π := SorusStore.state) h1 (sorusStore_pending ..) :)
  · split
    · next h1 =>
      split
      · exact (pending_of_eq (π := Prod.snd) h1 (sorusLoad_pending ..) :)
      · exact (reportStore_pending ..).trans
          ((sorusWriteWord_pending ..).trans (pending_of_eq (π := Prod.snd) h1 (sorusLoad_pending ..) :))

@[simp] theorem timeoutAccess_pending (s : State) (rq : Requester) (a : Nat) :
    (timeoutAccess s rq a).pending = s.pending := (count_pending ..).trans (logFault_pending ..)

@[simp] theorem doRef_pending (s : State) (c : CoreId) (a : Access) (r : Ref) (x : Xlate) :
    (doRef s c a r x).state.pending = s.pending := by
  unfold doRef
  split
  · exact enterBuffer_pending ..
  · split
    · exact violation_pending ..
    · split
      · exact timeoutAccess_pending ..
      · split
        · exact regWrite_pending ..
        · split
          · next h3 =>
            exact (pending_of_eq (π := Prod.snd) h3 (regRead_pending ..) :)
    · split
      · exact apertureWrite_pending ..
      · rfl
    · exact doSorus_pending ..
    · rfl
    · rfl
    · exact doMemory_pending ..

def refsState : Did ⊕ (State × List Got) → State
  | .inl d => d.state
  | .inr p => p.1
@[simp] theorem doRefs_pending (s : State) (c : CoreId) (a : Access) (l : List (Ref × Option Xlate)) (gs : List Got) :
    (refsState (doRefs s c a l gs)).pending = s.pending := by
  induction l generalizing s gs with
  | nil => rfl
  | cons p t ih =>
    obtain ⟨r, x⟩ := p
    cases x with
    | none => exact (ih _ _).trans (violation_pending ..)
    | some x =>
      have hd := doRef_pending s c a r x
      unfold doRefs
      split
      · next h => rw [h] at hd; exact (ih _ _).trans hd
      · exact hd

theorem aperturePair_pending {s u : State} {c : CoreId} {a : Access} {xs : List (Option Xlate)} (h : aperturePair s c
    a xs = some u) :
    u.pending = s.pending := by
  unfold aperturePair at h
  split at h
  · split at h
    · cases h
    · split at h
      · cases h
        exact apertureWrite_pending ..
      · cases h
  · cases h

@[simp] theorem finishAccess_pending (s : State) (c : CoreId) (a : Access) (gs : List Got) :
    (finishAccess s c a gs).state.pending = s.pending := by
  unfold finishAccess
  split <;> simp

@[simp] theorem dirtyAll_pending (s : State) (c : CoreId) (prev : Option Xlate) (l : List (Ref × Xlate)) :
    (dirtyAll s c prev l).state.pending = s.pending := by
  induction l generalizing s c prev with
  | nil => rfl
  | cons x l ih =>
    obtain ⟨r, x⟩ := x
    refine pending_iteOf Walked.state (ih ..) ?_
    split
    · next hd => exact (ih ..).trans (pending_of_eq (π := Walked.state) hd (setDirty_pending ..) :)
    · exact setDirty_pending ..

@[simp] theorem dirtyStep_pending (s : State) (c : CoreId) (ps : List (Ref × Xlate)) :
    (dirtyStep s c ps).state.pending = s.pending := by
  unfold dirtyStep
  split
  · split
    · rfl
    · split
      · rfl
      · split
        · exact dropPage_pending ..
        · exact dirtyAll_pending ..
  · rfl

@[simp] theorem commitAccess_pending (s : State) (c : CoreId) (a : Access) (xs : List (Option Xlate)) :
    (commitAccess s c a xs).state.pending = s.pending := by
  have hd := doRefs_pending s c a (a.refs.zip xs) []
  unfold commitAccess
  split
  · next h => simp [aperturePair_pending h]
  · split
    all_goals rename_i heq; rw [heq] at hd
    · exact hd
    · exact hd
    · exact hd
    · split
      · exact hd
      · exact (finishAccess_pending ..).trans hd

theorem splitStore_pending {s : State} {c : CoreId} {a : Access} {ps : List (Ref × Xlate)} {r : State × Access × List
    (Ref × Xlate)} (h : splitStore s c a ps = some r) :
    r.1.pending = s.pending := by
  unfold splitStore at h
  split at h
  · cases h
  · split at h
    · split at h
      · next hd =>
        cases h
        exact (pending_of_eq (π := Did.state) hd (doRef_pending ..) :)
      · cases h
    · cases h
  · cases h

@[simp] theorem waitFor_pending (s : State) (c : CoreId) (a : Access) (ps : List (Ref × Xlate)) (first : Bool)
  (need : Need) :
    (waitFor s c a ps first need).pending = s.pending := by
  unfold waitFor
  refine pending_ite (waitAccess_pending ..) ?_
  split
  · next h0 =>
    exact (askFor_pending ..).trans (splitStore_pending h0)
  · exact askFor_pending ..

@[simp] theorem performAccess_pending (s : State) (c : CoreId) (a : Access) (first : Bool) (n : Nat) :
    (performAccess s c a first n).state.pending = s.pending := by
  induction n generalizing s with
  | zero => rfl
  | succ n ih =>
    have hx := xlateRefs_pending s c (a.refs.zip (windowRefused s c a))
    refine pending_iteOf Body.state ((finishAccess_pending ..).trans (violation_pending ..))
      (pending_iteOf Body.state ((waitAccess_pending ..).trans hx) ?_)
    split
    · exact hx
    · split
      · exact hx
      · dsimp only
        split
        · exact (finishAccess_pending ..).trans ((violation_pending ..).trans hx)
        · split
          · split
            all_goals
              rename_i hd
              have hd := (pending_of_eq (π := Walked.state) hd (dirtyStep_pending ..) :).trans hx
            · exact hd
            · exact (waitAccess_pending ..).trans hd
            · exact (ih _).trans hd
            · exact (commitAccess_pending ..).trans hd
          · exact (waitFor_pending ..).trans hx

@[simp] theorem startAccess_pending (s : State) (c : CoreId) (a : Access) :
    (startAccess s c a).state.pending = s.pending := performAccess_pending ..

@[simp] theorem bodyDropped_pending (c : CoreId) (b : Body) : (b.dropped c).pending = b.state.pending := by
  cases b <;> simp [Body.dropped]

@[simp] theorem retryWaiting_pending (s : State) (c : CoreId) : (retryWaiting s c).pending = s.pending := by
  unfold retryWaiting
  split
  · exact (settle_pending ..).trans ((performAccess_pending ..).trans (modCore_pending ..))
  · rfl

theorem retryAbandoned_pending {s : State} {c : CoreId} {n : Nat} {run : State → Body} (h : ∀ t, (run t).state.pending
    = t.pending) :
    (retryAbandoned s c n run).pending = s.pending := by
  simp [retryAbandoned, h]

@[simp] theorem retryOlder_pending (s : State) (c : CoreId) (n k : Nat) : (retryOlder s c n k).pending = s.pending :=
  by
  induction k generalizing s n with
  | zero => rfl
  | succ k ih =>
    unfold retryOlder
    split
    · rfl
    · exact (ih _ _).trans (retryAbandoned_pending fun t => performAccess_pending ..)
    · exact ih _ _

@[simp] theorem retryCore_pending (s : State) (c : CoreId) : (retryCore s c).pending = s.pending :=
  (retryWaiting_pending ..).trans (retryOlder_pending ..)

@[simp] theorem retryBlocked_pending (s : State) : (retryBlocked s).pending = s.pending := by
  refine foldl_pending (fun s n => ?_) _ _
  split
  · exact pending_ite (retryCore_pending ..) rfl
  · rfl

@[simp] theorem atomicBody_pending (s : State) (c : CoreId) (a : Access) (pa : Nat) (m : Msg) :
    (atomicBody s c a pa m).state.pending = s.pending := by
  unfold atomicBody
  split
  · rfl
  · split
    · rfl
    · exact (finishAccess_pending ..).trans (trainAtomic_pending ..)

@[simp] theorem atomicDone_pending (s : State) (c : CoreId) (m : Msg) : (atomicDone s c m).pending = s.pending := by
  unfold atomicDone
  split
  · exact (retryCore_pending ..).trans (retryAbandoned_pending (fun s => atomicBody_pending ..))
  · exact (settle_pending ..).trans ((atomicBody_pending ..).trans (modCore_pending ..))
  · rfl

/-! ## Transfers of control -/

@[simp] theorem condBranch_pending (s : State) (c : CoreId) (f : Form) (take : Core → Bool) (off : Word) (a h : Bool)
    :
    (condBranch s c f take off a h).pending = s.pending := runInstr_pending fun _ => rfl

@[simp] theorem branchZ_pending (s : State) (c : CoreId) (f : Form) (ga : Reg) (off : BitVec 31) (a h : Bool)
    (n : Nat) :
    (branchZ s c f ga off a h n).pending = s.pending := condBranch_pending ..

@[simp] theorem branchR_pending (s : State) (c : CoreId) (ga gb : Reg) (off : BitVec 25) (a h : Bool)
    (n : Nat) :
    (branchR s c ga gb off a h n).pending = s.pending := condBranch_pending ..

@[simp] theorem countBranch_pending (s : State) (c : CoreId) (ga : Reg) (off : BitVec 7) (a h : Bool) (take : Word →
    Bool) :
    (countBranch s c ga off a h take).pending = s.pending := runInstr_pending fun _ => rfl

@[simp] theorem jumpTo_pending (s : State) (c : CoreId) (target : Core → Word) (kind : Nat) :
    (jumpTo s c target kind).pending = s.pending := runInstr_pending fun _ => rfl

@[simp] theorem callTo_pending (s : State) (c : CoreId) (f : Form) (target : Core → Word) (kind : Nat) (slot : Form) :
    (callTo s c f target kind slot).pending = s.pending :=
  runInstr_pending fun t => pending_iteOf Body.state rfl (startAccess_pending ..)

@[simp] theorem atomicInstr_pending (s : State) (c : CoreId) (op : AtomicOp) (plc : BitVec 2) (gd ga : Reg)
    (gb gc : Reg) :
    (atomicInstr s c op plc gd ga gb gc).pending = s.pending := runInstr_pending (fun s => startAccess_pending ..)

/-! ## Answers to accesses -/

@[simp] theorem retryFrond_pending (s : State) : (retryFrond s).pending = s.pending :=
  foldl_pending (fun _ _ => retryCore_pending ..) ..

@[simp] theorem apertureDone_pending (s : State) (c : CoreId) (d : List Word) :
    (apertureDone s c d).pending = s.pending := by
  unfold apertureDone
  split
  · exact (retryCore_pending ..).trans (retryAbandoned_pending (fun s => performAccess_pending ..))
  · exact (settle_pending ..).trans ((performAccess_pending ..).trans (modCore_pending ..))
  · rfl

/-! ## Floating-point instructions -/

@[simp] theorem fpOp_pending (s : State) (c : CoreId) (d : Shape) (gd : Reg) (op : Core → Nat × Nat) :
    (fpOp s c d gd op).pending = s.pending := runInstr_pending fun _ => rfl

@[simp] theorem fp2_pending (s : State) (c : CoreId) (d : Shape) (p : Prec) (gd ga gb : Reg) (op : Fmt
    → Nat → FVal → FVal → Nat × Nat) :
    (fp2 s c d p gd ga gb op).pending = s.pending := fpOp_pending ..

@[simp] theorem fp3_pending (s : State) (c : CoreId) (p : Prec) (gd ga : Reg) (gb gc : Reg)
    (negProduct negAddend : Bool) :
    (fp3 s c p gd ga gb gc negProduct negAddend).pending = s.pending := fpOp_pending ..

@[simp] theorem fpEnc_pending (s : State) (c : CoreId) (d : Shape) (p : Prec) (gd ga gb : Reg) (op :
    Fmt → Nat → Nat → Nat × Nat) :
    (fpEnc s c d p gd ga gb op).pending = s.pending := fpOp_pending ..

@[simp] theorem fpConv_pending (s : State) (c : CoreId) (gd ga : Reg) (op : Nat → Word → Nat × Nat) :
    (fpConv s c gd ga op).pending = s.pending := fpOp_pending ..

/-! ## Frame instructions -/

@[simp] theorem outputViolation_pending (s : State) (c : CoreId) (write : Bool) :
    (outputViolation s c write).pending = s.pending := violation_pending ..

@[simp] theorem openBarriers_pending (s : State) : (openBarriers s).pending = s.pending :=
  foldl_pending (fun _ _ => pending_ite (completeInstr_pending ..) rfl) ..

/-! ## Integer instructions -/

@[simp] theorem aluOp_pending (s : State) (c : CoreId) (f : Form) (gd ga gb : Reg) (op : Word → Word →
    Word) :
    (aluOp s c f gd ga gb op).pending = s.pending := regInstr_pending ..

@[simp] theorem unOp_pending (s : State) (c : CoreId) (f : Form) (gd ga : Reg) (op : Word → Word) :
    (unOp s c f gd ga op).pending = s.pending := regInstr_pending ..

@[simp] theorem bfOp_pending (s : State) (c : CoreId) (gd : Reg) (pos : BitVec 6) (len : BitVec 6) (op : Core → Word)
    :
    (bfOp s c gd pos len op).pending = s.pending := regInstr_pending ..

/-! ## Maintenance -/

@[simp] theorem noteDormant_pending (s : State) (issuer : Nat) : (noteDormant s issuer).pending = s.pending := by
  refine foldl_pending (fun s n => ?_) _ _
  split
  · split <;> rfl
  · rfl

@[simp] theorem actTlbi_pending (s : State) (c : CoreId) (o : TlbOp) : (actTlbi s c o).pending = s.pending :=
  Eq.trans (pending_ite (noteDormant_pending ..) rfl) (modCore_pending ..)

@[simp] theorem retrySync_pending (s : State) (issuer : Nat) : (retrySync s issuer).pending = s.pending := by
  unfold retrySync
  split
  · exact pending_ite (completeInstr_pending ..) rfl
  · rfl

@[simp] theorem settleSyncs_pending (s : State) : (settleSyncs s).pending = s.pending :=
  foldl_pending (fun _ _ => retrySync_pending ..) ..

@[simp] theorem receiveTlbi_pending (s : State) (issuer receiver : Nat) :
    (receiveTlbi s issuer receiver).pending = s.pending :=
  by
  unfold receiveTlbi
  split
  · rfl
  · split
    · rfl
    · refine (retrySync_pending ..).trans ?_
      refine pending_ite (pinnaTlbi_pending ..) ?_
      split
      · exact modCore_pending ..
      · rfl

@[simp] theorem sendMaintenance_pending (s : State) (c : CoreId) (req : MsgType) (l : Nat) :
    (sendMaintenance s c req l).pending = s.pending := by
  unfold sendMaintenance
  dsimp only
  split
  · exact pending_ite (modCore_pending ..)
      (pending_ite (Eq.trans
      (pending_ite ((modCore_pending ..).trans ((send_pending ..).trans (modLine_pending ..))) (modCore_pending ..))
      (makeRoom_pending ..)) ((modCore_pending ..).trans (send_pending ..)))
  · exact pending_ite (Eq.trans
      (pending_ite ((modCore_pending ..).trans ((send_pending ..).trans (putLine_pending ..))) (modCore_pending ..))
      (makeRoom_pending ..)) ((modCore_pending ..).trans (send_pending ..))

@[simp] theorem startMaintenance_pending (s : State) (c : CoreId) (req : MsgType) (l : Nat) :
    (startMaintenance s c req l).pending = s.pending := pending_ite (sendMaintenance_pending ..) (modCore_pending ..)

@[simp] theorem maintenanceDone_pending (s : State) (c : CoreId) (l : Nat) :
    (maintenanceDone s c l).pending = s.pending := by
  unfold maintenanceDone
  split
  · exact pending_ite (completeInstr_pending ..) rfl
  · rfl

@[simp] theorem afterDrain_pending (s : State) (c : CoreId) : (afterDrain s c).pending = s.pending := by
  unfold afterDrain
  refine pending_ite (retryCore_pending ..) ?_
  split
  · exact (completeInstr_pending ..).trans (retryCore_pending ..)
  · exact (sendMaintenance_pending ..).trans (retryCore_pending ..)
  · exact (completeInstr_pending ..).trans ((actTlbi_pending ..).trans (retryCore_pending ..))
  · exact (retrySync_pending ..).trans (retryCore_pending ..)
  · exact retryCore_pending ..

@[simp] theorem popStore_pending (s : State) (c : CoreId) : (popStore s c).pending = s.pending :=
  (afterDrain_pending ..).trans (modCore_pending ..)

theorem underStore_pending {s : State} {c : CoreId} {e : SbEntry} {f : State → State} (h : ∀ s, (f s).pending =
    s.pending) :
    (underStore s c e f).pending = s.pending := by
  simp [underStore, h]

@[simp] theorem deviceStore_pending (s : State) (c : CoreId) (e : SbEntry) (next : Option SbEntry) :
    (deviceStore s c e next).pending = s.pending := by
  refine underStore_pending fun s => ?_
  split
  · simp
  · simp
  · simp
  · next p _ =>
    have hs := sorusStore_pending s p e.data e.mask
    split <;> simp_all
  · rfl

@[simp] theorem drainDevice_pending (s : State) (c : CoreId) (e : SbEntry) (rest : List SbEntry) :
    (drainDevice s c e rest).pending = s.pending :=
  (popStore_pending ..).trans (Eq.trans (pending_ite (modCore_pending ..) rfl) (deviceStore_pending ..))

@[simp] theorem drainMiss_pending (s : State) (c : CoreId) (l : Nat) : (drainMiss s c l).pending = s.pending :=
  (modCore_pending ..).trans ((retireEvents_pending ..).trans ((requestLine_pending ..).trans (modCore_pending ..)))

/-! ## Loads and stores -/

@[simp] theorem loadInstr_pending (s : State) (c : CoreId) (f : Form) (gd : Reg) (sz : Size) (sel : Core → Nat) (sx :
    Bool) (bad : Option Nat) (addr : Core → Word) :
    (loadInstr s c f gd sz sel sx bad addr).pending = s.pending := runInstr_pending (fun s => startAccess_pending ..)

@[simp] theorem storeInstr_pending (s : State) (c : CoreId) (f : Form) (gd : Reg) (sz : Size) (sel : Core → Nat) (bad
    : Option Nat) (addr : Core → Word) :
    (storeInstr s c f gd sz sel bad addr).pending = s.pending := runInstr_pending (fun s => startAccess_pending ..)

@[simp] theorem unansweredInstr_pending (s : State) (c : CoreId) (acc : Unanswered) :
    (unansweredInstr s c acc).pending = s.pending := by
  unfold unansweredInstr
  dsimp only
  split
  · exact runInstr_pending (fun s => startAccess_pending ..)
  · exact runInstr_pending (fun s => startAccess_pending ..)
  · exact runInstr_pending (fun s => startAccess_pending ..)
  · exact runInstr_pending (fun s => startAccess_pending ..)
  · exact pending_ite (runInstr_pending (fun s => startAccess_pending ..)) rfl
  · exact pending_ite (runInstr_pending (fun s => startAccess_pending ..)) rfl

/-! ## The multiply unit -/

@[simp] theorem mulInstr_pending (s : State) (c : CoreId) (f : Form) (op : Core → BitVec 120 × Bool) :
    (mulInstr s c f op).pending = s.pending := runInstr_pending fun _ => rfl

@[simp] theorem mulSet_pending (s : State) (c : CoreId) (f : Form) (ga gb : Reg) (p : Word → Word → ℤ) :
    (mulSet s c f ga gb p).pending = s.pending := mulInstr_pending ..

@[simp] theorem mulAdd_pending (s : State) (c : CoreId) (f : Form) (ga gb : Reg) (p : Word → Word → ℤ) :
    (mulAdd s c f ga gb p).pending = s.pending := mulInstr_pending ..

@[simp] theorem mulMove_pending (s : State) (c : CoreId) (ga : Reg) (put : BitVec 120 → Word → BitVec 120) :
    (mulMove s c ga put).pending = s.pending := mulInstr_pending ..

/-! ## The coherence messages -/

@[simp] theorem sendAhead_pending (s : State) (ag l : Nat) (why : ReadFor) :
    (sendAhead s ag l why).pending = s.pending :=
  Eq.trans (pending_ite
    ((send_pending ..).trans ((putLine_pending ..).trans (pending_ite (count_pending ..) rfl))) rfl)
    (makeRoom_pending ..)

@[simp] theorem bridgeRequest_pending (s : State) (m : Msg) : (bridgeRequest s m).pending = s.pending := by
  unfold bridgeRequest
  refine pending_ite rfl ?_
  split
  · next h0 =>
    exact (accept_pending ..).trans (takeMsg_pending h0)
  · exact pending_ite (issue_pending ..) rfl

@[simp] theorem sendAck_pending (s : State) (m : Msg) : (sendAck s m).pending = s.pending := send_pending ..

@[simp] theorem markContended_pending (s : State) (c : CoreId) (m : Msg) :
    (markContended s c m).pending = s.pending := modCore_pending ..

@[simp] theorem giveWords_pending (s : State) (c : CoreId) (m : Msg) : (giveWords s c m).pending = s.pending :=
  modCore_pending ..

@[simp] theorem zeroedInL1_pending (s : State) (ag l : Nat) : (zeroedInL1 s ag l).pending = s.pending :=
  pending_ite (enterL1_pending ..) (modLine_pending ..)

@[simp] theorem dataAt_pending (s : State) (c : CoreId) (m : Msg) : (dataAt s c m).pending = s.pending := by
  unfold dataAt
  dsimp only
  split
  · exact (afterDrain_pending ..).trans (giveWords_pending ..)
  · exact (maintenanceDone_pending ..).trans ((zeroedInL1_pending ..).trans (installLine_pending ..))
  · exact (afterDrain_pending ..).trans ((markContended_pending ..).trans (installLine_pending ..))

@[simp] theorem throughDone_pending (s : State) (c : CoreId) (line : Nat) :
    (throughDone s c line).pending = s.pending := by
  unfold throughDone
  split
  · exact pending_ite ((popStore_pending ..).trans (pending_ite (modLine_pending ..) rfl)) rfl
  · rfl

/-! ## Special instructions -/

@[simp] theorem noteRead_pending (s : State) (c : CoreId) (n : Nat) : (noteRead s c n).pending = s.pending :=
  pending_ite (modCore_pending ..) rfl

@[simp] theorem putSpec_pending (s : State) (c : CoreId) (n : Nat) (v : Word) :
    (putSpec s c n v).pending = s.pending := by
  unfold putSpec
  split
  · exact Eq.trans (pending_ite (represent_pending ..) rfl) (modCore_pending ..)
  · rfl

@[simp] theorem writeSpec_pending (s : State) (c : CoreId) (n : Nat) (v : Word) :
    (writeSpec s c n v).state.pending = s.pending := (putSpec_pending ..).trans (completeInstr_pending ..)

@[simp] theorem specModify_pending (s : State) (c : CoreId) (gd : Reg) (n : Nat) (ga : Reg) (op : Word → Word → Word)
    :
    (specModify s c gd n ga op).pending = s.pending :=
  runInstr_pending (fun s => (writeSpec_pending ..).trans ((modCore_pending ..).trans (noteRead_pending ..)))

/-! ## System instructions -/

@[simp] theorem callOut_pending (s : State) (c : CoreId) (d : Shape) (cls : Nat) (code : BitVec 12) :
    (callOut s c d cls code).pending = s.pending :=
  runInstr_pending (fun s => (raiseAt_pending ..).trans (completeInstr_pending ..))

@[simp] theorem noteCached_pending (s : State) (l w : Nat) (flips : BitVec 64) (d : Option LineData) :
    (noteCached s l w flips d).pending = s.pending := by
  unfold noteCached
  split
  · exact pending_ite rfl rfl
  · rfl

@[simp] theorem barrierInstr_pending (s : State) (c : CoreId) : (barrierInstr s c).pending = s.pending := by
  unfold barrierInstr
  split
  · rfl
  · exact runInstr_pending fun t => by split <;> rfl

@[simp] theorem maintainAt_pending (s : State) (c : CoreId) (req : MsgType) (op : RefOp) (pa : Nat) :
    (maintainAt s c req op pa).state.pending = s.pending := by
  unfold maintainAt
  split
  · exact violation_pending ..
  · exact startMaintenance_pending ..
  · rfl

@[simp] theorem dcDirty_pending (s : State) (c : CoreId) (va : Word) (kind : Nat) (x : Xlate) :
    (dcDirty s c va kind x).state.pending = s.pending := by
  unfold dcDirty
  split
  · exact setDirty_pending ..
  · rfl

theorem dcBody_pending (s0 : State) (c : CoreId) (va : Word) (req : MsgType) (kind : Nat) (op : RefOp) (s : State)
    (n : Nat) : (dcBody s0 c va req kind op s n).state.pending = s.pending := by
  induction n generalizing s with
  | zero => simp [dcBody]
  | succ n ih =>
    have ht := translate_pending s c va kind
    unfold dcBody
    split
    all_goals rename_i heq; rw [heq] at ht
    · exact ht
    · next t x =>
      have hd := dcDirty_pending t c va kind x
      split
      · exact ht
      · split
        all_goals rename_i heq; rw [heq] at hd
        · exact hd.trans ht
        · exact (maintainAt_pending ..).trans (hd.trans ht)
        · exact (ih _).trans (hd.trans ht)
        · exact (unissue_pending ..).trans (hd.trans ht)
    · exact (unissue_pending ..).trans ht
    · exact (unissue_pending ..).trans ht

@[simp] theorem dcInstr_pending (s : State) (c : CoreId) (ga : Reg) (req : MsgType) (kind : Nat) (op : RefOp) :
    (dcInstr s c ga req kind op).pending = s.pending := runInstr_pending (fun s => dcBody_pending ..)

@[simp] theorem tlbiInstr_pending (s : State) (c : CoreId) (level code : Nat) (bcast : Bool) (va gb : Core → Word) :
    (tlbiInstr s c level code bcast va gb).pending = s.pending :=
  runInstr_pending fun t => by dsimp only; split <;> simp

end Sys2Proof.Machine
end

section
/-! Every command answers a next state, and that state has the waiting commands it began with. -/

namespace Sys2Proof.Machine

open Sys2Proof

/-- The outcome is a next state with the same waiting commands. -/
def KeepsQueue (s : State) (o : Host.Outcome State Fault Refusal) : Prop := ∃ t, o = .next t ∧ t.pending = s.pending
theorem keepsQueue_next {s t : State} (h : t.pending = s.pending) : KeepsQueue s (.next t) := ⟨t, rfl, h⟩

theorem keepsQueue_same (s : State) : KeepsQueue s (.next s) := keepsQueue_next rfl

theorem keepsQueue_ite {c : Prop} [Decidable c] {s : State} {o p : Host.Outcome State Fault Refusal}
  (ho : KeepsQueue s o)
    (hp : KeepsQueue s p) : KeepsQueue s (if c then o else p) := by split <;> assumption

theorem execFend_keepsQueue (c : CoreId) (s : State) : KeepsQueue s (execFend c s) := by
  unfold execFend
  split
  · exact keepsQueue_same s
  · refine keepsQueue_next (runInstr_pending fun t => ?_)
    dsimp only
    split <;> simp

theorem execLoop_keepsQueue (c : CoreId) (ga : Reg) (off : BitVec 31) (s : State) :
    KeepsQueue s (execLoop c ga off s) := by
  refine keepsQueue_next (runInstr_pending fun t => ?_)
  dsimp only
  split_ifs <;> simp

theorem execRetx_keepsQueue (c : CoreId) (s : State) : KeepsQueue s (execRetx c s) := by
  refine keepsQueue_next (runInstr_pending fun t => ?_)
  dsimp only
  split_ifs <;> simp

theorem execStructureRepair_keepsQueue (a : Nat) (s : State) : KeepsQueue s (execStructureRepair a s) := by
  unfold execStructureRepair
  split_ifs
  · exact keepsQueue_next (moduleFault_pending ..)
  · exact keepsQueue_next ((logRepair_pending ..).trans (regAddSat_pending ..))
  · exact keepsQueue_same s

theorem execInterruptEntry_keepsQueue (c : CoreId) (s : State) : KeepsQueue s (execInterruptEntry c s) := by
  unfold execInterruptEntry
  dsimp only
  split
  · split
    · exact keepsQueue_next (by simp)
    · exact keepsQueue_same s
  · exact keepsQueue_same s

theorem execCompareTimerFire_keepsQueue (n : Fin 8) (s : State) : KeepsQueue s (execCompareTimerFire n s) := by
  unfold execCompareTimerFire
  dsimp only
  split_ifs
  · exact keepsQueue_next (by simp)
  · exact keepsQueue_next (by simp)
  · exact keepsQueue_same s

theorem execWatchdogStage2_keepsQueue (w : Fin 36) (s : State) : KeepsQueue s (execWatchdogStage2 w s) := by
  unfold execWatchdogStage2
  dsimp only
  split
  · split
    · split <;> exact keepsQueue_next (by simp)
    split
    · split <;> exact keepsQueue_next (by simp)
    · exact keepsQueue_next (by simp)
  · exact keepsQueue_same s

theorem execFrameStart_keepsQueue (g : Fin 4) (s : State) : KeepsQueue s (execFrameStart g s) := by
  unfold execFrameStart
  dsimp only
  split
  · exact keepsQueue_next ((foldl_pending beginFrame_pending ..).trans (by simp))
  · exact keepsQueue_same s

theorem execLockstepMismatch_keepsQueue (p : Fin 8) (s : State) : KeepsQueue s (execLockstepMismatch p s) := by
  unfold execLockstepMismatch
  dsimp only
  split
  · split
    · exact keepsQueue_next (by simp)
    · split <;> exact keepsQueue_next (by simp)
  · exact keepsQueue_same s

theorem execScanStart_keepsQueue (s : State) : KeepsQueue s (execScanStart s) := by
  unfold execScanStart
  dsimp only
  split
  · split
    · exact keepsQueue_next (by simp)
    split
    · exact keepsQueue_next (by simp)
    · exact keepsQueue_next rfl
  · exact keepsQueue_same s

theorem execSenseStreamCopy_keepsQueue (q : Fin 256) (s : State) : KeepsQueue s (execSenseStreamCopy q s) := by
  unfold execSenseStreamCopy
  dsimp only
  split
  · exact keepsQueue_same s
  split
  · exact keepsQueue_next (by simp)
  · exact keepsQueue_next (runJob_pending fun s => streamCopy_pending s _)

theorem execMigrationData_keepsQueue (node : Nat) (srcInst dstInst : Fin 64) (off : Nat) (words : List Word)
  (s : State) :
    KeepsQueue s (execMigrationData node srcInst dstInst off words s) :=
  keepsQueue_next (ifPinna_pending fun s => migData_pending ..)

theorem execMigrationAck_keepsQueue (node : Nat) (srcInst dstInst : Fin 64) (off : Nat) (s : State) :
    KeepsQueue s (execMigrationAck node srcInst dstInst off s) :=
  keepsQueue_next (ifPinna_pending fun s => migAck_pending ..)

theorem execMigrationClaim_keepsQueue (node : Nat) (srcInst dstInst : Fin 64) (epoch : Nat) (s : State) :
    KeepsQueue s (execMigrationClaim node srcInst dstInst epoch s) :=
  keepsQueue_next (ifPinna_pending fun s => migClaim_pending ..)

theorem execMigrationRelease_keepsQueue (node : Nat) (srcInst dstInst : Fin 64) (epoch : Nat) (s : State) :
    KeepsQueue s (execMigrationRelease node srcInst dstInst epoch s) :=
  keepsQueue_next (ifPinna_pending fun s => migAnswer_pending ..)

theorem execMigrationRefuse_keepsQueue (node : Nat) (srcInst dstInst : Fin 64) (epoch : Nat) (s : State) :
    KeepsQueue s (execMigrationRefuse node srcInst dstInst epoch s) :=
  keepsQueue_next (ifPinna_pending fun s => migAnswer_pending ..)

theorem execEthernetFrameReceive_keepsQueue (port : Fin 2) (bytes : List Byte) (fcsOk : Bool) (s : State) :
    KeepsQueue s (execEthernetFrameReceive port bytes fcsOk s) := by
  unfold execEthernetFrameReceive
  dsimp only
  split
  · exact keepsQueue_same s
  split
  · exact keepsQueue_next (by simp)
  split <;> exact keepsQueue_next (by simp)

theorem execEthernetFrameTransmit_keepsQueue (port : Fin 2) (q : Fin 256) (s : State) :
    KeepsQueue s (execEthernetFrameTransmit port q s) := by
  unfold execEthernetFrameTransmit
  dsimp only
  split
  · exact keepsQueue_same s
  split
  · exact keepsQueue_next (ethResume_pending ..)
  split
  · exact keepsQueue_same s
  · exact keepsQueue_next (andThen_pending (txFetch_pending ..) fun x s => ethSend_pending ..)

theorem execGateCycleStart_keepsQueue (port : Fin 2) (s : State) : KeepsQueue s (execGateCycleStart port s) := by
  unfold execGateCycleStart
  dsimp only
  split
  · split <;> exact keepsQueue_next (by simp)
  · exact keepsQueue_same s

theorem execCanFrameReceive_keepsQueue (n : Fin 8) (id : BitVec 29) (ide fdf brs : Bool) (bytes : List Byte)
  (s : State) :
    KeepsQueue s (execCanFrameReceive n id ide fdf brs bytes s) := by
  refine keepsQueue_ite (keepsQueue_same s) ?_
  dsimp only
  split
  · exact keepsQueue_next (canErrors_pending ..)
  · exact keepsQueue_next ((canErrors_pending ..).trans (rxOffer_pending ..))

theorem execCanFrameTransmit_keepsQueue (n : Fin 8) (s : State) : KeepsQueue s (execCanFrameTransmit n s) := by
  unfold execCanFrameTransmit
  split
  · exact keepsQueue_same s
  · refine keepsQueue_next (andThen_pending (canFirst_pending ..) fun x s => ?_)
    split <;> simp

theorem execUartCharacterTransmit_keepsQueue (u : Fin 4) (s : State) : KeepsQueue s (execUartCharacterTransmit u s) :=
  by
  unfold execUartCharacterTransmit
  dsimp only
  split
  · exact keepsQueue_same s
  split
  · exact keepsQueue_next (by simp)
  · exact keepsQueue_same s

theorem execDmaChannelEnd_keepsQueue (n : Fin 8) (s : State) : KeepsQueue s (execDmaChannelEnd n s) := by
  unfold execDmaChannelEnd
  dsimp only
  split
  · exact keepsQueue_same s
  split
  · exact keepsQueue_next (dmaEnd_pending ..)
  split
  · split
    · exact keepsQueue_next (dmaEnd_pending ..)
    · exact keepsQueue_same s
  · exact keepsQueue_next (andThen_pending (dmaMove_pending ..) fun e s => dmaEnd_pending ..)

theorem execXferComplete_keepsQueue (o : Fin 2) (result : BitVec 3) (reply : List Word) (s : State) :
    KeepsQueue s (execXferComplete o result reply s) := by
  unfold execXferComplete
  dsimp only
  split
  · refine keepsQueue_next ((foldl_pending (fun s k => ?_) ..).trans (by simp))
    split <;> simp
  · exact keepsQueue_same s

theorem execVerticalBlank_keepsQueue (o : Fin 2) (s : State) : KeepsQueue s (execVerticalBlank o s) :=
  keepsQueue_ite (keepsQueue_same s) (keepsQueue_ite (keepsQueue_next (by simp)) (keepsQueue_next (by simp)))

theorem execPcieLinkChange_keepsQueue (up : Bool) (width gen : Nat) (s : State) :
    KeepsQueue s (execPcieLinkChange up width gen s) := by
  have ht := takeFree_pending s
  fun_cases execPcieLinkChange
  case case1 w t heq _ _ _ =>
    rw [heq] at ht
    refine keepsQueue_next ?_
    rw [ite_pending, pcieFlag_pending, ite_self, ite_pending, regFld_pending, ite_self]
    exact (pciePerst_pending ..).trans ht
  case case2 => exact keepsQueue_same s
  case case3 w t heq _ =>
    rw [heq] at ht
    refine keepsQueue_next ?_
    rw [ite_pending, regFld_pending, ite_self]
    exact (pciePerst_pending ..).trans ((pcieDown_pending _).trans ht)

theorem execUsbDescriptorCompletion_keepsQueue (e : Fin 18) (bytes : List Byte) (status : BitVec 8) (s : State) :
    KeepsQueue s (execUsbDescriptorCompletion e bytes status s) := by
  unfold execUsbDescriptorCompletion
  dsimp only
  split
  · exact keepsQueue_same s
  split
  · exact keepsQueue_same s
  · exact keepsQueue_next (runJob_pending fun s => usbWork_pending ..)

theorem execAgree_keepsQueue (d : Fin 64) (s : State) : KeepsQueue s (execAgree d s) := by
  have ha : (if s.power.force && d.val = 59 then pinnaAbortAll s
      else if s.power.force && d.val = 63 then dmaAbortAll s else (0, s)).2.pending = s.pending := by
    split_ifs <;> simp
  unfold execAgree
  refine keepsQueue_ite ?_ (keepsQueue_same s)
  generalize (if s.power.force && d.val = 59 then pinnaAbortAll s
      else if s.power.force && d.val = 63 then dmaAbortAll s else (0, s)) = r at ha ⊢
  obtain ⟨n, t⟩ := r
  exact keepsQueue_ite (keepsQueue_next (by simpa using ha)) (keepsQueue_next (by simpa using ha))

theorem execThermalMonitorRead_keepsQueue (die : List Int) (dram : Int) (s : State) :
    KeepsQueue s (execThermalMonitorRead die dram s) := by
  unfold execThermalMonitorRead
  split
  · exact keepsQueue_same s
  · dsimp only
    split <;> exact keepsQueue_next (by simp)

theorem execClusterRelease_keepsQueue (s : State) : KeepsQueue s (execClusterRelease s) := by
  unfold execClusterRelease
  dsimp only
  split
  · split
    · exact keepsQueue_next (startCore0_pending ..)
    · refine keepsQueue_next ?_
      rw [openRing_pending, startTick_pending, startCore0_pending, foldl_pending, foldl_pending, regFld_pending]
      all_goals intro s c; split <;> simp
  · exact keepsQueue_same s

theorem execRingFrame_keepsQueue (dir : Dir) (fr : RingFrame) (s : State) : KeepsQueue s (execRingFrame dir fr s) :=
  by
  refine keepsQueue_ite (keepsQueue_same s) ?_
  generalize (match dir with | .east => 1 | .west => 0 : Nat) = p
  split
  · exact keepsQueue_same s
  dsimp only
  split
  · exact keepsQueue_next (by simp)
  · exact keepsQueue_ite (keepsQueue_ite (keepsQueue_next (by simp)) (keepsQueue_next (by simp)))
      (keepsQueue_next (by simp))

theorem execClaim_keepsQueue (p : Fin 2) (node : Nat) (img : Bool) (s : State) :
    KeepsQueue s (execClaim p node img s) :=
  by
  unfold execClaim
  dsimp only
  split
  · exact keepsQueue_same s
  split
  · split <;> exact keepsQueue_next (by simp)
  split
  · exact keepsQueue_next (by simp)
  split <;> exact keepsQueue_next (by simp)

theorem execBandwidthWindowEnd_keepsQueue (s : State) : KeepsQueue s (execBandwidthWindowEnd s) := by
  unfold execBandwidthWindowEnd
  split
  · exact keepsQueue_same s
  · refine keepsQueue_ite (keepsQueue_same s) (keepsQueue_next ?_)
    dsimp only
    rw [foldl_pending fun t p => regSet_pending ..]

/-- The words of a counter record, its first one last (R338). -/
theorem recordJob_pending (s : State) (a : Nat) (full : List Word) :
    (bridgeJob s jobRecord fun s => (bridgePuts s (a + 8) (full.drop 8)).andThen fun _ s =>
      (bridgePuts s (a + 1) ((full.drop 1).take 7)).andThen fun _ s =>
        bridgePut s a (full.getD 0 0) false none).state.pending = s.pending :=
  bridgeJob_pending fun s => andThen_pending (bridgePuts_pending ..) fun _ s =>
    andThen_pending (bridgePuts_pending ..) fun _ s => bridgePut_pending ..

theorem execCounterRecordWrite_keepsQueue (s : State) : KeepsQueue s (execCounterRecordWrite s) := by
  refine keepsQueue_ite (keepsQueue_same s) ?_
  have hw := recordJob_pending s s.cnt.recordAt (s.cnt.record ++ [w48 (crc32c s.cnt.record)])
  dsimp only
  split
  all_goals
    next heq =>
      rw [heq] at hw
      exact keepsQueue_next hw

theorem execPcieInboundRequest_keepsQueue (bar : Bool) (addr : Nat) (write : Bool) (len : Nat) (bytes : List Byte)
    (s : State) : KeepsQueue s (execPcieInboundRequest bar addr write len bytes s) := by
  refine keepsQueue_ite (keepsQueue_same s)
    (keepsQueue_ite ?_ (keepsQueue_ite (keepsQueue_ite ?_ ?_) (keepsQueue_ite ?_ ?_)))
  · split <;> exact keepsQueue_next (by simp)
  all_goals exact keepsQueue_next (by simp)

theorem execLockstepPairRetirement_keepsQueue (p : Fin 8) (s : State) :
    KeepsQueue s (execLockstepPairRetirement p s) := by
  unfold execLockstepPairRetirement
  dsimp only
  split
  · split <;> exact keepsQueue_next (by simp)
  · exact keepsQueue_same s

theorem execStoreBufferDrain_keepsQueue (i : Fin 16) (s : State) : KeepsQueue s (execStoreBufferDrain i s) := by
  unfold execStoreBufferDrain
  dsimp only
  split
  · exact keepsQueue_same s
  · split_ifs
    · exact keepsQueue_same s
    · exact keepsQueue_same s
    all_goals exact keepsQueue_next (by simp)

theorem execDeviceAccessTimeout_keepsQueue (rq : Requester) (acc : Unanswered) (s : State) :
    KeepsQueue s (execDeviceAccessTimeout rq acc s) := by
  unfold execDeviceAccessTimeout
  dsimp only
  split
  · exact keepsQueue_next (unansweredInstr_pending ..)
  split
  · exact keepsQueue_same s
  · exact keepsQueue_next (by simp)

theorem execData_keepsQueue (agent : Fin 34) (line : Nat) (s : State) : KeepsQueue s (execData agent line s) := by
  unfold execData
  split
  · exact keepsQueue_same s
  · next h => split <;> exact keepsQueue_next (by simp [takeMsg_pending h])

theorem execGrantU_keepsQueue (agent : Fin 33) (line : Nat) (s : State) : KeepsQueue s (execGrantU agent line s) := by
  unfold execGrantU
  split
  · exact keepsQueue_same s
  · next h => dsimp only; split <;> exact keepsQueue_next (by simp [takeMsg_pending h])

theorem execCmp_keepsQueue (agent : Fin 34) (line : Nat) (s : State) : KeepsQueue s (execCmp agent line s) := by
  unfold execCmp
  split
  · exact keepsQueue_same s
  · next h =>
    dsimp only
    split
    · split <;> exact keepsQueue_next (by simp [takeMsg_pending h])
    · exact keepsQueue_next (by simp [takeMsg_pending h])

theorem execRetry_keepsQueue (agent : Fin 34) (line : Nat) (s : State) : KeepsQueue s (execRetry agent line s) := by
  unfold execRetry
  split
  · exact keepsQueue_same s
  · next h =>
    have ht := takeMsg_pending h
    split <;> exact keepsQueue_next ht

theorem execPatrolScrub_keepsQueue (flips again : List (BitVec 64)) (s : State) :
    KeepsQueue s (execPatrolScrub flips again s) := by
  unfold execPatrolScrub
  dsimp only
  split
  · exact keepsQueue_same s
  split <;> exact keepsQueue_next (by simp)

theorem execMachineCheck_keepsQueue (site : ErrorSite) (s : State) : KeepsQueue s (execMachineCheck site s) := by
  unfold execMachineCheck
  split
  · split
    · exact keepsQueue_next (faultAt_pending ..)
    · exact keepsQueue_same s
  · exact keepsQueue_next (modCore_pending ..)
  · exact keepsQueue_next (by simp)
  · exact keepsQueue_next (noteCached_pending ..)
  · split
    · exact keepsQueue_next (moduleFault_pending ..)
    · exact keepsQueue_same s

theorem execInterruptSourceAssert_keepsQueue (n : Fin 320) (line : Bool) (s : State) :
    KeepsQueue s (execInterruptSourceAssert n line s) := by
  fun_cases execInterruptSourceAssert
  all_goals exact keepsQueue_next (by simp)

theorem execTimestampCapture_keepsQueue (u : Fin 4) (rise : Bool) (s : State) :
    KeepsQueue s (execTimestampCapture u rise s) := by
  fun_cases execTimestampCapture
  all_goals exact keepsQueue_next (by simp)

theorem execSorusWriteBack_keepsQueue (bank : Fin 48) (s : State) :
    KeepsQueue s (execSorusWriteBack bank s) := by
  fun_cases execSorusWriteBack
  all_goals exact keepsQueue_next (by simp)

theorem execMigrationResendTimeout_keepsQueue (i : Fin 64) (s : State) :
    KeepsQueue s (execMigrationResendTimeout i s) := by
  fun_cases execMigrationResendTimeout
  all_goals exact keepsQueue_next (by simp)

theorem execClaimTimeout_keepsQueue (i : Fin 64) (s : State) :
    KeepsQueue s (execClaimTimeout i s) := by
  fun_cases execClaimTimeout
  all_goals exact keepsQueue_next (by simp)

theorem execWakeSource_keepsQueue (e : WakeEvent) (s : State) : KeepsQueue s (execWakeSource e s) := by
  refine keepsQueue_ite (keepsQueue_same s)
    (keepsQueue_ite (keepsQueue_next (regFld_pending ..)) (keepsQueue_next ?_))
  refine (foldl_pending (fun s d => ?_) ..).trans (wakeRefuses_pending ..)
  split <;> simp

theorem execTouchWakeScan_keepsQueue (sums : List Nat) (s : State) : KeepsQueue s (execTouchWakeScan sums s) := by
  refine keepsQueue_ite ?_ (keepsQueue_same s)
  dsimp only
  split
  · exact keepsQueue_next rfl
  · exact keepsQueue_ite (keepsQueue_next (regFld_pending ..)) (keepsQueue_next rfl)

theorem execStageTimeout_keepsQueue (stage : Nat) (s : State) :
    KeepsQueue s (execStageTimeout stage s) := by
  fun_cases execStageTimeout
  all_goals exact keepsQueue_next (by simp)

theorem execSessionTimeout_keepsQueue (s : State) :
    KeepsQueue s (execSessionTimeout s) := by
  fun_cases execSessionTimeout
  all_goals exact keepsQueue_next (by simp)

theorem execRingCopyLate_keepsQueue (dir : Dir) (s : State) :
    KeepsQueue s (execRingCopyLate dir s) := by
  fun_cases execRingCopyLate
  all_goals exact keepsQueue_next (by simp)

theorem execRegisterWrite_keepsQueue (rq : Requester) (addr : Nat) (v : Word) (s : State) :
    KeepsQueue s (execRegisterWrite rq addr v s) := by
  fun_cases execRegisterWrite
  all_goals exact keepsQueue_next (by simp)

theorem execRet_keepsQueue (c : CoreId) (f : Form) (s : State) :
    KeepsQueue s (execRet c f s) := by
  refine keepsQueue_next (runInstr_pending fun t => ?_)
  dsimp only
  split <;> simp

theorem execOut_keepsQueue (c : CoreId) (ga gb : Reg) (s : State) :
    KeepsQueue s (execOut c ga gb s) := by
  refine keepsQueue_next (runInstr_pending fun t => ?_)
  dsimp only
  split <;> simp

theorem execInb_keepsQueue (c : CoreId) (gd ga : Reg) (s : State) :
    KeepsQueue s (execInb c gd ga s) := by
  refine keepsQueue_next (runInstr_pending fun t => ?_)
  split <;> simp

theorem execInf_keepsQueue (c : CoreId) (gd ga : Reg) (s : State) :
    KeepsQueue s (execInf c gd ga s) := by
  refine keepsQueue_next (runInstr_pending fun t => ?_)
  split <;> simp

theorem execFtime_keepsQueue (c : CoreId) (gd : Reg) (s : State) :
    KeepsQueue s (execFtime c gd s) := by
  refine keepsQueue_next (runInstr_pending fun t => ?_)
  split <;> simp

theorem execPutAck_keepsQueue (agent : Fin 33) (line : Nat) (s : State) :
    KeepsQueue s (execPutAck agent line s) := by
  unfold execPutAck
  split <;> exact keepsQueue_next (by simp)

theorem execRetryBackoffExpiry_keepsQueue (agent : Fin 34) (line : Nat) (s : State) :
    KeepsQueue s (execRetryBackoffExpiry agent line s) := by
  fun_cases execRetryBackoffExpiry
  all_goals exact keepsQueue_next (by simp)

theorem execCorrectedWriteBack_keepsQueue (ch : Fin 8) (s : State) :
    KeepsQueue s (execCorrectedWriteBack ch s) := by
  unfold execCorrectedWriteBack
  split <;> exact keepsQueue_next (by simp)

theorem execTlbsync_keepsQueue (c : CoreId) (s : State) :
    KeepsQueue s (execTlbsync c s) := by
  refine keepsQueue_next (runInstr_pending fun t => ?_)
  split <;> simp

theorem exec_keepsQueue (i : Instr) (s : State) : KeepsQueue s (exec i s) := by
  cases i
  case fend => exact execFend_keepsQueue ..
  case loop => exact execLoop_keepsQueue ..
  case retx => exact execRetx_keepsQueue ..
  case structureRepair => exact execStructureRepair_keepsQueue ..
  case interruptEntry => exact execInterruptEntry_keepsQueue ..
  case compareTimerFire => exact execCompareTimerFire_keepsQueue ..
  case watchdogStage2 => exact execWatchdogStage2_keepsQueue ..
  case frameStart => exact execFrameStart_keepsQueue ..
  case lockstepMismatch => exact execLockstepMismatch_keepsQueue ..
  case scanStart => exact execScanStart_keepsQueue ..
  case senseStreamCopy => exact execSenseStreamCopy_keepsQueue ..
  case migrationData => exact execMigrationData_keepsQueue ..
  case migrationAck => exact execMigrationAck_keepsQueue ..
  case migrationClaim => exact execMigrationClaim_keepsQueue ..
  case migrationRelease => exact execMigrationRelease_keepsQueue ..
  case migrationRefuse => exact execMigrationRefuse_keepsQueue ..
  case ethernetFrameReceive => exact execEthernetFrameReceive_keepsQueue ..
  case ethernetFrameTransmit => exact execEthernetFrameTransmit_keepsQueue ..
  case gateCycleStart => exact execGateCycleStart_keepsQueue ..
  case canFrameReceive n id ide fdf brs bytes => exact execCanFrameReceive_keepsQueue n id ide fdf brs bytes s
  case canFrameTransmit => exact execCanFrameTransmit_keepsQueue ..
  case uartCharacterTransmit => exact execUartCharacterTransmit_keepsQueue ..
  case dmaChannelEnd => exact execDmaChannelEnd_keepsQueue ..
  case xferComplete => exact execXferComplete_keepsQueue ..
  case verticalBlank => exact execVerticalBlank_keepsQueue ..
  case pcieLinkChange => exact execPcieLinkChange_keepsQueue ..
  case usbDescriptorCompletion => exact execUsbDescriptorCompletion_keepsQueue ..
  case agree => exact execAgree_keepsQueue ..
  case thermalMonitorRead => exact execThermalMonitorRead_keepsQueue ..
  case clusterRelease => exact execClusterRelease_keepsQueue ..
  case ringFrame => exact execRingFrame_keepsQueue ..
  case claim => exact execClaim_keepsQueue ..
  case bandwidthWindowEnd => exact execBandwidthWindowEnd_keepsQueue ..
  case counterRecordWrite => exact execCounterRecordWrite_keepsQueue ..
  case pcieInboundRequest => exact execPcieInboundRequest_keepsQueue ..
  case lockstepPairRetirement => exact execLockstepPairRetirement_keepsQueue ..
  case storeBufferDrain => exact execStoreBufferDrain_keepsQueue ..
  case deviceAccessTimeout => exact execDeviceAccessTimeout_keepsQueue ..
  case data => exact execData_keepsQueue ..
  case grantU => exact execGrantU_keepsQueue ..
  case cmp => exact execCmp_keepsQueue ..
  case retry => exact execRetry_keepsQueue ..
  case patrolScrub => exact execPatrolScrub_keepsQueue ..
  case machineCheck => exact execMachineCheck_keepsQueue ..
  case interruptSourceAssert => exact execInterruptSourceAssert_keepsQueue ..
  case timestampCapture => exact execTimestampCapture_keepsQueue ..
  case sorusWriteBack => exact execSorusWriteBack_keepsQueue ..
  case migrationResendTimeout => exact execMigrationResendTimeout_keepsQueue ..
  case claimTimeout => exact execClaimTimeout_keepsQueue ..
  case wakeSource => exact execWakeSource_keepsQueue ..
  case touchWakeScan => exact execTouchWakeScan_keepsQueue ..
  case stageTimeout => exact execStageTimeout_keepsQueue ..
  case sessionTimeout => exact execSessionTimeout_keepsQueue ..
  case ringCopyLate => exact execRingCopyLate_keepsQueue ..
  case registerWrite => exact execRegisterWrite_keepsQueue ..
  case ret => exact execRet_keepsQueue ..
  case out => exact execOut_keepsQueue ..
  case inb => exact execInb_keepsQueue ..
  case inf => exact execInf_keepsQueue ..
  case ftime => exact execFtime_keepsQueue ..
  case putAck => exact execPutAck_keepsQueue ..
  case retryBackoffExpiry => exact execRetryBackoffExpiry_keepsQueue ..
  case correctedWriteBack => exact execCorrectedWriteBack_keepsQueue ..
  case tlbsync => exact execTlbsync_keepsQueue ..
  case watchdogStage1 | safeStateEntry | offsetCalibrationEnd | touchFrameWrite | mdioFrameComplete | busOff |
    busOffRecovery | uartCharacterReceive | edpLinkTraining | underrun | configCompletion | usbSetup |
    usbBusReset | refuse | voteAnswerTimeout | dormantWake | quiescentExit | moduleReset | powerUp | supplyDip |
    resetN | debugReset | referenceClockReturn | medullaWatchdogExpiry | medullaLockstepMismatch | coreReset |
    resultTimeout | logCopy | ringFrameEmit | linkDown | laneRetirement | laneBlockLockLoss | electionClaim |
    masterHandover | tickHoldover | tlbBroadcastReceive | rowCopyComplete | periodicZqRecalibration =>
    exact keepsQueue_ite (keepsQueue_next (by simp)) (keepsQueue_same s)
  case inputFault | dacFault | ethernetLinkChange | usbLinkChange | link | dlyReq | dlyRsp | linkTraining |
    pcieApertureCompletion | pcieApertureTimeout | refresh =>
    exact keepsQueue_ite (keepsQueue_same s) (keepsQueue_next (by simp))
  case lpop | fcvtF48D64 | fcvtD64F48 | fnum | setb | exta | raise | undefinedEncoding =>
    exact keepsQueue_next (runInstr_pending fun _ => rfl)
  all_goals exact keepsQueue_next (by simp)

/-- Settles O3: the outcome of every command is a next state. That a command whose conditions do not hold answers one too
is the model's choice (log entry 1). -/
theorem everyCommandAnswers : Obligations.EveryCommandAnswers := by
  unfold Obligations.EveryCommandAnswers
  intro c s
  obtain ⟨t, ht, -⟩ := exec_keepsQueue c s
  exact ⟨t, ht⟩

/-- Settles O4: the next state of every command has the same waiting commands. -/
theorem queueUntouched : Obligations.QueueUntouched := by
  unfold Obligations.QueueUntouched
  intro c s t h
  obtain ⟨u, hu, hq⟩ := exec_keepsQueue c s
  cases hu.symm.trans h
  exact hq

end Sys2Proof.Machine
end

section
/-! The mailbox (chapter 19): the turn of a port, what its operations answer, the timeouts and the copy of the logs. -/

namespace Sys2Proof.Machine

open Sys2Proof

/-! ## What the steps into a reset leave of the Medulla core's logs (R735) -/

@[simp] theorem represent_mdl (s : State) (t : Nat) : (represent s t).mdl = s.mdl := by
  unfold represent; split <;> simp

@[simp] theorem assertEdge_mdl (s : State) (n : Nat) : (assertEdge s n).mdl = s.mdl := by
  unfold assertEdge
  split
  · rfl
  · split
    · exact regFld_mdl ..
    · rw [represent_mdl, regSet_mdl, regFld_mdl]

@[simp] theorem setLine_sys (s : State) (n : Nat) (on : Bool) : (setLine s n on).sys = s.sys := by
  unfold setLine; dsimp only; split_ifs <;> simp

@[simp] theorem setLine_mdl (s : State) (n : Nat) (on : Bool) : (setLine s n on).mdl = s.mdl := by
  unfold setLine; dsimp only; split_ifs <;> simp

@[simp] theorem mboxLines_sys (s : State) : (mboxLines s).sys = s.sys := by
  simp [mboxLines]

@[simp] theorem mboxLines_mdl (s : State) : (mboxLines s).mdl = s.mdl := by
  simp [mboxLines]

@[simp] theorem mbxFlag_sys (s : State) (p n : Nat) (b : Bool) : (mbxFlag s p n b).sys = s.sys := by
  unfold mbxFlag; split <;> simp

@[simp] theorem mbxFlag_mdl (s : State) (p n : Nat) (b : Bool) : (mbxFlag s p n b).mdl = s.mdl := by
  unfold mbxFlag; split <;> simp

theorem closeRing_mdl (s : State) : (closeRing s).mdl = s.mdl := by
  have h := foldl_keeps (p := State.mdl) (f := fun s p => regFld (regFld s (aRingPort p) 7 4 0) (aRingPort p) 1 0 0)
    (fun s p => by simp) (upto 2) (regSet (regFld s aRingStat 47 45 0) aRingRtt 0)
  rw [regSet_mdl, regFld_mdl] at h
  unfold closeRing
  dsimp only
  split
  · exact (assertEdge_mdl ..).trans h
  · exact h

theorem enterReset_mode (s : State) (cause fault : Nat) : (enterReset s cause fault).sys.mode = .inReset cause := rfl

theorem enterReset_mdl (s : State) (cause fault : Nat) : (enterReset s cause fault).mdl = s.mdl := by
  simp [enterReset, dacsOff, closeRing_mdl, holdClusters]

/-! ## The turn of a port (R690, R693, R696) -/

/-- The port's turn has passed on. -/
def turnTaken (s : State) (p : Nat) : State := { s with mdl := { s.mdl with nextPort := (p + 1) % 3 } }

section
variable {s : State} {p op : Nat} {nor : NorReads} {err : Bool}

/-- The command that names the posted OP serves the port whose turn it is. -/
theorem takeOp_turn (ht : turnPort s = some p) (ho : fld (port s p).cmd 39 32 = op) :
    takeOp s p op nor err = serve s p nor err := by
  simp [takeOp, ht, ho]

/-- A repeated SEQ gets the stored result again (R696). -/
theorem serve_repeated (hs : (port s p).lastSeq = some (fld (port s p).cmd 47 40)) :
    serve s p nor err = postStored (turnTaken s p) p := by
  simp only [serve, hs, if_true, turnTaken]

section
variable (ho : fld (port s p).cmd 39 32 = op) (hs : (port s p).lastSeq ≠ some (fld (port s p).cmd 47 40))
  (hr : reducedMailbox s = false) {lvl : Nat} (hl : opLevel op = some lvl)
include ho hs hr hl

theorem serve_lowLevel (h : (port s p).level < lvl) :
    serve s p nor err = answer (turnTaken s p) p (plainAnswer 4) := by
  have hr' : reducedMailbox (turnTaken s p) = false := hr
  unfold turnTaken at *
  simp only [serve, if_neg hs, ho, hl, hr', Bool.false_and, if_pos h, Bool.false_eq_true, if_false]

/-- A command of a new SEQ and a sufficient level gets the answer of its operation (R696, R697). -/
theorem serve_performs (h : lvl ≤ (port s p).level) (h8 : op ≠ 8) :
    serve s p nor err =
      answer (perform (turnTaken s p) p op nor err).2 p (perform (turnTaken s p) p op nor err).1 := by
  have hr' : reducedMailbox (turnTaken s p) = false := hr
  unfold turnTaken at *
  simp only [serve, if_neg hs, ho, hl, hr', Bool.false_and, if_neg (not_lt.2 h), if_neg h8, Bool.false_eq_true, if_false]

theorem serve_reset (h : lvl ≤ (port s p).level) (h8 : op = 8) : serve s p nor err = opReset (turnTaken s p) p := by
  have hr' : reducedMailbox (turnTaken s p) = false := hr
  unfold turnTaken at *
  simp only [serve, if_neg hs, ho, hl, hr', Bool.false_and, if_neg (not_lt.2 h), if_pos h8, Bool.false_eq_true, if_false]

end
end

/-- RESET copies both logs and starts a reset of cause 3, unless the hold is for a thermal trip (R697, R739). -/
theorem opReset_resets {s : State} {p : Nat} (h : tripped s = false) : (opReset s p).sys.mode = .inReset 3 ∧
    (opReset s p).mdl.norVlog = s.mdl.vlog ∧ (opReset s p).mdl.norFlog = s.mdl.flog := by
  have ht : tripped (mboxLines (mbxFlag (modPort s p fun x => { x with posted := false }) p 47 false)) = false := by
    simpa [tripped, modPort] using h
  unfold opReset
  simp only [ht, Bool.false_eq_true, if_false]
  refine ⟨enterReset_mode .., ?_, ?_⟩ <;> simp [enterReset_mdl, copyLogs, modPort]

/-! ## What an operation answers without acting (R698, R702) -/

theorem endSession_session (s : State) : (endSession s).mdl.session = none := by
  simp [endSession]

section
variable {s : State} {p : Nat} {y : Session} (h : s.mdl.session = some y)
include h

theorem noSession_own (hp : y.port = p) : noSession s p = none := by
  simp [noSession, h, hp]

theorem noSession_other (hp : y.port ≠ p) : noSession s p = some (plainAnswer 3, s) := by
  simp [noSession, h, hp]

end

/-- In its turn a port's command gets the answer of its operation. -/
theorem takeOp_answers {s : State} {p op lvl : Nat} {nor : NorReads} {err : Bool} (ht : turnPort s = some p)
    (ho : fld (port s p).cmd 39 32 = op) (hs : (port s p).lastSeq ≠ some (fld (port s p).cmd 47 40))
    (hl : lvl ≤ (port s p).level) (hr : reducedMailbox s = false) (ho' : opLevel op = some lvl) (h8 : op ≠ 8) :
    takeOp s p op nor err =
      answer (perform (turnTaken s p) p op nor err).2 p (perform (turnTaken s p) p op nor err).1 :=
  (takeOp_turn ht ho).trans (serve_performs ho hs hr ho' hl h8)

/-- Settles O60: `serve` under the conditions of each clause, the steps into the reset, and the two timeouts. STATUS 3 for
a session of another port, the matching of turn and operation, the fixed 30 s of port 2 and the operand that fails a write
of the NOR are choices of the model (log entries 54, 55, 57 and 144). -/
theorem mailboxEvents : Obligations.MailboxEvents := by
  unfold Obligations.MailboxEvents
  intro s p nor err
  refine ⟨⟨?info, ?begin, ?block, ?end_, ?abort, ?activate, ?confirm, ?logRead, ?retireReport, ?retireList, ?retireClear,
    ?userWrite, ?reset, ?repeated, ?lowLevel⟩, ?open_, ?session, ?closed, endSession_session s, ?log, ?result, ?timeout,
    ?copy⟩
  case reset =>
    rintro ⟨ht, ho, hs, hl, hr⟩
    exact ⟨congrArg Host.Outcome.next ((takeOp_turn ht ho).trans (serve_reset ho hs hr rfl hl rfl)),
      fun h => opReset_resets h⟩
  case repeated =>
    intro ht ho hs
    exact congrArg Host.Outcome.next ((takeOp_turn ht ho).trans (serve_repeated hs))
  case lowLevel =>
    intro ht ho hs hl hr
    exact congrArg Host.Outcome.next ((takeOp_turn ht ho).trans (serve_lowLevel ho hs hr rfl hl))
  case open_ =>
    intro h
    have h' : s.mdl.session.isSome = true := Option.isSome_iff_ne_none.2 h
    simp [opBegin, opActivate, opConfirm, h']
  case session =>
    intro y hy
    refine ⟨fun hp => ?_, fun hp => ?_⟩
    · simp [opAbort, noSession_own hy hp]
    · simp [opAbort, opBlock, opEnd, noSession_other hy hp]
  case closed =>
    intro h hk
    refine ⟨fun hv => ?_, fun hv => ?_, fun hb => ?_⟩
    · simp only [opActivate, h, not_lt.2 hk, hv, Option.isSome_none, Bool.false_eq_true, Bool.not_false, if_true, if_false]
    · simp only [opActivate, h, not_lt.2 hk, hv, Option.isSome_none, Bool.false_eq_true, Bool.not_true, if_true, if_false]
    · simp only [opConfirm, h, not_lt.2 hk, hb, Option.isSome_none, Bool.false_eq_true, Bool.not_false, if_true, if_false]
  case log =>
    intro i h0 h1 r hr
    simp [opLogRead, h0, h1, hr]
  case result =>
    intro h1 h2
    simp [exec, execResultTimeout, h1, h2]
  case timeout =>
    intro y hy
    refine ⟨fun ha ht => ?_, fun ha => ?_, fun ht => ?_⟩
    · simp [exec, execSessionTimeout, hy, ha, ht]
    · simp [exec, execSessionTimeout, hy, ha]
    · simp [exec, execSessionTimeout, hy, not_le.2 ht]
  case copy =>
    intro hr hc
    have hm : medullaActs s = true := by simp [medullaActs, hr, hc]
    simp [exec, execLogCopy, hm, copyLogs]
  all_goals
    rintro ⟨ht, ho, hs, hl, hr⟩
    exact congrArg Host.Outcome.next (takeOp_answers ht ho hs hl hr rfl (by decide))
end Sys2Proof.Machine
end

section
/-! Signals: what raising a source, driving a line or setting a field changes. Registers, counters and what is presented
to the cores may differ, and nothing else does; with the ring opened or closed, also what the ring keeps. -/

namespace Sys2Proof.Machine

open Sys2Proof

/-- Core q's presented source and the shadow of source 63, put into k. -/
def Core.signalled (k q : Core) : Core := { k with presented := q.presented, src63On := q.src63On, src63Ts := q.src63Ts }

/-- Of s only registers, counters and what is presented to the cores have changed: what the hardware does to raise a
source or to set a field. -/
def Signals (s t : State) : Prop :=
  t = { s with regs := t.regs, cnt := t.cnt, cores := t.cores } ∧ ∀ c, t.core c = (s.core c).signalled (t.core c)

theorem Signals.refl (s : State) : Signals s s := ⟨rfl, fun _ => rfl⟩

theorem Signals.trans {s t u : State} (h : Signals s t) (h' : Signals t u) : Signals s u := by
  obtain ⟨ht, hc⟩ := h
  obtain ⟨hu, hd⟩ := h'
  refine ⟨?_, fun c => ?_⟩
  · rw [ht] at hu
    rw [hu]
  · rw [hd c, hc c]
    rfl

theorem Signals.foldl {α : Type} {f : State → α → State} (h : ∀ s a, Signals s (f s a)) (l : List α) (s : State) :
    Signals s (l.foldl f s) := by
  induction l generalizing s with
  | nil => exact Signals.refl s
  | cons a l ih => exact (h s a).trans (ih _)

theorem signals_ite {c : Prop} [Decidable c] {s t u : State} (ht : Signals s t) (hu : Signals s u) :
    Signals s (if c then t else u) := by split <;> assumption

theorem signals_regSet (s : State) (a : Nat) (v : Word) : Signals s (regSet s a v) := by
  unfold regSet
  split <;> exact ⟨rfl, fun _ => rfl⟩

theorem signals_regFld (s : State) (a hi lo v : Nat) : Signals s (regFld s a hi lo v) := signals_regSet ..

theorem signals_regAddSat (s : State) (a hi lo n : Nat) : Signals s (regAddSat s a hi lo n) := signals_regSet ..

theorem signals_modCore (s : State) (c : CoreId) {f : Core → Core} (h : f (s.core c) = (s.core c).signalled (f (s.core c))) :
    Signals s (s.modCore c f) := by
  refine ⟨rfl, fun d => ?_⟩
  by_cases hd : d = c
  · subst hd
    rw [core_modCore_same]
    exact h
  · rw [core_modCore_other s _ hd]
    rfl

theorem signals_represent (s : State) (t : Nat) : Signals s (represent s t) := by
  unfold represent
  split
  · exact signals_modCore s _ rfl
  · exact Signals.refl s

theorem signals_assertEdge (s : State) (n : Nat) : Signals s (assertEdge s n) :=
  signals_ite (Signals.refl s) (signals_ite (signals_regAddSat ..)
    (((signals_regFld ..).trans (signals_regSet ..)).trans (signals_represent ..)))

theorem signals_setLine (s : State) (n : Nat) (on : Bool) : Signals s (setLine s n on) := by
  refine signals_ite (Signals.refl s) (signals_ite ?_ ?_)
  · exact (((signals_ite (Signals.refl s) (signals_regSet ..)).trans (signals_regFld ..)).trans (signals_regFld ..)).trans
      (signals_represent ..)
  · exact ((signals_regFld ..).trans (signals_regFld ..)).trans (signals_represent ..)

theorem signals_logStat (s : State) : Signals s (logStat s) := (signals_regFld ..).trans (signals_regFld ..)

namespace Signals
variable {s t : State} (h : Signals s t)
include h
theorem pending : t.pending = s.pending := by rw [h.1]
theorem coh : t.coh = s.coh := by rw [h.1]
theorem dram : t.dram = s.dram := by rw [h.1]
theorem struct : t.struct = s.struct := by rw [h.1]
theorem tick : t.tick = s.tick := by rw [h.1]
theorem ring : t.ring = s.ring := by rw [h.1]
theorem pinna : t.pinna = s.pinna := by rw [h.1]
theorem power : t.power = s.power := by rw [h.1]
theorem mdl : t.mdl = s.mdl := by rw [h.1]
theorem sys : t.sys = s.sys := by rw [h.1]
theorem tb : t.tb = s.tb := by rw [h.1]
theorem run (c : CoreId) : (t.core c).run = (s.core c).run := by rw [h.2 c]; rfl
theorem pc (c : CoreId) : (t.core c).pc = (s.core c).pc := by rw [h.2 c]; rfl
theorem g (c : CoreId) : (t.core c).g = (s.core c).g := by rw [h.2 c]; rfl
theorem waiting (c : CoreId) : (t.core c).waiting = (s.core c).waiting := by rw [h.2 c]; rfl
end Signals

/-- A record of the fault log: the log grows, the rest is signals (R743). -/
theorem logFault_signals (s : State) (code unit src : Nat) (w2 w3 : Word) :
    ∃ l, Signals { s with mdl := { s.mdl with flog := l } } (logFault s code unit src w2 w3) :=
  ⟨_, ((signals_ite (signals_regAddSat ..) (Signals.refl _)).trans (signals_logStat _)).trans (signals_assertEdge ..)⟩

theorem Signals.withSysRing {s t : State} (h : Signals s t) (y : Sys) (r : Ring) :
    Signals { s with sys := y, ring := r } { t with sys := y, ring := r } := by
  obtain ⟨ht, hc⟩ := h
  exact ⟨by rw [ht], hc⟩

theorem signals_count (s : State) (b code n : Nat) : Signals s (count s b code n) := ⟨rfl, fun _ => rfl⟩

theorem signals_bwAdd (s : State) (p n : Nat) : Signals s (bwAdd s p n) := ⟨rfl, fun _ => rfl⟩

/-- Signals, and what the ring keeps: its own state and whether the bypass conducts. -/
def RingSignals (s t : State) : Prop := Signals { s with ring := t.ring, sys := { s.sys with bypass := t.sys.bypass } } t

theorem Signals.onRing {s t : State} (h : Signals s t) : RingSignals s t := by
  unfold RingSignals
  rw [h.ring, h.sys]
  exact h

namespace RingSignals
variable {s t u : State}

theorem trans (h : RingSignals s t) (h' : RingSignals t u) : RingSignals s u := by
  have h1 := h.withSysRing { t.sys with bypass := u.sys.bypass } u.ring
  have e : t.sys = { s.sys with bypass := t.sys.bypass } := h.sys
  rw [e] at h1
  rw [RingSignals, e] at h'
  exact h1.trans h'

theorem foldl {α : Type} {f : State → α → State} (h : ∀ s a, RingSignals s (f s a)) (l : List α) (s : State) :
    RingSignals s (l.foldl f s) := by
  induction l generalizing s with
  | nil => exact (Signals.refl s).onRing
  | cons a l ih => exact (h s a).trans (ih _)

theorem ite {c : Prop} [Decidable c] (ht : RingSignals s t) (hu : RingSignals s u) : RingSignals s (if c then t else u) := by
  split <;> assumption

variable (h : RingSignals s t)
include h
theorem signals : Signals { s with ring := t.ring, sys := { s.sys with bypass := t.sys.bypass } } t := h
theorem tick : t.tick = s.tick := h.signals.tick
theorem power : t.power = s.power := h.signals.power
theorem mode : t.sys.mode = s.sys.mode := by rw [h.signals.sys]
theorem tb : t.tb = s.tb := h.signals.tb
theorem struct : t.struct = s.struct := h.signals.struct
theorem run (c : CoreId) : (t.core c).run = (s.core c).run := h.signals.run c
theorem pc (c : CoreId) : (t.core c).pc = (s.core c).pc := h.signals.pc c
theorem g (c : CoreId) : (t.core c).g = (s.core c).g := h.signals.g c
end RingSignals

theorem ringSignals_modRing (s : State) (f : Ring → Ring) : RingSignals s (modRing s f) := Signals.refl _

theorem ringSignals_bypass (s : State) (b : Bool) (r : Ring) :
    RingSignals s { s with sys := { s.sys with bypass := b }, ring := r } := Signals.refl _

/-- The ring closes: its ports are idle and the bypass conducts (R561). -/
theorem ringSignals_closeRing (s : State) : RingSignals s (closeRing s) :=
  have h : RingSignals s ((upto 2).foldl (fun s p => regFld (regFld s (aRingPort p) 7 4 0) (aRingPort p) 1 0 0)
      (regSet (regFld s aRingStat 47 45 0) aRingRtt 0)) :=
    ((signals_regFld ..).trans ((signals_regSet ..).trans
      (Signals.foldl (fun s p => (signals_regFld ..).trans (signals_regFld ..)) _ _))).onRing
  have h2 := h.trans (ringSignals_bypass _ true _)
  RingSignals.ite (h2.trans (signals_assertEdge _ 237).onRing) h2

/-- Training blocks go out on a port (R544). -/
theorem ringSignals_sendBlockAt (s : State) (p type a b : Nat) (lane : Option Nat) (time : Nat) :
    RingSignals s (sendBlockAt s p type a b lane time) :=
  (Signals.refl s).onRing.ite ((ringSignals_modRing ..).trans ((signals_count ..).trans (signals_bwAdd ..)).onRing)

theorem ringSignals_trainPort (s : State) (p : Nat) : RingSignals s (trainPort s p) :=
  (RingSignals.foldl (fun _ _ => ringSignals_sendBlockAt ..) _ s).trans (ringSignals_modRing ..)

/-- The ring opens: its ports train or the bypass stays (R555). -/
theorem ringSignals_openRing (s : State) : RingSignals s (openRing s) := by
  refine .ite ?_ (ringSignals_closeRing s)
  have h (r : Ring) : RingSignals s ((upto 2).foldl (fun s p => trainPort (regFld s (aRingPort p) 6 6 1) p)
      { regFld s aRingStat 47 45 1 with sys := { (regFld s aRingStat 47 45 1).sys with bypass := false }, ring := r }) :=
    ((signals_regFld s aRingStat 47 45 1).onRing.trans (ringSignals_bypass _ false r)).trans
      (RingSignals.foldl (fun s p => (signals_regFld s (aRingPort p) 6 6 1).onRing.trans (ringSignals_trainPort _ p)) _ _)
  exact .ite ((h _).trans ((signals_regFld ..).trans (signals_assertEdge ..)).onRing) (h _)

end Sys2Proof.Machine
end

section
/-! Power, resets and the start-up (chapters 1, 18, 21 and 22): votes, wakes, the exit from Quiescent, the thermal monitor,
clock faults, resets and the release. -/

namespace Sys2Proof.Machine

open Sys2Proof

/-! ## Votes (R665 to R668) -/

section
variable {s : State} {d : Fin 64} (hv : regF s aPwrVote 43 42 = 1) (hp : d.val ∈ s.power.participants)
  (ha : d.val ∉ s.power.agreed)
include hv hp ha

/-- A participant that keeps its caches and forces nothing is marked as agreed, and the vote settles (R665, R666). -/
theorem exec_agree_plain (hc : canAgree s d = true) (hb : d.val = 59 → pinnaBusy s = false) (hf : s.power.force = false)
    (hq : s.power.quiescentVote = false) (hg : goalOf s d ≠ 2) :
    exec (.agree d) s = .next (settleVote { regFld (regAddSat s aPwrVote 15 0 0) (aPwrPolicy d) 45 45 1 with
      power := { s.power with agreed := d.val :: s.power.agreed } }) := by
  have hs := signals_regAddSat s aPwrVote 15 0 0
  have hbusy : ¬(d.val = 59 ∧ pinnaBusy (regAddSat s aPwrVote 15 0 0) = true) := by
    rw [pinnaBusy, hs.pinna, ← pinnaBusy]
    rintro ⟨h, hb'⟩
    rw [hb h] at hb'
    cases hb'
  have hgoal : goalOf (regAddSat s aPwrVote 15 0 0) d ≠ 2 := by rwa [goalOf, hs.power, ← goalOf]
  simp [exec, execAgree, hv, hp, ha, hc, hf, hbusy, hs.power, hq, hgoal]

theorem exec_refuse_participant {reason : Nat} (hr : refusesFor s d reason = true) :
    exec (.refuse d reason) s = .next (refuseVote s d reason) := by
  simp [exec, execRefuse, hv, hp, ha, hr]

theorem exec_voteAnswerTimeout_due (ht : s.power.voteTb + regF s aPwrCtl 15 0 * 1000 ≤ s.now) :
    exec (.voteAnswerTimeout d) s = .next (refuseVote s d 5) := by
  simp [exec, execVoteAnswerTimeout, hv, hp, ha, ht]

end

/-! ## Wakes (R668, R672 to R674) -/

theorem wakeRefuses_of_find {s : State} {ds : List Nat} {d : Nat} (hv : regF s aPwrVote 43 42 = 1)
    (hd : ds.find? (fun d => s.power.participants.contains d) = some d) : wakeRefuses s ds = refuseVote s d 4 := by
  simp only [wakeRefuses, hv, hd]; rfl

theorem wakeRefuses_no_vote {s : State} (ds : List Nat) (hv : regF s aPwrVote 43 42 = 0) : wakeRefuses s ds = s := by
  simp only [wakeRefuses, hv]; rfl

theorem wakeRefuses_single (s : State) (d : Nat) : wakeRefuses s [d] =
    if (regF s aPwrVote 43 42 = 1 ∨ regF s aPwrVote 43 42 = 2) ∧ d ∈ s.power.participants then refuseVote s d 4 else s := by
  unfold wakeRefuses
  by_cases hv : regF s aPwrVote 43 42 = 1 ∨ regF s aPwrVote 43 42 = 2 <;>
    by_cases hd : d ∈ s.power.participants <;> simp [hv, hd]

theorem exec_dormantWake_interrupt {s : State} {d : Fin 64} (hq : s.power.quiescent = false)
    (hs : domState s d = 1 ∨ domState s d = 2) (hw : wakeInterrupt s d = true) :
    exec (.dormantWake d) s = .next (wakeDomain (wakeRefuses s [d.val]) d) := by
  simp [exec, execDormantWake, hq, hs, hw]

/-- The event names this node, where its source is the ring's wake pattern (R562). -/
def WakeNamed (s : State) (b : Fin 12) (node : Nat) : Prop := b.val = 11 → node = nodeNum s ∨ node = 0xFFF

theorem exec_wakeSource_ignored {s : State} {b : Fin 12} {node : Nat}
    (h : regB s aPwrWakeCfg (36 + b) = false ∨ wakePadded s b = false ∨ ¬WakeNamed s b node) :
    exec (.wakeSource ⟨b, node⟩) s = .next s := by
  simp only [WakeNamed, Classical.not_imp, not_or] at h
  rcases h with h | h | ⟨hb, h1, h2⟩
  · simp [exec, execWakeSource, h]
  · simp [exec, execWakeSource, h]
  · simp [exec, execWakeSource, wakeNamed, hb, h1, h2]

section
variable {s : State} {b : Fin 12} {node : Nat} (hr : regB s aPwrWakeCfg (36 + b) = true) (hp : wakePadded s b = true)
  (hn : WakeNamed s b node)
include hr hp hn

theorem wakeSource_heeded : (!regB s aPwrWakeCfg (36 + b) || !wakePadded s b || b.val = 11 && !wakeNamed s node) = false := by
  by_cases hb : b.val = 11
  · rcases hn hb with h | h <;> simp [hr, hp, wakeNamed, h]
  · simp [hr, hp, hb]

theorem exec_wakeSource_quiescent (hq : s.power.quiescent = true) : exec (.wakeSource ⟨b, node⟩) s =
    .next { regFld s aPwrWakeStat (36 + b) (36 + b) 1 with power := { s.power with wakePending := true } } := by
  simp only [exec, execWakeSource, wakeSource_heeded hr hp hn, hq, regFld_power, Bool.false_eq_true, if_false, if_true]

theorem exec_wakeSource_awake (hq : s.power.quiescent = false) : exec (.wakeSource ⟨b, node⟩) s =
    .next ((wakeDomains b).foldl (fun u d => if domState u d = 2 then wakeDomain u d else u)
      (wakeRefuses s (wakeDomains b))) := by
  simp only [exec, execWakeSource, wakeSource_heeded hr hp hn, hq, Bool.false_eq_true, if_false]

end

theorem exec_touchWakeScan_early {s : State} {sums old : List Nat} (h : s.power.touchSums = some old)
    (hd : s.ref < s.power.touchRef + regF s aPwrWakeCfg 35 26 * 1000000) : exec (.touchWakeScan sums) s = .next s := by
  simp [exec, execTouchWakeScan, h, touchScanDue, not_le.2 hd]

section
variable {s : State} {sums : List Nat} (hq : s.power.quiescent = true) (hc : regB s aPwrWakeCfg 44 = true)
  (ht : regB s aTouchCtl 47 = false)
include hq hc ht

theorem exec_touchWakeScan_first (h : s.power.touchSums = none) : exec (.touchWakeScan sums) s =
    .next { s with power := { s.power with touchRef := s.ref, touchSums := some sums } } := by
  simp [exec, execTouchWakeScan, hq, hc, ht, h, touchScanDue]

theorem exec_touchWakeScan_moved {old : List Nat} (h : s.power.touchSums = some old)
    (hd : s.power.touchRef + regF s aPwrWakeCfg 35 26 * 1000000 ≤ s.ref)
    (hm : ∃ p ∈ old.zip sums, p.1 + regF s aPwrWakeCfg 15 0 < p.2 ∨ p.2 + regF s aPwrWakeCfg 15 0 < p.1) :
    exec (.touchWakeScan sums) s = .next { regFld s aPwrWakeStat 44 44 1 with
      power := { s.power with touchRef := s.ref, wakePending := true } } := by
  have hmoved : ((old.zip sums).any fun p =>
      decide (regF s aPwrWakeCfg 15 0 < (if p.1 < p.2 then p.2 - p.1 else p.1 - p.2))) = true := by
    obtain ⟨p, hp, h⟩ := hm
    refine List.any_eq_true.2 ⟨p, hp, decide_eq_true ?_⟩
    split <;> omega
  have hdue : touchScanDue s = true := by simp [touchScanDue, hd]
  unfold exec execTouchWakeScan
  simp only [hq, hc, ht, hdue, h, Bool.not_false, Bool.and_self, if_true]
  exact (if_pos hmoved).trans rfl

end

/-! ## The time base through a module fault -/

@[simp] theorem foldl_tb {α : Type} {g : State → α → State} (h : ∀ s x, (g s x).tb = s.tb) (l : List α) (s : State) :
    (l.foldl g s).tb = s.tb := foldl_keeps h l s

@[simp] theorem ite_tb (c : Prop) [Decidable c] (a b : State) : (if c then a else b).tb = if c then a.tb else b.tb :=
  apply_ite State.tb c a b

@[simp] theorem assertEdge_tb (s : State) (n : Nat) : (assertEdge s n).tb = s.tb := (signals_assertEdge s n).tb

@[simp] theorem regAddSat_tb (s : State) (a hi lo n : Nat) : (regAddSat s a hi lo n).tb = s.tb := regFld_tb ..

@[simp] theorem logFault_tb (s : State) (code unit src : Nat) (w2 w3 : Word) : (logFault s code unit src w2 w3).tb = s.tb := by
  obtain ⟨_, h⟩ := logFault_signals s code unit src w2 w3
  exact h.tb

@[simp] theorem safeEnter_tb (s : State) (g cause : Nat) : (safeEnter s g cause).tb = s.tb := by simp [safeEnter, setFronts]

@[simp] theorem safeGroup_tb (s : State) (g cause : Nat) : (safeGroup s g cause).tb = s.tb := by simp [safeGroup]

@[simp] theorem closeRing_tb (s : State) : (closeRing s).tb = s.tb := (ringSignals_closeRing s).tb

@[simp] theorem holdClusters_tb (s : State) : (holdClusters s).tb = s.tb := regFld_tb ..

@[simp] theorem enterReset_tb (s : State) (cause fault : Nat) : (enterReset s cause fault).tb = s.tb := by
  simp [enterReset, dacsOff]

@[simp] theorem enterHold_tb (s : State) (fault : Nat) : (enterHold s fault).tb = s.tb := by simp [enterHold]

@[simp] theorem moduleFault_tb (s : State) (f : Nat) : (moduleFault s f).tb = s.tb := by
  unfold moduleFault
  dsimp only
  split <;> simp [copyLogs, dacsOff]

@[simp] theorem retireChannel_tb (s : State) (c : Nat) : (retireChannel s c).tb = s.tb := by
  simp [retireChannel, recordRetirement]

/-! ## The exit from Quiescent (R677) -/

/-- The watchdogs that resume change the timers alone (R326). -/
theorem resumeWdogs_timers (s : State) (p : Nat → Bool) : ∃ t, resumeWdogs s p = { s with timers := t } := by
  unfold resumeWdogs
  generalize upto 36 = l
  induction l generalizing s with
  | nil => exact ⟨s.timers, rfl⟩
  | cons w l ih =>
    rw [List.foldl_cons]
    split
    · split
      · exact ih _
      · exact ih _
    · exact ih _

/-- With no failing channel a wake sets when the refreshes are due, and nothing else (R450). -/
theorem wakeChannels_nil (s : State) :
    wakeChannels s [] = { s with memctl := { s.memctl with refreshDue := List.replicate 8 s.now } } := by
  have h : (channelsIn s).filter (failsWake []) = [] := List.filter_eq_nil_iff.2 fun c _ => by simp [failsWake]
  rw [wakeChannels, h]
  rfl

theorem wakeChannels_tb (s : State) (train : List Nat) : (wakeChannels s train).tb = s.tb := by
  simp [wakeChannels]

theorem wakeModule_tb (s : State) : (wakeModule s).tb = s.tb := by
  unfold wakeModule
  split
  · dsimp only
    split
    · exact (regFld_tb ..).trans ((regFld_tb ..).trans (ringSignals_openRing s).tb)
    · exact (ringSignals_openRing s).tb
  · rfl

theorem wakeModule_power (s : State) : (wakeModule s).power = s.power := by
  unfold wakeModule
  split
  · dsimp only
    split
    · exact (regFld_power ..).trans ((regFld_power ..).trans (ringSignals_openRing s).power)
    · exact (ringSignals_openRing s).power
  · rfl

/-! ### RING_CFG through the opening of the ring -/

theorem regGet_regFld_other (s : State) {a b : Nat} (hi lo v : Nat) (h : b ≠ a) : regGet (regFld s a hi lo v) b = regGet s b :=
  regGet_regSet_other s _ h

theorem regGet_represent (s : State) (n a : Nat) : regGet (represent s n) a = regGet s a := by
  unfold represent
  split <;> rfl

theorem regGet_assertEdge (s : State) {n a : Nat} (h1 : a ≠ aSrcState n) (h2 : a ≠ aSrcTs n) :
    regGet (assertEdge s n) a = regGet s a := by
  unfold assertEdge
  split
  · rfl
  · split
    · exact regGet_regFld_other s _ _ _ h1
    · rw [regGet_represent, regGet_regSet_other _ _ h2, regGet_regFld_other _ _ _ _ h1]

theorem regGet_sendBlockAt (s : State) (p type a b : Nat) (lane : Option Nat) (time : Nat) {r : Nat} (h : isPmc r = false) :
    regGet (sendBlockAt s p type a b lane time) r = regGet s r := by
  unfold sendBlockAt
  split
  · rfl
  · exact regGet_count _ _ _ _ _ h

theorem regGet_trainPort (s : State) (p : Nat) {r : Nat} (h : isPmc r = false) : regGet (trainPort s p) r = regGet s r :=
  foldl_keeps (p := fun s => regGet s r) (fun _ _ => regGet_sendBlockAt _ _ _ _ _ _ _ h) _ s

theorem regGet_closeRing_ringCfg (s : State) : regGet (closeRing s) aRingCfg = regGet s aRingCfg := by
  have h1 : regGet ((upto 2).foldl (fun s p => regFld (regFld s (aRingPort p) 7 4 0) (aRingPort p) 1 0 0)
      (regSet (regFld s aRingStat 47 45 0) aRingRtt 0)) aRingCfg = regGet s aRingCfg := by
    rw [foldl_keeps (p := fun s => regGet s aRingCfg) fun s p => ?_, regGet_regSet_other _ _ (by decide),
      regGet_regFld_other _ _ _ _ (by decide)]
    have hp : aRingCfg ≠ aRingPort p := by simp only [aRingCfg, aRingPort]; omega
    rw [regGet_regFld_other _ _ _ _ hp, regGet_regFld_other _ _ _ _ hp]
  unfold closeRing
  dsimp only
  split
  · exact (regGet_assertEdge _ (by decide) (by decide)).trans h1
  · exact h1

theorem regGet_openRing_ringCfg (s : State) : regGet (openRing s) aRingCfg = regGet s aRingCfg := by
  have h1 (u : State) : regGet ((upto 2).foldl (fun s p => trainPort (regFld s (aRingPort p) 6 6 1) p) u) aRingCfg =
      regGet u aRingCfg := by
    refine foldl_keeps (p := fun s => regGet s aRingCfg) (fun s p => ?_) _ u
    have hp : aRingCfg ≠ aRingPort p := by simp only [aRingCfg, aRingPort]; omega
    exact (regGet_trainPort _ _ (by decide)).trans (regGet_regFld_other _ _ _ _ hp)
  have h2 (r : Ring) := (h1 { regFld s aRingStat 47 45 1 with
    sys := { (regFld s aRingStat 47 45 1).sys with bypass := false }, ring := r }).trans
      (regGet_regFld_other s 47 45 1 (by decide : aRingCfg ≠ aRingStat))
  unfold openRing
  split
  · dsimp only
    split
    · rw [regGet_assertEdge _ (by decide) (by decide), regGet_regFld_other _ _ _ _ (by decide), h2]
    · exact h2 _
  · exact regGet_closeRing_ringCfg s

theorem wakeModule_running {s : State} (hm : s.sys.mode = .running)
    (h : regB s aRingCfg 34 = false ∨ regB s aRingCfg 35 = true) : (wakeModule s).tick.running = true := by
  have hc : (!regB (openRing s) aRingCfg 34 || regB (openRing s) aRingCfg 35) = true := by
    rw [regB, regB, regGet_openRing_ringCfg, ← regB, ← regB]
    rcases h with h | h <;> simp [h]
  unfold wakeModule
  rw [hm]
  dsimp only
  rw [if_pos hc]
  rfl

/-- The module awake again: its sleep counted, no longer Quiescent, its watchdogs running. -/
def awoken (s : State) (late : Bool) : State :=
  let u := { countSlept s late with power := { s.power with quiescent := false, wakePending := false } }
  resumeWdogs u fun w => !((upto 64).any fun d => domState u d = 2 && wdogOf u d w)

theorem awoken_timers (s : State) (late : Bool) : ∃ t, awoken s late = { countSlept s late with
    power := { s.power with quiescent := false, wakePending := false }, timers := t } := resumeWdogs_timers _ _

theorem exec_quiescentExit_due {s : State} (hq : s.power.quiescent = true) (hw : s.power.wakePending = true) (late : Bool)
    (train : List Nat) : exec (.quiescentExit late train) s = .next (assertEdge (wakeModule
      (regFld (wakeChannels (awoken s late) train) aPwrWakeStat 31 0 (satN 32 ((s.ref - s.power.enteredTb) / 1000000)))) 304) :=
  if_pos (by rw [hq, hw]; rfl)

theorem exec_quiescentExit_early {s : State} (h : s.power.quiescent = false ∨ s.power.wakePending = false) (late : Bool)
    (train : List Nat) : exec (.quiescentExit late train) s = .next s :=
  if_neg (by rcases h with h | h <;> simp [h])

section
variable {s : State} (hq : s.power.quiescent = true) (hw : s.power.wakePending = true)
include hq hw

theorem exec_quiescentExit_tb (late : Bool) (train : List Nat) : ∃ t, exec (.quiescentExit late train) s = .next t ∧
    t.tb = s.tb + BitVec.ofNat 96 (40 * ((s.ref - s.power.enteredTb) / 40 + late.toNat)) := by
  refine ⟨_, exec_quiescentExit_due hq hw late train, ?_⟩
  obtain ⟨x, hx⟩ := awoken_timers s late
  rw [assertEdge_tb, wakeModule_tb, regFld_tb, wakeChannels_tb, hx]
  rfl

theorem exec_quiescentExit_untrained (late : Bool) : ∃ t, exec (.quiescentExit late []) s = .next t ∧
    t.power.quiescent = false ∧ t.power.wakePending = false ∧
    (s.sys.mode = .running → (regB s aRingCfg 34 = false ∨ regB s aRingCfg 35 = true) → t.tick.running = true) := by
  obtain ⟨x, hx⟩ := awoken_timers s late
  refine ⟨_, exec_quiescentExit_due hq hw late [], ?_⟩
  have hpow : (wakeChannels (awoken s late) []).power = { s.power with quiescent := false, wakePending := false } := by
    rw [wakeChannels_nil, hx]
  have hmode : (wakeChannels (awoken s late) []).sys.mode = s.sys.mode := by rw [wakeChannels_nil, hx]; rfl
  have hreg (a : Nat) : regGet (wakeChannels (awoken s late) []) a = regGet s a := by rw [wakeChannels_nil, hx]; rfl
  rw [(signals_assertEdge _ 304).power, (signals_assertEdge _ 304).tick, wakeModule_power, regFld_power, hpow]
  refine ⟨rfl, rfl, fun hm hr => wakeModule_running ((congrArg Sys.mode (regFld_sys ..)).trans (hmode.trans hm)) ?_⟩
  rwa [regB, regB, regGet_regFld_other _ _ _ _ (by decide), hreg]

end

/-! ## The thermal monitor (R756) -/

theorem logFault_sys (s : State) (code unit src : Nat) (w2 w3 : Word) : (logFault s code unit src w2 w3).sys = s.sys := by
  obtain ⟨_, h⟩ := logFault_signals s code unit src w2 w3
  exact h.sys

/-- Below the critical level a reading is no new entry into it (R756). -/
theorem not_newly_critical {t : Int} (h : t < 480) (was : Bool) (b : Prop) [Decidable b] :
    ((if 480 ≤ t then true else was && decide b) && !was) = false := by
  rw [if_neg (not_le.2 h)]
  cases was <;> simp

/-- What a reading shows in THERM_STAT and on the two sources is signals. -/
theorem signals_thermalShown (s : State) (x y a b : Nat) (p q : Bool) : Signals s
    (setLine (regFld (setLine (regFld (regFld (regFld s aThermStat 47 36 x) aThermStat 35 24 y) aThermStat 1 1 a) 305 p)
      aThermStat 2 2 b) 306 q) :=
  ((signals_regFld ..).trans ((signals_regFld ..).trans (signals_regFld ..))).trans
    ((signals_setLine ..).trans ((signals_regFld ..).trans (signals_setLine ..)))

theorem exec_thermalMonitorRead_cool {s : State} {die : List Int} {dram : Int} (hm : s.sys.mode ≠ .off)
    (h : maxReading die < 480) : ∃ t, exec (.thermalMonitorRead die dram) s = .next t ∧ Signals s t := by
  refine ⟨_, (if_neg hm).trans ((if_neg ?_).trans rfl), ?_⟩
  · simp only [Bool.and_eq_true, decide_eq_true_eq, not_and]
    omega
  · dsimp only
    rw [if_neg (by rw [not_newly_critical h]; exact Bool.false_ne_true)]
    exact signals_thermalShown ..

/-- At 125 °C the trip is noted and is module fault 9 (R756). -/
theorem exec_thermalMonitorRead_trip {s : State} {die : List Int} {dram : Int} (hm : s.sys.mode ≠ .off)
    (h : 500 ≤ maxReading die) (hs : regB s aThermStat 3 = false) :
    ∃ u, exec (.thermalMonitorRead die dram) s = .next (moduleFault u 9) ∧ u.sys = { s.sys with thermN := true } := by
  refine ⟨_, (if_neg hm).trans ((if_pos ?_).trans rfl), ?_⟩
  · rw [regB] at hs
    simp [h, hs]
  · refine congrArg (fun y : Sys => { y with thermN := true }) ?_
    rw [apply_ite State.sys, logFault_sys, ite_self]
    exact (signals_thermalShown ..).sys

/-! ## Clock faults (R57 to R59) -/

theorem regGet_regSet_same_of_ne (s : State) {a : Nat} {v : Word} (h : v ≠ regReset a) : regGet (regSet s a v) a = v := by
  unfold regGet regSet
  have hw (l : List (Nat × Word)) : sread regReset (swrite regReset l a v) a = v := by
    rw [sread, swrite, if_neg h, sget_sins_same]
    rfl
  split <;> simp [*]

theorem aPwrPolicy_reset (d : Fin 64) : regReset (aPwrPolicy d) = 0 := by
  revert d; decide

theorem isPmc_aPwrPolicy (d : Fin 64) : isPmc (aPwrPolicy d) = false := by
  revert d; decide

theorem domState_held (s : State) (d : Fin 64) : domState (regFld s (aPwrPolicy d) 47 46 3) d = 3 := by
  have h : setFld (regGet s (aPwrPolicy d)) 47 46 3 ≠ regReset (aPwrPolicy d) := by
    rw [aPwrPolicy_reset]
    intro e
    have := fld_setFld_same (regGet s (aPwrPolicy d)) (hi := 47) (lo := 46) 3 (by decide) (by decide)
    rw [e] at this
    revert this
    decide
  rw [domState, regF, regFld, regGet_regSet_same_of_ne s h]
  exact fld_setFld_same _ 3 (by decide) (by decide)

/-- A core in reset, its caches empty (R57). -/
def AgentReset (c : CoreId) (s : State) : Prop :=
  (s.core c).run = .held ∧ (s.core c).waiting = none ∧ ∀ e ∈ s.coh.caches, e.agent ≠ coreNum c

theorem AgentReset.signals {c : CoreId} {s t : State} (h : AgentReset c s) (hs : Signals s t) : AgentReset c t := by
  rw [AgentReset, hs.run, hs.waiting, hs.coh]
  exact h

theorem resetAgent_resets (s : State) (c : CoreId) : AgentReset c (resetAgent s c) := by
  have hs := signals_represent (s.modCore c fun k => { k.toReset with run := .held }) (coreNum c)
  refine ⟨?_, ?_, fun e he => ?_⟩
  · refine (hs.run c).trans ?_
    rw [core_modCore_same]
  · refine (hs.waiting c).trans ?_
    rw [core_modCore_same]
    rfl
  · exact of_decide_eq_true (List.mem_filter.1 he).2

theorem resetAgent_keeps {c : CoreId} {s : State} (h : AgentReset c s) (d : CoreId) : AgentReset c (resetAgent s d) := by
  by_cases hd : c = d
  · exact hd ▸ resetAgent_resets s c
  · have hs := signals_represent (s.modCore d fun k => { k.toReset with run := .held }) (coreNum d)
    obtain ⟨hr, hw, hc⟩ := h
    refine ⟨?_, ?_, fun e he => ?_⟩
    · exact (hs.run c).trans (by rwa [core_modCore_other s _ hd])
    · exact (hs.waiting c).trans (by rwa [core_modCore_other s _ hd])
    · have he' := (List.mem_filter.1 he).1
      rw [coreToReset, hs.coh] at he'
      exact hc e he'

theorem foldl_resetAgent_resets {c : CoreId} {l : List CoreId} (s : State) (h : c ∈ l ∨ AgentReset c s) :
    AgentReset c (l.foldl resetAgent s) := by
  induction l generalizing s with
  | nil => exact h.resolve_left List.not_mem_nil
  | cons d l ih =>
    refine ih _ ?_
    rcases h with h | h
    · rcases List.mem_cons.1 h with rfl | h
      · exact .inr (resetAgent_resets s _)
      · exact .inl h
    · exact .inr (resetAgent_keeps h d)

theorem resetAgent_regs (s : State) (c : CoreId) : (resetAgent s c).regs = s.regs := by
  simp only [resetAgent, coreToReset, represent]
  split <;> rfl

/-- The reset of a block leaves the registers as its register reset and its lines do, and its cores in reset (R57). -/
theorem resetUnit_resets (s : State) (d : Nat) :
    (resetUnit s d).regs = (resetLines (resetRegs s d) d).regs ∧ ∀ c ∈ domainCores s d, AgentReset c (resetUnit s d) := by
  have hr : ((domainCores s d).foldl resetAgent (resetLines (resetRegs s d) d)).regs = (resetLines (resetRegs s d) d).regs :=
    foldl_keeps (p := State.regs) resetAgent_regs _ _
  have ha (c : CoreId) (hc : c ∈ domainCores s d) :=
    foldl_resetAgent_resets (resetLines (resetRegs s d) d) (.inl hc : c ∈ domainCores s d ∨ _)
  unfold resetUnit
  generalize (domainCores s d).foldl resetAgent (resetLines (resetRegs s d) d) = t at hr ha ⊢
  dsimp only
  split
  · exact ⟨hr, ha⟩
  · split
    · exact ⟨hr, ha⟩
    · split
      case h_14 =>
        refine ⟨hr, fun c hc => ?_⟩
        obtain ⟨hrun, hwait, hcaches⟩ := ha c hc
        exact ⟨by simpa [State.core] using hrun, by simpa [State.core] using hwait, hcaches⟩
      all_goals exact ⟨hr, ha⟩

theorem completeInstr_coh (s : State) (c : CoreId) (len : Nat) : (completeInstr s c len).coh = s.coh := by
  obtain ⟨p, hp⟩ := countsOnly_completeInstr s c len
  rw [← hp]
  rfl

theorem completeInstr_regs (s : State) (c : CoreId) (len : Nat) : (completeInstr s c len).regs = s.regs := by
  obtain ⟨p, hp⟩ := countsOnly_completeInstr s c len
  rw [← hp]
  rfl

/-- A waiting TLBSYNC that completes is none of a core in reset. -/
theorem retrySync_keeps {c : CoreId} {s : State} (h : AgentReset c s) (n : Nat) : AgentReset c (retrySync s n) := by
  obtain ⟨hr, hw, hc⟩ := h
  unfold retrySync
  split
  · next d _ =>
    split
    · next hd =>
      simp only [Bool.and_eq_true, decide_eq_true_eq] at hd
      have hne : c ≠ d := fun e => by rw [← e, hw] at hd; cases hd.1
      rw [AgentReset, core_completeInstr_other s 2 hne, completeInstr_coh]
      exact ⟨hr, hw, hc⟩
    · exact ⟨hr, hw, hc⟩
  · exact ⟨hr, hw, hc⟩

theorem retrySync_regs (s : State) (n : Nat) : (retrySync s n).regs = s.regs := by
  unfold retrySync
  split
  · split
    · exact completeInstr_regs ..
    · rfl
  · rfl

theorem settleSyncs_regs (s : State) : (settleSyncs s).regs = s.regs := by
  rw [settleSyncs, foldl_keeps (p := State.regs) retrySync_regs]

theorem foldl_retrySync_keeps {c : CoreId} (l : List Nat) (s : State) (h : AgentReset c s) :
    AgentReset c (l.foldl retrySync s) := by
  induction l generalizing s with
  | nil => exact h
  | cons n l ih => exact ih _ (retrySync_keeps h n)

theorem settleSyncs_keeps {c : CoreId} {s : State} (h : AgentReset c s) : AgentReset c (settleSyncs s) := by
  unfold settleSyncs
  refine foldl_retrySync_keeps _ _ ?_
  exact h

theorem settleSyncs_held (s : State) : (settleSyncs s).sys.held = s.sys.held := by
  rw [settleSyncs, foldl_keeps (p := State.sys) retrySync_sys]

/-! ### PWR_DOM_POLICY and the group registers through the reset of a block -/

theorem regDomain_aPwrPolicy (s : State) (d : Fin 64) : regDomain s (aPwrPolicy d) = none := by
  have h : (aPwrPolicy d - regBase) / 0x10000 = 0x10 := by
    simp only [aPwrPolicy, regBase]; omega
  unfold regDomain
  simp only [h]

theorem regGet_resetRegs_policy (s : State) (n : Nat) (d : Fin 64) :
    regGet (resetRegs s n) (aPwrPolicy d) = regGet s (aPwrPolicy d) := by
  have h : ∀ e ∈ s.regs.filter (fun e => regDomain s e.1 = some n), aPwrPolicy d ≠ e.1 := by
    intro e he h
    have := (List.mem_filter.1 he).2
    rw [← h, regDomain_aPwrPolicy] at this
    simp at this
  unfold resetRegs
  generalize s.regs.filter (fun e => regDomain s e.1 = some n) = l at h
  induction l generalizing s with
  | nil => rfl
  | cons e l ih =>
    rw [List.foldl_cons, ih _ fun x hx => h x (List.mem_cons_of_mem _ hx)]
    exact regGet_regSet_other s _ (h e List.mem_cons_self)

theorem regGet_setLine (s : State) {n a : Nat} (on : Bool) (h1 : a ≠ aSrcState n) (h2 : a ≠ aSrcTs n) :
    regGet (setLine s n on) a = regGet s a := by
  unfold setLine
  split
  · rfl
  · split
    · rw [regGet_represent, regGet_regFld_other _ _ _ _ h1, regGet_regFld_other _ _ _ _ h1]
      split
      · rfl
      · exact regGet_regSet_other _ _ h2
    · rw [regGet_represent, regGet_regFld_other _ _ _ _ h1, regGet_regFld_other _ _ _ _ h1]

theorem regGet_resetLines_policy (s : State) (n : Nat) (d : Fin 64) :
    regGet (resetLines s n) (aPwrPolicy d) = regGet s (aPwrPolicy d) := by
  have h : ∀ m ∈ (upto 320).filter (fun m => isLevelSource m && m ≠ 63 && sourceDomain m = n), m < 320 :=
    fun m hm => List.mem_range.1 (List.mem_filter.1 hm).1
  unfold resetLines
  generalize (upto 320).filter (fun m => isLevelSource m && m ≠ 63 && sourceDomain m = n) = l at h
  induction l generalizing s with
  | nil => rfl
  | cons m l ih =>
    have hm := h m List.mem_cons_self
    rw [List.foldl_cons, ih _ fun x hx => h x (List.mem_cons_of_mem _ hx)]
    refine regGet_setLine s _ ?_ ?_
    · simp only [aPwrPolicy, aSrcState]; omega
    · simp only [aPwrPolicy, aSrcTs]; omega

theorem regGet_logFault (s : State) (code unit src : Nat) (w2 w3 : Word) {a : Nat} (h1 : a ≠ aLogStat)
    (h2 : a ≠ aSrcState 310) (h3 : a ≠ aSrcTs 310) : regGet (logFault s code unit src w2 w3) a = regGet s a := by
  unfold logFault
  dsimp only
  rw [regGet_assertEdge _ h2 h3, logStat]
  rw [regGet_regFld_other _ _ _ _ h1, regGet_regFld_other _ _ _ _ h1]
  split
  · exact regGet_regFld_other _ _ _ _ h1
  · rfl

theorem domainCores_congr {s t : State} (h : ∀ g < 4, regGet t (aGrpCfg g) = regGet s (aGrpCfg g)) (d : Nat) :
    domainCores t d = domainCores s d := by
  have hg (i : Nat) : groupOf t i = groupOf s i := by
    unfold groupOf
    refine List.find?_congr fun g hg => ?_
    rw [grpMembers, grpMembers, regF, regF, h g (List.mem_range.1 hg)]
  have hd (c : CoreId) : coreDomain t c = coreDomain s c := by
    cases c <;> simp only [coreDomain, hg]
  unfold domainCores
  simp only [hd, hg]

/-! ### The fault -/

theorem clockFault_live {s : State} {d : Nat} (hm : s.sys.mode = .running ∨ s.sys.mode = .started)
    (hh : s.sys.held.contains d = false) (he : domainEnabled s d = true) (hq : d = 57 ∨ s.power.quiescent = false) :
    clockFault s d =
      if d = 57 then moduleFault s 6
      else
        let u := assertEdge (logFault s 0x0B d 239 0 0) 239
        if d = 56 then moduleFault { u with sys := { u.sys with held := d :: u.sys.held } } 1
        else { resetUnit (regFld u (aPwrPolicy d) 47 46 3) d with
          sys := { u.sys with held := d :: u.sys.held } } := by
  have hlive : (s.power.quiescent && decide (d ≠ 57)) = false := by
    rcases hq with h | h <;> simp [h]
  refine (if_neg ?_).trans ?_
  · rcases hm with h | h <;> simp only [h, hh, he, hlive] <;> decide
  · simp only [regFld_sys]

theorem exec_clockFault (d : Fin 64) (s : State) : exec (.clockFault d) s = .next (settleSyncs (clockFault s d.val)) := rfl

/-- A clock fault of a block with cores holds them in reset, their caches empty, and its domain's clock (R57). -/
theorem clockFault_holds {s : State} {d : Fin 64} (hm : s.sys.mode = .running ∨ s.sys.mode = .started)
    (hh : s.sys.held.contains d.val = false) (he : domainEnabled s d = true) (hq : s.power.quiescent = false)
    (h57 : d.val ≠ 57) (h56 : d.val ≠ 56) :
    (settleSyncs (clockFault s d)).sys.held = d.val :: s.sys.held ∧ domState (settleSyncs (clockFault s d)) d = 3 ∧
      ∀ c ∈ domainCores s d, AgentReset c (settleSyncs (clockFault s d)) := by
  have hsys : (assertEdge (logFault s 0x0B d 239 0 0) 239).sys = s.sys := (assertEdge_sys ..).trans (logFault_sys ..)
  rw [clockFault_live hm hh he (.inr hq), if_neg h57]
  dsimp only
  rw [if_neg h56, hsys]
  have hcores : domainCores (regFld (assertEdge (logFault s 0x0B d 239 0 0) 239) (aPwrPolicy d) 47 46 3) d =
      domainCores s d := by
    refine domainCores_congr (fun g hg => ?_) d
    rw [regGet_regFld_other, regGet_assertEdge, regGet_logFault]
    all_goals simp only [aGrpCfg, aPwrPolicy, aSrcState, aSrcTs, aLogStat]; omega
  obtain ⟨hregs, hreset⟩ := resetUnit_resets (regFld (assertEdge (logFault s 0x0B d 239 0 0) 239) (aPwrPolicy d) 47 46 3) d
  rw [hcores] at hreset
  have hstate := domState_held (assertEdge (logFault s 0x0B d 239 0 0) 239) d
  generalize regFld (assertEdge (logFault s 0x0B d 239 0 0) 239) (aPwrPolicy d) 47 46 3 = u at hregs hreset hstate ⊢
  have hpmc : isPmc (aPwrPolicy d) = false := isPmc_aPwrPolicy d
  have hof (x y : State) (h : x.regs = y.regs) : regGet x (aPwrPolicy d) = regGet y (aPwrPolicy d) := by
    simp only [regGet, hpmc, Bool.false_eq_true, if_false, h]
  have hsettled (y : Sys) : domState (settleSyncs { resetUnit u d with sys := y }) d = 3 := by
    have h : (settleSyncs { resetUnit u d with sys := y }).regs = (resetLines (resetRegs u d) d).regs := by
      rw [settleSyncs_regs]
      exact hregs
    rw [domState, regF, hof _ _ h, regGet_resetLines_policy, regGet_resetRegs_policy]
    exact hstate
  refine ⟨?_, hsettled _, fun c hc => settleSyncs_keeps ?_⟩
  · rw [settleSyncs_held]
  · exact hreset c hc

/-! ## Resets and the release (R60, R726, R728, R751 to R753) -/

theorem exec_powerUp_off {s : State} (h : s.sys.mode = .off) :
    ∃ t, exec .powerUp s = .next t ∧ t.tb = 0 ∧ t.sys.mode = .inReset 1 := by
  refine ⟨_, if_pos h, ?_, ?_⟩
  · rw [regFld_tb, regFld_tb]
    exact (signals_logStat _).tb.trans (regSet_tb ..)
  · rw [regFld_sys, regFld_sys]
    exact congrArg Sys.mode ((signals_logStat _).sys.trans (regSet_sys ..))

theorem exec_supplyDip_long {ns : Nat} (s : State) (h : 2000 < ns) :
    ∃ t, exec (.supplyDip ns) s = .next t ∧ t.sys.mode = .off ∧ t.sys.bypass = true :=
  ⟨_, if_pos h, rfl, closeRing_bypass (holdClusters s)⟩

theorem enterReset_bypass (s : State) (cause fault : Nat) : (enterReset s cause fault).sys.bypass = true :=
  closeRing_bypass _

theorem enterReset_stopped (s : State) (cause fault : Nat) : (enterReset s cause fault).tick.running = false := by
  have h : (enterReset s cause fault).tick = (holdClusters s).tick :=
    (ringSignals_closeRing _).tick.trans ((regFld_tick ..).trans (regFld_tick ..))
  rw [h, holdClusters, regFld_tick]

theorem holdClusters_held (s : State) {c : CoreId} (h : c ≠ .medulla) : ((holdClusters s).core c).run = .held := by
  have hc : c.agent.val ≠ 32 := by
    cases c with
    | medulla => exact absurd rfl h
    | app i => simp only [CoreId.agent]; omega
    | frond i => simp only [CoreId.agent]; omega
  simp [holdClusters, State.core, hc]

theorem enterReset_held (s : State) (cause fault : Nat) {c : CoreId} (h : c ≠ .medulla) :
    ((enterReset s cause fault).core c).run = .held := by
  have hs : RingSignals (holdClusters s) (closeRing (regFld (regFld (holdClusters s) aRstCause 47 40 cause) aRstCause 39 32 fault)) :=
    ((signals_regFld ..).trans (signals_regFld ..)).onRing.trans (ringSignals_closeRing _)
  exact (hs.run c).trans (holdClusters_held s h)

/-! ### The release (R60) -/

theorem startCore0_enabled {s : State} (h : domainEnabled s 0 = true) (pc : Word) :
    startCore0 s pc = s.setCore (.app 0) { Core.reset with pc := pc, run := .running } := if_pos h

theorem startCore0_sys (s : State) (pc : Word) : (startCore0 s pc).sys = s.sys := by
  unfold startCore0; split <;> rfl

theorem safeGroup_sys (s : State) (g cause : Nat) : (safeGroup s g cause).sys = s.sys := by
  have h : (safeEnter s g cause).sys = s.sys := by
    unfold safeEnter
    dsimp only
    split
    · exact regSet_sys ..
    · exact (assertEdge_sys ..).trans (regSet_sys ..)
  unfold safeGroup
  dsimp only
  split
  · exact (logFault_sys ..).trans h
  · exact h

theorem logFault_struct (s : State) (code unit src : Nat) (w2 w3 : Word) :
    (logFault s code unit src w2 w3).struct = s.struct := by
  obtain ⟨_, h⟩ := logFault_signals s code unit src w2 w3
  exact h.struct

theorem safeGroup_struct (s : State) (g cause : Nat) : (safeGroup s g cause).struct = s.struct := by
  have h : (safeEnter s g cause).struct = s.struct := by
    unfold safeEnter
    dsimp only
    split
    · exact regSet_struct ..
    · exact (signals_assertEdge ..).struct.trans (regSet_struct ..)
  unfold safeGroup
  dsimp only
  split
  · exact (logFault_struct ..).trans h
  · exact h

/-- The Frond cores parked and the groups in their safe state, as the release leaves them (R467). -/
def frondsReleased (s : State) : State :=
  (upto 4).foldl (fun s g =>
      if (upto 16).any fun c => (grpMembers s g).testBit c && frondState s c = 3 then safeGroup s g 3 else s)
    ((upto 16).foldl (fun s c =>
      if (groupOf s c).isSome && frondState s c = 0 then s.modCore (frondId c) fun k => { k with run := .parked } else s) s)

theorem frondsReleased_sys (s : State) : (frondsReleased s).sys = s.sys := by
  unfold frondsReleased
  rw [foldl_keeps (p := State.sys), foldl_keeps (p := State.sys)]
  · intro s c; split <;> rfl
  · intro s g; split
    · exact safeGroup_sys ..
    · rfl

theorem frondsReleased_struct (s : State) : (frondsReleased s).struct = s.struct := by
  unfold frondsReleased
  rw [foldl_keeps (p := State.struct), foldl_keeps (p := State.struct)]
  · intro s c; split <;> rfl
  · intro s g; split
    · exact safeGroup_struct ..
    · rfl

theorem exec_clusterRelease_recovery {s : State} (h : s.sys.mode = .started) (hr : s.sys.recovery = true) :
    exec .clusterRelease s =
      .next (startCore0 { s with sys := { s.sys with mode := .running } } (Config.recoveryEntry.zeroExtend 48)) :=
  (if_pos h).trans (if_pos hr)

theorem exec_clusterRelease_image {s : State} (h : s.sys.mode = .started) (hr : s.sys.recovery = false) :
    exec .clusterRelease s =
      (let u := frondsReleased (regFld { s with sys := { s.sys with mode := .running } } aRstCause 7 0 9)
      .next (openRing (startTick (startCore0 u u.sys.loaderEntry)))) :=
  (if_pos h).trans (if_neg (by simp [hr]))

theorem startTick_core (s : State) (c : CoreId) : (startTick s).core c = s.core c := by
  simp only [State.core, startTick, regFld_cores]

theorem exec_clusterRelease_started {s : State} (h : s.sys.mode = .started) :
    ∃ t, exec .clusterRelease s = .next t ∧ t.sys.mode = .running ∧
      (domainEnabled s 0 = true → (t.core (.app 0)).run = .running ∧ (t.core (.app 0)).g = Core.reset.g) ∧
      (s.sys.recovery = false → t.tick.running = true ∧
        (domainEnabled s 0 = true → (t.core (.app 0)).pc = s.sys.loaderEntry)) := by
  cases hr : s.sys.recovery with
  | true =>
    refine ⟨_, exec_clusterRelease_recovery h hr, ?_, fun he => ?_, nofun⟩
    · rw [startCore0_sys]
    · rw [startCore0_enabled (show domainEnabled { s with sys := { s.sys with mode := .running } } 0 = true from he),
        core_setCore_same]
      exact ⟨rfl, rfl⟩
  | false =>
    refine ⟨_, exec_clusterRelease_image h hr, ?_⟩
    dsimp only
    have hs := frondsReleased_sys (regFld { s with sys := { s.sys with mode := .running } } aRstCause 7 0 9)
    have hx := frondsReleased_struct (regFld { s with sys := { s.sys with mode := .running } } aRstCause 7 0 9)
    rw [regFld_sys] at hs
    rw [regFld_struct] at hx
    generalize frondsReleased (regFld { s with sys := { s.sys with mode := .running } } aRstCause 7 0 9) = u at hs hx ⊢
    have ho := ringSignals_openRing (startTick (startCore0 u u.sys.loaderEntry))
    have he : domainEnabled u 0 = domainEnabled s 0 := by
      rw [domainEnabled, clockWord, hx]
      rfl
    have hcore (hd : domainEnabled s 0 = true) : (startTick (startCore0 u u.sys.loaderEntry)).core (.app 0) =
        { Core.reset with pc := s.sys.loaderEntry, run := .running } := by
      rw [startTick_core, startCore0_enabled (he.trans hd), core_setCore_same, hs]
    refine ⟨?_, fun hd => ⟨?_, ?_⟩, fun _ => ⟨?_, fun hd => ?_⟩⟩
    · rw [ho.mode, startTick]
      dsimp only
      rw [regFld_sys, regFld_sys, startCore0_sys, hs]
    · rw [ho.run, hcore hd]
    · rw [ho.g, hcore hd]
    · rw [ho.tick]
      rfl
    · rw [ho.pc, hcore hd]

/-- Settles O59: each event's own lemma, clause by clause. That a wake which ends a vote counts as reason 4, that an exit
from Quiescent may be one period late, and that the stages run up to the one that exceeds its bound, are choices of the
model (log entries 88, 146 and 53), as the pads of 162 and the held unit of 143 are. -/
theorem powerAndStartEvents : Obligations.PowerAndStartEvents := by
  unfold Obligations.PowerAndStartEvents
  intro s
  refine ⟨fun d hv hp ha => ?vote, fun d hq hd hw => ?dormant, fun b node => ?source, fun sums hq hc ht => ?touch,
    fun hq hw => ?exit, fun h late train => exec_quiescentExit_early h late train, fun die dram hm => ?thermal,
    fun d hm hh he => ?clock, exec_powerUp_off, fun ns h => exec_supplyDip_long s h, fun ns h => if_neg (not_lt.2 h),
    fun ns h ho hr ht => ?resetN, fun hd ht => ?debug, fun ms hm hms => ?reference, fun cause fault => ?enter,
    fun cause inp hm => ?stages, exec_clusterRelease_started⟩
  case vote =>
    have hp : d.val ∈ s.power.participants := List.contains_iff_mem.1 hp
    have ha : d.val ∉ s.power.agreed := fun h => by rw [List.contains_iff_mem.2 h] at ha; cases ha
    refine ⟨fun hc hb hf hq hg => ⟨_, _, exec_agree_plain hv hp ha hc hb hf hq hg, rfl, rfl, rfl⟩,
      fun reason hr => exec_refuse_participant hv hp ha hr, fun ht => exec_voteAnswerTimeout_due hv hp ha ht⟩
  case dormant => exact (exec_dormantWake_interrupt hq hd hw).trans (by rw [wakeRefuses_single])
  case source =>
    refine ⟨exec_wakeSource_ignored, fun hr hp hn => ⟨exec_wakeSource_quiescent hr hp hn, fun hq hv => ?_,
      fun d hq hv hd => ?_⟩⟩
    · rw [exec_wakeSource_awake hr hp hn hq, wakeRefuses_no_vote _ hv]
    · rw [exec_wakeSource_awake hr hp hn hq, wakeRefuses_of_find hv hd]
  case touch =>
    exact ⟨exec_touchWakeScan_first hq hc ht, fun old h hd => exec_touchWakeScan_early h hd,
      fun old h hd hm => exec_touchWakeScan_moved hq hc ht h hd hm⟩
  case exit => exact ⟨exec_quiescentExit_tb hq hw, exec_quiescentExit_untrained hq hw⟩
  case thermal =>
    refine ⟨fun h _ => ?_, exec_thermalMonitorRead_trip hm⟩
    obtain ⟨t, ht, hs⟩ := exec_thermalMonitorRead_cool (dram := dram) hm h
    exact ⟨t, ht, hs.sys, by rw [hs.mdl]⟩
  case clock =>
    refine ⟨fun h => ?_, fun hq => ⟨fun h => ?_, fun h57 h56 => ?_⟩⟩
    · rw [exec_clockFault, clockFault_live hm hh he (.inl h), if_pos h]
    · rw [exec_clockFault, clockFault_live hm hh he (.inr hq), if_neg (by omega)]
      dsimp only
      rw [if_pos h]
    · obtain ⟨hheld, hstate, hcores⟩ := clockFault_holds hm hh he hq h57 h56
      refine ⟨_, exec_clockFault d s, hheld, hstate, fun c hc => ?_⟩
      obtain ⟨hrun, -, hcaches⟩ := hcores c hc
      exact ⟨hrun, hcaches⟩
  case resetN => exact if_pos (by simp [h, ho, hr, ht])
  case debug => exact if_pos (by simp [hd, ht])
  case reference => exact if_pos (by simp [hm, hms])
  case enter =>
    exact ⟨enterReset_mode .., enterReset_bypass .., enterReset_stopped .., fun c hc => enterReset_held _ _ _ hc⟩
  case stages =>
    refine ⟨if_pos hm, fun stage h1 h8 => ?_⟩
    simp only [exec, execStageTimeout, hm]
    exact if_pos (by simp [h1, h8])

end Sys2Proof.Machine
end

section
/-! The ring's own events (chapter 14): check words and the scrambler, then the frames, the control blocks and the events
of a link. -/

namespace Sys2Proof.Machine

open Sys2Proof

/-! ## Check words (R535, R546) -/

theorem sectionGood_sealSection (n : Nat) (x : Section) : sectionGood n (sealSection n x) = true := decide_eq_true rfl

/-- A check and its stomped form differ in their lowest bit (R535). -/
theorem stompOf_ne_checkOf (n : Nat) (l : List Word) : stompOf n l ≠ checkOf n l := by
  intro h
  have hb := congrArg (BitVec.getLsbD · 0) h
  simp only [stompOf, checkOf, mk, BitVec.getLsbD_or] at hb
  rw [getLsbD_setFld _ _ (by decide) (by decide), getLsbD_setFld _ _ (by decide) (by decide),
    getLsbD_setFld _ _ (by decide) (by decide)] at hb
  simp at hb
  omega

theorem sectionGood_stompSection (n : Nat) (x : Section) : sectionGood n (stompSection n x) = false :=
  decide_eq_false (stompOf_ne_checkOf n (covered x))

theorem stompBad_good {n : Nat} {x : Section} (h : sectionGood n x = true) : stompBad n x = x := by
  simp [stompBad, sectionBad, h]

/-- A bad section leaves stomped, and one that came stomped stays so (R546). -/
theorem stompBad_not_good {n : Nat} {x : Section} (h : sectionGood n x = false) : stompBad n x = stompSection n x := by
  cases hs : sectionStomped n x with
  | false => simp [stompBad, sectionBad, h, hs]
  | true =>
    have hx : x.check = stompOf n (covered x) := of_decide_eq_true hs
    rw [stompSection, ← hx]
    simp [stompBad, sectionBad, hs]

/-! ## The scrambler (R530) -/

/-- The last line bits when k bits of a payload have gone through the scrambler. -/
def scrambledState (st : BitVec 58) (w : Word) : Nat → BitVec 58
  | 0 => st
  | k + 1 => (scrambledState st w k <<< 1) |||
      (if scrambleBit (scrambledState st w k) (w.getLsbD k) then 1 else 0)

/-- Line bit k of a scrambled payload. -/
def lineBit (st : BitVec 58) (w : Word) (k : Nat) : Bool := scrambleBit (scrambledState st w k) (w.getLsbD k)

theorem scrambleBit_involutive (st : BitVec 58) (b : Bool) : scrambleBit st (scrambleBit st b) = b := by
  unfold scrambleBit
  cases b <;> cases st.getLsbD 38 <;> cases st.getLsbD 57 <;> rfl

/-- The low n bits of a word, set one after the other, are those given. -/
theorem getLsbD_setBit_next {w : Word} {f : Nat → Bool} {n i : Nat} (hn : n < 48) (hi : i < 48)
    (h : w.getLsbD i = (decide (i < n) && f i)) : (setBit w n (f n)).getLsbD i = (decide (i < n + 1) && f i) := by
  by_cases e : i = n
  · subst e
    rw [show (setBit w i (f i)).getLsbD i = f i from bit_setBit_same w (f i) hn]
    simp
  · have hlt : decide (i < n + 1) = decide (i < n) := decide_eq_decide.2 (by omega)
    rw [hlt, ← h, setBit, getLsbD_setFld _ _ le_rfl hi, if_neg (by omega)]

theorem scramble_fold (st : BitVec 58) (w : Word) {n : Nat} (hn : n ≤ 48) :
    ∃ v, (upto n).foldl (fun a i =>
      let b := scrambleBit a.2 (w.getLsbD i)
      (setBit a.1 i b, (a.2 <<< 1) ||| (if b then 1 else 0))) ((0 : Word), st) = (v, scrambledState st w n) ∧
    ∀ i < 48, v.getLsbD i = (decide (i < n) && lineBit st w i) := by
  induction n with
  | zero => exact ⟨0, rfl, by simp⟩
  | succ n ih =>
    obtain ⟨v, hv, hb⟩ := ih (by omega)
    refine ⟨setBit v n (lineBit st w n), ?_, fun i hi => getLsbD_setBit_next (by omega) hi (hb i hi)⟩
    rw [upto, List.range_succ, List.foldl_append]
    rw [upto] at hv
    rw [hv]
    rfl

theorem descramble_fold (st : BitVec 58) (w : Word) {p : Word} (hp : ∀ i < 48, p.getLsbD i = lineBit st w i) {n : Nat}
    (hn : n ≤ 48) :
    ∃ v, (upto n).foldl (fun a i =>
      let b := p.getLsbD i
      (setBit a.1 i (scrambleBit a.2 b), (a.2 <<< 1) ||| (if b then 1 else 0))) ((0 : Word), st) =
        (v, scrambledState st w n) ∧
    ∀ i < 48, v.getLsbD i = (decide (i < n) && w.getLsbD i) := by
  induction n with
  | zero => exact ⟨0, rfl, by simp⟩
  | succ n ih =>
    obtain ⟨v, hv, hb⟩ := ih (by omega)
    refine ⟨setBit v n (w.getLsbD n), ?_, fun i hi => getLsbD_setBit_next (by omega) hi (hb i hi)⟩
    rw [upto, List.range_succ, List.foldl_append]
    rw [upto] at hv
    rw [hv]
    simp only [List.foldl_cons, List.foldl_nil, hp n (by omega)]
    rw [lineBit, scrambleBit_involutive]
    rfl

theorem descramble_scramble (st : BitVec 58) (w : Word) : descramble st (scramble st w).1 = (w, (scramble st w).2) := by
  obtain ⟨v, hv, hb⟩ := scramble_fold st w (n := 48) le_rfl
  have hs : scramble st w = (v, scrambledState st w 48) := hv
  obtain ⟨u, hu, hc⟩ := descramble_fold st w (p := v)
    (fun i hi => by rw [hb i hi, decide_eq_true hi, Bool.true_and]) (n := 48) le_rfl
  have hw : u = w := BitVec.eq_of_getLsbD_eq fun i hi => by rw [hc i hi, decide_eq_true hi, Bool.true_and]
  rw [hw] at hu
  rw [hs]
  exact hu

/-! ## Lane errors (R545, R559) -/

theorem syncErrors_data {l : List Block} (h : ∀ b ∈ l, b.sync = 1) (st : BitVec 58) : syncErrors st l = 0 := by
  induction l generalizing st with
  | nil => rfl
  | cons b t ih =>
    have hb := h b (by simp)
    rw [syncErrors, ih fun c hc => h c (by simp [hc])]
    simp [hb]

theorem laneFaults_clean {x : LaneIn} (h : ∀ b ∈ x.blocks, b.sync = 1) (hp : x.bip = laneParity x.blocks) :
    laneFaults x = 0 := by
  simp [laneFaults, syncErrors_data h, hp]

theorem laneFaults_sync {x : LaneIn} {b : Block} {l : List Block} (h : x.blocks = b :: l) (hb : b.sync = 0 ∨ b.sync = 3) :
    1 ≤ laneFaults x := by
  have hs : 1 ≤ syncErrors x.before x.blocks := by
    rw [h, syncErrors]
    rcases hb with hb | hb <;> simp [hb]
  exact hs.trans (Nat.le_add_right ..)

/-! ## Frames (R544, R547) -/

theorem exec_ringFrameEmit_due {s : State} (hs : ringState s = 6 ∨ ringState s = 7) (hb : s.sys.bypass = false)
    (ht : s.tick.running = true) (he : s.ring.emitted = false) (h8 : 8 ≤ (s.tbl - regGet s aTickLast).toNat) :
    exec .ringFrameEmit s = .next (modRing (emitCopy (emitCopy s false) true) fun r =>
      { r with emitted := true, announced := r.handover.isSome }) :=
  if_pos (by simp only [hb, ht, he, decide_eq_true h8]; simpa using hs)

theorem received_apart {s : State} {p : Nat} {fr : RingFrame} (hl : liveLanes s p = 2) (hk : 16 < fr.skew) :
    received s p fr = none := by
  simp [received, apart, hl, hk]

theorem received_whole {s : State} {p : Nat} {fr : RingFrame} (hl : liveLanes s p ≠ 2 ∨ fr.skew ≤ 16)
    (ht : s.tick.running = false ∨ ringState s < 3 ∨ s.now + blockNs fr * frameBlocks fr + 40 ≤ s.tick.next) :
    received s p fr = some fr := by
  have ha : apart s p fr = false := by
    rcases hl with hl | hk
    · simp [apart, hl]
    · simp [apart, hk]
  have hi : inTime s fr = none := by
    refine if_neg ?_
    rcases ht with ht | ht | ht
    · simp [ht]
    · have h4 : ¬ 4 ≤ ringState s := by omega
      have h3 : ringState s ≠ 3 := by omega
      simp [h4, h3]
    · simp [fitsFrame, ht]
  simp [received, ha, hi]

/-- The port that a copy of a direction arrives at (R537). -/
def arrivalPort (d : Dir) : Nat := if d = .east then 1 else 0

/-- The state in which a received copy is taken: its blocks are counted and its bad sections asked for (R546). -/
def copyNoted (s : State) (p : Nat) (got : RingFrame) : State :=
  bwAdd (noteBad s p got) (25 + 2 * p) (frameBlocks got)

section
variable {s : State} {d : Dir} {fr : RingFrame} (hb : s.sys.bypass = false) (h2 : 2 ≤ ringState s)
  (hl : linkUp s (arrivalPort d) = true) (hh : portHears s (arrivalPort d) = true)
include hb h2 hl hh

theorem exec_ringFrame : exec (.ringFrame d fr) s =
    match received s (arrivalPort d) fr with
    | none => .next s
    | some got =>
      match headerIn got with
      | none => .next (forward (notePass (copyNoted s (arrivalPort d) got) (decide (d = .west)) (fitsFrame s fr))
          (arrivalPort d) (stompAll got))
      | some h =>
        if ringState (copyNoted s (arrivalPort d) got) = 6 || ringState (copyNoted s (arrivalPort d) got) = 7 then
          if h.master = nodeNum (copyNoted s (arrivalPort d) got) then
            .next (ownCopy (copyNoted s (arrivalPort d) got) (arrivalPort d) h (fitsFrame s fr))
          else .next (rivalCopy (copyNoted s (arrivalPort d) got) (arrivalPort d) h)
        else .next (memberCopy (copyNoted s (arrivalPort d) got) (arrivalPort d) h (fitsFrame s fr)) := by
  have h : (s.sys.bypass || decide (ringState s < 2) || !linkUp s (arrivalPort d) || !portHears s (arrivalPort d)) = false := by
    rw [hb, hl, hh, decide_eq_false (by omega)]
    rfl
  cases d <;> exact if_neg (by rw [← Bool.not_eq_true] at h; exact h)

theorem exec_ringFrame_lost (hr : received s (arrivalPort d) fr = none) : exec (.ringFrame d fr) s = .next s := by
  rw [exec_ringFrame hb h2 hl hh, hr]

variable {got : RingFrame} (hr : received s (arrivalPort d) fr = some got)
include hr

theorem exec_ringFrame_headless (hg : headerIn got = none) : exec (.ringFrame d fr) s =
    .next (forward (notePass (copyNoted s (arrivalPort d) got) (decide (d = .west)) (fitsFrame s fr))
      (arrivalPort d) (stompAll got)) := by
  rw [exec_ringFrame hb h2 hl hh, hr]
  simp only [hg]

variable {h : RingFrame} (hg : headerIn got = some h)
include hg

theorem exec_ringFrame_master
    (hm : ringState (copyNoted s (arrivalPort d) got) = 6 ∨ ringState (copyNoted s (arrivalPort d) got) = 7) :
    exec (.ringFrame d fr) s = .next (if h.master = nodeNum (copyNoted s (arrivalPort d) got) then
      ownCopy (copyNoted s (arrivalPort d) got) (arrivalPort d) h (fitsFrame s fr)
      else rivalCopy (copyNoted s (arrivalPort d) got) (arrivalPort d) h) := by
  rw [exec_ringFrame hb h2 hl hh, hr]
  simp only [hg]
  rw [if_pos (by simpa using hm)]
  split <;> rfl

theorem exec_ringFrame_member (hm : ringState (copyNoted s (arrivalPort d) got) < 6) : exec (.ringFrame d fr) s =
    .next (memberCopy (copyNoted s (arrivalPort d) got) (arrivalPort d) h (fitsFrame s fr)) := by
  rw [exec_ringFrame hb h2 hl hh, hr]
  simp only [hg]
  rw [if_neg (by simp; omega)]

end

theorem askSection_stuck (s : State) (p sec : Nat) : (askSection s p sec).ring.stuck = s.ring.stuck := by
  unfold askSection
  split <;> rfl

theorem ringCount_ring (s : State) (n k : Nat) : (ringCount s n k).ring = s.ring := by
  unfold ringCount
  split
  · rfl
  · exact (signals_regAddSat ..).ring

theorem noteBad_stuck (s : State) (p : Nat) (fr : RingFrame) : (noteBad s p fr).ring.stuck = s.ring.stuck := by
  unfold noteBad
  dsimp only
  rw [foldl_keeps (p := fun s => s.ring.stuck) (fun s k => askSection_stuck s p k)]
  simp only [ringCount_ring]

theorem copyNoted_stuck (s : State) (p : Nat) (fr : RingFrame) : (copyNoted s p fr).ring.stuck = s.ring.stuck :=
  noteBad_stuck ..

theorem notePass_stuck (s : State) (west fits : Bool) : (notePass s west fits).ring.stuck = s.ring.stuck := by
  unfold notePass
  split
  · rfl
  · split <;> rfl

theorem memberCopy_stuck {s : State} (h : s.ring.stuck = true) (p : Nat) (fr : RingFrame) (fits : Bool) :
    memberCopy s p fr fits = forward (statHeader (notePass s fr.west fits) fr) p (stompAll fr) :=
  if_pos ((notePass_stuck ..).trans h)

theorem copyDue_member {s : State} (h6 : ringState s ≠ 6) (h7 : ringState s ≠ 7) (west : Bool) : copyDue s west = true := by
  simp [copyDue, h6, h7]

theorem copyDue_sent {s : State} {west : Bool} (h : ∃ c ∈ s.ring.outFrames, c.frame.west = west) :
    copyDue s west = true := by
  simp only [copyDue, Bool.or_eq_true, List.any_eq_true, decide_eq_true_eq]
  exact .inr h

theorem areaWrite_none {s : State} (h : s.ring.done = none) : areaWrite s = s := by rw [areaWrite, h]

theorem areaWrite_some {s : State} {d : RxDone} (h : s.ring.done = some d) : areaWrite s =
    modRing (sorusEngineWrites s .ring (d.base + 0x2000 * fld d.tick 0 0 + d.values) (areaTail d)) fun r =>
      { r with done := none } := by
  rw [areaWrite, h]

/-! ## Link control and training (R548 to R550, R554, R559) -/

/-- A port that has taken a result for its request sq (R550). -/
def delayTaken (s : State) (p : Nat) (sq : BitVec 16) (turn elapsed : Nat) : State :=
  modRingPort (hearBlock s p) p fun x => { x with
    dlyOpen := x.dlyOpen.filter (· ≠ sq)
    delays := ((elapsed - turn) / 2 :: x.delays).take 16 }

/-- The open last place of the mean of the results l (R550). -/
def meanUp (s : State) (l : List Nat) : Nat := if l.sum % l.length = 0 then 0 else (bit s.takeFree.1 0).toNat

theorem meanUp_le (s : State) (l : List Nat) : meanUp s l ≤ 1 := by
  unfold meanUp
  split
  · exact Nat.zero_le 1
  · exact Bool.toNat_le _

theorem regFld_regs_takeFree (s : State) (a hi lo v : Nat) :
    (regFld s.takeFree.2 a hi lo v).regs = (regFld s a hi lo v).regs := by
  unfold regFld regSet
  split <;> rfl

theorem exec_dlyRsp_open {s : State} {p : Fin 2} {sq : BitVec 16} {turn elapsed : Nat} (hb : s.sys.bypass = false)
    (hh : portHears s p = true) (ho : (ringPort s p).dlyOpen.contains sq = true) :
    let u := delayTaken s p sq turn elapsed
    let l := (ringPort u p).delays
    exec (.dlyRsp p sq turn elapsed) s =
      .next (regFld u.takeFree.2 (aRingPort p) 47 24 (l.sum / l.length + meanUp u l)) :=
  if_neg (by rw [hb, hh, ho]; decide)

/-- A port's register when its training has ended with the lanes in `ok` (R549, R569). -/
def portTrained (s : State) (p ok : Nat) : State :=
  regFld (regFld (regFld (regFld s (aRingPort p) 5 4 ok) (aRingPort p) 1 0 ok) (aRingPort p) 7 7 (decide (ok ≠ 0)).toNat)
    (aRingPort p) 6 6 1

/-- The lanes of a port that have trained, a bit for each (R559). -/
def trainedLanes (s : State) (p : Nat) (lanes : BitVec 2) : Nat :=
  ((trainLanes s p).filter fun k => lanes.getLsbD k).foldl (fun n k => n + 2 ^ k) 0

/-- A port whose training has ended, before its node may leave state 1. -/
def trainingEnded (s : State) (p : Nat) (lanes : BitVec 2) : State :=
  let ok := trainedLanes s p lanes
  let s := modRingPort (portTrained s p ok) p fun x => { x with stopWrap := decide (ok ≠ 0), training := false }
  if ok ≠ 0 then sendDly s p (idleAt s p) else s

theorem exec_linkTraining {s : State} {p : Fin 2} {lanes : BitVec 2} (hb : s.sys.bypass = false) (h0 : ringState s ≠ 0)
    (hh : portHears s p = true) (hs : portSends s p = true) : exec (.linkTraining p lanes) s =
    .next (if ringState (trainingEnded s p lanes) = 1 && trained (trainingEnded s p lanes) then
      setRingState (trainingEnded s p lanes) 2 else trainingEnded s p lanes) :=
  if_neg (by simp [hb, h0, hh, hs])

theorem sendBlockAt_regs (s : State) (p type a b : Nat) (lane : Option Nat) (time : Nat) :
    (sendBlockAt s p type a b lane time).regs = s.regs := by
  unfold sendBlockAt
  split <;> rfl

theorem sendDly_regs (s : State) (p time : Nat) : (sendDly s p time).regs = s.regs := sendBlockAt_regs ..

theorem trainingEnded_regs (s : State) (p : Nat) (lanes : BitVec 2) :
    (trainingEnded s p lanes).regs = (portTrained s p (trainedLanes s p lanes)).regs := by
  unfold trainingEnded
  dsimp only
  split
  · exact sendDly_regs ..
  · rfl

theorem sendBlockAt_ports (s : State) (p type a b : Nat) (lane : Option Nat) (time : Nat) :
    (sendBlockAt s p type a b lane time).ring.ports = s.ring.ports := by
  unfold sendBlockAt
  split <;> rfl

theorem portTrained_ring (s : State) (p ok : Nat) : (portTrained s p ok).ring = s.ring := by
  simp only [portTrained, regFld_ring]

theorem regGet_portTrained (s : State) (p ok : Nat) {a : Nat} (h : a ≠ aRingPort p) :
    regGet (portTrained s p ok) a = regGet s a := by
  simp only [portTrained, regGet_regFld_other _ _ _ _ h]

theorem ringState_trainingEnded (s : State) (p : Fin 2) (lanes : BitVec 2) :
    ringState (trainingEnded s p lanes) = ringState s := by
  have hp : aRingStat ≠ aRingPort p := by revert p; decide
  have h : regGet (portTrained s p (trainedLanes s p lanes)) aRingStat = regGet s aRingStat := regGet_portTrained _ _ _ hp
  unfold ringState trainingEnded
  dsimp only
  split
  · exact congrArg (fld · 47 45) ((regGet_sendBlockAt _ _ _ _ _ _ _ (by decide)).trans h)
  · exact congrArg (fld · 47 45) h

theorem trained_trainingEnded {s : State} (h : s.ring.ports.length = 2) (p : Fin 2) (lanes : BitVec 2) :
    trained (trainingEnded s p lanes) = !(ringPort s (1 - p)).training := by
  obtain ⟨x, y, hxy⟩ := List.length_eq_two.1 h
  have hr : (portTrained s p (trainedLanes s p lanes)).ring.ports = [x, y] := by rw [portTrained_ring, hxy]
  unfold trained trainingEnded
  dsimp only
  split
  · simp only [sendDly, modRingPort, modRing, sendBlockAt_ports, hr, ringPort, hxy]
    fin_cases p <;> simp [modAt]
  · simp only [modRingPort, modRing, hr, ringPort, hxy]
    fin_cases p <;> simp [modAt]

theorem trainedLanes_both {s : State} {p : Nat} (he : regF s aRingCfg (31 + 2 * p) (30 + 2 * p) = 3)
    (hr : regF s (aRingPort p) 3 2 = 0) : trainedLanes s p 3 = 3 := by
  have hl : trainLanes s p = [0, 1] := by
    unfold trainLanes
    rw [he, hr]
    decide
  rw [trainedLanes, hl]
  decide

theorem trainedLanes_none (s : State) (p : Nat) : trainedLanes s p 0 = 0 := by
  simp [trainedLanes]

/-- A node out of state 1 stays in its state when a port's training ends (R555). -/
theorem exec_linkTraining_regs {s : State} {p : Fin 2} {lanes : BitVec 2} (hb : s.sys.bypass = false) (h2 : 2 ≤ ringState s)
    (hh : portHears s p = true) (hs : portSends s p = true) : ∃ t, exec (.linkTraining p lanes) s = .next t ∧
    t.regs = (portTrained s p (trainedLanes s p lanes)).regs := by
  refine ⟨trainingEnded s p lanes, ?_, trainingEnded_regs ..⟩
  rw [exec_linkTraining hb (by omega) hh hs, if_neg (by rw [ringState_trainingEnded]; simp; omega)]

theorem regGet_aRingStat_regFld {s : State} {n : Nat} (h : n % 8 ≠ 0) :
    regGet (regFld s aRingStat 47 45 n) aRingStat = setFld (regGet s aRingStat) 47 45 n := by
  refine regGet_regSet_same_of_ne s fun e => h ?_
  have hf := fld_setFld_same (regGet s aRingStat) (hi := 47) (lo := 45) n (by decide) (by decide)
  rw [e] at hf
  exact hf.symm

/-- The node enters state 2, whatever else the change raises (R555). -/
theorem ringState_setRingState_two (s : State) : ringState (setRingState s 2) = 2 := by
  have h : regGet (regSet (regFld s aRingStat 47 45 2) aRingRtt 0) aRingStat = setFld (regGet s aRingStat) 47 45 2 := by
    rw [regGet_regSet_other _ _ (by decide), regGet_aRingStat_regFld (by decide)]
  have hf : fld (setFld (regGet s aRingStat) 47 45 2) 47 45 = 2 := fld_setFld_same _ _ (by decide) (by decide)
  have hs : setRingState s 2 = if ringState s ≠ 2 && (notedState (ringState s) || notedState 2) then
      assertEdge (regSet (regFld s aRingStat 47 45 2) aRingRtt 0) 237
    else regSet (regFld s aRingStat 47 45 2) aRingRtt 0 := rfl
  rw [hs, ringState, regF]
  split
  · rw [regGet_assertEdge _ (by decide) (by decide), h, hf]
  · rw [h, hf]

/-! ## Claims (R557, R558) -/

theorem regGet_hearBlock (s : State) (p : Nat) {a : Nat} (h : isPmc a = false) :
    regGet (hearBlock s p) a = regGet s a := by
  simp [regGet, h, hearBlock, bwAdd]

theorem ringState_hearBlock (s : State) (p : Nat) : ringState (hearBlock s p) = ringState s :=
  congrArg (fld · 47 45) (regGet_hearBlock s p (by decide))

theorem nodeNum_hearBlock (s : State) (p : Nat) : nodeNum (hearBlock s p) = nodeNum s :=
  congrArg (fld · 47 36) (regGet_hearBlock s p (by decide))

theorem electing_hearBlock (s : State) (p : Nat) : electing (hearBlock s p) = electing s := by
  simp only [electing, ringState_hearBlock, regB, regF, regGet_hearBlock s p (show isPmc aRingCtl = false by decide)]
  rfl

/-- A claim that has come goes on by the other port, where its link is up (R557). -/
def claimOn (s : State) (p node : Nat) (img : Bool) : State :=
  if linkUp s (1 - p) then sendBlock s (1 - p) 0x21 node img.toNat else s

theorem exec_claim {s : State} {p : Fin 2} (node : Nat) (img : Bool) (hb : s.sys.bypass = false) (h2 : 2 ≤ ringState s)
    (hh : portHears s p = true) : exec (.claim p node img) s =
    if img = true then
      if ringState s = 7 then .next (modRing (hearBlock s p) fun r => { r with handover := some node })
      else .next (claimOn (hearBlock s p) p node img)
    else if electing s = true then
      if node < nodeNum s then
        .next (claimOn (modRing (hearBlock s p) fun r => { r with lowerClaim := true, claims := 0 }) p node img)
      else .next (hearBlock s p)
    else .next (claimOn (hearBlock s p) p node img) := by
  refine (if_neg (by rw [hb, hh, decide_eq_false (by omega)]; decide)).trans ?_
  dsimp only
  rw [ringState_hearBlock, nodeNum_hearBlock, electing_hearBlock]
  cases electing s <;> rfl

/-- Settles O57: each event's own lemma, clause by clause. That lanes too far apart deliver nothing, which blocks of a late
copy count, and that the mean's last place is open are choices of the model (log entries 182, 181 and 64). -/
theorem ringEvents : Obligations.RingEvents := by
  unfold Obligations.RingEvents
  intro s
  refine ⟨exec_ringFrameEmit_due, fun d fr => ?frames, fun n x => ?checks, descramble_scramble, fun x => ?lanes,
    fun p l0 l1 nakv sec lret hb hl hh => ?link, fun hb p sq turn elapsed hh => ?delay, fun p node img hb h2 hh => ?claim,
    fun he hc hl => ?election, fun hm h4 hj ha => ?handover, fun h2 ht hn => ?late, fun west => ?due, fun h => ?noArea,
    fun d h => ?area, fun p => ⟨fun h => if_pos h, fun h => if_neg (by simp [h])⟩, fun p lanes hb h0 hh hs => ?training,
    fun p k => ?retirement, fun p k => ⟨fun h => if_pos h, fun h => if_neg (by simp [h])⟩⟩
  case frames =>
    refine fun hb h2 hl hh => ⟨received_apart, received_whole, exec_ringFrame_lost hb h2 hl hh, fun got hr =>
      ⟨exec_ringFrame_headless hb h2 hl hh hr, fun h hg => ⟨exec_ringFrame_master hb h2 hl hh hr hg,
        exec_ringFrame_member hb h2 hl hh hr hg, fun hm hst => ?_⟩⟩⟩
    rw [exec_ringFrame_member hb h2 hl hh hr hg hm, memberCopy_stuck ((copyNoted_stuck ..).trans hst)]
    rfl
  case checks => exact ⟨sectionGood_sealSection n x, sectionGood_stompSection n x, stompBad_good, stompBad_not_good⟩
  case lanes => exact ⟨laneFaults_clean, fun b l => laneFaults_sync⟩
  case link => exact if_neg (by simp [hb, hl, hh])
  case delay =>
    refine ⟨if_neg (by simp [hb, hh]), fun ho => if_pos (by rw [hb, hh, ho]; rfl), fun ho => ?_⟩
    have hu := exec_dlyRsp_open (turn := turn) (elapsed := elapsed) hb hh ho
    exact ⟨_, meanUp_le .., fun h => if_pos h, _, hu, regFld_ring .., regFld_regs_takeFree ..⟩
  case claim =>
    have hc := exec_claim node img hb h2 hh
    refine ⟨fun hi h7 => ?_, fun hi h7 => ?_, fun hi he => ?_, fun hi he hn => ?_, fun hi he hn => ?_⟩
    · rw [hc, if_pos hi, if_pos h7]
    · rw [hc, if_pos hi, if_neg h7]
      rfl
    · rw [hc, if_neg (by simp [hi]), if_neg (by simp [he])]
      rfl
    · rw [hc, if_neg (by simp [hi]), if_pos he, if_pos hn]
      rfl
    · rw [hc, if_neg (by simp [hi]), if_pos he, if_neg (not_lt.2 hn)]
  case election =>
    refine if_pos ?_
    rw [hc, hl, Bool.not_false, Bool.and_true, Bool.and_true]
    exact he
  case handover => exact if_pos (by simp [hm, h4, hj, ha])
  case late =>
    refine ⟨fun hd he hl => ?_, fun hd hw hl => ?_⟩
    · exact (if_pos (by simp only [h2, ht, hn]; simpa using hd)).trans (if_pos (by simp [he, hl]))
    · exact (if_pos (by simp only [h2, ht, hn]; simpa using hd)).trans (if_pos (by simp [hw, hl]))
  case due => exact ⟨fun h6 h7 => copyDue_member h6 h7 west, copyDue_sent⟩
  case noArea => exact congrArg (fun t => Host.Outcome.next (retryFrond t)) (areaWrite_none h)
  case area => exact congrArg (fun t => Host.Outcome.next (retryFrond t)) (areaWrite_some h)
  case training =>
    refine ⟨fun hl he hr h2 => ?_, fun hl h2 => ?_, fun h1 _ hp => ?_⟩
    · subst hl
      obtain ⟨t, ht, hg⟩ := exec_linkTraining_regs (lanes := 3) hb h2 hh hs
      rw [trainedLanes_both he hr] at hg
      exact ⟨t, ht, hg⟩
    · subst hl
      obtain ⟨t, ht, hg⟩ := exec_linkTraining_regs (lanes := 0) hb h2 hh hs
      rw [trainedLanes_none] at hg
      exact ⟨t, ht, hg⟩
    · refine ⟨_, exec_linkTraining hb h0 hh hs, ?_⟩
      rw [trained_trainingEnded hp, ringState_trainingEnded, h1]
      refine ⟨fun ho => ?_, fun ho => ?_⟩
      · rw [ho, if_pos (by decide), ringState_setRingState_two]
      · rw [ho, if_neg (by decide), ringState_trainingEnded, h1]
  case retirement =>
    refine ⟨fun hn hl => if_pos (by simp [hn, hl]), fun hn => if_neg (by simp; omega)⟩

end Sys2Proof.Machine
end

section
/-! Events of the units (chapters 16 and 17): what the payload of an aperture read adds to a bandwidth port. -/

namespace Sys2Proof.Machine

open Sys2Proof

/-- A read of one word through the PCIe aperture that an abandoned frame has left in flight: it has no reference left to
perform and no instruction to end (R475, R649). -/
def orphanRead : Access := ⟨[], 1, .drop, [], false, none, false, false⟩

/-- Application core 0 waits for the aperture word of such a read. -/
def apertureAsked : State :=
  State.reset.modCore (.app 0) fun k => { k with waiting := some (.aperture orphanRead [0x808000000]) }

theorem apertureWaits_asked : apertureWaits apertureAsked (.app 0) = true := by decide

/-- A completion without an error adds its payload to the inbound bandwidth port (R719). -/
theorem exec_pcieApertureCompletion_data {s : State} {c : CoreId} (h : apertureWaits s c = true) (d0 d1 : Word) :
    exec (.pcieApertureCompletion c d0 d1 false) s =
      .next (apertureDone (bwAdd (count s 60 0x80) 32 (6 * apertureWords s c)) c [d0, d1]) :=
  if_neg (by rw [h]; decide)

theorem apertureDone_asked_counted : (apertureDone (bwAdd (count apertureAsked 60 0x80) 32
    (6 * apertureWords apertureAsked (.app 0))) (.app 0) [0, 0]).cnt.ports.getD 32 0 = 6 := by decide

theorem apertureDone_asked_uncounted :
    (apertureDone (count apertureAsked 60 0x80) (.app 0) [0, 0]).cnt.ports.getD 32 0 = 0 := by decide

/-- Refutes O58: its clause on PCIE_APERTURE_COMPLETION leaves out that the payload counts on bandwidth port 32 (R719).
Where a core waits for one word through the aperture, the completion leaves 6 bytes on that port, and the clause 0. -/
theorem not_unitEvents : ¬ Obligations.UnitEvents := by
  unfold Obligations.UnitEvents
  intro h
  obtain ⟨-, -, -, -, -, -, -, -, -, -, -, haperture, -⟩ := h apertureAsked
  obtain ⟨hdata, -, -⟩ := haperture (.app 0) 0 0 apertureWaits_asked
  rw [exec_pcieApertureCompletion_data apertureWaits_asked] at hdata
  injection hdata with hstate
  have hport := congrArg (fun t : State => t.cnt.ports.getD 32 0) hstate
  rw [apertureDone_asked_counted, apertureDone_asked_uncounted] at hport
  exact absurd hport (by decide)

end Sys2Proof.Machine
end

section
/-! The registers of the units (chapters 16 to 19 and 21): which function of the model takes a write of each. -/

namespace Sys2Proof.Machine

open Sys2Proof

/-! ## Writes of the blocks (R764) -/

section
variable {s : State} {rq : Requester} {a o : Nat} (h : Admitted s rq a) (v : Word)
include h

theorem writeCmd_space (ha : a = regBase + o) (ho : o < 0x8000000) :
    writeCmd s rq a v = regStore (bridged s) rq a v :=
  writeCmd_admitted v h (inAperture_of_lt (by rw [ha, regBase]; omega))

theorem writeCmd_pinna (ha : a = regBase + 0xA0000 + o) (ho : o < 0x10000) :
    writeCmd s rq a v = pinnaWrite (bridged s) rq o a v := by
  rw [writeCmd_space h v (o := 0xA0000 + o) (by rw [ha, Nat.add_assoc]) (by omega), regStore_pinna _ _ _ _ _ ha ho]

theorem writeCmd_eth (ha : a = regBase + 0xC0000 + o) (ho : o < 0x10000) :
    writeCmd s rq a v = ethWrite (bridged s) o a v := by
  rw [writeCmd_space h v (o := 0xC0000 + o) (by rw [ha, Nat.add_assoc]) (by omega), regStore_eth _ _ _ _ _ ha ho]

theorem writeCmd_canUart (ha : a = regBase + 0xD0000 + o) (ho : o < 0x10000) :
    writeCmd s rq a v = canUartWrite (bridged s) o a v := by
  rw [writeCmd_space h v (o := 0xD0000 + o) (by rw [ha, Nat.add_assoc]) (by omega), regStore_canUart _ _ _ _ _ ha ho]

theorem writeCmd_pcieUsb (ha : a = regBase + 0xE0000 + o) (ho : o < 0x10000) :
    writeCmd s rq a v = pcieUsbWrite (bridged s) rq o a v := by
  rw [writeCmd_space h v (o := 0xE0000 + o) (by rw [ha, Nat.add_assoc]) (by omega), regStore_pcieUsb _ _ _ _ _ ha ho]

theorem writeCmd_disp (ha : a = regBase + 0xF0000 + o) (ho : o < 0x10000) :
    writeCmd s rq a v = dispWrite (bridged s) rq o a v := by
  rw [writeCmd_space h v (o := 0xF0000 + o) (by rw [ha, Nat.add_assoc]) (by omega), regStore_disp _ _ _ _ _ ha ho]

theorem writeCmd_power (ha : a = regBase + 0x100000 + o) (ho : o < 0x10000) :
    writeCmd s rq a v = powerWrite (bridged s) rq o a v := by
  rw [writeCmd_space h v (o := 0x100000 + o) (by rw [ha, Nat.add_assoc]) (by omega), regStore_power _ _ _ _ _ ha ho]

theorem writeCmd_mbox (ha : a = regBase + 0x110000 + o) (ho : o < 0x10000) :
    writeCmd s rq a v = mboxWrite (bridged s) rq o a v := by
  rw [writeCmd_space h v (o := 0x110000 + o) (by rw [ha, Nat.add_assoc]) (by omega), regStore_mbox _ _ _ _ _ ha ho]

theorem writeCmd_dma (ha : a = regBase + 0x160000 + o) (ho : o < 0x10000) :
    writeCmd s rq a v = dmaWriteReg (bridged s) rq o a v := by
  rw [writeCmd_space h v (o := 0x160000 + o) (by rw [ha, Nat.add_assoc]) (by omega), regStore_dma _ _ _ _ _ ha ho]

end

/-- A write to the page of one guest (R619). -/
theorem regStore_page (s : State) (rq : Requester) (i : Fin 64) {o : Nat} (ho : o < 0x1000) (v : Word) :
    regStore s rq (aPage i + o) v = pageWriteAt s rq i o v := by
  have hp : pageOf (aPage i + o) = some i.val := by
    rw [pageOf, if_pos ((Bool.and_eq_true ..).mpr
      ⟨decide_eq_true (by rw [aPage]; omega), decide_eq_true (by rw [aPage]; omega)⟩)]
    exact congrArg some (by rw [aPage]; omega)
  have hd : (aPage i + o - regBase) / 0x10000 = 0x100 + i / 16 := by rw [aPage, regBase]; omega
  have hm : (aPage i + o - regBase) % 0x1000 = o := by rw [aPage, regBase]; omega
  have hi : i.val / 16 = 0 ∨ i.val / 16 = 1 ∨ i.val / 16 = 2 ∨ i.val / 16 = 3 := by omega
  unfold regStore
  rcases hi with hi | hi | hi | hi <;> simp only [hd, hi, hp, hm]

/-! ## Writes of single registers -/

section
variable {s : State} {rq : Requester} (v : Word)

theorem writeCmd_instCtl {i : Fin 64} (h : Admitted s rq (aInstCtl i)) :
    writeCmd s rq (aInstCtl i) v = instCtlWrite (bridged s) rq i v := by
  rw [writeCmd_pinna h v (o := 8 * i + 6) (by rw [aInstCtl, regBase]; omega) (by omega), pinnaWrite, if_pos (by omega),
    if_neg (by omega), if_neg (by omega), if_neg (by omega), if_pos (by omega), show (8 * i.val + 6) / 8 = i by omega]

theorem writeCmd_qCfg {q : Fin 256} (h : Admitted s rq (aQCfg q)) :
    writeCmd s rq (aQCfg q) v = qCfgWrite (bridged s) rq q v := by
  rw [writeCmd_pinna h v (o := 0x200 + 4 * q) (by rw [aQCfg, regBase]; omega) (by omega), pinnaWrite, if_neg (by omega),
    if_pos (by omega), show (0x200 + 4 * q.val - 0x200) / 4 = q by omega]

theorem writeCmd_page {i : Fin 64} {o : Nat} (h : Admitted s rq (aPage i + o)) (ho : o < 0x1000) :
    writeCmd s rq (aPage i + o) v = pageWriteAt (bridged s) rq i o v := by
  rw [writeCmd_space h v (o := 0x1000000 + 0x1000 * i + o) (by rw [aPage, regBase]; omega) (by omega),
    regStore_page _ _ _ ho]

theorem writeCmd_pqTail {i : Fin 64} {j : Nat} (hj : j < 256) (h : Admitted s rq (aPage i + 0x100 + 4 * j)) :
    writeCmd s rq (aPage i + 0x100 + 4 * j) v = pqTailWrite (bridged s) rq i j v := by
  rw [Nat.add_assoc] at h ⊢
  rw [writeCmd_page v h (by omega), pageWriteAt, if_pos (by omega), if_pos (by omega),
    show (0x100 + 4 * j - 0x100) / 4 = j by omega]

theorem writeCmd_pqCtl {i : Fin 64} {j : Nat} (hj : j < 256) (h : Admitted s rq (aPage i + 0x102 + 4 * j)) :
    writeCmd s rq (aPage i + 0x102 + 4 * j) v = pqCtlWrite (bridged s) i j v := by
  rw [Nat.add_assoc] at h ⊢
  rw [writeCmd_page v h (by omega), pageWriteAt, if_pos (by omega), if_neg (by omega), if_pos (by omega),
    show (0x102 + 4 * j - 0x100) / 4 = j by omega]

theorem writeCmd_ethCtl {p : Fin 2} (h : Admitted s rq (aEth p 0)) :
    writeCmd s rq (aEth p 0) v = ethCtlWrite (bridged s) p v := by
  rw [writeCmd_eth h v (o := 0x200 * p) (by rw [aEth, regBase]; omega) (by omega), ethWrite, if_pos (by omega),
    Nat.mul_div_cancel_left _ (by decide)]

theorem writeCmd_gclBase {p : Fin 2} (h : Admitted s rq (aEth p 2)) :
    writeCmd s rq (aEth p 2) v = gclBaseWrite (bridged s) p v := by
  rw [writeCmd_eth h v (o := 0x200 * p + 2) (by rw [aEth, regBase]; omega) (by omega), ethWrite, if_neg (by omega),
    if_pos (by omega), show (0x200 * p.val + 2) / 0x200 = p by omega]

theorem writeCmd_mdio {p : Fin 2} (h : Admitted s rq (aEth p 9)) :
    writeCmd s rq (aEth p 9) v = mdioWrite (bridged s) p v := by
  rw [writeCmd_eth h v (o := 0x200 * p + 9) (by rw [aEth, regBase]; omega) (by omega), ethWrite, if_neg (by omega),
    if_neg (by omega), if_neg (by omega), if_pos (by omega), show (0x200 * p.val + 9) / 0x200 = p by omega]

theorem writeCmd_canCtl {n : Fin 8} (h : Admitted s rq (aCan n 0)) :
    writeCmd s rq (aCan n 0) v = canCtlWrite (bridged s) n v := by
  rw [writeCmd_canUart h v (o := 16 * n) (by rw [aCan, regBase]; omega) (by omega), canUartWrite, if_pos (by omega),
    if_pos (by omega), Nat.mul_div_cancel_left _ (by decide)]

theorem writeCmd_uartData {n : Fin 4} (h : Admitted s rq (aUart n 1)) : writeCmd s rq (aUart n 1) v =
    uartLine (uartQueue (bridged s) n (v.extractLsb' 0 9)) n := by
  rw [writeCmd_canUart h v (o := 0x101 + 16 * n) (by rw [aUart, regBase]; omega) (by omega), canUartWrite,
    if_neg (by omega), show (0x101 + 16 * n.val - 0x100) / 16 = n by omega]
  dsimp only
  rw [if_neg (by omega), if_pos (by omega)]

theorem writeCmd_pcieCfgCtl (h : Admitted s rq (aPcie 0x42)) :
    writeCmd s rq (aPcie 0x42) v = pcieCfgCtlWrite (bridged s) v := writeCmd_pcieUsb h v (o := 0x42) rfl (by decide)

/-- The registers of the endpoints (R651). -/
theorem pcieUsbWrite_endpoint (s : State) (rq : Requester) {o : Nat} (a : Nat) (v : Word) (h : 0x1010 ≤ o) :
    pcieUsbWrite s rq o a v =
      if o % 4 = 0 then usbEpCfgWrite s ((o - 0x1010) / 4) v
      else if o % 4 = 1 then usbEpRingWrite s ((o - 0x1010) / 4) v
      else if o % 4 = 2 then usbEpTailWrite s rq ((o - 0x1010) / 4) v
      else s := by
  rw [pcieUsbWrite, if_neg (by omega), if_neg (by omega), if_neg (by omega), if_neg (by simp; omega),
    if_neg (by simp; omega), if_neg (by omega), if_neg (by omega), if_neg (by simp; omega), if_pos h]

theorem writeCmd_usbEpCfg {e : Fin 18} (h : Admitted s rq (aUsbEp e 0)) :
    writeCmd s rq (aUsbEp e 0) v = usbEpCfgWrite (bridged s) e v := by
  rw [writeCmd_pcieUsb h v (o := 0x1010 + 4 * e) (by rw [aUsbEp, regBase]; omega) (by omega),
    pcieUsbWrite_endpoint _ _ _ _ (by omega), if_pos (by omega), show (0x1010 + 4 * e.val - 0x1010) / 4 = e by omega]

theorem writeCmd_usbEpTail {e : Fin 18} (h : Admitted s rq (aUsbEp e 2)) :
    writeCmd s rq (aUsbEp e 2) v = usbEpTailWrite (bridged s) rq e v := by
  rw [writeCmd_pcieUsb h v (o := 0x1012 + 4 * e) (by rw [aUsbEp, regBase]; omega) (by omega),
    pcieUsbWrite_endpoint _ _ _ _ (by omega), if_neg (by omega), if_neg (by omega), if_pos (by omega),
    show (0x1012 + 4 * e.val - 0x1010) / 4 = e by omega]

theorem writeCmd_dispCtl (h : Admitted s rq (aDisp 1)) : writeCmd s rq (aDisp 1) v = dispCtlWrite (bridged s) v :=
  writeCmd_disp h v (o := 1) rfl (by decide)

/-- The registers of the outputs (R661). -/
theorem dispWrite_output (s : State) (rq : Requester) {o : Nat} (a : Nat) (v : Word) (h : 0x40 ≤ o) (h' : o < 0x60) :
    dispWrite s rq o a v =
      if o % 16 = 0 then dispOutCtlWrite s rq ((o - 0x40) / 16) v
      else if o % 16 = 1 || o % 16 = 2 then dispTimingWrite s rq ((o - 0x40) / 16) (o % 16) v
      else if o % 16 = 5 then dispXferWrite s ((o - 0x40) / 16) v
      else plainWrite s a v := by
  rw [dispWrite, if_neg (by omega), if_neg (by simp; omega), if_pos (by simp; omega)]

theorem writeCmd_dispOutCtl {o : Fin 2} (h : Admitted s rq (aDispOut o 0)) :
    writeCmd s rq (aDispOut o 0) v = dispOutCtlWrite (bridged s) rq o v := by
  rw [writeCmd_disp h v (o := 0x40 + 16 * o) (by rw [aDispOut, regBase]; omega) (by omega),
    dispWrite_output _ _ _ _ (by omega) (by omega), if_pos (by omega), show (0x40 + 16 * o.val - 0x40) / 16 = o by omega]

theorem writeCmd_dispXfer {o : Fin 2} (h : Admitted s rq (aDispOut o 5)) :
    writeCmd s rq (aDispOut o 5) v = dispXferWrite (bridged s) o v := by
  rw [writeCmd_disp h v (o := 0x45 + 16 * o) (by rw [aDispOut, regBase]; omega) (by omega),
    dispWrite_output _ _ _ _ (by omega) (by omega), if_neg (by omega), if_neg (by simp), if_pos (by omega),
    show (0x45 + 16 * o.val - 0x40) / 16 = o by omega]

theorem writeCmd_dmaCtl {n : Fin 8} (h : Admitted s rq (aDma n 2)) :
    writeCmd s rq (aDma n 2) v = dmaCtlWrite (bridged s) rq n v := by
  rw [writeCmd_dma h v (o := 4 * n + 2) (by rw [aDma, regBase]; omega) (by omega), dmaWriteReg, if_pos (by omega),
    show (4 * n.val + 2) / 4 = n by omega]

theorem writeCmd_pwrVote (h : Admitted s rq aPwrVote) : writeCmd s rq aPwrVote v = voteWrite (bridged s) rq v :=
  writeCmd_power h v (o := 1) rfl (by decide)

theorem writeCmd_clkFreq {d : Fin 64} (h : Admitted s rq (aClkFreq d)) :
    writeCmd s rq (aClkFreq d) v = freqWrite (bridged s) rq d v := by
  rw [writeCmd_power h v (o := 0x40 + d) (by rw [aClkFreq, regBase]; omega) (by omega), powerWrite, if_neg (by omega),
    if_neg (by omega), if_neg (by omega), if_pos (by simp; omega), Nat.add_sub_cancel_left]

theorem writeCmd_pwrPolicy {d : Fin 64} (h : Admitted s rq (aPwrPolicy d)) :
    writeCmd s rq (aPwrPolicy d) v = policyWrite (bridged s) rq d v := by
  rw [writeCmd_power h v (o := 0x80 + d) (by rw [aPwrPolicy, regBase]; omega) (by omega), powerWrite, if_neg (by omega),
    if_neg (by omega), if_neg (by omega), if_neg (by simp), if_pos (by omega), Nat.add_sub_cancel_left]

theorem writeCmd_mbxCmd {p : Fin 2} (h : Admitted s rq (aMbx p 0)) :
    writeCmd s rq (aMbx p 0) v = mbxCmdWrite (bridged s) p (rqLevel (bridged s) rq) v := by
  rw [writeCmd_mbox h v (o := 0x1000 * p) (by rw [aMbx, regBase]; omega) (by omega), mboxWrite,
    if_pos (by omega), Nat.mul_div_cancel_left _ (by decide)]

theorem writeCmd_mbxAck {p : Fin 2} (h : Admitted s rq (aMbx p 0x20)) :
    writeCmd s rq (aMbx p 0x20) v = mbxAckWrite (bridged s) p v := by
  rw [writeCmd_mbox h v (o := 0x1000 * p + 0x20) (by rw [aMbx, regBase]; omega) (by omega), mboxWrite,
    if_neg (by omega), if_pos (by omega), show (0x1000 * p.val + 0x20) / 0x1000 = p by omega]

theorem writeCmd_rstCore {c : Fin 16} (h : Admitted s rq (aRstCore c)) :
    writeCmd s rq (aRstCore c) v = rstCoreWrite (bridged s) rq c v := by
  rw [writeCmd_space h v (o := 0x140010 + c) (by rw [aRstCore, regBase]; omega) (by omega),
    regStore_rst _ _ _ _ (o := 0x10 + c) (by rw [aRstCore, regBase]; omega) (by omega), if_pos (by simp; omega),
    Nat.add_sub_cancel_left]

theorem writeCmd_dbgHold (h : Admitted s rq aDbgHold) : writeCmd s rq aDbgHold v = dbgHoldWrite (bridged s) rq v :=
  (writeCmd_space h v (o := 0x140020) rfl (by decide)).trans (regStore_rst _ _ _ _ (o := 0x20) rfl (by decide))

end

end Sys2Proof.Machine
end

section
/-! Register commands of the pinna engine, the input and output units, power, mailboxes and core start (chapters 16 to 19
and 21). -/

namespace Sys2Proof.Machine

open Sys2Proof

/-! ## Commands of PINNA_INST_CTL (R611 to R624) -/

theorem runInst_off {s : State} {i : Nat} (rq : Requester) (h : pinState s i = 0) (he : bit (pinEntry s i) 0 = true)
    (hr : s.sys.recovery = false) : runInst s rq i =
      let t := modInst s i fun x => { x with limit := regGet s (aInstLimit i) }
      let t := (queuesOf t i).foldl (fun t q => modQ (leaveFlights t q) q fun x =>
        { x with head := 0, tail := 0, slots := 0 }) t
      pinLine (regFld (setPinState t i 1) (aInstStat i) 40 40 0) i := by
  simp [runInst, h, he, hr]

theorem runInst_refused {s : State} {i : Nat} (rq : Requester) (h : pinState s i = 0)
    (hn : bit (pinEntry s i) 0 = false ∨ s.sys.recovery = true) :
    runInst s rq i = rqViolation s 9 rq true (aInstCtl i) := by
  rw [runInst, h]
  exact if_neg (by rcases hn with hn | hn <;> simp [hn])

theorem runInst_restored {s : State} {i : Nat} (rq : Requester) (h : pinState s i = 4) : runInst s rq i =
    if regB s (aInstStat i) 41 = true then pinLine (regFld (setPinState s i 1) (aInstStat i) 40 40 0) i
    else rqViolation s 9 rq true (aInstCtl i) := by
  rw [runInst, h]
  rfl

theorem runInst_other {s : State} {i : Nat} (rq : Requester) (h0 : pinState s i ≠ 0) (h4 : pinState s i ≠ 4) :
    runInst s rq i = rqViolation s 9 rq true (aInstCtl i) := by
  unfold runInst
  split <;> simp_all [refuseWrite]

/-- SAVE (R621). -/
theorem saveInst_placed {s : State} {i : Nat} :
    let t := regFld s (aInstStat i) 23 0 (satN 24 (regF s (aInstStat i) 23 0 + 1))
    recordPlace t (regF t (aInstSave i) 35 0) (saveRecord t i).length = true →
      saveInst s i = modInst t i fun x => { x with job := 0x10 } := fun h => if_pos h

theorem saveInst_misplaced {s : State} {i : Nat} :
    let t := regFld s (aInstStat i) 23 0 (satN 24 (regF s (aInstStat i) 23 0 + 1))
    recordPlace t (regF t (aInstSave i) 35 0) (saveRecord t i).length = false →
      saveInst s i = setErr (setPinState t i 5) i 7 := fun h => if_neg (by simp [h])

section
variable {s : State} {rq : Requester} {i : Fin 64} (h : Admitted s rq (aInstCtl i))
include h

theorem exec_run_admitted : exec (.run rq i) s = .next (runInst
    (if pinState (bridged s) i = 0 then endJob (bridged s) i else bridged s) rq i) :=
  congrArg Host.Outcome.next (writeCmd_instCtl 0x01 h)

theorem exec_stop_admitted : exec (.stop rq i) s = .next (if pinState (bridged s) i = 0 then
    rqViolation (bridged s) 9 rq true (aInstCtl i) else stopInst (bridged s) rq i) :=
  congrArg Host.Outcome.next (writeCmd_instCtl 0x02 h)

theorem exec_freeze_admitted : exec (.freeze rq i) s = .next (if pinState (bridged s) i = 1 then
    pinLine (setPinState (bridged s) i 2) i else rqViolation (bridged s) 9 rq true (aInstCtl i)) :=
  congrArg Host.Outcome.next (writeCmd_instCtl 0x04 h)

theorem exec_thaw_admitted : exec (.thaw rq i) s = .next (if pinState (bridged s) i = 3 then
    pinLine (setPinState (endJob (bridged s) i) i 1) i else rqViolation (bridged s) 9 rq true (aInstCtl i)) :=
  congrArg Host.Outcome.next (writeCmd_instCtl 0x08 h)

theorem exec_save_admitted : exec (.save rq i) s = .next (if pinState (bridged s) i = 3 then
    beginJob (saveInst (endJob (bridged s) i) i) i else rqViolation (bridged s) 9 rq true (aInstCtl i)) :=
  congrArg Host.Outcome.next (writeCmd_instCtl 0x10 h)

theorem exec_send_admitted : exec (.send rq i) s = .next (if pinState (bridged s) i = 3 then
    startJob (bridged s) i 0x20 else rqViolation (bridged s) 9 rq true (aInstCtl i)) :=
  congrArg Host.Outcome.next (writeCmd_instCtl 0x20 h)

theorem exec_restore_admitted : exec (.restore rq i) s = .next (if pinState (bridged s) i = 0 then
    startJob (bridged s) i 0x40 else rqViolation (bridged s) 9 rq true (aInstCtl i)) :=
  congrArg Host.Outcome.next (writeCmd_instCtl 0x40 h)

theorem exec_mbox_admitted : exec (.mbox rq i) s = .next (if pinState (bridged s) i = 0 then
    rqViolation (bridged s) 9 rq true (aInstCtl i) else pinCause (bridged s) i 2) :=
  congrArg Host.Outcome.next (writeCmd_instCtl 0x80 h)

end

/-! ## What the engine does in memory (R621 to R623) -/

theorem runJob_done {s t : State} {job : Nat} {f : State → Whole Unit} (h : f (jobBegun s job) = .done () t) :
    runJob s job f = jobEnded s job t := by rw [runJob, bridgeJob_done h]

theorem runJob_held {s t : State} {job : Nat} {f : State → Whole Unit} (h : f (jobBegun s job) = .held t) :
    runJob s job f = jobOpen s t := by rw [runJob, bridgeJob_held h]

/-- The work that a command has begun for number i of the engine. -/
def instWork (f : State → Nat → Whole Unit) (i : Nat) (s : State) : Whole Unit :=
  (f s i).andThen fun _ s => .done () (modInst s i fun x => { x with job := 0 })

section
variable {s : State} {i : Nat} (hl : (pinInst s i).recvWords.length ≤ (pinInst s i).recvDone)
include hl

theorem pinnaJob_save (h : (pinInst s i).job = 0x10) :
    pinnaJob s i = runJob s (jobInst i) (instWork writeRecord i) := by
  rw [pinnaJob, if_neg (not_lt.2 hl), h]
  rfl

theorem pinnaJob_send (h : (pinInst s i).job = 0x20) : pinnaJob s i = runJob s (jobInst i) (instWork sendInst i) := by
  rw [pinnaJob, if_neg (not_lt.2 hl), h]
  rfl

theorem pinnaJob_restore (h : (pinInst s i).job = 0x40) :
    pinnaJob s i = runJob s (jobInst i) (instWork restoreInst i) := by
  rw [pinnaJob, if_neg (not_lt.2 hl), h]
  rfl

end

theorem instWork_done {f : State → Nat → Whole Unit} {i : Nat} {s t : State} (h : f s i = .done () t) :
    instWork f i s = .done () (modInst t i fun x => { x with job := 0 }) := by
  rw [instWork, h]
  rfl

theorem instWork_held {f : State → Nat → Whole Unit} {i : Nat} {s t : State} (h : f s i = .held t) :
    instWork f i s = .held t := by
  rw [instWork, h]
  rfl

theorem writeRecord_done {s t : State} {i : Nat}
    (h : bridgePuts s (regF s (aInstSave i) 35 0) (saveRecord s i) = .done () t) :
    writeRecord s i = .done () (regFld t (aInstStat i) 43 43 1) := by
  rw [writeRecord, h]
  rfl

theorem writeRecord_held {s t : State} {i : Nat}
    (h : bridgePuts s (regF s (aInstSave i) 35 0) (saveRecord s i) = .held t) : writeRecord s i = .held t := by
  rw [writeRecord, h]
  rfl

theorem sendInst_misplaced {s : State} {i : Nat}
    (h : recordPlace s (regF s (aInstSave i) 35 0) (9 + 8 * (queuesOf s i).length) = false) :
    sendInst s i = .done () s := if_neg (by simp [h])

theorem sendInst_read {s t : State} {i : Nat} {ws : List (Word × Nat)}
    (h : recordPlace s (regF s (aInstSave i) 35 0) (9 + 8 * (queuesOf s i).length) = true)
    (hw : bridgeWords s (regF s (aInstSave i) 35 0) (9 + 8 * (queuesOf s i).length) = .done ws t) :
    sendInst s i = if ws.all (fun w => w.2 = 0) then
        .done () (sendFrom (modInst t i fun x => { x with
          sendBuf := ws.map (·.1), sendAcked := 0, sendFrames := 0, sendTries := 0 }) i)
      else .done () t := by
  rw [sendInst, if_pos h, hw]
  rfl

theorem restoreInst_misplaced {s : State} {i : Nat} (h : recordPlace s (regF s (aInstSave i) 35 0) 1 = false) :
    restoreInst s i = .done () (setErr s i 1) := if_pos (by simp [h])

section
variable {s v : State} {i : Nat} {w : Word × Nat} (h : recordPlace s (regF s (aInstSave i) 35 0) 1 = true)
  (hw : bridgeWord s (regF s (aInstSave i) 35 0) = .done w v)
include h hw

theorem restoreInst_too_long (hp : recordPlace v (regF s (aInstSave i) 35 0) (fld w.1 15 0) = false) :
    restoreInst s i = .done () (setErr v i 1) := by
  rw [restoreInst]
  dsimp only
  rw [if_neg (by simp [h]), hw]
  exact if_pos (by simp [hp])

theorem restoreInst_read {z : State} {ws : List (Word × Nat)}
    (hp : recordPlace v (regF s (aInstSave i) 35 0) (fld w.1 15 0) = true)
    (hz : bridgeWords v (regF s (aInstSave i) 35 0) (fld w.1 15 0) = .done ws z) : restoreInst s i =
      .done () (if recordErr z i ws ≠ 0 then setErr z i (recordErr z i ws) else loadRecord z i (ws.map (·.1))) := by
  rw [restoreInst]
  dsimp only
  rw [if_neg (by simp [h]), hw]
  dsimp only [Whole.andThen]
  rw [if_neg (by simp [hp]), hz]

end

/-! ## Queues (R605, R607, R612, R617, R626) -/

theorem pqTailWrite_absent {s : State} {rq : Requester} {i j : Nat} {v : Word}
    (h : pinState s i = 0 ∨ queueOf s i j = none) : pqTailWrite s rq i j v = regFld s (aInstStat i) 44 44 1 := by
  unfold pqTailWrite
  split
  · rfl
  · next h0 => rw [h.resolve_left h0]

section
variable {s : State} {rq : Requester} {i j q : Nat} {v : Word} (h : pinState s i ≠ 0) (hq : queueOf s i j = some q)
include h hq

theorem pqTailWrite_within (hv : (fld v 15 0 + 65536 - (pinQ s q).head) % 65536 ≤ 2 ^ qLog s q) :
    pqTailWrite s rq i j v = modQ s q fun x => { x with tail := fld v 15 0 } := by
  rw [pqTailWrite, if_neg h, hq]
  exact if_neg (not_lt.2 hv)

theorem pqTailWrite_beyond (hv : 2 ^ qLog s q < (fld v 15 0 + 65536 - (pinQ s q).head) % 65536) :
    pqTailWrite s rq i j v = rqViolation s 9 rq true (aPage i + 0x100 + 4 * j) := by
  rw [pqTailWrite, if_neg h, hq]
  exact if_pos hv

theorem pqCtlWrite_restart (hv : bit v 0 = true) :
    pqCtlWrite s i j v = modQ s q fun x => { x with stopped := false } := by
  rw [pqCtlWrite, if_neg (by simp [h, hv]), hq]

end

/-- The conditions on a queue record that is enabled (R612, R617, R626). -/
def QueueAllowed (s : State) (q : Nat) (v : Word) : Prop :=
  classGranted s (fld v 43 38) (fld v 45 44) = true ∧
  ((queuesOf s (fld v 43 38)).filter (· ≠ q)).length + 1 ≤ maxQ s (fld v 43 38) ∧
  (∀ r ∈ (queuesOf s (fld v 43 38)).filter (· ≠ q), qLocal s r ≠ fld v 37 30) ∧
  2 ^ qLog s q ≤ maxDesc s (fld v 43 38) ∧ qLog s q ≤ 12 ∧ (fld v 45 44 = 3 → bit v 46 = true)

theorem qCfgWrite_disabled {s : State} {q : Nat} (rq : Requester) {v : Word} (h : qEn s q = false)
    (hv : bit v 47 = false) : qCfgWrite s rq q v = plainWrite s (aQCfg q) v := by
  rw [qCfgWrite]
  dsimp only
  rw [if_neg (by simp [hv]), if_neg (by simp [h])]

/-- An enabling write is refused where its conditions do not hold, and otherwise starts the record anew. -/
theorem qCfgWrite_enabling {s : State} {q : Nat} (rq : Requester) {v : Word} (h : qEn s q = false)
    (hv : bit v 47 = true) :
    (QueueAllowed s q v → qCfgWrite s rq q v = modQ (plainWrite s (aQCfg q) v) q fun x =>
      { QueueState.reset with ending := x.ending, copied := x.copied }) ∧
    (¬QueueAllowed s q v → qCfgWrite s rq q v = rqViolation s 9 rq true (aQCfg q)) := by
  have hbad : (!classGranted s (fld v 43 38) (fld v 45 44) ||
      decide (maxQ s (fld v 43 38) < ((queuesOf s (fld v 43 38)).filter (· ≠ q)).length + 1) ||
      (((queuesOf s (fld v 43 38)).filter (· ≠ q)).any fun r => qLocal s r = fld v 37 30) ||
      decide (maxDesc s (fld v 43 38) < 2 ^ qLog s q) || decide (12 < qLog s q) ||
      (decide (fld v 45 44 = 3) && !bit v 46)) = true ↔ ¬QueueAllowed s q v := by
    simp only [QueueAllowed, Bool.or_eq_true, Bool.not_eq_true', decide_eq_true_eq, List.any_eq_true, Bool.and_eq_true]
    grind
  rw [qCfgWrite]
  dsimp only
  rw [if_pos hv]
  refine ⟨fun hq => ?_, fun hq => if_pos (hbad.2 hq)⟩
  rw [if_neg fun hb => hbad.1 hb hq, if_pos (by simp [h])]

/-! ## Units (R635 to R661) -/

theorem signals_plainWrite (s : State) (a : Nat) (v : Word) : Signals s (plainWrite s a v) := by
  unfold plainWrite
  split
  · exact signals_regSet ..
  · exact Signals.refl s

namespace Signals
variable {s t : State} (h : Signals s t)
include h
theorem io : t.io = s.io := by rw [h.1]
theorem disp : t.disp = s.disp := by rw [h.1]
end Signals

@[simp] theorem plainWrite_io (s : State) (a : Nat) (v : Word) : (plainWrite s a v).io = s.io := (signals_plainWrite ..).io

@[simp] theorem plainWrite_disp (s : State) (a : Nat) (v : Word) : (plainWrite s a v).disp = s.disp :=
  (signals_plainWrite ..).disp

@[simp] theorem plainWrite_power (s : State) (a : Nat) (v : Word) : (plainWrite s a v).power = s.power :=
  (signals_plainWrite ..).power

theorem keepUnless_of {ok : Bool} (h : ok = true) (v old : Word) (hi lo : Nat) : keepUnless ok v old hi lo = v := if_pos h

/-- SWAP in a legal write of ETH_CTL waits for the gate cycle (R635, R637). -/
theorem ethCtlWrite_swap {s : State} {p : Nat} {v : Word} (h43 : bit v 43 = true) (h46 : fld v 46 45 ≠ 3)
    (hlo : 64 ≤ fld v 13 0) (hhi : fld v 13 0 ≤ 9216) (h47 : bit v 47 = true) : ethCtlWrite s p v =
      regFld { plainWrite s (aEth p 0) (v &&& ~~~(mask 43 43)) with
        io := { s.io with swapPending := s.io.swapPending.set p true } } (aEth p 0) 43 43 0 := by
  rw [ethCtlWrite]
  dsimp only
  rw [keepUnless_of (decide_eq_true h46), keepUnless_of (by simp [hlo, hhi]), if_pos h47, if_pos h43, plainWrite_io]

theorem mdioWrite_busy {s : State} {p : Nat} (v : Word) (h : s.io.mdioBusy.getD p false = true) : mdioWrite s p v = s :=
  if_pos h

theorem unitRuns_regSet_mdio (s : State) (p : Fin 2) (v : Word) (d : Nat) :
    unitRuns (regSet s (aEth p 9) v) d = unitRuns s d := by
  have hd : aPwrPolicy d ≠ aEth p 9 := by rw [aPwrPolicy, aEth]; omega
  unfold unitRuns domState regF regB
  rw [regGet_regSet_other _ _ hd, regSet_power, regSet_sys]

section
variable {s : State} {p : Fin 2} (v : Word) (h : s.io.mdioBusy.getD p false = false)
include h

theorem mdioWrite_sent (hr : unitRuns s (40 + 2 * p) = true) : mdioWrite s p v =
    { regSet s (aEth p 9) (setBit v 47 true) with
      io := { s.io with mdioBusy := s.io.mdioBusy.set p true, mdioLog := s.io.mdioLog ++ [(p.val, v)] } } := by
  rw [mdioWrite, if_neg (by rw [h]; exact Bool.false_ne_true)]
  dsimp only
  rw [ethTxRuns, unitRuns_regSet_mdio, if_pos hr, regSet_io]

theorem mdioWrite_due (hr : unitRuns s (40 + 2 * p) = false) : mdioWrite s p v =
    { regSet s (aEth p 9) (setBit v 47 true) with
      io := { s.io with mdioBusy := s.io.mdioBusy.set p true, mdioDue := s.io.mdioDue.set p true } } := by
  rw [mdioWrite, if_neg (by rw [h]; exact Bool.false_ne_true)]
  dsimp only
  rw [ethTxRuns, unitRuns_regSet_mdio, if_neg (by simp [hr]), regSet_io]

end

/-- The time that a written base of the gate cycle names: the nearest to now (R635). -/
def gateBase (s : State) (v : Word) : Nat :=
  if (v - s.tbl).toNat < 2 ^ 47 then s.now + (v - s.tbl).toNat else s.now - (2 ^ 48 - (v - s.tbl).toNat)

theorem gclBaseWrite_eq (s : State) (p : Nat) (v : Word) : gclBaseWrite s p v =
    { plainWrite s (aEth p 2) v with io := { s.io with gclStart := s.io.gclStart.set p (gateBase s v) } } := by
  rw [gclBaseWrite]
  dsimp only
  rw [plainWrite_io]
  rfl

/-- A read of UART_DATA takes the oldest character, and the paced channels of the UART go on (R643, R768). -/
theorem regValue_uartData (s : State) (rq : Requester) (n : Fin 4) :
    regValue s rq (aUart n 1) = ((uartTake s n).1, uartDma (uartTake s n).2 n) := by
  have hd : (aUart n 1 - regBase) / 0x10000 = 0xD := by rw [aUart, regBase]; omega
  have hm : (aUart n 1 - regBase) % 0x10000 = 0x101 + 16 * n := by rw [aUart, regBase]; omega
  have hn : (0x101 + 16 * n.val - 0x100) / 16 = n := by omega
  unfold regValue
  simp only [hd, hm, hn]
  rw [if_pos (by simp; omega)]

theorem exec_uartDataRead {s : State} {rq : Requester} {n : Fin 4} (hc : canAccess s rq = true)
    (hv : verdict (bridged s) rq (aUart n 1) false = .ok) : exec (.uartDataRead rq n) s =
      .next { uartDma (uartTake (bridged s) n).2 n with readOut := (uartTake (bridged s) n).1 } := by
  have hr : regRead s rq (aUart n 1) = regValue (bridged s) rq (aUart n 1) := by
    unfold bridged at hv
    rw [regRead, hv]
    rfl
  refine congrArg Host.Outcome.next ?_
  rw [readCmd, if_neg (by simp [hc]), hr, regValue_uartData]

/-- What a configuration request leaves (R648). -/
def configSent (s : State) (rd : Bool) : State :=
  { regFld s (aPcie 0x41) 47 47 1 with io := { s.io with
      cfgRead := rd
      cfgOut := s.io.cfgOut ++
        [(rd, if regF s (aPcie 0x40) 47 40 = regF s (aPcie 0) 15 8 then 0 else 1, regGet s (aPcie 0x40),
          regGet s (aPcie 0x41))] } }

/-- The bus of a configuration request lies behind the port (R648). -/
def BusBehind (s : State) : Prop :=
  regF s (aPcie 0x40) 47 40 = regF s (aPcie 0) 15 8 ∨
    (regF s (aPcie 0) 15 8 < regF s (aPcie 0x40) 47 40 ∧ regF s (aPcie 0x40) 47 40 ≤ regF s (aPcie 0) 7 0)

theorem pcieCfgCtlWrite_busy {s : State} (v : Word) (h : regB s (aPcie 0x41) 47 = true) : pcieCfgCtlWrite s v = s :=
  if_pos (by simp [h])

section
variable {s : State} {v : Word} (h : regB s (aPcie 0x41) 47 = false) (hv : (bit v 1 || bit v 0) = true)
include h hv

theorem pcieCfgCtlWrite_sent (hb : BusBehind s) : pcieCfgCtlWrite s v = configSent s (bit v 1) := by
  rw [pcieCfgCtlWrite, if_neg (by rw [h, hv]; decide)]
  dsimp only
  rw [if_pos (by simpa [BusBehind] using hb), regFld_io]
  rfl

theorem pcieCfgCtlWrite_unsupported (hb : ¬BusBehind s) : pcieCfgCtlWrite s v = regFld s (aPcie 0x41) 46 44 1 := by
  rw [pcieCfgCtlWrite, if_neg (by rw [h, hv]; decide)]
  dsimp only
  rw [if_neg (by simpa [BusBehind] using hb)]

end

theorem usbEpCfgWrite_restart {s : State} {e : Nat} {v : Word} (h43 : bit v 43 = true) (hlo : 8 ≤ fld v 26 16)
    (hhi : fld v 26 16 ≤ 1024) : usbEpCfgWrite s e v =
      regFld (plainWrite s (aUsbEp e 0) (if e < 2 then setFld v 46 45 0 else v)) (aUsbEp e 3) 47 47 0 := by
  rw [usbEpCfgWrite, keepUnless_of (by simp [hlo, hhi])]
  refine if_pos ?_
  split
  · rw [bit_setFld _ _ (by decide) (by decide), if_neg (by decide)]
    exact h43
  · exact h43

theorem usbEpTailWrite_within {s : State} {rq : Requester} {e : Nat} {v : Word}
    (h : (fld v 15 0 + 65536 - regF s (aUsbEp e 3) 15 0) % 65536 ≤ 2 ^ regF s (aUsbEp e 1) 47 44) :
    usbEpTailWrite s rq e v = plainWrite s (aUsbEp e 2) v := if_neg (not_lt.2 h)

theorem usbEpTailWrite_beyond {s : State} {rq : Requester} {e : Nat} {v : Word}
    (h : 2 ^ regF s (aUsbEp e 1) 47 44 < (fld v 15 0 + 65536 - regF s (aUsbEp e 3) 15 0) % 65536) :
    usbEpTailWrite s rq e v = rqViolation s 9 rq true (aUsbEp e 2) := if_pos h

/-! ## The display (R656, R661) -/

section
variable {s : State} {rq : Requester} {o : Nat} {v : Word}

theorem dispOutCtlWrite_locked (h : regB s (aDispOut o 0) 47 = true) (ht : regF s (aDispOut o 4) 45 44 ≠ 3) :
    dispOutCtlWrite s rq o v = rqViolation s 9 rq true (aDispOut o 0) :=
  (if_neg (by simp [ht])).trans (if_pos h)

theorem dispOutCtlWrite_failed (h : regB s (aDispOut o 0) 47 = true) (ht : regF s (aDispOut o 4) 45 44 = 3) :
    dispOutCtlWrite s rq o v =
      if bit v 47 then regFld s (aDispOut o 4) 45 44 1 else regFld s (aDispOut o 0) 47 47 0 :=
  if_pos (by rw [show bit (regGet s (aDispOut o 0)) 47 = true from h, ht]; decide)

/-- A write of DISP_OUT_CTL of a disabled output, with every field within its values. -/
theorem dispOutCtlWrite_free (h : regB s (aDispOut o 0) 47 = false) (h1 : 1 ≤ fld v 45 43) (h4 : fld v 45 43 ≤ 4)
    (hl : bit v 46 = true ∨ fld v 45 43 ≠ 3) (hf : fld v 42 41 ≠ 3) (hlo : 80 ≤ fld v 36 24) (hhi : fld v 36 24 ≤ 4500) :
    dispOutCtlWrite s rq o v =
      if bit v 47 && timingBad s o (fld v 23 0) then rqViolation s 9 rq true (aDispOut o 0)
      else if bit v 47 then
        if bit v 46 then scanStart (regFld (plainWrite s (aDispOut o 0) v) (aDispOut o 4) 46 46 1) o
        else regFld (regFld (plainWrite s (aDispOut o 0) v) (aDispOut o 4) 45 44 1) (aDispOut o 4) 46 46 0
      else plainWrite s (aDispOut o 0) v := by
  have h : bit (regGet s (aDispOut o 0)) 47 = false := h
  rw [dispOutCtlWrite]
  dsimp only
  rw [if_neg (by simp [h]), if_neg (by simp [h]), keepUnless_of (v := v) (by simp [h1, h4, hl]),
    keepUnless_of (v := v) (decide_eq_true hf), keepUnless_of (v := v) (by simp [hlo, hhi])]
  rfl

/-- DISP_OUT_XFER as a transfer that starts leaves it. -/
def xferBegun (s : State) (o : Nat) (v : Word) : State :=
  regFld (plainWrite s (aDispOut o 5) v) (aDispOut o 5) 46 46 1

theorem dispXferWrite_busy (hv : bit v 47 = true) (h : regB s (aDispOut o 5) 46 = true) : dispXferWrite s o v = s :=
  (if_pos hv).trans (if_pos h)

theorem dispXferWrite_go (hv : bit v 47 = true) (h : regB s (aDispOut o 5) 46 = false) : dispXferWrite s o v =
    if bit v 42 && regB (xferBegun s o v) (aDispOut o 0) 47 && !inBlank (xferBegun s o v) o then
      { xferBegun s o v with disp := { s.disp with xferDue := s.disp.xferDue.set o true } }
    else sendXfer (xferBegun s o v) o := by
  have hd : (xferBegun s o v).disp = s.disp := (regFld_disp ..).trans (plainWrite_disp ..)
  refine (if_pos hv).trans ((if_neg (by simp [h])).trans ?_)
  dsimp only
  rw [← xferBegun, hd]

theorem sendXfer_xferBegun : sendXfer (xferBegun s o v) o =
    { xferBegun s o v with disp := { s.disp with
        xfers := s.disp.xfers ++ [(o, regGet (xferBegun s o v) (aDispOut o 5),
          (unpackBytes ((upto 3).map fun k => regGet (xferBegun s o v) (aDispOut o (6 + k))) 18).take
            (regF (xferBegun s o v) (aDispOut o 5) 4 0))]
        xferDue := s.disp.xferDue.set o false } } := by
  have hd : (xferBegun s o v).disp = s.disp := (regFld_disp ..).trans (plainWrite_disp ..)
  rw [sendXfer]
  dsimp only
  rw [hd]
  rfl

end

/-! ## DMA, power, mailboxes and the cores (R665, R669, R675, R681, R691, R692, R737, R767) -/

theorem dmaCtlWrite_busy {s : State} {rq : Requester} {n : Nat} {v : Word} (hv : bit v 47 = true)
    (h : regB s (aDma n 3) 47 = true) : dmaCtlWrite s rq n v = rqViolation s 9 rq true (aDma n 2) :=
  if_pos (by simp [hv, h])

/-- GO of a channel that is free and not paced, all of whose words may be moved (R767). -/
theorem dmaCtlWrite_go {s : State} {rq : Requester} {n : Nat} {v : Word} (hv : bit v 47 = true)
    (h : regB s (aDma n 3) 47 = false) (hp : bit v 46 = false) :
    let t := dmaLine (plainWrite s (aDma n 2) v) n
    let src := regF t (aDma n 0) 35 0
    let dst := regF t (aDma n 1) 35 0
    (∀ k < fld v 23 0, dmaPlace t (src + k) false = true ∧ dmaPlace t (dst + k) true = true) →
      dmaCtlWrite s rq n v = regFld (regFld (regFld (modDma t n fun _ => ⟨src, dst, fld v 23 0, false, 0⟩)
        (aDma n 3) 47 47 1) (aDma n 3) 45 44 0) (aDma n 3) 23 0 0 := by
  intro t src dst hw
  have hall (f : Nat → Bool) (hf : ∀ k < fld v 23 0, f k = true) : (upto (fld v 23 0)).all f = true :=
    List.all_eq_true.2 fun k hk => hf k (List.mem_range.1 hk)
  refine (if_neg (by simp [h])).trans ((if_pos hv).trans ?_)
  rw [if_neg (by simp [hp]), hp]
  rw [hall _ fun k hk => (hw k hk).1, hall _ fun k hk => (hw k hk).2]
  rfl

/-- A write of PWR_VOTE with GO whose FORCE and QUIESCENT bits its requester may set (R665, R669, R675). -/
theorem voteWrite_go {s : State} {rq : Requester} {v : Word} (hv : bit v 47 = true)
    (hl : rqLevel s rq = 3 ∨ (bit v 46 = false ∧ bit v 45 = false)) : voteWrite s rq v =
      let t := regFld s aPwrVote 15 0 (fld v 15 0)
      if regF t aPwrVote 43 42 ≠ 0 || s.power.startNext then
        { regFld t aPwrVote 44 44 1 with power := { s.power with pendingGo := some (bit v 46, bit v 45) } }
      else startVote t (bit v 46) (bit v 45) := by
  have h46 : (bit v 46 && decide (3 ≤ rqLevel s rq)) = bit v 46 := by rcases hl with hl | hl <;> simp [hl]
  have h45 : (bit v 45 && decide (3 ≤ rqLevel s rq)) = bit v 45 := by rcases hl with hl | hl <;> simp [hl]
  have hasks : ¬((bit v 47 && (bit v 46 || bit v 45)) && !decide (3 ≤ rqLevel s rq)) = true := by
    rcases hl with hl | hl <;> simp [hl]
  rw [voteWrite]
  dsimp only
  rw [if_neg hasks, h46, h45, if_neg (by simp [hv])]
  simp only [regFld_power]

theorem fld_setBit_disjoint (v : Word) {n hi lo : Nat} (b : Bool) (hw : hi < 48) (hd : n < lo ∨ hi < n) :
    fld (setBit v n b) hi lo = fld v hi lo := fld_setFld_disjoint _ _ le_rfl hw hd

theorem voteWrite_starts {s : State} {rq : Requester} {v w : Word} (hv : bit w 47 = true)
    (hl : rqLevel s rq = 3 ∨ (bit w 46 = false ∧ bit w 45 = false)) (hf : fld w 15 0 = fld v 15 0)
    (h0 : regF (regFld s aPwrVote 15 0 (fld v 15 0)) aPwrVote 43 42 = 0) (hn : s.power.startNext = false) :
    voteWrite s rq w = startVote (regFld s aPwrVote 15 0 (fld v 15 0)) (bit w 46) (bit w 45) := by
  rw [voteWrite_go hv hl, hf]
  exact if_neg (by simp [h0, hn])

theorem voteWrite_waits {s : State} {rq : Requester} {v w : Word} (hv : bit w 47 = true)
    (hl : rqLevel s rq = 3 ∨ (bit w 46 = false ∧ bit w 45 = false)) (hf : fld w 15 0 = fld v 15 0)
    (h0 : regF (regFld s aPwrVote 15 0 (fld v 15 0)) aPwrVote 43 42 ≠ 0) : voteWrite s rq w =
      { regFld (regFld s aPwrVote 15 0 (fld v 15 0)) aPwrVote 44 44 1 with
        power := { s.power with pendingGo := some (bit w 46, bit w 45) } } := by
  rw [voteWrite_go hv hl, hf]
  exact if_pos (by simp [h0])

theorem freqWrite_refused {s : State} {rq : Requester} {d : Nat} {v : Word}
    (h : bit (clockWord s d) 47 = false ∨ bit (clockWord s d) 46 = false ∨ fld v 23 0 < fld (clockWord s d) 45 24 ∨
      fld (clockWord s d) 23 0 < fld v 23 0) : freqWrite s rq d v = rqViolation s 6 rq true (aClkFreq d) := by
  refine if_pos ?_
  rcases h with h | h | h | h <;> simp [h]

theorem freqWrite_within {s : State} {rq : Requester} {d : Nat} {v : Word} (h47 : bit (clockWord s d) 47 = true)
    (h46 : bit (clockWord s d) 46 = true) (hlo : fld (clockWord s d) 45 24 ≤ fld v 23 0)
    (hhi : fld v 23 0 ≤ fld (clockWord s d) 23 0) (hd : d < 20 ∨ 24 < d) : freqWrite s rq d v =
      { plainWrite s (aClkFreq d) v with
        power := { s.power with pendFreq := d :: s.power.pendFreq.filter (· ≠ d) } } := by
  refine (if_neg (by simp [h47, h46, hlo, hhi])).trans ((if_neg ?_).trans ?_)
  · simp only [Bool.and_eq_true, decide_eq_true_eq]
    omega
  · dsimp only
    rw [plainWrite_power]

theorem policyWrite_within {s : State} {rq : Requester} {d : Nat} {v : Word}
    (h : fld v 41 40 ≤ Nat.min (if runOnly d then 0 else 2) (regF s (aPwrPolicy d) 1 0)) (h3 : fld v 41 40 ≠ 3) :
    policyWrite s rq d v = regFld s (aPwrPolicy d) 41 40 (fld v 41 40) := (if_neg h3).trans (if_neg (not_lt.2 h))

theorem policyWrite_beyond {s : State} {rq : Requester} {d : Nat} {v : Word}
    (h : Nat.min (if runOnly d then 0 else 2) (regF s (aPwrPolicy d) 1 0) < fld v 41 40) (h3 : fld v 41 40 ≠ 3) :
    policyWrite s rq d v = rqViolation s 6 rq true (aPwrPolicy d) := (if_neg h3).trans (if_pos h)

theorem mbxCmdWrite_refused {s : State} {p level : Nat} {v : Word}
    (h : served s p = false ∨ (port s p).posted = true ∨ (port s p).ready = true) :
    mbxCmdWrite s p level v = mbxFlag s p 46 true := by
  refine if_pos ?_
  rcases h with h | h | h <;> simp [h]

theorem mbxCmdWrite_posted {s : State} {p level : Nat} {v : Word} (hs : served s p = true)
    (hp : (port s p).posted = false) (hr : (port s p).ready = false) : mbxCmdWrite s p level v =
      let t := plainWrite s (aMbx p 0) v
      postCommand t p (if p = 0 then level else 3) (v &&& mask 47 32) ((upto 8).map fun k => regGet t (aMbx p (1 + k)))
        ((upto 683).map fun k => regGet t (aMbx p (0x400 + k))) := if_neg (by simp [hs, hp, hr])

section
variable {s : State} {rq : Requester} {c : Nat} {v : Word}

theorem rstCoreWrite_held (h : s.sys.held.contains c = true) : rstCoreWrite s rq c v = plainWrite s (aRstCore c) v :=
  if_pos (by rw [plainWrite_sys, h]; simp)

variable (hv : bit v 47 = true) (h : s.sys.held.contains c = false)
include hv h

theorem rstCoreWrite_running (hc : coreState (plainWrite s (aRstCore c) v) c ≠ 0) :
    rstCoreWrite s rq c v = rqViolation (plainWrite s (aRstCore c) v) 9 rq true (aRstCore c) := by
  refine (if_neg ?_).trans (if_pos hc)
  rw [plainWrite_sys, h, hv]
  decide

theorem rstCoreWrite_start {k : CoreId} (hc : coreState (plainWrite s (aRstCore c) v) c = 0)
    (hk : coreOfAgent c = some k) : rstCoreWrite s rq c v =
      (coreToReset (plainWrite s (aRstCore c) v) k .running).modCore k fun q =>
        { q with pc := w48 (regF (plainWrite s (aRstCore c) v) (aRstCore c) 36 0) } := by
  refine (if_neg ?_).trans ((if_neg (not_not.2 hc)).trans ?_)
  · rw [plainWrite_sys, h, hv]
    decide
  · rw [hk]

end

theorem coreOfAgent_app (c : Fin 16) : coreOfAgent c = some (.app c) := by
  revert c; decide

end Sys2Proof.Machine
end

section
/-! The register commands of the units, clause by clause. -/

namespace Sys2Proof.Machine

open Sys2Proof

theorem next_of_write {w t u : State} (hw : w = t) (ht : t = u) :
    (.next w : Host.Outcome State Fault Refusal) = .next u := by rw [hw, ht]

/-- Settles O51: for each register the function of the model that takes its write, and that function's own lemmas. The order
of SAVE's checks, the time that a gate base names, what COMMIT takes, output control after a failed training, DISAGREE and
the words of DMA are choices of the model (log entries 77, 81, 84, 90, 105 and 115). -/
theorem deviceCommands : Obligations.DeviceCommands := by
  unfold Obligations.DeviceCommands
  intro s rq v u begins
  refine ⟨fun i h => ?instances, fun t i hl => ?jobs, fun i j => ?queues, fun q h he => ?records, fun p h => ?swap,
    fun p h => ?mdio, fun p h => ?gates, fun n h => ?recover, fun n h => ?uartWrite, fun n hc hv => ?uartRead,
    fun h => ?config, fun e h => ?usbRestart, fun e h => ?usbTail, fun h => ?commit, fun o h => ?outputs, fun o h => ?transfers,
    fun n h => ?dma, fun h => ?votes, fun d h => ?clocks, fun d h => ?policies, fun p h => ?mailboxes, fun p h => ?acks,
    fun c h => ?cores, fun h => ?hold⟩
  case instances =>
    intro st no
    have hrun := exec_run_admitted h
    have hstop := exec_stop_admitted h
    have hfreeze := exec_freeze_admitted h
    have hthaw := exec_thaw_admitted h
    have hsave := exec_save_admitted h
    have hsend := exec_send_admitted h
    have hrestore := exec_restore_admitted h
    have hmbox := exec_mbox_admitted h
    refine ⟨fun h0 he hr => ?_, fun h0 hn => ?_, fun h4 => ?_, fun h0 h4 => ?_, fun h0 => ?_, fun h0 => ?_, fun h1 => ?_,
      fun h1 => ?_, fun h3 => ?_, fun h3 => ⟨?_, ?_, ?_⟩, fun h3 => ⟨fun hp => ?_, fun hp => ?_⟩, fun h3 => ?_, fun h0 => ?_,
      fun h0 => ⟨?_, ?_⟩, fun h0 => ?_⟩
    · rw [if_pos h0] at hrun
      exact hrun.trans (congrArg Host.Outcome.next (runInst_off (s := endJob u i) rq h0 he hr))
    · rw [if_pos h0] at hrun
      exact ⟨_, hrun.trans (congrArg Host.Outcome.next (runInst_refused (s := endJob u i) rq h0 hn)), rfl⟩
    · rw [if_neg fun h0 => absurd (h0.symm.trans h4) (by decide)] at hrun
      exact hrun.trans (congrArg Host.Outcome.next (runInst_restored rq h4))
    · rw [hrun, if_neg h0, runInst_other rq h0 h4]
    · rw [hstop, if_neg h0]
      rfl
    · rw [hstop, if_pos h0]
    · rw [hfreeze, if_pos h1]
    · rw [hfreeze, if_neg h1]
    · rw [hthaw, if_pos h3]
    · rw [hthaw, if_neg h3]
    · rw [hsave, if_neg h3]
    · rw [hsend, if_neg h3]
    · rw [hsave, if_pos h3]
      exact congrArg (fun x => Host.Outcome.next (beginJob x i)) (saveInst_placed hp)
    · rw [hsave, if_pos h3]
      exact congrArg (fun x => Host.Outcome.next (beginJob x i)) (saveInst_misplaced hp)
    · rw [hsend, if_pos h3]
      rfl
    · rw [hrestore, if_pos h0]
      rfl
    · rw [hrestore, if_neg h0]
    · rw [hmbox, if_neg h0]
    · rw [hmbox, if_pos h0]
  case jobs =>
    refine ⟨fun hj w => ⟨fun hw => ?_, fun hw => ?_⟩,
      fun hj => ⟨fun hp => ?_, fun hp ws w hw => ⟨fun hg => ?_, fun hb => ?_⟩⟩,
      fun hj => ⟨fun hp => ?_, fun hp w x hw => ⟨fun hn => ?_, fun hn ws z hz => ⟨fun he => ?_, fun he => ?_⟩⟩⟩⟩
    · exact (pinnaJob_save hl hj).trans (runJob_done (instWork_done (writeRecord_done hw)))
    · exact (pinnaJob_save hl hj).trans (runJob_held (instWork_held (writeRecord_held hw)))
    · exact (pinnaJob_send hl hj).trans (runJob_done (instWork_done (sendInst_misplaced hp)))
    · have hr := sendInst_read (s := jobBegun t (jobInst i)) hp hw
      rw [if_pos (by simpa using hg)] at hr
      exact (pinnaJob_send hl hj).trans (runJob_done (instWork_done hr))
    · have hr := sendInst_read (s := jobBegun t (jobInst i)) hp hw
      rw [if_neg (by simpa using hb)] at hr
      exact (pinnaJob_send hl hj).trans (runJob_done (instWork_done hr))
    · exact (pinnaJob_restore hl hj).trans (runJob_done (instWork_done (restoreInst_misplaced hp)))
    · exact (pinnaJob_restore hl hj).trans (runJob_done (instWork_done (restoreInst_too_long hp hw hn)))
    · have hr := restoreInst_read (s := jobBegun t (jobInst i)) hp hw hn hz
      rw [if_pos he] at hr
      exact (pinnaJob_restore hl hj).trans (runJob_done (instWork_done hr))
    · have hr := restoreInst_read (s := jobBegun t (jobInst i)) hp hw hn hz
      rw [if_neg (not_not.2 he)] at hr
      exact (pinnaJob_restore hl hj).trans (runJob_done (instWork_done hr))
  case queues =>
    have hj : j % 256 < 256 := Nat.mod_lt _ (by decide)
    refine ⟨fun a ha h => ⟨fun h0 => ?_, fun q h0 hq => ⟨fun hv => ?_, fun hv => ?_⟩⟩, fun q h0 h hq => ?_⟩
    · subst ha
      exact next_of_write (writeCmd_pqTail v hj h) (pqTailWrite_absent h0)
    · subst ha
      exact next_of_write (writeCmd_pqTail v hj h) (pqTailWrite_within h0 hq hv)
    · subst ha
      exact next_of_write (writeCmd_pqTail v hj h) (pqTailWrite_beyond h0 hq hv)
    · exact next_of_write (writeCmd_pqCtl _ hj h) (pqCtlWrite_restart h0 hq (bit_setBit_same v true))
  case records =>
    have hw := writeCmd_qCfg v h
    refine ⟨fun hv => next_of_write hw (qCfgWrite_disabled rq he hv), fun hv => ⟨fun hq => ?_, fun hq => ?_⟩⟩
    · exact next_of_write hw ((qCfgWrite_enabling rq he hv).1 hq)
    · exact next_of_write hw ((qCfgWrite_enabling rq he hv).2 hq)
  case swap =>
    intro w h46 hlo hhi h47
    exact next_of_write (writeCmd_ethCtl _ h) (ethCtlWrite_swap (bit_setBit_same _ true) h46 hlo hhi h47)
  case mdio =>
    exact ⟨fun hb => next_of_write (writeCmd_mdio v h) (mdioWrite_busy v hb),
      fun hb hr => next_of_write (writeCmd_mdio v h) (mdioWrite_sent v hb hr),
      fun hb hr => next_of_write (writeCmd_mdio v h) (mdioWrite_due v hb hr)⟩
  case gates =>
    have ha : aEth p 2 = 0x8000C0002 + 0x200 * p := by rw [aEth]; omega
    intro ahead from_
    rw [exec_registerWrite_space (by rw [ha, regBase]; omega) (by rw [ha]; omega), writeCmd_gclBase v h, gclBaseWrite_eq]
    rfl
  case recover =>
    exact next_of_write (writeCmd_canCtl _ h) (if_pos (bit_setBit_same _ true))
  case uartWrite => exact congrArg Host.Outcome.next (writeCmd_uartData v h)
  case uartRead =>
    have hr := exec_uartDataRead hc hv
    refine ⟨fun he => ?_, fun c l he => ?_⟩
    · rw [hr, uartTake, he]
    · rw [hr, uartTake, he]
  case config =>
    intro bus sec sub sent
    have hrd := writeCmd_pcieCfgCtl 2 h
    have hwr := writeCmd_pcieCfgCtl 1 h
    refine ⟨fun hb => ⟨?_, ?_⟩, fun hb hbus => ⟨?_, ?_⟩, fun hb hbus => ⟨?_, ?_⟩⟩
    · exact next_of_write hrd (pcieCfgCtlWrite_busy 2 hb)
    · exact next_of_write hwr (pcieCfgCtlWrite_busy 1 hb)
    · exact next_of_write hrd (pcieCfgCtlWrite_sent hb (by decide) hbus)
    · exact next_of_write hwr (pcieCfgCtlWrite_sent hb (by decide) hbus)
    · exact next_of_write hrd (pcieCfgCtlWrite_unsupported hb (by decide) hbus)
    · exact next_of_write hwr (pcieCfgCtlWrite_unsupported hb (by decide) hbus)
  case usbRestart =>
    intro w hlo hhi
    exact next_of_write (writeCmd_usbEpCfg _ h) (usbEpCfgWrite_restart (bit_setBit_same _ true) hlo hhi)
  case usbTail =>
    exact ⟨fun hv => next_of_write (writeCmd_usbEpTail v h) (usbEpTailWrite_within hv),
      fun hv => next_of_write (writeCmd_usbEpTail v h) (usbEpTailWrite_beyond hv)⟩
  case commit => exact next_of_write (writeCmd_dispCtl _ h) (if_pos (bit_setBit_same v true))
  case outputs =>
    have hw := writeCmd_dispOutCtl v h
    refine ⟨fun he ht => next_of_write hw (dispOutCtlWrite_locked he ht),
      fun he ht => next_of_write hw (dispOutCtlWrite_failed he ht),
      fun he h1 h4 hn hf hlo hhi => ?_⟩
    have hfree := dispOutCtlWrite_free (rq := rq) he h1 h4 hn hf hlo hhi
    refine ⟨fun hv => ?_, fun hv hb => ?_, fun hv hb hd => ?_, fun hv hb hd => ?_⟩
    · rw [if_neg (by simp [hv]), if_neg (by simp [hv])] at hfree
      exact next_of_write hw hfree
    · rw [if_pos (by rw [hv, hb]; rfl)] at hfree
      exact next_of_write hw hfree
    · rw [if_neg (by rw [hb, Bool.and_false]; decide), if_pos hv, if_pos hd] at hfree
      exact next_of_write hw hfree
    · rw [if_neg (by rw [hb, Bool.and_false]; decide), if_pos hv, if_neg (by simp [hd])] at hfree
      exact next_of_write hw hfree
  case transfers =>
    have hw := writeCmd_dispXfer (setBit v 47 true) h
    have h47 : bit (setBit v 47 true) 47 = true := bit_setBit_same v true
    have h42 : bit (setBit v 47 true) 42 = bit v 42 := bit_setBit_other v true (by decide) (by decide)
    refine ⟨fun hb => next_of_write hw (dispXferWrite_busy h47 hb), fun hb => ?_⟩
    have hgo := next_of_write hw (dispXferWrite_go h47 hb)
    rw [h42] at hgo
    intro t video data
    refine ⟨fun hv => ?_, fun hv => ?_⟩
    · obtain ⟨h1, h2, h3⟩ := hv
      rw [if_pos (by
        rw [h1, show regB (xferBegun (bridged s) o (setBit v 47 true)) (aDispOut o 0) 47 = true from h2,
          show inBlank (xferBegun (bridged s) o (setBit v 47 true)) o = false from h3]
        rfl)] at hgo
      exact hgo
    · rw [if_neg ?_, sendXfer_xferBegun] at hgo
      · exact hgo
      · intro hx
        simp only [Bool.and_eq_true, Bool.not_eq_true'] at hx
        obtain ⟨⟨h1, h2⟩, h3⟩ := hx
        exact hv ⟨h1, h2, h3⟩
  case dma =>
    have hw := writeCmd_dmaCtl (setBit v 47 true) h
    have h47 : bit (setBit v 47 true) 47 = true := bit_setBit_same v true
    have h46 : bit (setBit v 47 true) 46 = bit v 46 := bit_setBit_other v true (by decide) (by decide)
    have hn : fld (setBit v 47 true) 23 0 = fld v 23 0 := fld_setBit_disjoint v true (by decide) (by decide)
    refine ⟨fun hb => next_of_write hw (dmaCtlWrite_busy h47 hb), fun hb hp hk => ?_⟩
    have hgo := dmaCtlWrite_go (rq := rq) h47 hb (h46.trans hp)
    rw [hn] at hgo
    exact next_of_write hw (hgo hk)
  case votes =>
    have hf : fld (setBit v 47 true) 15 0 = fld v 15 0 := fld_setBit_disjoint v true (by decide) (by decide)
    have hf' (n : Nat) (hn : 15 < n) : fld (setBit (setBit v 47 true) n true) 15 0 = fld v 15 0 :=
      (fld_setBit_disjoint _ true (by decide) (.inr hn)).trans hf
    have h47 : bit (setBit v 47 true) 47 = true := bit_setBit_same v true
    have e46 : bit (setBit v 47 true) 46 = bit v 46 := bit_setBit_other v true
    have e45 : bit (setBit v 47 true) 45 = bit v 45 := bit_setBit_other v true
    have hl (hp : rqLevel s rq = 3) : rqLevel u rq = 3 := (rqLevel_bridged s rq).trans hp
    refine ⟨fun h0 hn => ⟨fun h46 h45 => ?_, fun hp h45 => ?_, fun hp h46 => ?_⟩, fun h0 h46 h45 => ?_⟩
    · have hs := voteWrite_starts (rq := rq) h47 (.inr ⟨e46.trans h46, e45.trans h45⟩) hf h0 hn
      rw [e46, e45, h46, h45] at hs
      exact next_of_write (writeCmd_pwrVote _ h) hs
    · have hs := voteWrite_starts (w := setBit (setBit v 47 true) 46 true) ((bit_setBit_other _ true).trans h47)
        (.inl (hl hp)) (hf' 46 (by decide)) h0 hn
      rw [bit_setBit_same, bit_setBit_other, e45, h45] at hs
      exact next_of_write (writeCmd_pwrVote _ h) hs
    · have hs := voteWrite_starts (w := setBit (setBit v 47 true) 45 true) ((bit_setBit_other _ true).trans h47)
        (.inl (hl hp)) (hf' 45 (by decide)) h0 hn
      rw [bit_setBit_same, bit_setBit_other, e46, h46] at hs
      exact next_of_write (writeCmd_pwrVote _ h) hs
    · have hs := voteWrite_waits (rq := rq) h47 (.inr ⟨e46.trans h46, e45.trans h45⟩) hf h0
      rw [e46, e45, h46, h45] at hs
      exact next_of_write (writeCmd_pwrVote _ h) hs
  case clocks =>
    have hw := writeCmd_clkFreq v h
    exact ⟨fun hv => next_of_write hw (freqWrite_refused hv),
      fun h47 h46 hlo hhi hd => next_of_write hw (freqWrite_within h47 h46 hlo hhi hd)⟩
  case policies =>
    have hw := writeCmd_pwrPolicy v h
    exact ⟨fun hv h3 => next_of_write hw (policyWrite_within hv h3),
      fun hv h3 => next_of_write hw (policyWrite_beyond hv h3)⟩
  case mailboxes =>
    have hw := writeCmd_mbxCmd v h
    refine ⟨fun hv => next_of_write hw (mbxCmdWrite_refused hv), fun hs hp hr => ?_⟩
    refine next_of_write hw ((mbxCmdWrite_posted hs hp hr).trans ?_)
    rw [rqLevel_bridged]
    simp only [Fin.val_eq_zero_iff]
  case acks =>
    exact next_of_write (writeCmd_mbxAck v h) (if_congr (by simp [u]) rfl rfl)
  case cores =>
    have hw := writeCmd_rstCore (setBit v 47 true) h
    have h47 : bit (setBit v 47 true) 47 = true := bit_setBit_same v true
    exact ⟨fun hh => next_of_write hw (rstCoreWrite_held (s := u) hh),
      fun hh hc => next_of_write hw (rstCoreWrite_start (s := u) h47 hh hc (coreOfAgent_app c)),
      fun hh hc => next_of_write hw (rstCoreWrite_running (s := u) h47 hh hc)⟩
  case hold => exact congrArg Host.Outcome.next (writeCmd_dbgHold v h)

end Sys2Proof.Machine
end
